-- ==== Sys2Proof/Word.lean ====
section
/-! DEFINITION. The machine's words (R13, R18): a byte, a 64-bit register word, and nothing else. -/

namespace Sys2Proof

/-- One byte of memory. -/
abbrev Byte := BitVec 8

/-- One 64-bit register or shape word (R13). -/
abbrev Word := BitVec 64

end Sys2Proof
end

