-- ==== Sys2Proof/Types/Unit.lean ====
section
/-! DEFINITION. Data of the compute unit, the seat network and the rigs (chapters 02-06): what beats, operand-store
lines, planes, entries in flight, circuits, rigs and waves hold. -/

namespace Sys2Proof.Machine

/-- 64 bytes: a memory line, an operand-store line, a beat's payload. -/
abbrev Line := BitVec 512

/-- A beat: 64 bytes with flags for epoch, poison, null, predicate and marker (R34, R170), and the plane index of its source circuit in its slot
group (Table 5.3). -/
structure Beat where
  data : Line := 0
  epoch : Nat := 0
  poison : Bool := false
  null : Bool := false
  pred : Bool := false
  mark : Bool := false
  member : Nat := 0
deriving DecidableEq, Repr, Inhabited

/-- A beat as it reaches a unit, and what the last link of its circuit did to the word (R126): 0 nothing, 1 an error corrected, 2 the payload lost,
3 the tag lost. -/
structure BeatIn where
  beat : Beat := {}
  err : Nat := 0
deriving DecidableEq, Repr

/-- An operand-store line: data, format tag (R68), poison. -/
structure OpLine where
  data : Line := 0
  tag : Nat := 0
  poison : Bool := false
deriving DecidableEq, Repr, Inhabited

/-- What an entry in flight holds: the matrix, vector and special-function engines and, for the classes without one
of these, the path of its own class (Topsoil moves, port moves, scatter). -/
inductive Engine where
  | matrix
  | vector
  | sfn
  | path (opclass : Nat)
deriving DecidableEq, Repr

/-- A fired entry that has not finished (R48-R50): its engines, the operand-store lines it reads and writes, the ports it
streams from, the rounds of beats (or Topsoil lines) still to take and those taken, the beats each output port still owes, its Topsoil
address, the PRED flag of its beats (R124), the predicate PRED_SRC as it stood at the catch (R53). -/
structure InFlight where
  id : Nat
  plane : Nat
  entry : Nat
  opclass : Nat
  engines : List Engine
  reads : List (Nat × Nat)
  writes : List (Nat × Nat)
  suppressed : Bool
  inPorts : List Nat
  inLeft : Nat
  taken : Nat
  outLeft : List (Nat × Nat)
  passPending : Bool
  ts : Nat
  pred : Bool
  sel : Bool
deriving DecidableEq, Repr, Inhabited

/-- What the unit reports as an entry finishes (Table 2.15): nothing, a self-check mismatch of the engine, an uncorrectable or a corrected
line of the operand store, an uncorrectable bit of a plane's configuration. -/
inductive EngineEnd where
  | good
  | mismatch
  | lineUe (line : Nat)
  | lineCe (line : Nat)
  | configUe (plane : Nat)
deriving DecidableEq, Repr

/-- The physical state of one rig plane of a unit: two configuration banks (a 3,072-byte record each, as a number,
0 when empty, R156, R166), the sequencer's position, counters, limits and predicates (R37-R46, R53), the shape words asked for (counter, since
when, address) and read with VALID 0 (counter, when last), the mode of the run (R56) and the wave's marks (R172-R174). -/
structure Plane where
  valid : Bool := false
  ctx : Nat := 0
  epoch : Nat := 0
  rig : Nat := 0
  eligible : Bool := true
  cfg : Nat := 0
  idle : Nat := 0
  idleReady : Bool := false
  bank : Nat := 0
  tsBase : Nat := 0
  idleTsBase : Nat := 0
  pc : Nat := 0
  inRun : Bool := false
  committed : Bool := false
  runs : Nat := 0
  ctrs : List Nat := []
  limits : List (Option Nat) := []
  nextLimits : List (Option Nat) := []
  shapeSince : List (Nat × Nat × Nat) := []
  shapeTried : List (Nat × Nat) := []
  preds : Nat := 0
  static : Bool := true
  wavePend : Bool := false
  joinStall : Nat := 0
  joinReported : Bool := false
deriving DecidableEq, Repr, Inhabited

/-- A pass between its products and its results (R57): each output rounded or packed, with its flags and poison. -/
structure PassSt where
  id : Nat
  plane : Nat
  entry : Nat
  results : List (Nat × Nat × Bool)
deriving DecidableEq, Repr

/-- What one unit holds beside its registers, planes, operand store and ports; `moved` counts beats under the current fold entry,
`periodNs` the ns charged to each context since the last rebuild (R161, R168, R169). -/
structure UnitSt where
  inflight : List InFlight := []
  nextId : Nat := 1
  pass : Option PassSt := none
  resBuf : Option Nat := none
  folds : List (Nat × Nat) := []
  yielded : Bool := false
  periodNs : List (Nat × Nat) := []
  moved : Nat := 0
  retired : Bool := false
  demandAt : Nat := 0
  demandMHz : Nat := 600
  thermalMHz : Nat := 1500
  raisedAt : Nat := 0
  tj : Nat := 0
deriving DecidableEq, Repr, Inhabited

/-- One end of a circuit at a unit's port of a plane: an input's queue of beats not yet consumed (oldest first), the credits granted beyond its
buffer and the spill lines that hold the last beats of its queue (R144); an output's credits and the beats that wait to leave, each with the
entry that emitted it. -/
structure PortSt where
  queue : List Beat := []
  credits : Nat := 0
  pending : List (Nat × Beat) := []
  stall : Nat := 0
  stallReported : Bool := false
  spilled : Nat := 0
  spillAt : List Nat := []
deriving DecidableEq, Repr, Inhabited

/-- A switch of the seat network (R127, R128): the strokes it has begun, the inputs whose slot 0 of its present stroke has arrived and those whose
slot 0 of the next has (a neighbour may be one stroke ahead), the inputs declared down, and since when each waits. -/
structure SwitchSt where
  stroke : Nat := 0
  arrived : Nat := 0
  early : Nat := 0
  down : Nat := 0
  since : Nat := 0
deriving DecidableEq, Repr, Inhabited

end Sys2Proof.Machine
end

