-- ==== Sys2Proof/Types/Collective.lean ====
section
/-! DEFINITION. Collectives (chapter 14): descriptors, keys, instances, frame headers. -/

namespace Sys2Proof.Machine

/-- A member entry (Table 14.2). -/
structure Member where
  module : Nat
  altValid : Bool
  alt : Nat
  land : Nat
  dst : Nat
deriving DecidableEq, Repr, Inhabited

/-- A collective descriptor with its member list (Tables 14.1, 14.2); `crc` is LIST_CRC, `rank` this module's. -/
structure CollDesc where
  op : Nat
  redop : Nat
  dtype : Nat
  outFmt : Nat
  narrow : Nat
  silentEn : Bool
  replayOk : Bool
  seat : Nat
  n : Nat
  root : Nat
  collId : Nat
  count : Nat
  segKib : Nat
  src : Nat
  list : Nat
  silentAddr : Nat
  needNs : Nat
  timeoutUs : Nat
  members : List Member
  crc : Nat
  rank : Nat
deriving DecidableEq, Repr, Inhabited

/-- What names a key within its context (R407): COLL_ID and LIST_CRC as one number. -/
def keyOf (collId crc : Nat) : Nat := collId + crc * 2 ^ 16
def CollDesc.key (d : CollDesc) : Nat := keyOf d.collId d.crc

/-- A key on this member (R407, R421): the next SEQ, segments sent to each owner and folded from each sender under it by the instances that
completed, the last descriptor launched. -/
structure CollKey where
  ctx : Nat
  desc : CollDesc
  seq : Nat := 0
  sent : List (Nat × Nat) := []
  folded : Nat := 0
deriving DecidableEq, Repr

/-- A frame header (Table 14.4), and the virtual address at which it landed. -/
structure CollHdr where
  magic : Nat
  collId : Nat
  phase : Nat
  zero : Bool
  ctx : Nat
  seq : Nat
  segment : Nat
  src : Nat
  dst : Nat
  crc : Nat
  count : Nat
  types : Nat
  ops : Nat
  n : Nat
  first : Nat
  elems : Nat
  at_ : Nat := 0
deriving DecidableEq, Repr

/-- The key a header names. -/
def CollHdr.key (h : CollHdr) : Nat := keyOf h.collId h.crc

/-- A frame as it arrives (R419): the virtual address at which it landed, its bytes. -/
structure FrameIn where
  va : Nat
  bytes : List Nat
deriving DecidableEq, Repr

/-- A launch that waits for its silent shape word (R416): context, command, when it was read first and last. -/
structure CollWait where
  ctx : Nat
  ring : Nat
  cmd : Nat
  since : Nat
  last : Nat
deriving DecidableEq, Repr

/-- A header that follows its data once that is acknowledged (R418): destination, header, the data's virtual range. -/
structure CollSend where
  dest : Nat
  va : Nat
  hdr : CollHdr
  lo : Nat
  hi : Nat
deriving DecidableEq, Repr

/-- An instance running on this member: its key (context, COLL_ID, LIST_CRC), command, SEQ, silence; segments sent to and released by each owner and
folded from each rank in it, the accumulators of the chunk it owns with their poison, joins heard, gathers sent and got, whether its own
result is written, headers that wait. -/
structure CollInst where
  ctx : Nat
  desc : CollDesc
  seq : Nat
  ring : Nat
  cmd : Nat
  at_ : Nat
  silent : Bool
  sent : List (Nat × Nat) := []
  released : List (Nat × Nat) := []
  folded : List (Nat × Nat) := []
  acc : List (Option Nat × Bool) := []
  joins : List Nat := []
  gatherSent : List Nat := []
  gatherGot : List Nat := []
  wrote : Bool := false
  sends : List CollSend := []
deriving DecidableEq, Repr

/-- Collectives of the module: keys, instances, frames not yet used, joins for instances not yet launched (context, key, SEQ, rank),
the keys of the instances completed since the last step boundary, launches that wait for a shape word, the lists rewritten for lost members since that
boundary (R426). -/
structure CollSt where
  keys : List CollKey := []
  insts : List CollInst := []
  frames : List CollHdr := []
  joins : List (Nat × Nat × Nat × Nat) := []
  recent : List (Nat × Nat) := []
  waits : List CollWait := []
  subst : List (Nat × CollDesc) := []
deriving DecidableEq, Repr, Inhabited

end Sys2Proof.Machine
end

