-- ==== Sys2Proof/Types/Error.lean ====
section
/-! DEFINITION. Error records, photo-finish snapshots and the logbook (chapter 19). -/

namespace Sys2Proof.Machine

/-- The scopes of Table 19.1. -/
inductive Scope where
  | none
  | request (handle : Nat)
  | context (ctx : Nat)
  | ring (r : Nat)
  | module
  | pair
deriving DecidableEq, Repr

/-- What a raising block hands over (R547): its block code and fault number, the severity its table gives, the scope, the
context concerned, where, and the first-fault image; the end code of a request (Table 11.5) or the halt code of a ring
(Table 15.4) that its action uses. -/
structure Report where
  block : Nat
  fault : Nat
  sev : Nat
  scope : Scope
  ctx : Option Nat := none
  whereKind : Nat := 0
  whereIs : Nat := 0
  info : Nat := 0
  endCode : Nat := 0
  haltCode : Nat := 0
deriving DecidableEq, Repr

/-- An error record (Table 19.3), its CHECK aside, which is computed when the record is read. -/
structure ErrRec where
  time : Nat := 0
  sev : Nat := 0
  raw : Nat := 0
  esc : Bool := false
  absorbed : Bool := false
  block : Nat := 0
  fault : Nat := 0
  scope : Scope := .none
  ctx : Option Nat := none
  whereKind : Nat := 0
  whereIs : Nat := 0
  info : Nat := 0
  seq : Nat := 0
deriving DecidableEq, Repr

/-- A scheduled photo-finish trigger (R557). -/
structure Trigger where
  id : Nat
  target : Nat
  scope : Nat
  slice : Nat
  source : Nat
  late : Bool
deriving DecidableEq, Repr

/-- A latched shadow set (R558, R559): the trigger, the latch time, the registers as latched (key and value), seats asleep, whether only the
always-on blocks latched (M3), triggers merged into it and skipped since the last header. -/
structure Shadow where
  trig : Trigger
  time : Nat
  regs : List (Nat × Word)
  asleep : Nat
  standby : Bool
  merged : Nat
  skipped : Nat
deriving DecidableEq, Repr

/-- A packed snapshot: what was latched, from which its records are read (Table 19.6), and whether the host's copy was cut. -/
structure Snapshot where
  shadow : Shadow
  trunc : Bool
deriving DecidableEq, Repr

/-- A logbook record (R563): kind, flags and body. -/
structure LogRec where
  seq : Nat
  powerOn : Nat
  calendar : Nat
  calValid : Bool
  deferred : Bool
  kind : Nat
  body : List Nat
deriving DecidableEq, Repr

/-- The error machinery's own state (R546, R549, R551): the ring's slots, the backlog, the record sequence, the scopes being
handled with their severities. -/
structure ErrSt where
  slots : List (Nat × ErrRec) := []
  backlog : List ErrRec := []
  seq : Nat := 0
  handling : List (Scope × Nat) := []
  fenceAt : Option Nat := none
deriving DecidableEq, Repr, Inhabited

/-- The photo finish (R557-R560): triggers numbered, scheduled and skipped, the latches that await packing, the store's slots, and of the latest latch
the time from which a target shares it and its own time. -/
structure SnapSt where
  count : Nat := 0
  scheduled : List Trigger := []
  shadows : List Shadow := []
  slots : List (Nat × Snapshot) := []
  newest : Nat := 0
  skipped : Nat := 0
  last : Option (Nat × Nat) := none
deriving DecidableEq, Repr, Inhabited

/-- The logbook (R562-R566): the journal (oldest first), records that wait in the Keel, this second's accepted count and those suppressed by
kind, sectors bad, the records that masters (by number) are fetching and what each fetched, when PERIODIC and the daily records were last written, whether the calendar is
valid (since when), the ledger's values by register key and its saves, the junction's last minimum and maximum, whether it has risen, the peak
since the last PERIODIC, the energy not yet a kJ (mJ) and the ms counted, the second that `accepted` counts, errors of each stack since the last HBM records. -/
structure LogSt where
  journal : List LogRec := []
  buffered : List LogRec := []
  nextSeq : Nat := 1
  accepted : Nat := 0
  suppressed : List (Nat × Nat) := []
  badSectors : Nat := 0
  fetch : List (Nat × Nat) := []
  fetched : List (Nat × Option LogRec) := []
  lastPeriodic : Nat := 0
  lastDaily : Nat := 0
  calBase : Option Nat := none
  ledger : List (Nat × Word) := []
  ledgerSaves : Nat := 0
  tjMin : Option Nat := none
  tjMax : Nat := 0
  tjRisen : Bool := false
  tjPeak : Nat := 0
  energyMj : Nat := 0
  energyMs : Nat := 0
  second : Nat := 0
  stackCe : List (Nat × Nat) := []
  stackUe : List (Nat × Nat) := []
deriving DecidableEq, Repr, Inhabited

end Sys2Proof.Machine
end

