-- ==== Sys2Proof/Types/Memory.lean ====
section
/-! DEFINITION. The memory tiers and the stream engines (chapters 07 and 08): page tables, frame tags, shootdowns,
migrations, far-memory ports, stream descriptors, instances and feed rings. -/

namespace Sys2Proof.Machine

/-- A page table entry (Table 7.2): ADDR as a full Dwezin address; `big` says that it stands at L2, `va` the address its place in
the tree translates, which are no fields of the entry. -/
structure Pte where
  valid : Bool := false
  leaf : Bool := false
  read : Bool := false
  write : Bool := false
  migrating : Bool := false
  shared : Bool := false
  addr : Nat := 0
  gen : Nat := 0
  tier : Nat := 0
  place : Nat := 0
  ctx : Nat := 0
  xfer : Bool := false
  big : Bool := false
  va : Nat := 0
deriving DecidableEq, Repr, Inhabited

/-- A frame tag (Table 7.3), with the times of the corrected errors that count towards retirement (R218), the periods its writes were
quiet, and those TOP_MODULE has held under a heat of PROMOTE_T (R204). `kind` is the code of Table 7.3. -/
structure FrameTag where
  ctx : Nat := 0
  gen : Nat := 0
  kind : Nat := 0
  shared : Bool := false
  heatR : Nat := 0
  heatW : Nat := 0
  topSeat : Nat := 0
  topModule : Nat := 0
  idle : Nat := 0
  retired : Bool := false
  retiring : Bool := false
  corrected : List Nat := []
  quietW : Nat := 0
  topHeld : Nat := 0
deriving DecidableEq, Repr, Inhabited

/-- A cached leaf (R200): of a translation unit, 0-7 a seat's and 8 the cox die's, or of a stream engine's micro-cache,
16 + 8 · seat + engine. -/
structure TlbEntry where
  tu : Nat
  ctx : Nat
  root : Nat
  vpage : Nat
  big : Bool
  pte : Pte
deriving DecidableEq, Repr

/-- An L0 or L1 entry in a translation unit's walk cache (R200): the table that the entry for `key`, the address bits it stands for, points to. -/
structure WalkEntry where
  tu : Nat
  ctx : Nat
  root : Nat
  lvl : Nat
  key : Nat
  table : Nat
deriving DecidableEq, Repr

/-- A shootdown (R202): scope 0 page, 1 context, 2 all; `why` says what its drain releases (0 nothing
more, 1 an UNMAP, 2 a root swap, 3 and 4 a migration's phases). -/
structure Shootdown where
  ctx : Nat
  scope : Nat
  vpage : Nat
  slice : Bool
  why : Nat
  arg : Nat
  frames : List Nat
  cmd : Option (Nat × Nat)
  doneAt : Option Nat
deriving DecidableEq, Repr

/-- A write translated while its page migrates (R207): a line, or part of one, held until the switch. `tag` is the line tag of a
stream's write to Topsoil. -/
structure PendWrite where
  ctx : Nat
  va : Nat
  data : List Byte
  poison : Bool
  tag : Option Nat
deriving DecidableEq, Repr

/-- A migration in progress (Table 7.5): its page, frames, phase M1 to M6 and since when, the old frames found bad in M3. -/
structure Migration where
  id : Nat
  ctx : Nat
  va : Nat
  big : Bool
  oldAddr : Nat
  newAddr : Nat
  newTier : Nat
  phase : Nat
  since : Nat
  bad : List Nat
deriving DecidableEq, Repr

/-- Memory state beside registers, bytes, poison and tags; `offers` are frames that other modules hold ready for moves this master asked them for (R204,
log 118): context, address, frame. -/
structure MemSt where
  pt : List (Nat × Pte) := []
  frames : List (Nat × FrameTag) := []
  tlb : List TlbEntry := []
  walks : List WalkEntry := []
  held : List PendWrite := []
  shoot : List Shootdown := []
  migs : List Migration := []
  nextMig : Nat := 1
  hbmTrainTemp : List (Nat × Nat) := []
  swapOld : List (Nat × Nat) := []
  rootWait : List (Nat × Nat) := []
  samples : List (Nat × Nat) := []
  reports : List (Nat × Nat) := []
  offers : List (Nat × Nat × Nat) := []
deriving DecidableEq, Repr, Inhabited

/-- A stream descriptor (Tables 8.1, 8.2); strides as integers, dimensions 1 to 4 in order. `bad` says that a reserved field
was nonzero. -/
structure StreamDesc where
  kind : Nat := 0
  gather : Bool := false
  phys : Bool := false
  noMerge : Bool := false
  engine : Nat := 0
  dstTag : Nat := 0
  elemLines : Nat := 1
  rateHint : Nat := 0
  src : Nat := 0
  dst : Nat := 0
  unit : Nat := 0
  ringSlots : Nat := 0
  reads : Nat := 0
  needNs : Nat := 0
  dims : List (Nat × Int × Int) := []
  shapeAddr : Nat := 0
  shapeDim : Nat := 0
  shapeEn : Bool := false
  shapeShift : Nat := 0
  list : Nat := 0
  bad : Bool := false
deriving DecidableEq, Repr, Inhabited

/-- A request of an instance: the element and the first line it covers, its lines, when it was issued, the tag that it shares with the
parts merged with it (R239), and where each of its source lines was translated to: Dwezin address and generation, none where the list
entry that names the element is poisoned. -/
structure StreamReq where
  elem : Nat
  first : Nat
  lines : Nat
  issued : Nat
  tag : Nat := 0
  src : List (Nat × Nat) := []
  data : List (Line × Bool) := []
  landed : Bool := false
deriving DecidableEq, Repr

/-- An instance of a stream (R224, R240): where it runs, what it is charged to, how far it is. -/
structure StreamInst where
  id : Nat
  seat : Nat
  slot : Nat
  desc : StreamDesc
  ctx : Nat
  job : Nat
  step : Nat
  record : Nat
  cmd : Nat
  reached : Bool := false
  launched : Bool := false
  launchedAt : Nat := 0
  counts : List Nat := []
  shapeSince : Option Nat := none
  shapeRead : Option Nat := none
  resolved : Bool := false
  next : Nat := 0
  pendingAt : Nat := 0
  reqs : List StreamReq := []
  void : Bool := false
deriving DecidableEq, Repr

/-- A command queued at a seat's engines in launch order (R240): what it is charged to, whether it has launched, the host command it is of (ring,
sequence), or cox firmware's purpose and argument: 1 a migration, 2 a pause copy, 3 a return copy, 4 a run of a rig for a step, 5 a sediment
copy, 6 a deposit, 7 a checkpoint, 8 a holder's copy to its twin. -/
structure SeatCmd where
  id : Nat
  seat : Nat
  ctx : Nat
  job : Nat
  launched : Bool
  cmd : Option (Nat × Nat)
  purpose : Nat
  arg : Nat
deriving DecidableEq, Repr

/-- A slot of a feed ring: 0 EMPTY, 1 FILLING, 2 FULL; its job, lines landed, last-line reads (R231, R233). -/
structure FeedSlot where
  state : Nat := 0
  ctx : Nat := 0
  job : Nat := 0
  inst : Nat := 0
  elem : Nat := 0
  landed : Nat := 0
  reads : Nat := 0
deriving DecidableEq, Repr, Inhabited

/-- A feed ring (R231-R235): unit, context, ring base as the descriptor names it and as a module offset, slots, positions, and the times of the last releases. -/
structure FeedRing where
  uid : Nat
  ctx : Nat
  vbase : Nat
  base : Nat
  elemLines : Nat
  needReads : Nat
  slots : List FeedSlot
  wr : Nat
  rd : Nat
  releases : List Nat
  rateHint : Nat
  stalled : Option Nat
deriving DecidableEq, Repr

/-- Stream state beside registers. -/
structure StreamSt where
  cmds : List SeatCmd := []
  insts : List StreamInst := []
  rings : List FeedRing := []
  nextId : Nat := 1
  voided : List (Nat × Nat) := []
  stopped : List Nat := []
  floor : List (Nat × Nat) := []
  lastCtx : List (Nat × Nat) := []
deriving DecidableEq, Repr, Inhabited

end Sys2Proof.Machine
end

