-- ==== Sys2Proof/Types/Rig.lean ====
section
/-! DEFINITION. Rigs as placed (chapters 05 and 06): container sections, placed planes, slot groups, circuits, waves. -/

namespace Sys2Proof.Machine

/-- A section-table entry (Table 6.2), with its index. -/
structure Sect where
  idx : Nat
  typ : Nat
  sflags : Nat
  rank : Nat
  seat : Nat
  rsvd : Nat
  off : Nat
  len : Nat
  count : Nat
  crc : Nat
deriving DecidableEq, Repr

/-- A logical plane as placed (R163): its unit, logical and physical plane, its record as the loader rewrote it, its Topsoil window's
offset in the slice, and how its landing stands (R166). -/
structure Placed where
  uid : Nat
  lplane : Nat
  pplane : Nat
  cfg : Nat
  tsBase : Nat
  landed : Bool := false
  retried : Bool := false
deriving DecidableEq, Repr

/-- A slot group as placed (R132, R134, R159): the switch and input port its source link enters, its slot-table entries in route order,
source first (register key and word), whether they are written, the stroke of that switch since which its source link has been quiet, the member
last served, and the slots of which stroke have been used (R132). -/
structure SlotGroup where
  seat : Nat
  idx : Nat
  gateway : Bool
  src : Nat
  swKey : Nat
  inPort : Nat
  firstSlots : List Nat
  dst : Option Nat
  entries : List (Nat × Nat)
  carried : Bool := false
  written : Bool := false
  quietSince : Nat := 0
  last : Nat := 7
  stroke : Nat := 0
  used : Nat := 0
deriving DecidableEq, Repr

/-- A circuit (R158): source and destination unit, physical plane and port, buffer, stall bound, its group (seat and index), and for one between
modules its SPREAD record, the module at the far end and its landing buffer. A gateway is an end with the code of gatewayCode; plane 8 stands
for an end that is no plane. `epoch` is the one a service-unit end keeps (R176). -/
structure Circuit where
  srcUid : Nat
  srcPlane : Nat
  srcPort : Nat
  dstUid : Nat
  dstPlane : Nat
  dstPort : Nat
  buf : Nat
  wd : Nat
  live : Bool
  carry : Bool
  xmod : Bool
  seat : Nat
  group : Nat
  spread : Nat := 0
  peer : Nat := 0
  landing : Nat := 0
  epoch : Nat := 0
  bound : Bool := false
deriving DecidableEq, Repr

/-- A gateway's end of a circuit between modules (R180): context, the rigs and SPREAD records that name it (two while a wave carries it, R175), whether
the beats leave this module by it, the module at the far end, the send or landing buffer, its credits (of the far landing buffer, or of the circuit it
feeds). -/
structure Segment where
  ctx : Nat
  names : List (Nat × Nat)
  out_ : Bool
  peer : Nat
  queue : List Beat := []
  credits : Nat
deriving DecidableEq, Repr

/-- A window on a unit (R163): first operand-store line and lines, Topsoil offset in the slice and granules, whether an earlier rig of
the context still owns the granules. -/
structure Window where
  uid : Nat
  opsBase : Nat
  opsLines : Nat
  tsVbase : Nat
  tsBase : Nat
  granules : Nat
  shared : Bool := false
deriving DecidableEq, Repr

/-- A rig as placed in a context. `state` is the code of RIG_TAB_STATE; `tab` its rig-table entries (seat, index); `folds` the schedule
of each unit (unit, YIELD, plane and BEATS); `closing` marks one whose context is gone and
whose groups wait to be cleared (R135). -/
structure RigSt where
  rigId : Nat := 0
  ctx : Nat := 0
  epoch : Nat := 0
  state : Nat := 0
  rank : Nat := 0
  ranks : Nat := 1
  rankMap : List Nat := []
  planes : List Placed := []
  groups : List SlotGroup := []
  circuits : List Circuit := []
  streams : List (Nat × Nat × StreamDesc) := []
  windows : List Window := []
  folds : List (Nat × Nat × List (Nat × Nat)) := []
  tab : List (Nat × Nat) := []
  drain : Bool := false
  rotation : Nat := 0
  recompile : Bool := false
  waveUs : Nat := 10000
  waveSeq : Nat := 0
  closing : Bool := false
  cmd : Option (Nat × Nat) := none
deriving DecidableEq, Repr, Inhabited

/-- A wave in progress (R172, R177): the outgoing and incoming rigs by number, launch time, planes not yet flipped, groups still to be
released (seat and index), the time a unit of either rig has been held halted. -/
structure Wave where
  ctx : Nat
  outRig : Nat
  inRig : Option Nat
  seq : Nat
  launched : Nat
  pending : List (Nat × Nat)
  releasing : List (Nat × Nat)
  pausedNs : Nat := 0
  haltSince : Option Nat := none
  cmd : Option (Nat × Nat)
deriving DecidableEq, Repr

end Sys2Proof.Machine
end

