-- ==== Sys2Proof/Types/Fabric.lean ====
section
/-! DEFINITION. Links and fabric (chapter 13): messages, flits, physical ports, messages in a router, routing state, fabric time, remote writes that wait for
their acknowledgement; collectives (chapter 14). -/

namespace Sys2Proof.Machine

/-- A beacon (Table 13.5). -/
structure Beacon where
  serial : Nat
  moduleId : Nat
  idValid : Bool
  rack : Nat
  tray : Nat
  slot : Nat
  isSwitch : Bool
  port : Nat
  role : Nat
  dim : Nat
  switchId : Nat
deriving DecidableEq, Repr

/-- A message as a router sees it (Table 13.1): kind and class by code, escape flag, header fields, birth in ns, flits, truncation; LPOISON of each flit,
and the payload, 240 bytes a flit. A LINK, BEACON or TIME flit is a message of one flit. -/
structure FabMsg where
  kind : Nat
  cls : Nat
  esc : Bool
  dst : Nat
  src : Nat
  slice : Nat
  rgen : Nat
  hops : Nat
  birth : Nat
  ctx : Nat
  tag : Nat
  flits : Nat
  trunc : Bool
  lpoison : List Nat := []
  data : List Byte := []
deriving DecidableEq, Repr

/-- A flit: its link sequence (LSEQ), its message, which of the message's flits it is. -/
structure Flit where
  seq : Nat
  msg : FabMsg
  index : Nat
deriving DecidableEq, Repr

/-- A message that leaves by a port: as it goes out, the port it came in by and the virtual channel it holds there, whether it is transit (R395), its flits
sent so far. -/
structure OutMsg where
  msg : FabMsg
  inPort : Option Nat
  inVc : Nat
  transit : Bool
  sent : Nat := 0
deriving DecidableEq, Repr

/-- A message that crosses seat bridges on its way to a port (R396): the seat it has reached, the flits that have still to cross the next bridge. -/
structure CrossMsg where
  out : OutMsg
  seat : Nat
  port : Nat
  left : Nat
deriving DecidableEq, Repr

/-- What a physical port holds beside its registers: failed training attempts (R374), whether training passed step 5, the confirmed peer (R379), a conflict
(R380), the first lane that works; link sequences sent and received, the replay buffer, flits to be sent again, consecutive replays (R370); credits used a
virtual channel (R392), credits to return to the peer a channel, since when an acknowledgement or credit is owed; link flits due, messages to send (R393), flit slots
since the last link, CTL and transit flit, the class last served and the channel whose message is under way; bits of the flit slot gone by, bits of the flit
stream that are in no block yet, and how many, the block count (R364, R365); since when it drains for a retrain (R375); uncorrectable blocks in the window
that began then (R375), times of the last beacon and TIME flit sent, how long the peer's last TIME flit took (ns), asymmetry (ps). -/
structure PortFab where
  fails : Nat := 0
  trained : Bool := false
  confirmed : Bool := false
  conflict : Bool := false
  peerSerial : Nat := 0
  lane0 : Nat := 0
  txSeq : Nat := 0
  rxSeq : Nat := 0
  unacked : List Flit := []
  replay : List Flit := []
  replays : Nat := 0
  used : List Nat := [0, 0, 0, 0, 0, 0, 0, 0]
  back : List Nat := [0, 0, 0, 0, 0, 0, 0, 0]
  owed : Option Nat := none
  linkq : List FabMsg := []
  outq : List OutMsg := []
  sinceLink : Nat := 31
  sinceCtl : Nat := 3
  sinceTransit : Nat := 15
  lastCls : Nat := 0
  cur : Option Nat := none
  phase : Nat := 0
  stream : Nat := 0
  streamLen : Nat := 0
  block : Nat := 0
  drain : Option Nat := none
  uncorr : Nat := 0
  uncorrSince : Nat := 0
  beaconAt : Nat := 0
  timeAt : Nat := 0
  echo : Nat := 0
  asym : Int := 0
deriving DecidableEq, Repr, Inhabited

/-- What a receiver finds wrong (R366, R370): a block, its symbols as received, or a flit, its bytes. -/
inductive Damage where
  | block (symbols : List Nat)
  | flit (bytes : List Nat)
deriving DecidableEq, Repr

/-- Where a message enters the router: a port, or a seat that sends it. -/
inductive Ingress where
  | port (p : Nat)
  | seat (k : Nat)
deriving DecidableEq, Repr

/-- A message waiting in a router, at a seat: for tables that route it (R390), or for credit (R392). -/
structure HeldMsg where
  out : OutMsg
  seat : Nat
  forTables : Bool
deriving DecidableEq, Repr

/-- The header of a memory message at its destination (Tables 13.1, 13.2); `addr` is the Dwezin address. -/
structure MemHdr where
  src : Nat
  slice : Nat
  ctx : Nat
  tag : Nat
  birth : Nat
  hops : Nat
  addr : Nat
  gen : Nat
  len : Nat
  job : Nat
  handle : Nat
deriving DecidableEq, Repr

/-- What a pause copy brings (R329): how many 64 KiB frames it holds, its lines with their poison. -/
structure PauseCopy where
  frames : Nat
  lines : List (Line × Bool)
deriving DecidableEq, Repr

/-- A write to another module not yet acknowledged (R298, R497): its tag, destination, context, virtual address, when. -/
structure RemoteWrite where
  tag : Nat
  dest : Nat
  ctx : Nat
  va : Nat
  at_ : Nat
deriving DecidableEq, Repr

/-- A change of a link heard of: module, logical port, up or down, the swap's time (R391). -/
structure LinkChange where
  module : Nat
  lport : Nat
  up : Bool
  at_ : Nat
deriving DecidableEq, Repr

/-- A neighbour's time (R399): logical port, depth, root, when last heard. -/
structure TimePeer where
  lport : Nat
  depth : Nat
  root : Nat
  heard : Nat
deriving DecidableEq, Repr

/-- Fabric state beside registers: ports, messages waiting, notices seen and to come, links known down, modules gone, how long the old routing
copy is readable, changes and memberships for a later swap, time peers, the slew still to make (ns) and when the last ns of one was made, remote writes, beats landed for
spread circuits (context, record, beats), credits held for sending on them; messages that cross bridges, and for each bridge in use (from a seat to a seat)
the bytes its gateway slots and its memory share can carry now (R138, R193, R396). -/
structure FabSt where
  ports : List (Nat × PortFab) := []
  held : List HeldMsg := []
  cross : List CrossMsg := []
  shares : List (Nat × Nat × Nat × Nat) := []
  noticeSeq : Nat := 0
  seen : List (Nat × Nat) := []
  down : List (Nat × Nat) := []
  gone : List Nat := []
  oldUntil : Option Nat := none
  escLogged : Bool := false
  later : List Nat := []
  members : List (Nat × List Nat × Nat) := []
  serials : List (Nat × Nat) := []
  times : List TimePeer := []
  parentLost : Option Nat := none
  stepped : Bool := false
  slew : Int := 0
  slewAt : Nat := 0
  writes : List RemoteWrite := []
  nextTag : Nat := 0
  segs : List Segment := []
  cubeDown : Option Nat := none
  linksUp : Bool := false
deriving DecidableEq, Repr, Inhabited

end Sys2Proof.Machine
end

