-- ==== Sys2Proof/Types/Host.lean ====
section
/-! DEFINITION. The host interface (chapter 15): command descriptors, rings, virtual interfaces, contexts, records. -/

namespace Sys2Proof.Machine

/-- Who makes a register access (R605): the physical function's host driver, a virtual interface's, cox firmware, a seat's
stroke core, the Keel cores. -/
inductive Master where
  | pf
  | vf (n : Nat)
  | cox
  | stroke (seat : Nat)
  | keel
deriving DecidableEq, Repr

/-- A master's number, under which its copy of a view selector is kept. -/
def Master.code : Master → Nat
  | .pf => 0
  | .vf n => n
  | .cox => 256
  | .keel => 257
  | .stroke n => 258 + n

/-- The virtual interface whose view a master has: a VF's own, else the physical function's. -/
def Master.vi : Master → Nat
  | .vf n => n
  | _ => 0

/-- A host driver's access. -/
def Master.host : Master → Bool
  | .pf => true
  | .vf _ => true
  | _ => false

/-- A 64-byte command descriptor as eight words, word 0 first (Table 15.5). -/
abbrev Descriptor := List Word

/-- A dependence mark (R448): the ring and the sequence's low 16 bits named. -/
structure DepMark where
  ring : Nat
  seq : Nat
deriving DecidableEq, Repr

/-- A fetched command: its ring, sequence, header fields and descriptor (R442, R445). `seq` counts from 2^48 times the number of the ring's
enabling, so that a command launched before a ring was disabled keeps a name of its own (R439); `cq` is the completion ring that holds its
reservation (R443). -/
structure Cmd where
  ring : Nat := 0
  seq : Nat := 0
  cq : Nat := 0
  opcode : Nat := 0
  flags : Nat := 0
  ctx : Nat := 0
  job : Nat := 0
  tag : Nat := 0
  marks : List DepMark := []
  desc : Descriptor := []
  waitSince : Option Nat := none
deriving DecidableEq, Repr, Inhabited

/-- A completion record (Table 15.11a). -/
structure ComplRec where
  kind : Nat
  status : Nat
  sq : Nat
  sqHead : Nat
  opcode : Nat
  tag : Nat
  handle : Nat
  endCode : Nat
  ctx : Nat
  job : Nat
  value : Nat
deriving DecidableEq, Repr

/-- What the module holds of a ring beside its frame's registers: fetched commands in order, launched ones outstanding,
statuses of completed sequences, reserved and kept records, the last interrupt (R438-R443). `enabledOnce` keeps a ring that was ever enabled in the list of
rings; `session` counts the times it was enabled again. -/
structure RingSt where
  waiting : List Cmd := []
  outstanding : List Cmd := []
  completed : List (Nat × Nat) := []
  fetchHead : Nat := 0
  reserved : Nat := 0
  kept : List ComplRec := []
  lastIrq : Nat := 0
  newSince : Bool := false
  enabledOnce : Bool := false
  session : Nat := 0
deriving DecidableEq, Repr, Inhabited

/-- A virtual interface's limits (R436); VI 0's reset values are given where State.reset builds it. -/
structure ViSt where
  enabled : Bool := false
  slice : Nat := 0
  domain : Nat := 0
  ringFirst : Nat := 0
  ringCount : Nat := 0
  ctxMax : Nat := 0
  prioMax : Nat := 0
  tsMax : Option Nat := some 0
  ssMax : Option Nat := some 0
  brMax : Option Nat := some 0
  weightMax : Option Nat := some 0
deriving DecidableEq, Repr, Inhabited

/-- A context (R455-R460). -/
structure CtxSt where
  valid : Bool := false
  tearing : Bool := false
  scrubbing : Bool := false
  span : Bool := false
  vi : Nat := 0
  held : Bool := false
  priority : Nat := 0
  weight : Nat := 0
  noticeCq : Nat := 0
  master : Nat := 0
  slice : Nat := 0
  ns : Nat := 0
  currentRig : Option Nat := none
  incomingRig : Option Nat := none
  nextEpoch : Nat := 0
  waves : Nat := 0
  hadRig : Bool := false
  staged : List (Nat × Nat) := []
  stagedFrames : List (Nat × List Nat) := []
  shareK : List (Nat × Nat) := []
  extVa : Nat := 0
deriving DecidableEq, Repr, Inhabited

end Sys2Proof.Machine
end

