-- ==== Sys2Proof/Types/Request.lean ====
section
/-! DEFINITION. Requests (chapters 11 and 12): the Start List entry of Table 11.1 and what the module holds of a request
beside it. -/

namespace Sys2Proof.Machine

/-- Entry states (Table 11.1), numbered as the manual numbers them. -/
inductive ReqState where
  | free | admitted | prefill | shipping | decode | paused | resuming | done | cancelled | failed
deriving DecidableEq, Repr, Inhabited

/-- STATE's code. -/
def ReqState.code : ReqState → Nat
  | .free => 0
  | .admitted => 1
  | .prefill => 2
  | .shipping => 3
  | .decode => 4
  | .paused => 5
  | .resuming => 6
  | .done => 7
  | .cancelled => 8
  | .failed => 9

/-- A final state. -/
def ReqState.final : ReqState → Bool
  | .done | .cancelled | .failed => true
  | _ => false

/-- Words 0 to 6 of a Start List entry (Table 11.1). -/
structure EntryA where
  state : ReqState := .free
  priority : Nat := 0
  constrained : Bool := false
  hard : Bool := false
  dense : Bool := false
  deposit : Nat := 0
  late : Bool := false
  held : Bool := false
  cancelPend : Bool := false
  pausePend : Bool := false
  autoResume : Bool := false
  takenOver : Bool := false
  copyOut : Bool := false
  copyIn : Bool := false
  workOut : Bool := false
  ctx : Nat := 0
  gen : Nat := 1
  vi : Nat := 0
  curLen : Nat := 0
  maxLen : Nat := 0
  promptLen : Nat := 0
  hitLen : Nat := 0
  deadline : Nat := 0
  admitTime : Nat := 0
  pageList : Nat := 0
  pages : Nat := 0
  holder : Nat := 0
  expiry : Nat := 0
deriving DecidableEq, Repr, Inhabited

/-- Words 7 to 15 of a Start List entry (Table 11.1); the CRC is computed when the entry is read. -/
structure EntryB where
  samplingPtr : Nat := 0
  penaltyPtr : Nat := 0
  grammarPtr : Nat := 0
  tokenRing : Nat := 0
  complRing : Nat := 0
  version : Nat := 0
  job : Nat := 0
  steps : Nat := 0
  mirrorSeq : Nat := 0
  delivered : Nat := 0
  workModule : Nat := 0
  endCode : Nat := 0
  hostTag : Nat := 0
deriving DecidableEq, Repr, Inhabited

/-- A Start List entry. -/
structure Entry where
  a : EntryA := {}
  b : EntryB := {}
deriving DecidableEq, Repr, Inhabited

/-- The sampling parameter block as latched (Table 12.1, R341, R342); FP32 values as bits. -/
structure SampBlk where
  seed : Nat := 0
  temperature : Nat := 0
  topP : Nat := 0
  minP : Nat := 0
  topK : Nat := 0
  penInput : Bool := false
  repetition : Nat := 0
  frequency : Nat := 0
  presence : Nat := 0
  stopAddr : Nat := 0
  stops : List (List Nat) := []
deriving DecidableEq, Repr, Inhabited

/-- The grammar record and its automaton header as latched (Table 12.4, R352, R353), and the current state. -/
structure Grammar where
  kind : Nat := 0
  eosOk : Bool := false
  tableAddr : Nat := 0
  masks : Nat := 0
  states : Nat := 0
  start : Nat := 0
  trans : Nat := 0
  stateOff : Nat := 0
  transOff : Nat := 0
  maskOff : Nat := 0
  state : Nat := 0
deriving DecidableEq, Repr, Inhabited

/-- A token drawn and not yet committed, or committed and not yet posted: its ID, its position, its flags. -/
structure Tok where
  id : Nat := 0
  pos : Nat := 0
  flags : Nat := 0
  nextState : Nat := 0
deriving DecidableEq, Repr, Inhabited

/-- A command that waits for a boundary of its request: opcode, submitting ring, sequence, tag, and its values. -/
structure ReqCmd where
  opcode : Nat := 0
  ring : Nat := 0
  seq : Nat := 0
  arg1 : Nat := 0
  arg2 : Nat := 0
  arg3 : Nat := 0
  tokens : List Nat := []
deriving DecidableEq, Repr, Inhabited

/-- What the module holds of a request beside its entry: latched blocks, token IDs by position, page extents reserved,
prefix lookup, the step's sampled token, tokens not yet posted, commands observed, pause and resume in progress, work item. -/
structure ReqSt where
  samp : SampBlk := {}
  grammar : Grammar := {}
  tokens : List Nat := []
  extents : List Nat := []
  reserved : Bool := false
  lookup : Nat := 0
  lookupAt : Nat := 0
  lookupJob : Nat := 0
  hitExtents : List Nat := []
  sampled : Option Tok := none
  unposted : List Tok := []
  cmds : List ReqCmd := []
  ttl : Nat := 0
  appended : List Nat := []
  claimAt : Option Nat := none
  workFirst : Nat := 0
  workCount : Nat := 0
  workSince : Nat := 0
  workFails : Nat := 0
  resendDue : Bool := false
  deposits : Nat := 0
  mirrors : Nat := 0
  freeDue : Bool := false
  copyDue : Bool := false
  countsBad : Bool := false
  leaving : Bool := false
  inStep : Bool := false
  takeoverNotice : Bool := false
  oldHandle : Nat := 0
  ringLogged : Bool := false
  restore : Option (Nat × List Nat × Nat) := none
  endDue : Bool := false
  endPosted : Bool := false
  origin : List Bool := []
  offered : Nat := 0
  listPages : Nat := 0
  hitCount : Nat := 0
  withdrawn : Bool := false
  copyFail : Bool := false
  landedHits : Nat := 0
  landCopy : Bool := false
  tokensAt : Nat := 0
  selShapes : List Nat := []
  held : List Nat := []
deriving DecidableEq, Repr, Inhabited

/-- Where a rig reads a request's shape words (R263): the addresses of its length and candidate-count words, SEL_THRESHOLD and W. -/
structure ShapeSite where
  entry : Nat
  lenAddr : Nat
  candAddr : Nat
  threshold : Nat
  window : Nat
deriving DecidableEq, Repr

/-- A paused request's pages held for its owner (R330). `copy` says how far the copy to the holder's twin is (R498): 1 its frames are not all known,
2 the copy runs, 0 both stand; `mapped` are the frames known so far. -/
structure Hold where
  handle : Nat := 0
  owner : Nat := 0
  expiry : Nat := 0
  pages : List Nat := []
  claimed : Bool := false
  copy : Nat := 0
  mapped : List Nat := []
deriving DecidableEq, Repr, Inhabited

end Sys2Proof.Machine
end

