-- ==== Sys2Proof/Types/Model.lean ====
section
/-! DEFINITION. Model versions and loads (chapter 16), the step (chapter 11), the sediment index and copies (chapter 9). -/

namespace Sys2Proof.Machine

/-- A version table entry (R478); `state` is the code of WPKG_VER_STATE, 0 for an entry that is not listed. `pages` are the virtual
addresses of its weight range, `frames` those not yet scrubbed of a FREEING entry, `mismatch` that the twin's root was seen to differ. -/
structure Version where
  id : Nat := 0
  model : Nat := 0
  ctx : Nat := 0
  state : Nat := 0
  slot : Nat := 0
  root : Nat := 0
  vocab : Nat := 0
  eos : Nat := 0
  layers : Nat := 0
  kvHeads : Nat := 0
  dim32 : Nat := 0
  kvFmt : Nat := 0
  destVa : Nat := 0
  decodeRig : Nat := 0
  prefillRig : Nat := 0
  place : Nat := 0
  tiles : Nat := 0
  verified : Nat := 0
  pages : List Nat := []
  frames : List Nat := []
  mismatch : Bool := false
deriving DecidableEq, Repr, Inhabited

/-- A tile on its way to a weight page: index in the package, its virtual address, its leaf; 0 waits, 1 failed once, 2 matched (R476). -/
structure Landing where
  tile : Nat
  va : Nat
  leaf : Nat
  state : Nat := 0
deriving DecidableEq, Repr

/-- A load in progress (R475): version, command, package identifier, where its tiles lie in the package, its tiles. -/
structure LoadSt where
  ver : Nat
  ring : Nat
  seq : Nat
  pkgId : Nat
  src : Nat
  tiles : List Landing
deriving DecidableEq, Repr

/-- A change of the version table (R479): a PKG_LOAD's, VERSION_LIVE's or VERSION_RETIRE's command, a load's end, an entry retired, freed or
scrubbed. -/
inductive VerChange where
  | live (ring seq : Nat)
  | retire (ring seq : Nat)
  | resident (ver : Nat)
  | retiring (ver : Nat)
  | freeing (ver : Nat)
  | empty (ver : Nat)
deriving DecidableEq, Repr

/-- The version table, the live pointers (model, version), the loads, whether a step or admission still reads the old copy, changes that wait
for it (R479). -/
structure WpkgSt where
  versions : List Version := []
  live : List (Nat × Nat) := []
  loads : List LoadSt := []
  latched : Bool := false
  waits : List VerChange := []
deriving DecidableEq, Repr, Inhabited

/-- A sub-batch of a step (R336): version, serving context, decode rig and entries. -/
structure SubBatch where
  ver : Nat
  ctx : Nat
  rigId : Nat
  entries : List Nat
deriving DecidableEq, Repr

/-- The step (R319, R336): phase 0 no step, 1 built and waiting for the twin, 2 running, 3 done; its sub-batches still to run, the first
of them running; whether it must be run again (R307); a batch the boundary chose. -/
structure StepSt where
  phase : Nat := 0
  subs : List SubBatch := []
  replay : Bool := false
  due : Bool := false
  lastEnd : Nat := 0
deriving DecidableEq, Repr, Inhabited

/-- A sediment entry (Table 9.6): `bucket` its bucket, `state` 1 PENDING or 2 VALID, `doomed` that it goes with its last pin (R279), `owner` and
`handle` the module and request whose deposit it awaits while PENDING (R29, R277). -/
structure SedEnt where
  hash : Nat
  parent : Nat
  addr : Nat
  extent : Nat
  version : Nat
  domain : Nat
  kvFmt : Nat
  state : Nat
  pins : Nat := 0
  children : Nat := 0
  lastHit : Nat := 0
  hits : Nat := 0
  epoch : Nat := 0
  bucket : Nat := 0
  doomed : Bool := false
  since : Nat := 0
  owner : Nat := 0
  handle : Nat := 0
deriving DecidableEq, Repr

/-- A lookup the shard has answered whose pins it holds (R274): owner, handle, hashes pinned, when (or when its copy order came), whether its
copy order came, whether it latched the old array. -/
structure PinSt where
  owner : Nat
  handle : Nat
  hashes : List Nat
  at_ : Nat
  ordered : Bool := false
  old : Bool := false
deriving DecidableEq, Repr

/-- A domain's key and epoch (R269, R280). -/
structure DomainKey where
  domain : Nat
  key : Nat
  epoch : Nat
deriving DecidableEq, Repr

/-- The sediment index of this module and its maps: entries of the current array, those of the other (a rebuild, or the old one until it is
reclaimed), the shards' modules of both map copies. -/
structure SedSt where
  entries : List SedEnt := []
  other : List SedEnt := []
  otherLog2 : Nat := 0
  newKey : Option DomainKey := none
  swapAt : Option Nat := none
  pins : List PinSt := []
  map : List Nat := []
  oldMap : List Nat := []
  mapAt : Option Nat := none
  keys : List DomainKey := []
deriving DecidableEq, Repr, Inhabited

/-- A seal pass under way (R262): request and page. -/
structure SealPass where
  entry : Nat
  gen : Nat
  page : Nat
deriving DecidableEq, Repr

/-- Who asks a shard (R273): the owner's module, and the generation of the shard map that it asks under. -/
structure LookupFrom where
  owner : Nat
  mapGen : Nat
deriving DecidableEq, Repr

/-- What a copy order is charged to and by when it is due (R274, R235): the context of the request, the fabric time. -/
structure CopyFor where
  ctx : Nat
  due : Nat
deriving DecidableEq, Repr

/-- The job of a work item and the fabric time by which its KV is due (R334, R235). -/
structure WorkJob where
  job : Nat
  due : Nat
deriving DecidableEq, Repr

end Sys2Proof.Machine
end

