-- ==== Sys2Proof/Types/Power.lean ====
section
/-! DEFINITION. Power, the Keel and the board (chapters 18 and 20). -/

namespace Sys2Proof.Machine

/-- Phases of a seat's power state (Table 18.5, R520-R526): awake, between E1 and power-off, asleep, between X1 and X4. -/
inductive SeatPhase where
  | awake | entering | asleep | waking
deriving DecidableEq, Repr, Inhabited

/-- One save copy (R523): its save count and the registers saved, by key. -/
structure Save where
  count : Nat
  regs : List (Nat × Word)
deriving DecidableEq, Repr, Inhabited

/-- A line access held for a sleeping seat (R525): the operands of TIER_ACCESS, what the line's check finds among them. -/
structure HeldAccess where
  ctx : Nat
  off : Nat
  gen : Nat
  seat : Nat
  module : Nat
  write : Bool
  first : Nat
  bytes : List Byte
  check : Nat
deriving DecidableEq, Repr

/-- A firmware write held for a sleeping seat (R526): a plain write (offset, size, value), or a field with a command of its own: HALT, OFFLINE,
FORCE_STATIC (unit, value), a slot table entry (seat, selector, value), a fold commit (unit), a job void (seat, value). -/
inductive HeldWrite where
  | reg (off size v : Nat)
  | halt (uid v : Nat)
  | offline (uid v : Nat)
  | forceStatic (uid v : Nat)
  | slot (seat sel v : Nat)
  | fold (uid : Nat)
  | jobVoid (seat v : Nat)
deriving DecidableEq, Repr

/-- A seat's power state: its phase, whether a wake source asks for it, the two save copies (R523), accesses and firmware writes held for
it (R525, R526), whether built-in test of its units is due (R523). -/
structure SeatPwr where
  phase : SeatPhase := .awake
  wake : Bool := false
  copyA : Option Save := none
  copyB : Option Save := none
  accesses : List HeldAccess := []
  writes : List HeldWrite := []
  testDue : Bool := false
deriving DecidableEq, Repr, Inhabited

/-- A TAP instruction (R598): IDCODE, BYPASS, SAMPLE/PRELOAD, EXTEST, the IEEE 1687 network, any other. -/
inductive TapInstr where
  | idcode | bypass | sample | extest | network | other
deriving DecidableEq, Repr, Inhabited

/-- Where a management message comes from (R591, R592): the I3C bus owner, another I3C endpoint, a requester routed to function 0, another PCI
Express requester. -/
inductive MgmtSource where
  | busOwner | i3c | function0 | pcie
deriving DecidableEq, Repr, Inhabited

/-- A request's transport and its SEQ, which the answer echoes (R592). -/
structure Ask where
  src : MgmtSource
  seq : Nat
deriving DecidableEq, Repr, Inhabited

/-- A Keel order that waits (R529): where it came from and its bytes (R528). -/
structure HeldOrder where
  ask : Ask
  bytes : List Nat
deriving DecidableEq, Repr, Inhabited

/-- Power and Keel state no register holds (R515-R541): power stages off; an M-state change that waits for the boundary (target, by alarm);
the module's save copies; leaving M3; alert sources asserted, as a mask, and whether the module's own flow sensor asserts one; since when an
alert is in force, clear, sustained handling; times of the cap controller; junctions at or above the trip and since when, when the trip
last cleared, since when all are cool; queued orders, oldest first, the head being treated; the anchor key. -/
structure PwrSt where
  off : Bool := false
  want : Option (Nat × Bool) := none
  copyA : Option Save := none
  copyB : Option Save := none
  leavingM3 : Bool := false
  wake : Bool := false
  sources : Nat := 0
  flowLow : Bool := false
  alertSince : Option Nat := none
  clearSince : Option Nat := none
  handed : Bool := false
  capAt : Nat := 0
  ceilAt : Nat := 0
  stretchAt : Nat := 0
  emergTherm : Bool := false
  tripSince : Option Nat := none
  tripGone : Option Nat := none
  coolSince : Option Nat := none
  coxTj : Nat := 0
  keelQueue : List HeldOrder := []
  anchor : List Nat := []
  inputLost : Bool := false
deriving DecidableEq, Repr, Inhabited

/-- A firmware image (R594): its version and whether its signature verifies. -/
structure FwImage where
  version : Nat := 0
  verifies : Bool := true
deriving DecidableEq, Repr, Inhabited

/-- A firmware bank (R594): its COX_FW and PHY_FW images. -/
structure Bank where
  cox : FwImage := {}
  phy : FwImage := {}
deriving DecidableEq, Repr, Inhabited

/-- Board state no register holds (R570-R599): a boot under way, since when, its stages complete as a mask; the time reference (edges in a row, the
last edge, the second announced); TAI less UTC; TRAY_LEAVE_N asserted, since when it has been deasserted for 100 ms; MOD_RESET_N held; test runs
since boot; the firmware banks and whether bank B runs; endpoint identifiers; the TAP's instruction; a serial excluded (R380); ROOT_ALLOW as of the
boot (R592); the host link and VF enable; the pool role (R23); PERST_N held asserted; the warmest inlet since the last ledger record. -/
structure BoardSt where
  booting : Bool := false
  bootSince : Nat := 0
  stages : Nat := 0
  ppsEdges : Nat := 0
  ppsLast : Nat := 0
  ppsAnnounced : Option Nat := none
  utcOffset : Nat := 0
  trayLow : Bool := false
  trayHigh : Option Nat := none
  resetHeld : Bool := false
  testRuns : Nat := 0
  bankA : Bank := {}
  bankB : Bank := {}
  running : Bool := false
  eidI3c : Nat := 0
  eidPcie : Nat := 0
  tapIr : TapInstr := .idcode
  excluded : Option Nat := none
  rootAllow : Bool := false
  vfEnable : Bool := false
  linkUp : Bool := false
  poolRole : Nat := 0
  perst : Bool := false
  inletMax : Nat := 0
deriving DecidableEq, Repr, Inhabited

/-- A CXL port's device as bring-up found it (R213, R214): port, width, rate, flit mode, latency-optimised flits, single device, capacity in GiB, the
offsets its poison list names. -/
structure CxlFound where
  port : Nat
  width : Nat
  rate : Nat
  flit256 : Bool
  lopt : Bool
  single : Bool
  gib : Nat
  poison : List Nat
deriving DecidableEq, Repr, Inhabited

/-- What a boot stage found (Table 20.8): B2 whether lockstep and the flash copies are good; B4 whether each bank's images verify; B6 each stack's
rate (0 at 10 Gb/s, 1 at 8, 2 down) and retired frames repaired; B8 units that fail, seats whose stroke core, stream engines or bridges fail; B9
the CXL devices. -/
structure BootReport where
  keelOk : Bool := true
  okA : Bool := true
  okB : Bool := true
  hbm : List Nat := []
  repaired : List Nat := []
  failed : List Nat := []
  seatsFailed : List Nat := []
  cxl : List CxlFound := []
deriving DecidableEq, Repr, Inhabited

end Sys2Proof.Machine
end

