-- ==== Sys2Proof/Types/Scatter.lean ====
section
/-! DEFINITION. Expert routing (chapter 10): scatter descriptors, rounds, queues registered with a home's queue controllers, count headers,
what scatter entries in flight have gathered. -/

namespace Sys2Proof.Machine

/-- A scatter descriptor (Table 10.5); `seat` and `unit` are not its own. -/
structure ScatDesc where
  layer : Nat := 0
  experts : Nat := 0
  topk : Nat := 0
  shared : Nat := 0
  gate : Nat := 0
  renorm : Bool := false
  retFmt : Nat := 0
  outFmt : Nat := 0
  payLines : Nat := 0
  retLines : Nat := 0
  roundTokens : Nat := 0
  combine : Nat := 0
  sharedScale : Nat := 0
  needNs : Nat := 0
  rounds : Nat := 0
deriving DecidableEq, Repr, Inhabited

/-- A region this source owns in one expert's queue for a round (R295, R297): choices so far, whether its count header was sent. -/
structure Region where
  expert : Nat
  queue : Nat
  home : Nat
  quota : Nat
  region : Nat
  picks : Nat := 0
  sent : Bool := false
deriving DecidableEq, Repr

/-- A round of this source (R285): its number over the step, layer, scatter unit, the map copy it latched (R288), its first token, tokens
routed, when it opened and closed, its regions, returns still owed, rows combined. -/
structure Round where
  ctx : Nat
  num : Nat
  uid : Nat
  desc : ScatDesc
  gen : Nat
  first : Nat
  routed : Nat := 0
  closedAt : Option Nat := none
  regions : List Region
  written : Nat := 0
  owed : Nat := 0
  combined : Nat := 0
deriving DecidableEq, Repr

/-- Progress of a layer in the step (R285, R305): number of its first round, tokens routed (all its rounds' once closed), rows emitted. -/
structure LayerSt where
  ctx : Nat
  layer : Nat
  base : Nat
  routed : Nat := 0
  emitted : Nat := 0
deriving DecidableEq, Repr

/-- A count header (R295): the 16 bytes with what names the word they go to. -/
structure CountHdr where
  layer : Nat
  expert : Nat
  region : Nat
  round : Nat
  value : Nat
  dropped : Nat
  src : Nat
  lost : Bool
deriving DecidableEq, Repr

/-- A queue registered with a seat's queue controller (R287, R299): reads of each COUNT word since its header came, headers held. -/
structure QueueSt where
  ctx : Nat
  va : Nat
  seat : Nat
  group : Nat
  reads : List (Nat × Nat) := []
  held : List CountHdr := []
deriving DecidableEq, Repr

/-- What a SCATTER entry in flight has gathered (R290): its descriptor, the token it is at, the beats of that token. -/
structure Gather where
  uid : Nat
  id : Nat
  form : Nat
  ctx : Nat
  desc : ScatDesc
  token : Nat := 0
  beats : List (Line × Bool) := []
deriving DecidableEq, Repr

/-- Expert routing beside registers: rounds, layers, each context's next round, queues, gathers, since when an old map copy may drain. -/
structure ScatSt where
  rounds : List Round := []
  layers : List LayerSt := []
  next : List (Nat × Nat) := []
  queues : List QueueSt := []
  gathers : List Gather := []
  swaps : List (Nat × Nat) := []
deriving DecidableEq, Repr, Inhabited

/-- A round is open from its first entry write until its last return arrives (R301). -/
def Round.isOpen (r : Round) : Bool := decide (0 < r.written) && (r.closedAt.isNone || decide (0 < r.owed))

end Sys2Proof.Machine
end

