-- ==== Sys2Proof/Types/Twin.lean ====
section
/-! DEFINITION. The twin (chapter 17): mirrors, checkpoints, records that wait for an acknowledgement, suspicion, detach, images kept for
re-admission. -/

namespace Sys2Proof.Machine

/-- The mirror of one of the twin's requests: its entry image, latched blocks, committed tokens, mirror extents (module offsets of frames of
kind SYS, each of `size` bytes), the checkpoint length, whether extents could not be had (R492-R497). -/
structure Mirror where
  entry : Entry := {}
  samp : SampBlk := {}
  grammar : Grammar := {}
  tokens : List Nat := []
  extents : List Nat := []
  size : Nat := 0
  ckptLen : Nat := 0
  full : Bool := false
deriving DecidableEq, Repr, Inhabited

/-- What the owner knows of its own request's mirror: addresses of the extents the twin has mapped, in page order, the checkpoint length,
whether the whole prompt has been issued, the checkpoint on its way (R496, R497). -/
structure CkptSt where
  extents : List Nat := []
  ckptLen : Nat := 0
  entered : Bool := false
  inFlight : Option (Nat × Nat) := none
deriving DecidableEq, Repr, Inhabited

/-- A change that waits for the twin's acknowledgement (R317, R494): the record's sequence (0 until it is sent) and the completion to post or the
admission to install. -/
structure Awaiting where
  seq : Nat
  cmd : Option Cmd
  status : Nat
  value : Nat
  handle : Nat
  entering : Option (Nat × Entry × ReqSt)
deriving DecidableEq, Repr

/-- An image kept for re-admission (R506). -/
structure Image where
  handle : Nat
  entry : Entry
  req : ReqSt
  until_ : Nat
deriving DecidableEq, Repr

/-- The header of a twin record as received (Table 17.2); `crcOk` is the verdict on its CRC. -/
structure TwinHdr where
  seq : Nat
  sync : Bool
  handle : Nat
  sender : Nat
  ctx : Nat
  ack : Nat
  crcOk : Bool
deriving DecidableEq, Repr

/-- Pair state beside registers. -/
structure TwinSt where
  mirrors : List (Nat × Mirror) := []
  ckpts : List (Nat × CkptSt) := []
  unacked : List (Nat × Nat) := []
  awaiting : List Awaiting := []
  rxSeq : Nat := 0
  lastSent : Nat := 0
  joinedAt : Nat := 0
  began : Bool := false
  peerBegan : Bool := false
  resyncEnd : Option Nat := none
  ownSynced : Bool := false
  peerSynced : Bool := false
  mismatch : Bool := false
  suspectAt : Option Nat := none
  answered : Bool := false
  witness : List (Nat × Bool) := []
  confirmedAt : Option Nat := none
  takeover : Option Bool := none
  detach : Option Bool := none
  detachAt : Nat := 0
  handover : Bool := false
  leaving : Bool := false
  holds : List Hold := []
  mirrorHolds : List Hold := []
  images : List Image := []
  pairLost : Bool := false
  twinVersions : List (Nat × Nat × Nat) := []
deriving DecidableEq, Repr, Inhabited

end Sys2Proof.Machine
end

