-- ==== Sys2Proof/Syntax.lean ====
section
/-! DEFINITION. The commands and events of the module: one constructor for each row of spec/opcode_table.json, with what it
brings from outside (an address, a value, a beat, a record, a verdict of a check the block does not compute). -/

namespace Sys2Proof

open Sys2Proof.Machine

/-- The commands of the block. -/
inductive Instr where
  /-- REGISTER_WRITE (R16): A write to a register field that has no row of its own sets, clears or discards the field according to its access code. -/
  | registerWrite (m : Master) (off size v : Nat)
  /-- READ_CLEAR (R16): A read of an RC field returns the field and clears it. -/
  | readClear (m : Master) (off size : Nat)
  /-- VIEW_SELECTOR_WRITE (R605): A write to a view selector sets only the writer's own copy and logs nothing. -/
  | viewSelectorWrite (m : Master) (off size v : Nat)
  /-- SET_POOL_ROLE (R23): The operator's pool-role change is applied to both twins when neither holds live work, and is otherwise refused BUSY. -/
  | setPoolRole (q : Ask) (role : Nat) (twinBusy : Option Bool)
  /-- BEAT_ARRIVE (R34): A beat arriving at an input port is compared by epoch and then accepted, held, dropped or faulted. -/
  | beatArrive (uid plane port : Nat) (b : BeatIn)
  /-- ENTRY_SKIP (R48): The sequencer passes over an entry that is not due, to SKIP_TO or the next entry, without firing. -/
  | entrySkip (uid : Nat)
  /-- NOP (R48): A NOP entry catches with no engine work, acting only on counters, loops and predicates. -/
  | nop (uid : Nat)
  /-- MPASS (R78): A matrix pass catches, computes anchors and accumulates its blocks on the anchored grid. -/
  | mpass (uid : Nat)
  /-- PASS_COMPLETE (R57): A pass finishes its products and, once the result buffer is empty, rounds or packs its results into it. -/
  | passComplete (uid : Nat)
  /-- VEC_ADD (R76): A VEC ADD entry adds two vectors lane by lane, or adds wide partials under R86. -/
  | vecAdd (uid : Nat)
  /-- VEC_SUB (R76): A VEC SUB entry subtracts two vectors lane by lane in FP32. -/
  | vecSub (uid : Nat)
  /-- VEC_MUL (R76): A VEC MUL entry multiplies two vectors lane by lane in FP32. -/
  | vecMul (uid : Nat)
  /-- VEC_FMA (R76): A VEC FMA entry computes A times B plus DST with one rounding. -/
  | vecFma (uid : Nat)
  /-- VEC_MAX (R76): A VEC MAX entry takes the IEEE maximum lane by lane. -/
  | vecMax (uid : Nat)
  /-- VEC_MIN (R76): A VEC MIN entry takes the IEEE minimum lane by lane. -/
  | vecMin (uid : Nat)
  /-- VEC_CMP_LT (R76): A VEC CMP_LT entry writes 1.0 or +0 for each lane's less-than comparison. -/
  | vecCmpLt (uid : Nat)
  /-- VEC_CMP_EQ (R76): A VEC CMP_EQ entry writes 1.0 or +0 for each lane's equality comparison. -/
  | vecCmpEq (uid : Nat)
  /-- VEC_CVT (R74): A VEC CVT entry converts between formats, narrowing under NUMCTL or to MX blocks. -/
  | vecCvt (uid : Nat)
  /-- VEC_REDUCE_SUM (R77): A REDUCE_SUM entry sums the 64 lanes in the fixed tree order. -/
  | vecReduceSum (uid : Nat)
  /-- VEC_REDUCE_MAX (R77): A REDUCE_MAX entry takes the maximum of the 64 lanes in the fixed tree order. -/
  | vecReduceMax (uid : Nat)
  /-- VEC_SCALE_EXP (R76): A SCALE_EXP entry multiplies each lane by 2 to a clamped integer power from B. -/
  | vecScaleExp (uid : Nat)
  /-- SFN_EXP2 (R97): An SFN entry evaluates 2^x for each element. -/
  | sfnExp2 (uid : Nat)
  /-- SFN_EXP (R97): An SFN entry evaluates e^x for each element. -/
  | sfnExp (uid : Nat)
  /-- SFN_LOG2 (R97): An SFN entry evaluates log2 x for each element. -/
  | sfnLog2 (uid : Nat)
  /-- SFN_RCP (R97): An SFN entry evaluates 1/x for each element. -/
  | sfnRcp (uid : Nat)
  /-- SFN_RSQRT (R97): An SFN entry evaluates the reciprocal square root of each element. -/
  | sfnRsqrt (uid : Nat)
  /-- SFN_SQRT (R97): An SFN entry evaluates the square root of each element. -/
  | sfnSqrt (uid : Nat)
  /-- SFN_TANH (R97): An SFN entry evaluates tanh of each element. -/
  | sfnTanh (uid : Nat)
  /-- SFN_SIGMOID (R97): An SFN entry evaluates the sigmoid of each element. -/
  | sfnSigmoid (uid : Nat)
  /-- SFN_SILU (R604): An SFN entry evaluates x times sigmoid x with unrounded inner values. -/
  | sfnSilu (uid : Nat)
  /-- SFN_GELU (R604): An SFN entry evaluates the tanh form of GELU with its 40-bit inner argument. -/
  | sfnGelu (uid : Nat)
  /-- SFN_MICROPROGRAM (R101): An SFN entry naming a slot runs its micro-program steps element by element. -/
  | sfnMicroprogram (uid : Nat)
  /-- TS_LOAD (R38): A TS_LOAD entry copies Topsoil lines to the operand store, stalling on FEED slots not yet FULL. -/
  | tsLoad (uid : Nat)
  /-- TS_STORE (R38): A TS_STORE entry copies operand-store lines to Topsoil with their tags. -/
  | tsStore (uid : Nat)
  /-- SELECT (R39): A SELECT entry emits one of two head beats by a predicate bit and discards the other. -/
  | select (uid : Nat)
  /-- FORWARD (R39): A FORWARD entry passes beats from an input port to output ports unchanged. -/
  | forward (uid : Nat)
  /-- SEND (R39): A SEND entry emits operand-store lines on its output ports. -/
  | send (uid : Nat)
  /-- RECV (R68): A RECV entry writes beats from an input port into the operand store with its tag. -/
  | recv (uid : Nat)
  /-- SCATTER_ROUTE (R297): A ROUTE entry selects each token's experts, places or drops each choice by rank and writes queue entries. -/
  | scatterRoute (uid : Nat)
  /-- SCATTER_CLOSE (R291): A CLOSE entry closes the open round and sends every remaining round of the layer empty. -/
  | scatterClose (uid : Nat)
  /-- SCATTER_COMBINE (R305): A COMBINE entry emits complete combine records' rows in token order, summed in ascending expert index. -/
  | scatterCombine (uid : Nat)
  /-- SCATTER_RETURN (R302): A RETURN entry writes a return frame to the token's combine slot. -/
  | scatterReturn (uid : Nat)
  /-- STAT_ACC (R113): An ACC entry accumulates one row into a Welford record. -/
  | statAcc (uid : Nat)
  /-- STAT_RMS_ACC (R113): An RMS_ACC entry accumulates one row's sum of squares into an RMS record. -/
  | statRmsAcc (uid : Nat)
  /-- STAT_MERGE (R112): A MERGE entry merges vectors of statistics records in fixed order. -/
  | statMerge (uid : Nat)
  /-- STAT_FINISH (R116): A FINISH entry derives mean, variance and reciprocal deviation from records. -/
  | statFinish (uid : Nat)
  /-- STREAMING_BEAT_CONSUME (R50): A streaming entry stalled on a missing beat consumes it when it arrives. -/
  | streamingBeatConsume (uid id : Nat)
  /-- BEAT_EMIT (R50): An output beat waiting for a credit is sent once its port holds one. -/
  | beatEmit (uid plane port : Nat)
  /-- ENGINE_COMPLETE (R49): A fired entry finishes on its engine, freeing the engine and its operand-store hazards. -/
  | engineComplete (uid id : Nat) (x : EngineEnd)
  /-- SHAPE_LOAD_COMPLETE (R44): A shape-word read completes and loads the counter's limit, releasing waiting entries. -/
  | shapeLoadComplete (uid plane ctr : Nat)
  /-- SHAPE_REREAD (R45): A shape word read with VALID 0 is read again after 1 µs. -/
  | shapeReread (uid plane ctr : Nat)
  /-- SHAPE_TIMEOUT (R45): VALID still 0 at the wait bound fails the context. -/
  | shapeTimeout (uid plane ctr : Nat)
  /-- HALT (R60): A write of UNIT_CTRL.HALT stops or resumes firing on the unit. -/
  | halt (m : Master) (uid v : Nat)
  /-- OFFLINE (R60): A write of UNIT_CTRL.OFFLINE halts the unit and invalidates every plane. -/
  | offline (m : Master) (uid v : Nat)
  /-- FORCE_STATIC (R56): A write of SEQ_MODE.FORCE_STATIC requests static-rate mode, applied at the next program-run start. -/
  | forceStatic (m : Master) (uid v : Nat)
  /-- FOLD_ADVANCE (R161): The sequencer passes to the next fold entry after BEATS beats or YIELD idle cycles. -/
  | foldAdvance (uid : Nat) (yielded : Bool)
  /-- FOLD_COMMIT (R184): A write of COMMIT marks the shadow fold schedule for installation. -/
  | foldCommit (m : Master) (uid : Nat)
  /-- FOLD_INSTALL (R184): At the wrap from the last schedule entry the shadow schedule takes effect. -/
  | foldInstall (uid : Nat) (yielded : Bool)
  /-- FOLD_REBUILD (R168): Every 100 µs the stroke core rebuilds shared units' fold schedules by share weight. -/
  | foldRebuild (seat : Nat)
  /-- DEMAND_STEP (R515): An island's demand loop raises or lowers its frequency one step on its timer. -/
  | demandStep (uid : Nat) (idle : Bool)
  /-- DROOP_TRIP (R516): A local droop detector trip stretches the island's next cycles. -/
  | droopTrip (uid cycles : Nat)
  /-- THERMAL_READ (R517): Every 10 µs an island reads its junction sensor and moves its thermal ceiling. -/
  | thermalRead (uid tj : Nat)
  /-- STROKE_BEGIN (R127): A switch begins the next stroke once slot 0 has arrived on every live input. -/
  | strokeBegin (seat sw : Nat)
  /-- MARK_TIMEOUT (R128): An input whose stroke marker misses the timeout is declared down. -/
  | markTimeout (seat sw port : Nat)
  /-- SEAT_NET_READY (R130): After 16 strokes of marker barrier the seat sets NET_STATUS.READY. -/
  | seatNetReady (seat : Nat)
  /-- SWITCH_FORWARD (R131): A switch receives a link word and forwards its beat in the shifted slot of the group. -/
  | switchForward (seat sw port slot : Nat) (word : Option Beat) (err : Nat)
  /-- SIDE_WORD (R123): A side word arrives and its credit returns are forwarded upstream. -/
  | sideWord (seat sw link : Nat) (credits : List (Nat × Nat × Nat)) (err : Nat)
  /-- SLOT_TABLE_WRITE (R136): A stroke-core write of NET_SW_DATA sets or clears a slot-table entry. -/
  | slotTableWrite (m : Master) (seat v : Nat)
  /-- GROUP_TEARDOWN (R135): After the source link is quiet for 2 strokes a group's entries are cleared source-first. -/
  | groupTeardown (rig seat idx : Nat)
  /-- CREDIT_STALL (R141): A circuit stalled beyond WD_STROKES is reported and its rig marked for recompilation. -/
  | creditStall (uid plane port : Nat)
  /-- JOIN_STALL (R144): A join stalled beyond JOIN_STROKES is reported and spill credits are granted. -/
  | joinStall (uid plane : Nat)
  /-- CIRCUIT_DEADLOCK (R141): A stall reaching FATAL_MULT times its bound tears down the context. -/
  | circuitDeadlock (uid plane port dir : Nat)
  /-- RIG_LOAD (R162): The RIG_LOAD command validates a rig container and reserves every resource it needs. -/
  | rigLoad (r q others : Nat) (copyOk : Bool)
  /-- PLANE_RECORD_LAND (R166): A plane record lands in a unit's idle bank, streamed again once on a SECDED failure. -/
  | planeRecordLand (uid plane : Nat) (ok : Bool)
  /-- RIG_LOAD_COMPLETE (R166): Once slots are written and records landed, a fresh rig becomes active or a replacement READY and the load completes. -/
  | rigLoadComplete (r q : Nat)
  /-- RIG_UNSTAGE (R167): The RIG_UNSTAGE command discards a staged rig container. -/
  | rigUnstage (r q : Nat)
  /-- RIG_SWITCH (R172): The RIG_SWITCH command launches a rig wave to the incoming rig or an unload. -/
  | rigSwitch (r q : Nat)
  /-- PLANE_FLIP (R174): A wave-pending plane whose conditions hold abandons its run, emits markers and swaps banks. -/
  | planeFlip (uid plane : Nat)
  /-- CIRCUIT_RELEASE (R175): An outgoing circuit is released once both ends have flipped and its link is quiet. -/
  | circuitRelease (c seat idx : Nat)
  /-- WAVE_COMPLETE (R177): When every plane has flipped and released circuits cleared, the incoming rig becomes current. -/
  | waveComplete (c : Nat) (others : Bool)
  /-- WAVE_STALL (R177): A wave not complete within WAVE_US tears down the context. -/
  | waveStall (c : Nat)
  /-- RIG_RUN (R224): The RIG_RUN command launches one instance of each of the rig's stream descriptors. -/
  | rigRun (r q : Nat)
  /-- MAP (R454): The MAP command maps zeroed frames at a virtual range in every replica. -/
  | map (r q : Nat)
  /-- UNMAP (R454): The UNMAP command removes wholly mapped pages and completes after the shootdown drain. -/
  | unmap (r q : Nat)
  /-- MAP_SHARED (R454): The MAP_SHARED command maps another context's frames read-only and marks them SHARED. -/
  | mapShared (r q : Nat)
  /-- TRANSLATION_WALK (R188): A translation unit walks the page table and caches the leaf, or faults. -/
  | translationWalk (tu c va : Nat) (write : Bool)
  /-- TIER_ACCESS (R197): A tier controller checks the frame tag and serves or refuses a line access. -/
  | tierAccess (c off gen seat module : Nat) (write : Bool) (first : Nat) (bs : List Byte) (check : Nat)
  /-- ACCESS_TIMEOUT (R201): An access not completed within its 4 µs lifetime fails its context. -/
  | accessTimeout (c addr gen : Nat)
  /-- ROOT_SEL (R190): A write of ROOT_SEL atomically swaps the context's page-table root. -/
  | rootSel (m : Master) (c v : Nat)
  /-- ROOT_SWAP_DRAIN (R190): At the end of the drain the old tree is reclaimed and SWAP_PEND clears. -/
  | rootSwapDrain (c : Nat)
  /-- SHOOTDOWN (R202): A shootdown command invalidates cached translations for a page, context or all. -/
  | shootdown (m : Master) (v : Nat)
  /-- SHOOTDOWN_COMPLETE (R202): Every translation unit concerned has acknowledged the shootdown. -/
  | shootdownComplete
  /-- SHOOTDOWN_DRAIN_END (R202): 4 µs after completion every earlier-translated access has completed. -/
  | shootdownDrainEnd
  /-- TILLER_PERIOD (R204): Each Tiller period halves heat, advances idle counts and starts promotions, demotions and moves. -/
  | tillerPeriod
  /-- MIGRATION_WRITE_DRAIN (R206): After the write drain the page copy begins. -/
  | migrationWriteDrain (id : Nat)
  /-- MIGRATION_COPY_DONE (R206): With the copy landed the entry is switched to the new frame and held writes released. -/
  | migrationCopyDone (id : Nat) (ue : List Nat)
  /-- MIGRATION_READ_DRAIN (R206): After the read drain the old frame is set to SCRUB. -/
  | migrationReadDrain (id : Nat)
  /-- FRAME_SCRUB_DONE (R219): A frame finishes zero-filling and becomes FREE, freeing IDs and version entries when the last one does. -/
  | frameScrubDone (f : Nat)
  /-- HBM_TEMP_CHANGE (R211): A stack's temperature crossing a threshold changes its refresh or throttling. -/
  | hbmTempChange (k temp : Nat)
  /-- HBM_RETRAIN (R211): A stack retrains its channels one at a time after a temperature move or high corrected-error rate. -/
  | hbmRetrain (k rate outcome : Nat)
  /-- PATROL_SCRUB (R217): The patrol reads a line, writes back corrections and poisons uncorrectable lines. -/
  | patrolScrub (off outcome : Nat)
  /-- CXL_EVENT_POLL (R214): Every second cox firmware reads CXL device event records and retires named frames. -/
  | cxlEventPoll (p : Nat) (recs : List (Nat × Bool))
  /-- BEDROCK_OFFLINE (R215): A write of OFFLINE starts evacuating a Bedrock port. -/
  | bedrockOffline (m : Master) (p : Nat)
  /-- EVACUATION_DONE (R215): When the port holds nothing it is taken down. -/
  | evacuationDone (p : Nat)
  /-- BEDROCK_ONLINE (R215): A write of ONLINE adds a trained port's capacity to the free pool. -/
  | bedrockOnline (m : Master) (p : Nat)
  /-- BEDROCK_SURPRISE_REMOVAL (R215): Surprise removal, link loss or viral state fails the port and tears down contexts on it. -/
  | bedrockSurpriseRemoval (p : Nat)
  /-- BEDROCK_HOT_ADD (R215): A device added to an empty port is trained and enumerated. -/
  | bedrockHotAdd (p width gts : Nat) (flit256 lopt single : Bool) (gib : Nat)
  /-- STREAM_REACH (R240): An engine reaches a command's stream instances once fetch-ahead and dependence conditions allow. -/
  | streamReach (id : Nat)
  /-- STREAM_SHAPE_READ (R229): A stream's shape word is read and sets the counted dimension. -/
  | streamShapeRead (id w : Nat) (poison : Bool)
  /-- STREAM_SHAPE_TIMEOUT (R229): A stream shape word still invalid at WAIT_US tears down the context. -/
  | streamShapeTimeout (id : Nat)
  /-- STREAM_REQUEST_ISSUE (R236): A path grants the eligible request with the smallest run-dry key. -/
  | streamRequestIssue (seat path : Nat)
  /-- STREAM_REQUEST_COMPLETE (R231): A request's lines land, filling a slot, staging buffer or destination. -/
  | streamRequestComplete (id elem first : Nat) (remote : List (Line × Bool))
  /-- FEED_TIMEOUT (R232): A TS_LOAD stalled on a ring for WAIT_US tears down the context. -/
  | feedTimeout (uid vbase : Nat)
  /-- STREAM_JOB_VOID (R244): A job is voided, stopping its requests and marking its buffers and slots VOID. -/
  | streamJobVoid (m : Master) (seat v : Nat)
  /-- SELECTION_REQUEST (R266): A selection request beat and its scores are ranked and the page list and shape word written. -/
  | selectionRequest (u c : Nat) (req : Line) (beats : List (Line × Bool))
  /-- SEAL_PASS_COMPLETE (R262): A seal pass's summaries land, SUMMARY_VALID and SEALED are set and CHAIN_HASH computed. -/
  | sealPassComplete (handle page : Nat) (poisoned : Bool)
  /-- SEDIMENT_LOOKUP (R273): A shard examines chain hashes, confirms hits by token comparison, pins them and replies. -/
  | sedimentLookup (src : LookupFrom) (handle first epoch domain version fmt : Nat) (pages : List (Nat × List Nat)) (crcBad : List Nat)
  /-- LOOKUP_REPLY (R273): The owning module receives a lookup reply, or discards it as late. -/
  | lookupReply (handle first : Nat) (addrs : List Nat)
  /-- LOOKUP_TIMEOUT (R26): A lookup unanswered for 100 µs counts as a miss for every block. -/
  | lookupTimeout (handle : Nat)
  /-- COPY_ORDER (R274): A shard receives a copy order and copies pinned extents into the reserved pages. -/
  | copyOrder (owner handle : Nat) (what : CopyFor) (dest : List Nat)
  /-- SEDIMENT_COPY_LANDED (R274): Copied extents land, headers are rewritten and the pins released. -/
  | sedimentCopyLanded (owner handle landed : Nat)
  /-- PIN_TIMEOUT (R274): A pin with no copy order within PIN_MS is released. -/
  | pinTimeout (owner handle : Nat)
  /-- DEPOSIT_OFFER (R277): A shard treats offered sealed pages in chain order, creating PENDING entries or refusing. -/
  | depositOffer (owner handle domain version fmt epoch size : Nat) (pages : List (Nat × Nat))
  /-- DEPOSIT_LANDED (R277): A deposited extent lands and its entry becomes VALID. -/
  | depositLanded (owner handle page hash : Nat)
  /-- OFFER_TIMEOUT (R277): An accepted page not landed within OFFER_MS is removed. -/
  | offerTimeout (owner handle page hash : Nat)
  /-- SHARD_EVICT (R278): A shard below LOW evicts unpinned leaf entries, oldest first, until HIGH. -/
  | shardEvict
  /-- INDEX_REBUILD (R280): A rebuild writes the other bucket array for resizing, rebalancing or key rotation. -/
  | indexRebuild (log2 : Nat) (rotate : Option Nat)
  /-- INDEX_SWAP (R280): A finished rebuild is swapped in atomically after replaying changes. -/
  | indexSwap
  /-- INDEX_RECLAIM (R280): The old array or map is reclaimed 4 µs after its last latched reply. -/
  | indexReclaim
  /-- SHARD_MAP_SWAP (R280): The shard map swaps generation on every module. -/
  | shardMapSwap (map : List Nat)
  /-- MAP_INSTALL (R287): The MAP_INSTALL command writes and validates an expert map in the idle copy and flips GEN. -/
  | mapInstall (r q : Nat) (agree : Bool)
  /-- EXPMAP_RECLAIM (R288): The old map copy is reclaimed 4 µs after its last latched round closes. -/
  | expmapReclaim (c : Nat)
  /-- COUNT_HEADER_SEND (R298): Once a region's entry writes are acknowledged the source sends its count header. -/
  | countHeaderSend (c round expert : Nat)
  /-- COUNT_HEADER_ARRIVE (R299): A home queue controller accepts or holds a count header and adds its drops. -/
  | countHeaderArrive (c queue : Nat) (h : CountHdr)
  /-- COUNT_HEADER_RELEASE (R299): A held count header is accepted once its bank's COUNT has been read READERS times. -/
  | countHeaderRelease (c queue region bank : Nat)
  /-- RETURN_FRAME_LAND (R302): A return frame's last line lands and sets ARRIVED in the combine record. -/
  | returnFrameLand (c va : Nat) (frame : List (Line × Bool))
  /-- RETURN_TIMEOUT (R306): A round not complete RETURN_US after close tears down the context. -/
  | returnTimeout (c round : Nat)
  /-- ADMIT (R316): The ADMIT command checks a request and creates its Start List entry and handle. -/
  | admitCmd (r q : Nat)
  /-- CANCEL (R328): The CANCEL command sets CANCEL_PEND, acted on at the observing boundary. -/
  | cancel (r q : Nat)
  /-- PAUSE (R329): The PAUSE command sets PAUSE_PEND with a time-to-live. -/
  | pause (r q : Nat)
  /-- RESUME (R331): The RESUME command withdraws a pending pause or claims a paused request back. -/
  | resume (r q : Nat)
  /-- REPIN (R337): The REPIN command moves a request to another version, rebuilding it as a join. -/
  | repin (r q : Nat)
  /-- STEP_BOUNDARY (R319): A step boundary commits tokens, applies commands, frees and reserves pages and rebuilds the batch. -/
  | stepBoundary (bad pool : List Nat) (sites : List ShapeSite)
  /-- IDLE_BOUNDARY (R320): A DECODE module with nothing running opens a boundary within IDLE_US of an event. -/
  | idleBoundary (bad pool : List Nat) (sites : List ShapeSite)
  /-- STEP_LAUNCH (R336): Once changes are mirrored the step descriptor is built and the step launched. -/
  | stepLaunch
  /-- SUB_BATCH_COMPLETE (R336): A version sub-batch finishes and the next sub-batch's rig is switched in by a wave. -/
  | subBatchComplete
  /-- WORK_ITEM (R334): A work module receives a prefill work item and computes and ships its positions. -/
  | workItem (handle owner c ver first count : Nat) (job : WorkJob) (addrs : List Nat) (good : Bool)
  /-- PROGRESS (R334): The owner receives a PROGRESS notice for the current job. -/
  | progress (handle job : Nat)
  /-- LAST_LAYER (R334): A LAST_LAYER notice moves the entry from PREFILL to SHIPPING. -/
  | lastLayer (handle job : Nat)
  /-- DONE_NOTICE (R334): A DONE notice lets the entry pass to DECODE at the next boundary. -/
  | doneNotice (handle job : Nat)
  /-- FAILED_NOTICE (R334): A FAILED notice voids the job and resends or fails the request. -/
  | failedNotice (handle job : Nat)
  /-- WORK_TIMEOUT (R334): A work item silent for WORK_MS is voided and sent again. -/
  | workTimeout (handle : Nat)
  /-- PAUSE_COPY_LANDED (R329): A pause copy lands at the holder, clearing COPY_OUT. -/
  | pauseCopyLanded (owner handle ttl : Nat) (copy : PauseCopy)
  /-- PAUSE_EXPIRY (R330): At EXPIRY_S the holder frees the pages and sends EXPIRED. -/
  | pauseExpiry (handle : Nat)
  /-- EXPIRED_NOTICE (R330): The owner receives EXPIRED and ends the request FAILED. -/
  | expiredNotice (handle : Nat)
  /-- CLAIM (R331): The holder receives CLAIM and answers CLAIMED or EXPIRED. -/
  | claim (handle owner : Nat)
  /-- CLAIMED (R331): The owner receives CLAIMED and the entry becomes RESUMING. -/
  | claimed (handle : Nat)
  /-- RETURN_COPY_LANDED (R331): A resumed request's return copies land in its reserved pages. -/
  | returnCopyLanded (handle : Nat)
  /-- SAMPLING_REQUEST (R343): A service unit takes a sampling request beat and its logits and draws one token. -/
  | samplingRequest (u c : Nat) (req : Line) (beats : List (Line × Bool))
  /-- LINK (R370): A LINK flit delivers acknowledgements, a NAK and credit returns. -/
  | link (port ack : Nat) (nak : Bool) (credits : List Nat)
  /-- FLIT_DAMAGED (R370): An uncorrectable FEC block or bad HCRC makes the receiver discard flits and send NAK. -/
  | flitDamaged (port : Nat) (what : Damage)
  /-- RD_REQ (R368): A read request message arrives at its destination module. -/
  | rdReq (h : MemHdr)
  /-- WR_REQ (R368): A write request message arrives and is applied once its last flit arrives untruncated. -/
  | wrReq (h : MemHdr) (trunc : Bool) (data : List Byte) (poison : List Bool)
  /-- RD_RSP (R368): A read response arrives at the requester. -/
  | rdRsp (tag : Nat) (refused : Bool) (lines : List (Line × Bool))
  /-- WR_ACK (R368): A write acknowledgement arrives at the requester. -/
  | wrAck (tag : Nat)
  /-- BEAT (R180): A BEAT message lands beats of a cross-module circuit at the destination gateway. -/
  | beat (h : MemHdr) (trunc : Bool) (beats : List Beat) (credits : Nat)
  /-- MESSAGE_FORWARD (R385): A router looks up a head flit and forwards the message toward its destination. -/
  | messageForward (m : FabMsg) (e : Ingress)
  /-- HELD_EXPIRY (R397): A held message reaching its lifetime is discarded. -/
  | heldExpiry
  /-- TRANSIT_FAULT (R395): A TRANSIT_FAULT notice charges a transit discard to the sending context. -/
  | transitFault (slice ctx cause : Nat)
  /-- FLIT_LOSS (R397): A FLIT_LOSS notice makes the sender tear down the named context. -/
  | flitLoss (slice ctx : Nat)
  /-- BEACON_SEND (R377): Every BEACON_US a beacon flit is sent on each trained port. -/
  | beaconSend (port : Nat)
  /-- BEACON (R379): A received beacon confirms, miswires or conflicts the port. -/
  | beacon (port : Nat) (b : Beacon)
  /-- PORT_TRAIN (R374): A physical port runs its training sequence and comes up, degraded or down. -/
  | portTrain (port lanes : Nat) (asym : Int)
  /-- RETRAIN (R375): A write of FAB_PORT_CTRL.RETRAIN drains and retrains the port. -/
  | retrain (m : Master) (port v : Nat)
  /-- DISABLE (R403): A write of FAB_PORT_CTRL.DISABLE holds the port DISABLED. -/
  | disable (m : Master) (port v : Nat)
  /-- LINK_RETRAIN (R375): More than 16 uncorrectable blocks in 1 ms make cox firmware retrain the port. -/
  | linkRetrain (port : Nat)
  /-- LINK_LOSS (R391): Lost block lock or eight failed replays mask the port and issue a LINK_STATE notice. -/
  | linkLoss (port : Nat) (lock : Bool)
  /-- LINK_STATE (R391): A LINK_STATE notice is flooded and new tables written for its AT. -/
  | linkState (origin seq : Nat) (x : LinkChange)
  /-- GONE (R391): A GONE notice marks every port facing the leaving module down. -/
  | gone (origin seq m at_ : Nat) (twin : Option Nat) (queues : List (Nat × Nat))
  /-- ROUTE_SWAP (R388): At fabric time AT injection flips to the new routing copy. -/
  | routeSwap
  /-- ROUTE_RECLAIM (R389): At AT plus 5 µs the old routing copy is reclaimed. -/
  | routeReclaim
  /-- TIME (R399): A TIME flit updates link delay and slews the module's fabric time toward its parent. -/
  | time (port tTx tEcho : Nat) (corr : Int) (depth root : Nat)
  /-- TIME_SEND (R399): Every 10 µs each UP port sends a TIME flit. -/
  | timeSend (port : Nat)
  /-- PARENT_LOSS (R400): No TIME flit from the parent for 100 µs makes the module choose a new parent. -/
  | parentLoss
  /-- TIME_HOLDOVER (R400): No parent for 10 ms makes the module free-run and clear SYNC. -/
  | timeHoldover
  /-- COLLECTIVE (R409): The COLLECTIVE command reads its descriptor, sends joins and starts scattering segments. -/
  | collective (r q : Nat)
  /-- COLL_JOIN (R422): A COLL_JOIN lets gather data be written into the joining member's result area. -/
  | collJoin (c collId crc seq rank : Nat)
  /-- COLL_FRAME (R420): A collective frame header arrives and is checked against the instance. -/
  | collFrame (c : Nat) (frame : FrameIn)
  /-- SEGMENT_FOLD (R421): A segment is folded once lower ranks are folded and a release is sent. -/
  | segmentFold (c key rank : Nat)
  /-- COLL_RELEASE (R421): A COLL_RELEASE lets the sender write its next segment. -/
  | collRelease (c collId crc owner segment : Nat)
  /-- COLLECTIVE_COMPLETE (R423): An instance completes once segments are released, chunks folded and gathers arrived. -/
  | collectiveComplete (c key : Nat)
  /-- COLL_TIMEOUT (R423): An instance not complete within TIMEOUT_US tears down the context. -/
  | collTimeout (c key : Nat)
  /-- SQ_DOORBELL (R441): A doorbell on a submission ring advances its tail. -/
  | sqDoorbell (m : Master) (r v : Nat)
  /-- CQ_DOORBELL (R441): A doorbell on a completion or token ring frees records. -/
  | cqDoorbell (m : Master) (r v : Nat)
  /-- RING_ENABLE (R439): A write of ENABLE 1 checks the ring configuration and activates it. -/
  | ringEnable (m : Master) (r : Nat)
  /-- RING_DISABLE (R439): A write of ENABLE 0 disables or recovers the ring. -/
  | ringDisable (m : Master) (r : Nat)
  /-- DESCRIPTOR_FETCH (R442): Command descriptors are fetched, sequence-checked and CQ records reserved. -/
  | descriptorFetch (r : Nat) (descs : List Descriptor)
  /-- COMMAND_LAUNCH (R447): A command launches in sequence order when its marks are met and its engine accepts it. -/
  | commandLaunch (r : Nat)
  /-- DEP_TIMEOUT (R448): A command waiting on its marks beyond DEP_MS completes DEP_TIMEOUT. -/
  | depTimeout (r : Nat)
  /-- MSI_X_INTERRUPT (R440): A ring's vector is raised when records were added and ITR_US has passed. -/
  | msiXInterrupt (r : Nat)
  /-- CMD_NOP (R450): The NOP command completes at launch. -/
  | cmdNop (r q : Nat)
  /-- COPY (R454): The COPY command moves bytes between host memory and context memory. -/
  | copy (r q : Nat)
  /-- CTX_CREATE (R455): The CTX_CREATE command creates a local or spanning context. -/
  | ctxCreate (r q : Nat) (busy : List Nat)
  /-- CTX_DESTROY (R459): The CTX_DESTROY command tears the context down on every module. -/
  | ctxDestroy (r q : Nat)
  /-- CTX_SET (R457): The CTX_SET command changes a context's weight, priority or quotas. -/
  | ctxSet (r q : Nat)
  /-- CTX_ATTACH (R455): The CTX_ATTACH command makes a spanning context usable by this VI here. -/
  | ctxAttach (r q : Nat)
  /-- PKG_LOAD (R475): The PKG_LOAD command verifies a weight package and lands its shard. -/
  | pkgLoad (r q : Nat)
  /-- VERSION_LIVE (R479): The VERSION_LIVE command sets a model's live pointer at a table flip. -/
  | versionLive (r q : Nat)
  /-- VERSION_RETIRE (R335): The VERSION_RETIRE command marks a version retiring. -/
  | versionRetire (r q : Nat)
  /-- VI_SETUP (R436): The VI_SETUP command sets a virtual interface's limits and rings. -/
  | viSetup (r q : Nat)
  /-- CONFIG_REQUEST (R433): A PCI Express configuration request is answered, or retried before boot stage B3 plus 80 ms. -/
  | configRequest (fn : Nat) (setVf : Bool)
  /-- VF_FLR (R437): A VF function-level reset disables its VI and tears down its contexts. -/
  | vfFlr (n : Nat)
  /-- PF_FLR (R437): A PF function-level reset disables every VI. -/
  | pfFlr
  /-- VF_ENABLE_CLEAR (R437): Clearing VF Enable disables every VF's VI. -/
  | vfEnableClear
  /-- DL_DOWN (R437): Loss of the host link disables every VI. -/
  | dlDown
  /-- TILE_LAND (R476): A landed tile is hashed and compared, and pages whose tiles all match become readable. -/
  | tileLand (ver va : Nat) (lost : Bool)
  /-- ENTRY (R494): The twin receives and applies an entry image record. -/
  | entry (h : TwinHdr) (e : Entry)
  /-- ADMIT_DATA (R494): The twin receives a request's latched blocks. -/
  | admitData (h : TwinHdr) (samp : SampBlk) (g : Grammar)
  /-- TOKENS (R494): The twin receives committed or prompt token IDs. -/
  | tokens (h : TwinHdr) (first : Nat) (ids : List Nat)
  /-- MIRROR_MAP (R496): The owner receives the addresses of mirror extents. -/
  | mirrorMap (h : TwinHdr) (first : Nat) (addrs : List Nat)
  /-- CKPT (R497): The twin receives CKPT and advances CKPT_LEN. -/
  | ckpt (h : TwinHdr) (first count : Nat)
  /-- HEARTBEAT (R499): A heartbeat from the twin resets silence and may return a split pair to JOINING. -/
  | heartbeat (h : TwinHdr)
  /-- HOLD (R498): A holder's twin records a paused request's hold, claim, expiry or release. -/
  | hold (h : TwinHdr) (owner expiry pages : Nat) (claimed : Bool)
  /-- VERSIONS (R480): The twin's version table is received and roots compared. -/
  | versions (h : TwinHdr) (es : List (Nat × Nat × Nat))
  /-- SUSPECT (R500): A module receives SUSPECT from its twin and answers. -/
  | suspect (h : TwinHdr)
  /-- FENCE (R501): A module receives FENCE and confirms its twin lost. -/
  | fence (sender : Nat) (lost : Bool)
  /-- LEAVING (R510): A twin receives LEAVING and confirms the loss for takeover. -/
  | leaving (sender : Nat) (lost : Bool)
  /-- HANDOVER (R509): The twin receives HANDOVER and rebuilds every entry. -/
  | handover (h : TwinHdr)
  /-- RESYNC_BEGIN (R508): A resync begins and entries are sent in ascending index. -/
  | resyncBegin (h : TwinHdr)
  /-- RESYNC_END (R508): With RESYNC_END acknowledged the module counts as ACTIVE. -/
  | resyncEnd (h : TwinHdr)
  /-- OWNER_MOVED (R502): A holder learns that a paused request's owner has moved to the survivor. -/
  | ownerMoved (owner old new : Nat)
  /-- MIRROR_ACK_TIMEOUT (R493): A SYNC record unacknowledged for 10 µs makes the twin suspected. -/
  | mirrorAckTimeout
  /-- TWIN_SILENCE (R500): Nothing heard from the twin for 10 µs starts suspicion and witness queries. -/
  | twinSilence
  /-- WITNESS_QUERY (R500): A cube neighbour answers with its port state to the suspected twin. -/
  | witnessQuery (from_ m : Nat)
  /-- WITNESS_ANSWER (R500): A witness answer is received toward confirmation. -/
  | witnessAnswer (from_ m : Nat) (down : Bool)
  /-- CONFIRMATION_TIMEOUT (R500): 8 µs after SUSPECT the twin is judged LOST or the pair SPLIT. -/
  | confirmationTimeout
  /-- HEARTBEAT_SEND (R499): A heartbeat is sent after 2 µs without any record. -/
  | heartbeatSend
  /-- ISOLATED (R501): Every cube port down for 10 µs makes the module fence. -/
  | isolated
  /-- CHECKPOINT_ACKED (R497): Once a checkpoint's writes are acknowledged the owner sends CKPT. -/
  | checkpointAcked (handle : Nat)
  /-- DETACH (R509): The operator's DETACH starts a FINISH or HAND detach. -/
  | detach (q : Ask) (hand : Bool)
  /-- DRAIN_TIMEOUT (R509): A FINISH detach reaching DRAIN_S hands over what remains. -/
  | drainTimeout
  /-- TRAY_LEAVE_N (R510): TRAY_LEAVE_N asserted fences the module with LEAVING and runs the tray-pull sequence. -/
  | trayLeaveN
  /-- READMIT_EXPIRY (R506): A torn spread request's image not re-admitted within READMIT_S is discarded. -/
  | readmitExpiry
  /-- CAP_CONTROL_TICK (R533): Every 1 µs the Keel adjusts stretch level and module ceiling against the cap. -/
  | capControlTick (vin iin pin : Nat) (plate : Option (Nat × Nat × Nat))
  /-- ALERT_ASSERT (R532): An alert source asserts and the alert cap applies with full stretch. -/
  | alertAssert (source : Nat) (sensor : Bool)
  /-- ALERT_DEASSERT (R535): An alert source deasserts and the clear count starts when all have. -/
  | alertDeassert (source : Nat) (sensor : Bool)
  /-- ALERT_CLEAR (R535): After CLEAR_MS with every source deasserted the cap returns to MODULE_W. -/
  | alertClear
  /-- SUSTAINED (R536): An alert in force for SUSTAIN_MS hands over to the twin and enters M1. -/
  | sustained
  /-- INPUT_LOSS (R538): Input below 40 V for 10 µs fences the module with LEAVING. -/
  | inputLoss
  /-- JUNCTION_TRIP (R539): A junction reaching TRIP_C forces the emergency throttle. -/
  | junctionTrip (uid : Option Nat) (tj : Nat)
  /-- THERM_TRIP (R539): A junction still at TRIP_C 1 ms later fences the module and enters M4. -/
  | thermTrip
  /-- TARGET (R518): A write of PWRCLK_REQ.TARGET requests M0, M1 or M3. -/
  | target (m : Master) (t : Nat)
  /-- SEAT_SLEEP_REQ (R520): A write of SEAT_SLEEP_REQ tests refusal conditions and puts a seat into M2. -/
  | seatSleepReq (m : Master) (mask : Nat)
  /-- SEAT_SLEEP_ENTRY (R524): The seat saves its list, passes wake detection to the always-on domain and power-gates. -/
  | seatSleepEntry (seat edges : Nat)
  /-- SEAT_WAKE (R524): A wake source ramps the seat's rails and restores its saved state. -/
  | seatWake (seat : Nat) (okA okB : Bool)
  /-- SEAT_WAKE_COMPLETE (R524): At X4 the seat is READY and held accesses are released. -/
  | seatWakeComplete (seat : Nat)
  /-- WAKE (R542): A write of PWRCLK_HOST_WAKE.WAKE wakes the module from M3. -/
  | wake (m : Master)
  /-- TIMED_WAKE (R524): Fabric time reaching PWRCLK_WAKE_AT wakes the module from M3. -/
  | timedWake
  /-- KEEL_ORDER (R529): A Keel order arrives, is queued and tested, and answered with a receipt. -/
  | keelOrder (q : Ask) (bs : List Nat)
  /-- WRITES (R529): An accepted WRITES order commits its KEEL register writes together. -/
  | writes (names : Option Nat)
  /-- KEY_INSTALL (R472): An accepted KEY_INSTALL order writes a publisher key slot. -/
  | keyInstall
  /-- ANCHOR_SET (R529): An accepted ANCHOR_SET order installs the Keel anchor key. -/
  | anchorSet
  /-- KEEL_LOCKSTEP (R541): A Keel lockstep mismatch resets the Keel and reloads its state. -/
  | keelLockstep
  /-- ERR_RING_CONS (R550): A write of CONS frees error-ring entries, draining the backlog and ending a stall. -/
  | errRingCons (m : Master) (v : Nat)
  /-- GO (R557): A write of SNAP_CTRL.GO starts a photo-finish trigger. -/
  | go (m : Master)
  /-- PHOTO_FINISH (R557): A PHOTO_FINISH notice schedules a latch at its target time. -/
  | photoFinish (id target scope slice : Nat)
  /-- SNAPSHOT_LATCH (R558): At the target time every snapshot register is copied to its shadow. -/
  | snapshotLatch
  /-- SNAPSHOT_PACK (R560): A latch is packed into snapshot records in a store slot and optionally the host. -/
  | snapshotPack
  /-- CLEAR (R561): A write of PMC_SEL.CLEAR zeroes a performance counter. -/
  | clear (m : Master) (k : Nat)
  /-- LOG_SEL (R567): A write of LOG_SEL starts fetching a logbook record. -/
  | logSel (m : Master) (seq : Nat)
  /-- LOG_READY (R567): The fetched record is in LOG_DATA, or NOT_FOUND is set. -/
  | logReady
  /-- LOG_PERIODIC (R563): Every PERIODIC_S a PERIODIC record and the ledger are written. -/
  | logPeriodic
  /-- LOG_DAILY (R563): Every 24 h of power-on AGING and HBM records are written. -/
  | logDaily (drifts : List Nat)
  /-- LOG_PROGRAM (R566): The Keel programs a buffered record and keeps an erased sector ahead. -/
  | logProgram (ok : Bool)
  /-- LOG_SUPPRESSED (R566): Each second with capped records a SUPPRESSED record is written. -/
  | logSuppressed
  /-- FULL_BOOT (R585): Power-on, input restored or MOD_RESET_N release starts a full boot. -/
  | fullBoot (cause : Nat) (slotOpen : Bool)
  /-- BOOT_STAGE_COMPLETE (R585): A boot stage completes and its successors start, ending with READY. -/
  | bootStageComplete (stage : Nat) (x : BootReport)
  /-- MOD_RESET_N (R584): MOD_RESET_N asserted for 1 µs fences the module and resets all but Keel and always-on. -/
  | modResetN
  /-- PERST_N (R583): PERST_N resets the host interface only, acting as DL_Down. -/
  | perstN (asserted : Bool)
  /-- REF100_LOST (R578): Loss of the 100 MHz reference fences the module. -/
  | ref100Lost
  /-- REF156_LOST (R578): Loss of the 156.25 MHz reference fences the module. -/
  | ref156Lost
  /-- TIME_PPS (R581): A PPS edge is checked toward the reference lock. -/
  | timePps
  /-- PPS_LOST (R581): An edge missing for 2 s clears the reference lock. -/
  | ppsLost
  /-- TIME_OF_DAY (R581): The TIME_OF_DAY operation announces the next edge's TAI second and UTC offset. -/
  | timeOfDay (q : Ask) (second utc : Nat)
  /-- RAIL_FAULT (R575): A rail out of tolerance for 10 µs fences the module and turns its rails off. -/
  | railFault (rail : Nat)
  /-- HOLDUP_END (R575): Bulk capacitance falling below 32 V takes the rails down in reverse order. -/
  | holdupEnd (inputGone : Bool)
  /-- PORT_RETRY (R587): Every 1 s a down port is retrained during rack mode. -/
  | portRetry
  /-- BUILT_IN_TEST (R590): Built-in test of a unit completes and clears OFFLINE or retires it. -/
  | builtInTest (uid : Nat) (pass : Bool)
  /-- MCTP_CONTROL (R591): An MCTP control message assigns EIDs or reports versions and types. -/
  | mctpControl (q : Ask) (type : Nat) (good : Bool) (cmd eid : Nat)
  /-- GET_INFO (R592): The GET_INFO operation returns identity, versions, boot, pair and pool state. -/
  | getInfo (q : Ask)
  /-- SET_SLICE (R394): The SET_SLICE operation defines slice membership and table for a swap. -/
  | setSlice (q : Ask) (slice table at_ : Nat) (members : List Nat)
  /-- SET_VI (R436): The SET_VI operation applies a VI_SETUP payload. -/
  | setVi (q : Ask) (payload : Descriptor)
  /-- SET_DOMAIN (R269): The SET_DOMAIN operation assigns a VI's sediment domain and its key. -/
  | setDomain (q : Ask) (vi domain : Nat) (key : Option Nat)
  /-- POWER_REQ (R518): The POWER_REQ operation requests a module state or seat sleep. -/
  | powerReq (q : Ask) (t : Nat) (mask : Option Nat)
  /-- SNAPSHOT (R557): The SNAPSHOT operation starts a photo-finish trigger. -/
  | snapshot (q : Ask) (target scope slice : Nat)
  /-- RETIRED_UNITS (R590): The RETIRED_UNITS operation returns a seat's BIST words. -/
  | retiredUnits (q : Ask) (seat : Nat)
  /-- RESOLVE_ID (R380): The RESOLVE_ID operation resolves an identifier conflict. -/
  | resolveId (q : Ask) (serial : Option Nat)
  /-- BEDROCK_PORT (R215): The BEDROCK_PORT operation takes a port offline or online. -/
  | bedrockPort (q : Ask) (port : Nat) (online : Bool)
  /-- SET_BOOT (R592): The SET_BOOT operation stores STANDALONE and ROOT_ALLOW for the next boot. -/
  | setBoot (q : Ask) (standalone rootAllow : Bool)
  /-- LOG_READ (R592): The LOG_READ operation returns logbook records. -/
  | logRead (q : Ask) (first count : Nat)
  /-- SNAP_READ (R560): The SNAP_READ operation returns snapshot records from a slot. -/
  | snapRead (q : Ask) (slot first count : Nat)
  /-- PLDM_MONITORING (R593): A PLDM monitoring request reads sensors and PDRs. -/
  | pldmMonitoring (q : Ask) (sensor : Option Nat)
  /-- PLDM_FIRMWARE_UPDATE (R594): A PLDM firmware update writes and verifies a component in the inactive bank. -/
  | pldmFirmwareUpdate (q : Ask) (component version : Nat) (image key sig : List Nat)
  /-- ACTIVATE_FIRMWARE (R594): ActivateFirmware accepts a verified image for the next full boot. -/
  | activateFirmware (q : Ask) (component : Nat) (selfContained : Bool)
  /-- GET_CERTIFICATE (R595): An SPDM certificate request returns slot 0's chain. -/
  | getCertificate (q : Ask) (slot : Nat)
  /-- CHALLENGE (R595): An SPDM challenge is answered with a device-identity signature. -/
  | challenge (q : Ask) (slot : Nat)
  /-- GET_MEASUREMENTS (R595): An SPDM measurement request returns signed measurement blocks. -/
  | getMeasurements (q : Ask) (index : Nat)
  /-- TAP_INSTRUCTION (R598): A JTAG instruction acts, restricted to IDCODE, BYPASS and SAMPLE unless reset is held. -/
  | tapInstruction (instr : TapInstr)
  /-- HOST_LINK_UP (R437): The PCI Express host link trains and comes up, VI 0 is re-enabled at its reset limits, and LINK_DEGRADED is logged below x16 at 128 GT/s. -/
  | hostLinkUp (rate width : Nat) (flit : Bool)
  /-- PCIE_CORRECTABLE_ERROR (R432): An AER correctable error on the host link is logged as PCIE_CE. -/
  | pcieCorrectableError
  /-- HOST_READ_COMPLETION (R434): A PCI Express completion, or a completion timeout, for a module read of host memory arrives and feeds or fails its COPY or ring fetch. -/
  | hostReadCompletion (r q : Nat) (fetch ok : Bool) (bs : List Byte)
  /-- TRANSMITTER_FFE_STEP (R375): When a lane's corrected symbols average more than 4 per block over 100 µs, the receiver asks the sender for a transmitter FFE step, applied at a block boundary. -/
  | transmitterFfeStep (port lane corrected : Nat)
  /-- HOLDER_FREE (R328): A holder told by the owning module to free a paused request's pages frees them. -/
  | holderFree (handle : Nat)
  /-- FREE_BEDROCK_REPORT (R329): A cache module's report of its free Bedrock, sent over the CTL class at the end of each Tiller period, is recorded at the receiving module for holder choice. -/
  | freeBedrockReport (m units : Nat)
  /-- SLICE_TEARDOWN (R459): A module receives notice that a spanning context was torn down on another module of its slice and runs the teardown steps itself. -/
  | sliceTeardown (c status : Nat)
  /-- REPLICA_UPDATE (R198): A module of a slice receives a page-table or context change from the table master and applies it to its replica. -/
  | replicaUpdate (c kind : Nat) (a : List Nat)
  /-- STANDBY_EXIT_COMPLETE (R518): A module leaving M3 finishes restoring its module area and rejoining its fabric, and sets HOSTVI_DEV_STATUS.READY. -/
  | standbyExitComplete (okA okB : Bool)
  /-- TRAY_LEAVE_N_RELEASE (R574): TRAY_LEAVE_N deasserted for 100 ms lets rails 3 to 8 start their sequence. -/
  | trayLeaveNRelease
deriving DecidableEq, Repr

end Sys2Proof
end

