-- ==== Sys2Proof/Decode.lean ====
section
/-! DEFINITION. The words of the command table. The manual gives a command of this block no word of its own: spec/opcode_table.json gives no row any
bits, so no word spells a command. -/

namespace Sys2Proof

/-- The command that a word of `nbits` bits spells by the table's bits: none, since no row has bits. -/
def decodeTableWord (nbits w : Nat) : Option Instr :=
  match nbits, w with
  | _, _ => none

end Sys2Proof
end

