-- ==== Sys2Proof/Machine/Bits.lean ====
section
/-! DEFINITION. Bit fields of register words and of wider records (R18: bit 0 is the least significant bit, ranges
are [msb:lsb]), and little-endian bytes. -/

namespace Sys2Proof.Machine

/-- The field of `len` bits from bit `lo` up. -/
def getBits (w : Word) (lo len : Nat) : Nat := (w.toNat >>> lo) % 2 ^ len

/-- `w` with the field of `len` bits from bit `lo` up set to `v` mod 2^len. -/
def putBits (w : Word) (lo len v : Nat) : Word :=
  BitVec.ofNat 64 (w.toNat % 2 ^ lo + (v % 2 ^ len) * 2 ^ lo + (w.toNat / 2 ^ (lo + len)) * 2 ^ (lo + len))

/-- A field of a record held as a number of any width. -/
def natBits (n lo len : Nat) : Nat := (n / 2 ^ lo) % 2 ^ len

/-- Bit `i` of a record held as a number. -/
def natBit (n i : Nat) : Bool := (n / 2 ^ i) % 2 == 1

/-- One bit as a number. -/
def bit (b : Bool) : Nat := if b then 1 else 0

/-- The number a list of bytes spells, first byte least significant (R18). -/
def leNat : List Byte → Nat
  | [] => 0
  | b :: r => b.toNat + 256 * leNat r

/-- The `n` little-endian bytes of a number (R18). -/
def leBytes : Nat → Nat → List Byte
  | 0, _ => []
  | n + 1, v => BitVec.ofNat 8 (v % 256) :: leBytes n (v / 256)

/-- The two's complement reading of a field of `len` bits. -/
def signed (len v : Nat) : Int := if v < 2 ^ (len - 1) then (v : Int) else (v : Int) - (2 ^ len : Nat)

/-- The numbers 0 to n - 1. -/
def upTo (n : Nat) : List Nat := List.range n

/-- `v` held to the range lo..hi, the manual's "values outside are clamped". -/
def clamp (lo hi v : Nat) : Nat := if v < lo then lo else if hi < v then hi else v

/-- A bound register's "0 acts as 1; values above hi act as hi". -/
def atLeast1 (v : Nat) : Nat := if v = 0 then 1 else v

end Sys2Proof.Machine
end

