-- ==== Sys2Proof/Machine/Crc.lean ====
section
/-! DEFINITION. The checks records carry: CRC-16/CCITT-FALSE (R547), CRC-32C (R312, R563), both over bytes. -/

namespace Sys2Proof.Machine

/-- One bit step of CRC-16/CCITT-FALSE: polynomial 0x1021, most significant bit first. -/
def crc16Bit (c : Nat) : Nat := if c / 32768 % 2 = 1 then ((c * 2) % 65536) ^^^ 0x1021 else (c * 2) % 65536

/-- One byte step. -/
def crc16Byte (c b : Nat) : Nat :=
  let x := c ^^^ (b % 256 * 256)
  crc16Bit (crc16Bit (crc16Bit (crc16Bit (crc16Bit (crc16Bit (crc16Bit (crc16Bit x)))))))

/-- CRC-16/CCITT-FALSE of bytes: initial value 0xFFFF, no reflection, no final exclusive or. -/
def crc16 (bs : List Nat) : Nat := bs.foldl crc16Byte 0xFFFF

/-- One bit step of CRC-32C: reflected polynomial 0x82F63B78, least significant bit first. -/
def crc32cBit (c : Nat) : Nat := if c % 2 = 1 then (c / 2) ^^^ 0x82F63B78 else c / 2

/-- One byte step. -/
def crc32cByte (c b : Nat) : Nat :=
  let x := c ^^^ (b % 256)
  crc32cBit (crc32cBit (crc32cBit (crc32cBit (crc32cBit (crc32cBit (crc32cBit (crc32cBit x)))))))

/-- CRC-32C of bytes: initial value and final exclusive or 0xFFFFFFFF. -/
def crc32c (bs : List Nat) : Nat := bs.foldl crc32cByte 0xFFFFFFFF ^^^ 0xFFFFFFFF

/-- The little-endian bytes of numbers given with their widths in bytes. -/
def packBytes (fs : List (Nat × Nat)) : List Nat :=
  fs.flatMap fun f => (List.range f.1).map fun i => f.2 / 256 ^ i % 256

/-- The little-endian number of bytes. -/
def natOfBytes (bs : List Nat) : Nat := bs.foldr (fun b acc => b % 256 + 256 * acc) 0

/-- A number from fields given with their widths in bits, lowest first. -/
def packBits (fs : List (Nat × Nat)) : Nat := fs.foldr (fun f acc => f.2 % 2 ^ f.1 + 2 ^ f.1 * acc) 0

/-- Word `w` of a record of bytes. -/
def wordOf (bs : List Nat) (w : Nat) : Word := BitVec.ofNat 64 (natOfBytes ((bs.drop (8 * w)).take 8))

end Sys2Proof.Machine
end

