-- ==== Sys2Proof/Machine/Records.lean ====
section
/-! DEFINITION. Records as the manual lays them out: Start List entry (Table 11.1), error record (Table 19.3), logbook record
(R563), snapshot record (Table 19.6). -/

namespace Sys2Proof.Machine

/-- A Start List entry's 15 words and a half, before its CRC (Table 11.1). -/
def entryWords (e : Entry) : List Nat :=
  let a := e.a
  let b := e.b
  [ packBits [(4, a.state.code), (3, a.priority), (1, bit a.constrained), (1, bit a.hard), (1, bit a.dense), (2, a.deposit),
      (1, bit a.late), (1, bit a.held), (1, bit a.cancelPend), (1, bit a.pausePend), (1, bit a.autoResume), (1, bit a.takenOver),
      (1, bit a.copyOut), (1, bit a.copyIn), (1, bit a.workOut), (3, 0), (8, a.ctx), (18, a.gen), (8, a.vi)],
    packBits [(25, a.curLen), (25, a.maxLen)],
    packBits [(25, a.promptLen), (25, a.hitLen)],
    a.deadline, a.admitTime, a.pageList,
    packBits [(17, a.pages), (15, a.holder), (32, a.expiry)],
    b.samplingPtr, b.penaltyPtr, b.grammarPtr,
    packBits [(13, b.tokenRing), (13, b.complRing), (6, 0), (16, b.version), (16, b.job)],
    packBits [(32, b.steps), (32, b.mirrorSeq)],
    packBits [(25, b.delivered), (15, b.workModule), (8, b.endCode)],
    b.hostTag, 0 ]

/-- The 128 bytes of an entry, its CRC-32C over bytes 0 to 123 last (R312). -/
def entryBytes (e : Entry) : List Nat :=
  let bs := packBytes ((entryWords e).map fun w => (8, w)) ++ [0, 0, 0, 0]
  bs ++ packBytes [(4, crc32c bs)]

/-- SCOPE's code and SCOPE_ID (Table 19.3); `pairNo` is the pair's number, `self` the module's. -/
def scopeFields (sc : Scope) (self pairNo : Nat) : Nat × Nat :=
  match sc with
  | .none => (0, 0)
  | .request h => (1, h)
  | .context c => (2, c)
  | .ring r => (3, r)
  | .module => (4, self)
  | .pair => (5, pairNo)

/-- The 32 bytes of an error record (Table 19.3). -/
def errBytes (r : ErrRec) (self pairNo : Nat) : List Nat :=
  let (sc, id) := scopeFields r.scope self pairNo
  let bs := packBytes
    [(8, r.time), (1, packBits [(3, r.sev), (3, r.raw), (1, bit r.esc), (1, bit r.absorbed)]), (1, r.block), (1, r.fault),
     (1, packBits [(3, sc), (1, bit r.ctx.isSome)]), (4, id), (1, r.ctx.getD 0), (1, r.whereKind), (2, r.whereIs), (8, r.info), (2, r.seq)]
  bs ++ packBytes [(2, crc16 bs)]

/-- The 64 bytes of a logbook record (R563); the body is given as bytes, cut or filled to 42. -/
def logBytes (r : LogRec) : List Nat :=
  let body := (r.body.map (· % 256) ++ List.replicate 42 0).take 42
  let bs := packBytes [(4, r.seq), (4, r.powerOn), (8, r.calendar), (1, r.kind), (1, bit r.calValid + 2 * bit r.deferred)] ++ body
  bs ++ packBytes [(4, crc32c bs)]

/-- A snapshot record (Table 19.6) from its first fourteen bytes and its data. -/
def snapBytes (id kind block instance_ off count flags : Nat) (data : List Nat) : List Nat :=
  let head := packBytes [(4, id), (1, kind), (1, block), (2, instance_), (4, off), (1, count), (1, flags)]
  let data := (data ++ List.replicate 48 0).take 48
  head ++ packBytes [(2, crc16 (head ++ data))] ++ data

end Sys2Proof.Machine
end

