-- ==== Sys2Proof/Config.lean ====
section
/-! DEFINITION. What the manual leaves to the implementation or leaves open: constants with no body. Nothing in
Lean can evaluate one, so a statement holds whatever its value is. -/

namespace Sys2Proof.Config

/-- A free value numbered by the state's counter: what the manual calls undefined or random where the machine goes
on (log 2). -/
opaque freeWord : Nat → BitVec 64

/-- The payload of a null beat (R52): the manual gives it none; one value for every null beat, so that a unit emits the same beats again (R51;
log 2). -/
opaque nullPayload : BitVec 512

/-- What PSET_OP writes where its source gives nothing (no head beat on PSET_PORT, no compare): by the entry's four words (log 2). -/
opaque psetOpen : Nat → Bool

/-- What lanes 1 to 63 of a REDUCE's result vector hold: by operation, lane and the lanes reduced, since R90 has the same inputs give the same
bits (log 2). -/
opaque reduceLane : Nat → Nat → List Nat → BitVec 32

/-- Which of the anchors that hold a scalar operand of a WIDE ADD exactly it takes, by its FP32 bits (R73, R90; log 2). -/
opaque wideAnchor : Nat → Nat

/-- The error of the special-function ROM's line (R97, Table 4.2) for a table and an argument m x 2^e whose m has 40 significant bits: a fraction
of the stated line error, in units of 2^-24 of it. The ROM's segments are not published (log 10). -/
opaque sfnLineError : Nat → Int → Int → Int

/-- SHA-384 of a byte string (R153, R469, R527, R595): named by the manual by its standard only (log 11). -/
opaque sha384 : List Nat → BitVec 384

/-- Whether a signature of the named scheme (1 ML-DSA-87, 2 LMS, 3 ECDSA P-384) verifies: scheme, public key, message and signature as bytes (R528, R471,
R594): named by the manual by its standard only (log 11). -/
opaque sigVerifies : Nat → List Nat → List Nat → List Nat → Bool

/-- The keyed 64-bit hash of a block chain's link is SipHash-2-4 (R271); its permutation is written out in
Machine/Hash.lean. The part's random source (R269, R274, R523): the n-th draw (log 12). -/
opaque randomDraw : Nat → BitVec 128

/-- The hash by which an ordered message picks a member of its logical port (R372): of source, destination, class and tag; the manual does not
give it (log 50). -/
opaque flowHash : Nat → Nat → Nat → Nat → Nat

/-- What a byte of another module's memory holds, by Dwezin address and fabric time, when a command of this module reads it
through the fabric (log 17). -/
opaque remoteByte : Nat → Nat → BitVec 8

/-- An island's voltage in mV from its own calibrated table (R515): unit and frequency in MHz (log 70). -/
opaque islandMv : Nat → Nat → BitVec 12

/-- What TIERS_BR_STAT.RATE_GT, a field of six bits, shows for a rate that it cannot hold, as 64 GT/s (Table 7.8; log 24). -/
opaque rateGtCode : Nat → BitVec 6

/-- Bytes signed or measured by the device identity (R595): the answer of an SPDM request, by request number
(log 11). -/
opaque spdmAnswer : Nat → Nat → BitVec 384

/-- SHA-384 of Kartevi's firmware key, fused into the cox die (R594), and Kartevi's manufacturer code (R598): values of the maker (log 11). -/
opaque firmwareKeyDigest : BitVec 384
opaque manufacturer : BitVec 11

/-- The fabric time at which the owner of a work item, by handle and job, puts the KV due (Table 11.7, R235 and log 119: the spec says how it is used, not
how it is chosen). -/
opaque workDue : Nat → Nat → BitVec 64

/-- The BATCH_MAX that cox firmware takes from a decode rig, by the rig's identifier (R336 and log 122: the spec says what it bounds, not how it follows
from the rig). -/
opaque batchMax : Nat → BitVec 16

end Sys2Proof.Config
end

