-- ==== Sys2Proof/Machine/Registers.lean ====
section
/-! DEFINITION. The registers of the module: their offsets in the physical function's window (R12, Table 0.6; a
seat block at seat 0, a unit frame at unit 0 of seat 0, an array at its first member) and their fields, from the
register tables of the chapters (Tables 0.1, 2.7-2.16, 3.8, 4.11, 5.6-5.8, 6.14, 6.15, 7.8-7.10, 8.4, 9.8, 10.12, 11.8,
12.8, 13.12, 14.7, 15.4, 15.11, 15.12, 16.9, 17.9, 18.10, 18.13, 19.10, 20.14). -/

namespace Sys2Proof.Machine

/-- A register field: the register's offset, the lowest bit, the number of bits. -/
structure Fld where
  reg : Nat
  lo : Nat
  len : Nat
deriving DecidableEq, Repr

/-! ### ident -/

def Reg.IDENT_PART : Nat := 0x00000000
def Fld.IDENT_PART_PART_CODE : Fld := ⟨Reg.IDENT_PART, 0, 16⟩
def Fld.IDENT_PART_STEP_MINOR : Fld := ⟨Reg.IDENT_PART, 16, 4⟩
def Fld.IDENT_PART_STEP_MAJOR : Fld := ⟨Reg.IDENT_PART, 20, 4⟩
def Fld.IDENT_PART_SUBSOIL_GIB : Fld := ⟨Reg.IDENT_PART, 24, 12⟩
def Fld.IDENT_PART_COOLING : Fld := ⟨Reg.IDENT_PART, 36, 4⟩
def Reg.IDENT_SERIAL_0 : Nat := 0x00000008
def Fld.IDENT_SERIAL_0_SERIAL_LO : Fld := ⟨Reg.IDENT_SERIAL_0, 0, 64⟩
def Reg.IDENT_SERIAL_1 : Nat := 0x00000010
def Fld.IDENT_SERIAL_1_SERIAL_HI : Fld := ⟨Reg.IDENT_SERIAL_1, 0, 64⟩
def Reg.IDENT_FW : Nat := 0x00000018
def Fld.IDENT_FW_MAJOR : Fld := ⟨Reg.IDENT_FW, 0, 16⟩
def Fld.IDENT_FW_MINOR : Fld := ⟨Reg.IDENT_FW, 16, 16⟩
def Fld.IDENT_FW_BANK : Fld := ⟨Reg.IDENT_FW, 32, 1⟩

/-! ### unit -/

def Reg.UNIT_ID : Nat := 0x08400000
def Fld.UNIT_ID_UID : Fld := ⟨Reg.UNIT_ID, 0, 14⟩
def Reg.UNIT_STATUS : Nat := 0x08400008
def Fld.UNIT_STATUS_STATE : Fld := ⟨Reg.UNIT_STATUS, 0, 3⟩
def Fld.UNIT_STATUS_CUR_PLANE : Fld := ⟨Reg.UNIT_STATUS, 3, 3⟩
def Fld.UNIT_STATUS_CUR_EPOCH : Fld := ⟨Reg.UNIT_STATUS, 6, 4⟩
def Fld.UNIT_STATUS_STATIC_ACTIVE : Fld := ⟨Reg.UNIT_STATUS, 10, 1⟩
def Fld.UNIT_STATUS_ENG_BUSY : Fld := ⟨Reg.UNIT_STATUS, 11, 3⟩
def Fld.UNIT_STATUS_PLANE_VALID : Fld := ⟨Reg.UNIT_STATUS, 24, 8⟩
def Reg.UNIT_CTRL : Nat := 0x08400010
def Fld.UNIT_CTRL_HALT : Fld := ⟨Reg.UNIT_CTRL, 0, 1⟩
def Fld.UNIT_CTRL_OFFLINE : Fld := ⟨Reg.UNIT_CTRL, 1, 1⟩
def Reg.SEQ_MODE : Nat := 0x08400018
def Fld.SEQ_MODE_FORCE_STATIC : Fld := ⟨Reg.SEQ_MODE, 0, 1⟩
def Fld.SEQ_MODE_STATIC_ACTIVE : Fld := ⟨Reg.SEQ_MODE, 1, 1⟩
def Fld.SEQ_MODE_PEND : Fld := ⟨Reg.SEQ_MODE, 2, 1⟩
def Reg.UNIT_PLANE_MAP : Nat := 0x08400020
def Fld.UNIT_PLANE_MAP_CTX_0 : Fld := ⟨Reg.UNIT_PLANE_MAP, 0, 8⟩
def Fld.UNIT_PLANE_MAP_CTX_1 : Fld := ⟨Reg.UNIT_PLANE_MAP, 8, 8⟩
def Fld.UNIT_PLANE_MAP_CTX_2 : Fld := ⟨Reg.UNIT_PLANE_MAP, 16, 8⟩
def Fld.UNIT_PLANE_MAP_CTX_3 : Fld := ⟨Reg.UNIT_PLANE_MAP, 24, 8⟩
def Fld.UNIT_PLANE_MAP_CTX_4 : Fld := ⟨Reg.UNIT_PLANE_MAP, 32, 8⟩
def Fld.UNIT_PLANE_MAP_CTX_5 : Fld := ⟨Reg.UNIT_PLANE_MAP, 40, 8⟩
def Fld.UNIT_PLANE_MAP_CTX_6 : Fld := ⟨Reg.UNIT_PLANE_MAP, 48, 8⟩
def Fld.UNIT_PLANE_MAP_CTX_7 : Fld := ⟨Reg.UNIT_PLANE_MAP, 56, 8⟩
def Reg.UNIT_VIEW_PLANE : Nat := 0x08400028
def Fld.UNIT_VIEW_PLANE_VIEW : Fld := ⟨Reg.UNIT_VIEW_PLANE, 0, 3⟩
def Reg.SEQ_PC : Nat := 0x08400030
def Fld.SEQ_PC_PC : Fld := ⟨Reg.SEQ_PC, 0, 6⟩
def Fld.SEQ_PC_IN_RUN : Fld := ⟨Reg.SEQ_PC, 6, 1⟩
def Fld.SEQ_PC_RUNS : Fld := ⟨Reg.SEQ_PC, 32, 32⟩
def Reg.SEQ_PRED : Nat := 0x08400038
def Fld.SEQ_PRED_PRED : Fld := ⟨Reg.SEQ_PRED, 0, 16⟩
def Reg.SEQ_SHAPE_WAIT : Nat := 0x08400040
def Fld.SEQ_SHAPE_WAIT_WAIT_US : Fld := ⟨Reg.SEQ_SHAPE_WAIT, 0, 24⟩
def Reg.UNIT_CLK : Nat := 0x08400048
def Fld.UNIT_CLK_FREQ_MHZ : Fld := ⟨Reg.UNIT_CLK, 0, 12⟩
def Fld.UNIT_CLK_TARGET_MHZ : Fld := ⟨Reg.UNIT_CLK, 12, 12⟩
def Fld.UNIT_CLK_VOLT_MV : Fld := ⟨Reg.UNIT_CLK, 24, 12⟩
def Fld.UNIT_CLK_STRETCHING : Fld := ⟨Reg.UNIT_CLK, 36, 1⟩
def Reg.UNIT_STRETCH : Nat := 0x08400050
def Fld.UNIT_STRETCH_STRETCHED : Fld := ⟨Reg.UNIT_STRETCH, 0, 48⟩
def Reg.UNIT_FAULT : Nat := 0x08400058
def Fld.UNIT_FAULT_FLAGS : Fld := ⟨Reg.UNIT_FAULT, 0, 13⟩
def Reg.UNIT_FAULT_INFO : Nat := 0x08400060
def Fld.UNIT_FAULT_INFO_PLANE : Fld := ⟨Reg.UNIT_FAULT_INFO, 0, 3⟩
def Fld.UNIT_FAULT_INFO_ENTRY : Fld := ⟨Reg.UNIT_FAULT_INFO, 3, 6⟩
def Fld.UNIT_FAULT_INFO_CTR : Fld := ⟨Reg.UNIT_FAULT_INFO, 9, 4⟩
def Fld.UNIT_FAULT_INFO_PORT : Fld := ⟨Reg.UNIT_FAULT_INFO, 13, 4⟩
def Fld.UNIT_FAULT_INFO_VALUE : Fld := ⟨Reg.UNIT_FAULT_INFO, 32, 32⟩
def Reg.UNIT_CATCHES : Nat := 0x08400200
def Fld.UNIT_CATCHES_COUNT : Fld := ⟨Reg.UNIT_CATCHES, 0, 64⟩
def Reg.UNIT_NULL_CATCHES : Nat := 0x08400208
def Fld.UNIT_NULL_CATCHES_COUNT : Fld := ⟨Reg.UNIT_NULL_CATCHES, 0, 64⟩
def Reg.UNIT_STALL_INPUT : Nat := 0x08400210
def Fld.UNIT_STALL_INPUT_COUNT : Fld := ⟨Reg.UNIT_STALL_INPUT, 0, 64⟩
def Reg.UNIT_STALL_CREDIT : Nat := 0x08400218
def Fld.UNIT_STALL_CREDIT_COUNT : Fld := ⟨Reg.UNIT_STALL_CREDIT, 0, 64⟩
def Reg.UNIT_STALL_SHAPE : Nat := 0x08400220
def Fld.UNIT_STALL_SHAPE_COUNT : Fld := ⟨Reg.UNIT_STALL_SHAPE, 0, 64⟩
def Reg.UNIT_STALE_DROP : Nat := 0x08400228
def Fld.UNIT_STALE_DROP_COUNT : Fld := ⟨Reg.UNIT_STALE_DROP, 0, 64⟩
def Reg.UNIT_EARLY_HOLD : Nat := 0x08400230
def Fld.UNIT_EARLY_HOLD_COUNT : Fld := ⟨Reg.UNIT_EARLY_HOLD, 0, 64⟩
def Reg.UNIT_NUMCTL : Nat := 0x08400300
def Fld.UNIT_NUMCTL_NUMCTL : Fld := ⟨Reg.UNIT_NUMCTL, 0, 64⟩
def Reg.UNIT_NUM_FLAGS : Nat := 0x08400308
def Fld.UNIT_NUM_FLAGS_ACC_OVF : Fld := ⟨Reg.UNIT_NUM_FLAGS, 0, 1⟩
def Fld.UNIT_NUM_FLAGS_NARROW_SAT : Fld := ⟨Reg.UNIT_NUM_FLAGS, 1, 1⟩
def Fld.UNIT_NUM_FLAGS_NARROW_INF : Fld := ⟨Reg.UNIT_NUM_FLAGS, 2, 1⟩
def Fld.UNIT_NUM_FLAGS_NAN_GEN : Fld := ⟨Reg.UNIT_NUM_FLAGS, 3, 1⟩
def Fld.UNIT_NUM_FLAGS_SCALE_NAN : Fld := ⟨Reg.UNIT_NUM_FLAGS, 4, 1⟩
def Fld.UNIT_NUM_FLAGS_UNDERFLOW : Fld := ⟨Reg.UNIT_NUM_FLAGS, 5, 1⟩
def Fld.UNIT_NUM_FLAGS_STAT_CLAMP : Fld := ⟨Reg.UNIT_NUM_FLAGS, 6, 1⟩
def Reg.UNIT_ACC_OVF : Nat := 0x08400310
def Fld.UNIT_ACC_OVF_COUNT : Fld := ⟨Reg.UNIT_ACC_OVF, 0, 64⟩
def Reg.UNIT_SFN_FTZ : Nat := 0x08400318
def Fld.UNIT_SFN_FTZ_COUNT : Fld := ⟨Reg.UNIT_SFN_FTZ, 0, 64⟩
def Reg.UNIT_SFN_INFO : Nat := 0x08400320
def Fld.UNIT_SFN_INFO_TABLE_REV : Fld := ⟨Reg.UNIT_SFN_INFO, 0, 16⟩
def Fld.UNIT_SFN_INFO_MP_SLOTS : Fld := ⟨Reg.UNIT_SFN_INFO, 16, 4⟩
def Fld.UNIT_SFN_INFO_EPI_SLOTS : Fld := ⟨Reg.UNIT_SFN_INFO, 20, 3⟩
def Reg.UNIT_STAT_CLAMP : Nat := 0x08400328
def Fld.UNIT_STAT_CLAMP_COUNT : Fld := ⟨Reg.UNIT_STAT_CLAMP, 0, 64⟩
def Reg.UNIT_FOLD_CTRL : Nat := 0x08400068
def Fld.UNIT_FOLD_CTRL_COUNT : Fld := ⟨Reg.UNIT_FOLD_CTRL, 0, 4⟩
def Fld.UNIT_FOLD_CTRL_YIELD : Fld := ⟨Reg.UNIT_FOLD_CTRL, 4, 12⟩
def Fld.UNIT_FOLD_CTRL_CUR : Fld := ⟨Reg.UNIT_FOLD_CTRL, 16, 3⟩
def Fld.UNIT_FOLD_CTRL_COMMIT : Fld := ⟨Reg.UNIT_FOLD_CTRL, 19, 1⟩
def Fld.UNIT_FOLD_CTRL_PEND : Fld := ⟨Reg.UNIT_FOLD_CTRL, 20, 1⟩
def Reg.UNIT_FOLD : Nat := 0x08400070
def Fld.UNIT_FOLD_PLANE : Fld := ⟨Reg.UNIT_FOLD, 0, 3⟩
def Fld.UNIT_FOLD_BEATS : Fld := ⟨Reg.UNIT_FOLD, 16, 16⟩
def Reg.UNIT_PLANE_EPOCH : Nat := 0x084000B0
def Fld.UNIT_PLANE_EPOCH_EPOCH_0 : Fld := ⟨Reg.UNIT_PLANE_EPOCH, 0, 4⟩
def Fld.UNIT_PLANE_EPOCH_EPOCH_1 : Fld := ⟨Reg.UNIT_PLANE_EPOCH, 4, 4⟩
def Fld.UNIT_PLANE_EPOCH_EPOCH_2 : Fld := ⟨Reg.UNIT_PLANE_EPOCH, 8, 4⟩
def Fld.UNIT_PLANE_EPOCH_EPOCH_3 : Fld := ⟨Reg.UNIT_PLANE_EPOCH, 12, 4⟩
def Fld.UNIT_PLANE_EPOCH_EPOCH_4 : Fld := ⟨Reg.UNIT_PLANE_EPOCH, 16, 4⟩
def Fld.UNIT_PLANE_EPOCH_EPOCH_5 : Fld := ⟨Reg.UNIT_PLANE_EPOCH, 20, 4⟩
def Fld.UNIT_PLANE_EPOCH_EPOCH_6 : Fld := ⟨Reg.UNIT_PLANE_EPOCH, 24, 4⟩
def Fld.UNIT_PLANE_EPOCH_EPOCH_7 : Fld := ⟨Reg.UNIT_PLANE_EPOCH, 28, 4⟩
def Reg.UNIT_WAVE : Nat := 0x084000B8
def Fld.UNIT_WAVE_ACTIVE_BANK : Fld := ⟨Reg.UNIT_WAVE, 0, 8⟩
def Fld.UNIT_WAVE_IDLE_READY : Fld := ⟨Reg.UNIT_WAVE, 8, 8⟩
def Fld.UNIT_WAVE_WAVE_PEND : Fld := ⟨Reg.UNIT_WAVE, 16, 8⟩
def Fld.UNIT_WAVE_LIVE_IN : Fld := ⟨Reg.UNIT_WAVE, 24, 8⟩
def Fld.UNIT_WAVE_MARK_IN : Fld := ⟨Reg.UNIT_WAVE, 32, 8⟩
def Reg.UNIT_CFG_SEL : Nat := 0x084000C0
def Fld.UNIT_CFG_SEL_PLANE : Fld := ⟨Reg.UNIT_CFG_SEL, 0, 3⟩
def Fld.UNIT_CFG_SEL_BANK : Fld := ⟨Reg.UNIT_CFG_SEL, 3, 1⟩
def Fld.UNIT_CFG_SEL_WORD : Fld := ⟨Reg.UNIT_CFG_SEL, 4, 9⟩
def Reg.UNIT_CFG_DATA : Nat := 0x084000C8
def Fld.UNIT_CFG_DATA_DATA : Fld := ⟨Reg.UNIT_CFG_DATA, 0, 64⟩
def Reg.UNIT_ABANDONED : Nat := 0x08400238
def Fld.UNIT_ABANDONED_COUNT : Fld := ⟨Reg.UNIT_ABANDONED, 0, 64⟩
def Reg.UNIT_PLANE_NS : Nat := 0x08400240
def Fld.UNIT_PLANE_NS_NS : Fld := ⟨Reg.UNIT_PLANE_NS, 0, 64⟩
def Reg.SEQ_CTR : Nat := 0x08400100
def Fld.SEQ_CTR_VALUE : Fld := ⟨Reg.SEQ_CTR, 0, 32⟩
def Fld.SEQ_CTR_LIMIT : Fld := ⟨Reg.SEQ_CTR, 32, 32⟩

/-! ### net -/

def Reg.NET_ID : Nat := 0x08010000
def Fld.NET_ID_SEAT : Fld := ⟨Reg.NET_ID, 0, 3⟩
def Fld.NET_ID_ORIENT : Fld := ⟨Reg.NET_ID, 3, 1⟩
def Reg.NET_STATUS : Nat := 0x08010008
def Fld.NET_STATUS_READY : Fld := ⟨Reg.NET_STATUS, 0, 1⟩
def Fld.NET_STATUS_BRIDGE_ATT : Fld := ⟨Reg.NET_STATUS, 1, 3⟩
def Reg.NET_CTRL : Nat := 0x08010010
def Fld.NET_CTRL_FATAL_MULT : Fld := ⟨Reg.NET_CTRL, 0, 16⟩
def Fld.NET_CTRL_MARK_TIMEOUT : Fld := ⟨Reg.NET_CTRL, 16, 16⟩
def Reg.NET_STROKES : Nat := 0x08010018
def Fld.NET_STROKES_COUNT : Fld := ⟨Reg.NET_STROKES, 0, 64⟩
def Reg.NET_SW_SEL : Nat := 0x08010020
def Fld.NET_SW_SEL_SWITCH : Fld := ⟨Reg.NET_SW_SEL, 0, 10⟩
def Fld.NET_SW_SEL_LINK : Fld := ⟨Reg.NET_SW_SEL, 10, 3⟩
def Fld.NET_SW_SEL_SLOT : Fld := ⟨Reg.NET_SW_SEL, 13, 5⟩
def Reg.NET_SW_DATA : Nat := 0x08010028
def Fld.NET_SW_DATA_VALID : Fld := ⟨Reg.NET_SW_DATA, 0, 1⟩
def Fld.NET_SW_DATA_IN_PORT : Fld := ⟨Reg.NET_SW_DATA, 1, 3⟩
def Fld.NET_SW_DATA_FIRST : Fld := ⟨Reg.NET_SW_DATA, 4, 1⟩
def Fld.NET_SW_DATA_CTX : Fld := ⟨Reg.NET_SW_DATA, 5, 8⟩
def Fld.NET_SW_DATA_GATEWAY : Fld := ⟨Reg.NET_SW_DATA, 13, 1⟩
def Fld.NET_SW_DATA_DOWN : Fld := ⟨Reg.NET_SW_DATA, 14, 1⟩
def Reg.NET_WD_REPORT : Nat := 0x08010038
def Fld.NET_WD_REPORT_KIND : Fld := ⟨Reg.NET_WD_REPORT, 0, 2⟩
def Fld.NET_WD_REPORT_UID : Fld := ⟨Reg.NET_WD_REPORT, 2, 14⟩
def Fld.NET_WD_REPORT_PLANE : Fld := ⟨Reg.NET_WD_REPORT, 16, 3⟩
def Fld.NET_WD_REPORT_PORT : Fld := ⟨Reg.NET_WD_REPORT, 19, 3⟩
def Fld.NET_WD_REPORT_DIR : Fld := ⟨Reg.NET_WD_REPORT, 22, 1⟩
def Fld.NET_WD_REPORT_STROKES : Fld := ⟨Reg.NET_WD_REPORT, 32, 32⟩
def Reg.NET_LINK_CE : Nat := 0x08010040
def Fld.NET_LINK_CE_COUNT : Fld := ⟨Reg.NET_LINK_CE, 0, 64⟩
def Reg.NET_LINK_UE : Nat := 0x08010048
def Fld.NET_LINK_UE_COUNT : Fld := ⟨Reg.NET_LINK_UE, 0, 64⟩
def Reg.NET_ORPHAN : Nat := 0x08010050
def Fld.NET_ORPHAN_COUNT : Fld := ⟨Reg.NET_ORPHAN, 0, 64⟩
def Reg.NET_BRIDGE_RETRY : Nat := 0x08010058
def Fld.NET_BRIDGE_RETRY_COUNT : Fld := ⟨Reg.NET_BRIDGE_RETRY, 0, 64⟩
def Reg.NET_CREDIT_STALLS : Nat := 0x08010060
def Fld.NET_CREDIT_STALLS_COUNT : Fld := ⟨Reg.NET_CREDIT_STALLS, 0, 64⟩
def Reg.NET_JOIN_STALLS : Nat := 0x08010068
def Fld.NET_JOIN_STALLS_COUNT : Fld := ⟨Reg.NET_JOIN_STALLS, 0, 64⟩
def Reg.NET_SPILL_BEATS : Nat := 0x08010070
def Fld.NET_SPILL_BEATS_COUNT : Fld := ⟨Reg.NET_SPILL_BEATS, 0, 64⟩
def Reg.NET_ERR : Nat := 0x08010030
def Fld.NET_ERR_FLAGS : Fld := ⟨Reg.NET_ERR, 0, 11⟩

/-! ### rig -/

def Reg.RIG_STATUS : Nat := 0x08020000
def Fld.RIG_STATUS_LOADER_BUSY : Fld := ⟨Reg.RIG_STATUS, 0, 1⟩
def Fld.RIG_STATUS_WAVES : Fld := ⟨Reg.RIG_STATUS, 1, 7⟩
def Fld.RIG_STATUS_RIGS : Fld := ⟨Reg.RIG_STATUS, 8, 7⟩
def Reg.RIG_REJECT : Nat := 0x08020008
def Fld.RIG_REJECT_CODE : Fld := ⟨Reg.RIG_REJECT, 0, 8⟩
def Fld.RIG_REJECT_SECTION : Fld := ⟨Reg.RIG_REJECT, 8, 16⟩
def Fld.RIG_REJECT_RECORD : Fld := ⟨Reg.RIG_REJECT, 24, 32⟩
def Fld.RIG_REJECT_CTX : Fld := ⟨Reg.RIG_REJECT, 56, 8⟩
def Reg.RIG_TAB_SEL : Nat := 0x08020010
def Fld.RIG_TAB_SEL_INDEX : Fld := ⟨Reg.RIG_TAB_SEL, 0, 6⟩
def Reg.RIG_TAB_ID : Nat := 0x08020018
def Fld.RIG_TAB_ID_RIG_ID : Fld := ⟨Reg.RIG_TAB_ID, 0, 64⟩
def Reg.RIG_TAB_STATE : Nat := 0x08020020
def Fld.RIG_TAB_STATE_STATE : Fld := ⟨Reg.RIG_TAB_STATE, 0, 3⟩
def Fld.RIG_TAB_STATE_CTX : Fld := ⟨Reg.RIG_TAB_STATE, 3, 8⟩
def Fld.RIG_TAB_STATE_EPOCH : Fld := ⟨Reg.RIG_TAB_STATE, 11, 4⟩
def Fld.RIG_TAB_STATE_RECOMPILE : Fld := ⟨Reg.RIG_TAB_STATE, 15, 1⟩
def Fld.RIG_TAB_STATE_DRAIN : Fld := ⟨Reg.RIG_TAB_STATE, 16, 1⟩
def Fld.RIG_TAB_STATE_ROTATION : Fld := ⟨Reg.RIG_TAB_STATE, 17, 5⟩
def Fld.RIG_TAB_STATE_RANK : Fld := ⟨Reg.RIG_TAB_STATE, 22, 8⟩
def Fld.RIG_TAB_STATE_WAVE_SEQ : Fld := ⟨Reg.RIG_TAB_STATE, 30, 16⟩
def Reg.RIG_TAB_COUNTS : Nat := 0x08020028
def Fld.RIG_TAB_COUNTS_PLANES : Fld := ⟨Reg.RIG_TAB_COUNTS, 0, 14⟩
def Fld.RIG_TAB_COUNTS_ENTRIES : Fld := ⟨Reg.RIG_TAB_COUNTS, 14, 18⟩
def Reg.RIG_WAVE_STATE : Nat := 0x08020030
def Fld.RIG_WAVE_STATE_PENDING : Fld := ⟨Reg.RIG_WAVE_STATE, 0, 32⟩
def Fld.RIG_WAVE_STATE_ELAPSED_US : Fld := ⟨Reg.RIG_WAVE_STATE, 32, 32⟩
def Reg.RIG_LOADS : Nat := 0x08020038
def Fld.RIG_LOADS_COUNT : Fld := ⟨Reg.RIG_LOADS, 0, 64⟩
def Reg.RIG_REJECTS : Nat := 0x08020040
def Fld.RIG_REJECTS_COUNT : Fld := ⟨Reg.RIG_REJECTS, 0, 64⟩
def Reg.RIG_WAVES : Nat := 0x08020048
def Fld.RIG_WAVES_COUNT : Fld := ⟨Reg.RIG_WAVES, 0, 64⟩
def Reg.RIG_FAULTS : Nat := 0x08020050
def Fld.RIG_FAULTS_WAVE_STALL : Fld := ⟨Reg.RIG_FAULTS, 0, 1⟩
def Fld.RIG_FAULTS_WAVE_MISMATCH : Fld := ⟨Reg.RIG_FAULTS, 1, 1⟩
def Fld.RIG_FAULTS_MARK_DEAD : Fld := ⟨Reg.RIG_FAULTS, 2, 1⟩

/-! ### tiers -/

def Reg.TIERS_CAP : Nat := 0x01800000
def Fld.TIERS_CAP_SUBSOIL_GIB : Fld := ⟨Reg.TIERS_CAP, 0, 12⟩
def Fld.TIERS_CAP_STACKS_UP : Fld := ⟨Reg.TIERS_CAP, 12, 5⟩
def Fld.TIERS_CAP_PORTS_UP : Fld := ⟨Reg.TIERS_CAP, 24, 4⟩
def Reg.TIERS_HBM_SEL : Nat := 0x01800008
def Fld.TIERS_HBM_SEL_STACK : Fld := ⟨Reg.TIERS_HBM_SEL, 0, 5⟩
def Reg.TIERS_HBM_STAT : Nat := 0x01800010
def Fld.TIERS_HBM_STAT_STATE : Fld := ⟨Reg.TIERS_HBM_STAT, 0, 2⟩
def Fld.TIERS_HBM_STAT_RATE : Fld := ⟨Reg.TIERS_HBM_STAT, 4, 4⟩
def Fld.TIERS_HBM_STAT_TEMP_C : Fld := ⟨Reg.TIERS_HBM_STAT, 8, 8⟩
def Fld.TIERS_HBM_STAT_REFRESH_2X : Fld := ⟨Reg.TIERS_HBM_STAT, 16, 1⟩
def Fld.TIERS_HBM_STAT_RETRAINS : Fld := ⟨Reg.TIERS_HBM_STAT, 32, 16⟩
def Reg.TIERS_BR_STAT : Nat := 0x01800020
def Fld.TIERS_BR_STAT_STATE : Fld := ⟨Reg.TIERS_BR_STAT, 0, 3⟩
def Fld.TIERS_BR_STAT_WIDTH : Fld := ⟨Reg.TIERS_BR_STAT, 4, 6⟩
def Fld.TIERS_BR_STAT_RATE_GT : Fld := ⟨Reg.TIERS_BR_STAT, 10, 6⟩
def Fld.TIERS_BR_STAT_FLIT_LOPT : Fld := ⟨Reg.TIERS_BR_STAT, 16, 1⟩
def Fld.TIERS_BR_STAT_CAP_GIB : Fld := ⟨Reg.TIERS_BR_STAT, 17, 12⟩
def Fld.TIERS_BR_STAT_OVER_CAP : Fld := ⟨Reg.TIERS_BR_STAT, 29, 1⟩
def Reg.TIERS_BR_CTRL : Nat := 0x01800040
def Fld.TIERS_BR_CTRL_OFFLINE : Fld := ⟨Reg.TIERS_BR_CTRL, 0, 1⟩
def Fld.TIERS_BR_CTRL_ONLINE : Fld := ⟨Reg.TIERS_BR_CTRL, 1, 1⟩
def Fld.TIERS_BR_CTRL_EVAC_BUSY : Fld := ⟨Reg.TIERS_BR_CTRL, 2, 1⟩
def Reg.TIERS_CTX_SEL : Nat := 0x01800060
def Fld.TIERS_CTX_SEL_CTX : Fld := ⟨Reg.TIERS_CTX_SEL, 0, 8⟩
def Reg.TIERS_CTX_CTRL : Nat := 0x01800068
def Fld.TIERS_CTX_CTRL_VALID : Fld := ⟨Reg.TIERS_CTX_CTRL, 0, 1⟩
def Fld.TIERS_CTX_CTRL_ROOT_SEL : Fld := ⟨Reg.TIERS_CTX_CTRL, 1, 1⟩
def Fld.TIERS_CTX_CTRL_SWAP_PEND : Fld := ⟨Reg.TIERS_CTX_CTRL, 2, 1⟩
def Fld.TIERS_CTX_CTRL_SCRUBBING : Fld := ⟨Reg.TIERS_CTX_CTRL, 3, 1⟩
def Fld.TIERS_CTX_CTRL_MASTER : Fld := ⟨Reg.TIERS_CTX_CTRL, 16, 15⟩
def Reg.TIERS_CTX_ROOT0 : Nat := 0x01800070
def Fld.TIERS_CTX_ROOT0_ROOT : Fld := ⟨Reg.TIERS_CTX_ROOT0, 0, 60⟩
def Reg.TIERS_CTX_ROOT1 : Nat := 0x01800078
def Fld.TIERS_CTX_ROOT1_ROOT : Fld := ⟨Reg.TIERS_CTX_ROOT1, 0, 60⟩
def Reg.TIERS_CTX_QUOTA_TS : Nat := 0x01800080
def Fld.TIERS_CTX_QUOTA_TS_UNITS : Fld := ⟨Reg.TIERS_CTX_QUOTA_TS, 0, 20⟩
def Reg.TIERS_CTX_QUOTA_SS : Nat := 0x01800088
def Fld.TIERS_CTX_QUOTA_SS_UNITS : Fld := ⟨Reg.TIERS_CTX_QUOTA_SS, 0, 25⟩
def Reg.TIERS_CTX_QUOTA_BR : Nat := 0x01800090
def Fld.TIERS_CTX_QUOTA_BR_UNITS : Fld := ⟨Reg.TIERS_CTX_QUOTA_BR, 0, 28⟩
def Reg.TIERS_CTX_USE_TS : Nat := 0x01800098
def Fld.TIERS_CTX_USE_TS_UNITS : Fld := ⟨Reg.TIERS_CTX_USE_TS, 0, 20⟩
def Reg.TIERS_CTX_USE_SS : Nat := 0x018000A0
def Fld.TIERS_CTX_USE_SS_UNITS : Fld := ⟨Reg.TIERS_CTX_USE_SS, 0, 25⟩
def Reg.TIERS_CTX_USE_BR : Nat := 0x018000A8
def Fld.TIERS_CTX_USE_BR_UNITS : Fld := ⟨Reg.TIERS_CTX_USE_BR, 0, 28⟩
def Reg.TIERS_INVAL_VA : Nat := 0x018000C0
def Fld.TIERS_INVAL_VA_VPAGE : Fld := ⟨Reg.TIERS_INVAL_VA, 16, 40⟩
def Reg.TIERS_INVAL_CMD : Nat := 0x018000C8
def Fld.TIERS_INVAL_CMD_CTX : Fld := ⟨Reg.TIERS_INVAL_CMD, 0, 8⟩
def Fld.TIERS_INVAL_CMD_SCOPE : Fld := ⟨Reg.TIERS_INVAL_CMD, 8, 2⟩
def Fld.TIERS_INVAL_CMD_SLICE : Fld := ⟨Reg.TIERS_INVAL_CMD, 10, 1⟩
def Reg.TIERS_INVAL_STAT : Nat := 0x018000D0
def Fld.TIERS_INVAL_STAT_BUSY : Fld := ⟨Reg.TIERS_INVAL_STAT, 0, 1⟩
def Fld.TIERS_INVAL_STAT_DONE : Fld := ⟨Reg.TIERS_INVAL_STAT, 32, 32⟩
def Reg.TIERS_TILLER_CTRL : Nat := 0x01800100
def Fld.TIERS_TILLER_CTRL_EN : Fld := ⟨Reg.TIERS_TILLER_CTRL, 0, 1⟩
def Fld.TIERS_TILLER_CTRL_PERIOD_US : Fld := ⟨Reg.TIERS_TILLER_CTRL, 1, 17⟩
def Fld.TIERS_TILLER_CTRL_BW_PCT : Fld := ⟨Reg.TIERS_TILLER_CTRL, 18, 7⟩
def Fld.TIERS_TILLER_CTRL_MAX_MIG : Fld := ⟨Reg.TIERS_TILLER_CTRL, 25, 7⟩
def Fld.TIERS_TILLER_CTRL_PROMOTE_T : Fld := ⟨Reg.TIERS_TILLER_CTRL, 32, 8⟩
def Reg.TIERS_TILLER_LEVELS : Nat := 0x01800108
def Fld.TIERS_TILLER_LEVELS_SUB_LOW : Fld := ⟨Reg.TIERS_TILLER_LEVELS, 0, 8⟩
def Fld.TIERS_TILLER_LEVELS_SUB_HIGH : Fld := ⟨Reg.TIERS_TILLER_LEVELS, 8, 8⟩
def Fld.TIERS_TILLER_LEVELS_DEMOTE_PERIODS : Fld := ⟨Reg.TIERS_TILLER_LEVELS, 16, 12⟩
def Reg.TIERS_SCRUB : Nat := 0x01800110
def Fld.TIERS_SCRUB_TS_PERIOD_MIN : Fld := ⟨Reg.TIERS_SCRUB, 0, 16⟩
def Fld.TIERS_SCRUB_SS_PERIOD_MIN : Fld := ⟨Reg.TIERS_SCRUB, 16, 16⟩
def Fld.TIERS_SCRUB_BR_PERIOD_MIN : Fld := ⟨Reg.TIERS_SCRUB, 32, 16⟩
def Reg.TIERS_ERR : Nat := 0x01800180
def Fld.TIERS_ERR_FLAGS : Fld := ⟨Reg.TIERS_ERR, 0, 16⟩
def Reg.TIERS_ERR_ADDR : Nat := 0x01800188
def Fld.TIERS_ERR_ADDR_ADDR : Fld := ⟨Reg.TIERS_ERR_ADDR, 0, 60⟩
def Reg.TIERS_ERR_INFO : Nat := 0x01800190
def Fld.TIERS_ERR_INFO_CTX : Fld := ⟨Reg.TIERS_ERR_INFO, 0, 8⟩
def Fld.TIERS_ERR_INFO_GEN : Fld := ⟨Reg.TIERS_ERR_INFO, 8, 4⟩
def Fld.TIERS_ERR_INFO_BIT : Fld := ⟨Reg.TIERS_ERR_INFO, 12, 4⟩
def Reg.TIERS_WALKS : Nat := 0x018001C0
def Fld.TIERS_WALKS_COUNT : Fld := ⟨Reg.TIERS_WALKS, 0, 64⟩
def Reg.TIERS_MIGRATIONS : Nat := 0x018001C8
def Fld.TIERS_MIGRATIONS_COUNT : Fld := ⟨Reg.TIERS_MIGRATIONS, 0, 64⟩
def Reg.TIERS_MIG_BYTES : Nat := 0x018001D0
def Fld.TIERS_MIG_BYTES_COUNT : Fld := ⟨Reg.TIERS_MIG_BYTES, 0, 64⟩
def Reg.TIERS_CE : Nat := 0x018001D8
def Fld.TIERS_CE_COUNT : Fld := ⟨Reg.TIERS_CE, 0, 64⟩
def Reg.TIERS_UE : Nat := 0x018001E0
def Fld.TIERS_UE_COUNT : Fld := ⟨Reg.TIERS_UE, 0, 64⟩
def Reg.TIERS_RETIRED : Nat := 0x018001E8
def Fld.TIERS_RETIRED_FRAMES : Fld := ⟨Reg.TIERS_RETIRED, 0, 32⟩

/-! ### stream -/

def Reg.STREAM_STATUS : Nat := 0x08030000
def Fld.STREAM_STATUS_ENG_BUSY : Fld := ⟨Reg.STREAM_STATUS, 0, 8⟩
def Fld.STREAM_STATUS_ACTIVE : Fld := ⟨Reg.STREAM_STATUS, 8, 9⟩
def Fld.STREAM_STATUS_AHEAD : Fld := ⟨Reg.STREAM_STATUS, 17, 4⟩
def Reg.STREAM_MODE : Nat := 0x08030008
def Fld.STREAM_MODE_FORCE_STATIC : Fld := ⟨Reg.STREAM_MODE, 0, 1⟩
def Fld.STREAM_MODE_STATIC_ACTIVE : Fld := ⟨Reg.STREAM_MODE, 1, 1⟩
def Fld.STREAM_MODE_WAIT_US : Fld := ⟨Reg.STREAM_MODE, 8, 24⟩
def Fld.STREAM_MODE_FETCH_AHEAD : Fld := ⟨Reg.STREAM_MODE, 32, 4⟩
def Reg.STREAM_MERGE : Nat := 0x08030010
def Fld.STREAM_MERGE_EN : Fld := ⟨Reg.STREAM_MERGE, 0, 1⟩
def Fld.STREAM_MERGE_WINDOW_NS : Fld := ⟨Reg.STREAM_MERGE, 8, 8⟩
def Reg.STREAM_CTX_SEL : Nat := 0x08030018
def Fld.STREAM_CTX_SEL_CTX : Fld := ⟨Reg.STREAM_CTX_SEL, 0, 8⟩
def Reg.STREAM_CTX_BYTES : Nat := 0x08030020
def Fld.STREAM_CTX_BYTES_COUNT : Fld := ⟨Reg.STREAM_CTX_BYTES, 0, 64⟩
def Reg.STREAM_CTX_WASTE : Nat := 0x08030028
def Fld.STREAM_CTX_WASTE_COUNT : Fld := ⟨Reg.STREAM_CTX_WASTE, 0, 64⟩
def Reg.STREAM_CTX_REFETCH : Nat := 0x08030030
def Fld.STREAM_CTX_REFETCH_COUNT : Fld := ⟨Reg.STREAM_CTX_REFETCH, 0, 64⟩
def Reg.STREAM_JOB_VOID : Nat := 0x08030038
def Fld.STREAM_JOB_VOID_CTX : Fld := ⟨Reg.STREAM_JOB_VOID, 0, 8⟩
def Fld.STREAM_JOB_VOID_JOB : Fld := ⟨Reg.STREAM_JOB_VOID, 8, 16⟩
def Fld.STREAM_JOB_VOID_ALL : Fld := ⟨Reg.STREAM_JOB_VOID, 24, 1⟩
def Reg.STREAM_FAULT : Nat := 0x08030040
def Fld.STREAM_FAULT_FLAGS : Fld := ⟨Reg.STREAM_FAULT, 0, 6⟩
def Reg.STREAM_FAULT_INFO : Nat := 0x08030048
def Fld.STREAM_FAULT_INFO_ENGINE : Fld := ⟨Reg.STREAM_FAULT_INFO, 0, 3⟩
def Fld.STREAM_FAULT_INFO_SLOT : Fld := ⟨Reg.STREAM_FAULT_INFO, 3, 5⟩
def Fld.STREAM_FAULT_INFO_CTX : Fld := ⟨Reg.STREAM_FAULT_INFO, 8, 8⟩
def Fld.STREAM_FAULT_INFO_RECORD : Fld := ⟨Reg.STREAM_FAULT_INFO, 16, 16⟩
def Fld.STREAM_FAULT_INFO_VALUE : Fld := ⟨Reg.STREAM_FAULT_INFO, 32, 32⟩
def Reg.STREAM_REQS : Nat := 0x08030080
def Fld.STREAM_REQS_COUNT : Fld := ⟨Reg.STREAM_REQS, 0, 64⟩
def Reg.STREAM_MERGED : Nat := 0x08030088
def Fld.STREAM_MERGED_COUNT : Fld := ⟨Reg.STREAM_MERGED, 0, 64⟩
def Reg.STREAM_POISON_LINES : Nat := 0x08030090
def Fld.STREAM_POISON_LINES_COUNT : Fld := ⟨Reg.STREAM_POISON_LINES, 0, 64⟩
def Reg.STREAM_AHEAD_STOPS : Nat := 0x08030098
def Fld.STREAM_AHEAD_STOPS_COUNT : Fld := ⟨Reg.STREAM_AHEAD_STOPS, 0, 64⟩
def Reg.STREAM_FLOOR_GRANTS : Nat := 0x080300A0
def Fld.STREAM_FLOOR_GRANTS_COUNT : Fld := ⟨Reg.STREAM_FLOOR_GRANTS, 0, 64⟩

/-! ### sel -/

def Reg.SEL_INFO : Nat := 0x04E00000
def Fld.SEL_INFO_K_MAX : Fld := ⟨Reg.SEL_INFO, 0, 11⟩
def Fld.SEL_INFO_W_MAX : Fld := ⟨Reg.SEL_INFO, 11, 7⟩
def Fld.SEL_INFO_CAND_MAX : Fld := ⟨Reg.SEL_INFO, 18, 17⟩
def Reg.SEL_CALLS : Nat := 0x04E00008
def Fld.SEL_CALLS_COUNT : Fld := ⟨Reg.SEL_CALLS, 0, 64⟩
def Reg.SEL_SCORES : Nat := 0x04E00010
def Fld.SEL_SCORES_COUNT : Fld := ⟨Reg.SEL_SCORES, 0, 64⟩
def Reg.SEL_FORCED : Nat := 0x04E00018
def Fld.SEL_FORCED_COUNT : Fld := ⟨Reg.SEL_FORCED, 0, 64⟩
def Reg.SEL_NAN : Nat := 0x04E00020
def Fld.SEL_NAN_COUNT : Fld := ⟨Reg.SEL_NAN, 0, 64⟩
def Reg.SEL_FAULT_INFO : Nat := 0x04E00028
def Fld.SEL_FAULT_INFO_UID : Fld := ⟨Reg.SEL_FAULT_INFO, 0, 14⟩
def Fld.SEL_FAULT_INFO_CTX : Fld := ⟨Reg.SEL_FAULT_INFO, 14, 8⟩
def Fld.SEL_FAULT_INFO_HANDLE : Fld := ⟨Reg.SEL_FAULT_INFO, 32, 32⟩

/-! ### sed -/

def Reg.SED_STATUS : Nat := 0x04F00000
def Fld.SED_STATUS_SHARD_ACTIVE : Fld := ⟨Reg.SED_STATUS, 0, 1⟩
def Fld.SED_STATUS_GEN : Fld := ⟨Reg.SED_STATUS, 1, 1⟩
def Fld.SED_STATUS_REBUILD : Fld := ⟨Reg.SED_STATUS, 2, 1⟩
def Fld.SED_STATUS_SWAP_PEND : Fld := ⟨Reg.SED_STATUS, 3, 1⟩
def Fld.SED_STATUS_MAP_GEN : Fld := ⟨Reg.SED_STATUS, 4, 1⟩
def Fld.SED_STATUS_MAP_SWAP_PEND : Fld := ⟨Reg.SED_STATUS, 5, 1⟩
def Fld.SED_STATUS_SHARD_ID : Fld := ⟨Reg.SED_STATUS, 8, 8⟩
def Fld.SED_STATUS_SHARDS : Fld := ⟨Reg.SED_STATUS, 16, 9⟩
def Reg.SED_CAP : Nat := 0x04F00008
def Fld.SED_CAP_BUCKETS_LOG2 : Fld := ⟨Reg.SED_CAP, 0, 5⟩
def Fld.SED_CAP_ENTRIES : Fld := ⟨Reg.SED_CAP, 8, 32⟩
def Reg.SED_CTRL : Nat := 0x04F00010
def Fld.SED_CTRL_LOW : Fld := ⟨Reg.SED_CTRL, 0, 8⟩
def Fld.SED_CTRL_HIGH : Fld := ⟨Reg.SED_CTRL, 8, 8⟩
def Fld.SED_CTRL_PIN_MS : Fld := ⟨Reg.SED_CTRL, 16, 16⟩
def Fld.SED_CTRL_OFFER_MS : Fld := ⟨Reg.SED_CTRL, 32, 16⟩
def Reg.SED_LOOKUPS : Nat := 0x04F00040
def Fld.SED_LOOKUPS_COUNT : Fld := ⟨Reg.SED_LOOKUPS, 0, 64⟩
def Reg.SED_HIT_PAGES : Nat := 0x04F00048
def Fld.SED_HIT_PAGES_COUNT : Fld := ⟨Reg.SED_HIT_PAGES, 0, 64⟩
def Reg.SED_MISS_PAGES : Nat := 0x04F00050
def Fld.SED_MISS_PAGES_COUNT : Fld := ⟨Reg.SED_MISS_PAGES, 0, 64⟩
def Reg.SED_TOKEN_MISMATCH : Nat := 0x04F00058
def Fld.SED_TOKEN_MISMATCH_COUNT : Fld := ⟨Reg.SED_TOKEN_MISMATCH, 0, 64⟩
def Reg.SED_DEPOSITS : Nat := 0x04F00060
def Fld.SED_DEPOSITS_COUNT : Fld := ⟨Reg.SED_DEPOSITS, 0, 64⟩
def Reg.SED_EVICTIONS : Nat := 0x04F00068
def Fld.SED_EVICTIONS_COUNT : Fld := ⟨Reg.SED_EVICTIONS, 0, 64⟩
def Reg.SED_PINS : Nat := 0x04F00070
def Fld.SED_PINS_COUNT : Fld := ⟨Reg.SED_PINS, 0, 32⟩
def Reg.SED_LATE : Nat := 0x04F00078
def Fld.SED_LATE_COUNT : Fld := ⟨Reg.SED_LATE, 0, 64⟩
def Reg.SED_COPY_FAIL : Nat := 0x04F00080
def Fld.SED_COPY_FAIL_COUNT : Fld := ⟨Reg.SED_COPY_FAIL, 0, 64⟩
def Reg.SED_ERR : Nat := 0x04F000C0
def Fld.SED_ERR_FLAGS : Fld := ⟨Reg.SED_ERR, 0, 8⟩

/-! ### expmap -/

def Reg.EXPMAP_CTX_SEL : Nat := 0x04D00000
def Fld.EXPMAP_CTX_SEL_CTX : Fld := ⟨Reg.EXPMAP_CTX_SEL, 0, 8⟩
def Reg.EXPMAP_CTRL : Nat := 0x04D00008
def Fld.EXPMAP_CTRL_VALID : Fld := ⟨Reg.EXPMAP_CTRL, 0, 1⟩
def Fld.EXPMAP_CTRL_GEN : Fld := ⟨Reg.EXPMAP_CTRL, 1, 1⟩
def Fld.EXPMAP_CTRL_SWAP_PEND : Fld := ⟨Reg.EXPMAP_CTRL, 2, 1⟩
def Fld.EXPMAP_CTRL_CAP_LIMITED : Fld := ⟨Reg.EXPMAP_CTRL, 3, 1⟩
def Reg.EXPMAP_BASE0 : Nat := 0x04D00010
def Fld.EXPMAP_BASE0_ADDR : Fld := ⟨Reg.EXPMAP_BASE0, 0, 56⟩
def Reg.EXPMAP_BASE1 : Nat := 0x04D00018
def Fld.EXPMAP_BASE1_ADDR : Fld := ⟨Reg.EXPMAP_BASE1, 0, 56⟩
def Reg.EXPMAP_LAYERS : Nat := 0x04D00020
def Fld.EXPMAP_LAYERS_LAYERS : Fld := ⟨Reg.EXPMAP_LAYERS, 0, 10⟩
def Reg.EXPMAP_STATUS : Nat := 0x04D00028
def Fld.EXPMAP_STATUS_LAST : Fld := ⟨Reg.EXPMAP_STATUS, 0, 8⟩
def Reg.EXPMAP_INSTALLS : Nat := 0x04D00030
def Fld.EXPMAP_INSTALLS_COUNT : Fld := ⟨Reg.EXPMAP_INSTALLS, 0, 64⟩

/-! ### scat -/

def Reg.SCAT_STATUS : Nat := 0x08040000
def Fld.SCAT_STATUS_OPEN : Fld := ⟨Reg.SCAT_STATUS, 0, 10⟩
def Fld.SCAT_STATUS_QUEUES : Fld := ⟨Reg.SCAT_STATUS, 10, 8⟩
def Reg.SCAT_CTRL : Nat := 0x08040008
def Fld.SCAT_CTRL_RETURN_US : Fld := ⟨Reg.SCAT_CTRL, 0, 24⟩
def Reg.SCAT_DISPATCHED : Nat := 0x08040040
def Fld.SCAT_DISPATCHED_COUNT : Fld := ⟨Reg.SCAT_DISPATCHED, 0, 64⟩
def Reg.SCAT_DROPS : Nat := 0x08040048
def Fld.SCAT_DROPS_COUNT : Fld := ⟨Reg.SCAT_DROPS, 0, 64⟩
def Reg.SCAT_ZERO_COUNTS : Nat := 0x08040050
def Fld.SCAT_ZERO_COUNTS_COUNT : Fld := ⟨Reg.SCAT_ZERO_COUNTS, 0, 64⟩
def Reg.SCAT_RETURNS : Nat := 0x08040058
def Fld.SCAT_RETURNS_COUNT : Fld := ⟨Reg.SCAT_RETURNS, 0, 64⟩
def Reg.SCAT_COMBINED : Nat := 0x08040060
def Fld.SCAT_COMBINED_COUNT : Fld := ⟨Reg.SCAT_COMBINED, 0, 64⟩
def Reg.SCAT_COUNT_HOLDS : Nat := 0x08040068
def Fld.SCAT_COUNT_HOLDS_COUNT : Fld := ⟨Reg.SCAT_COUNT_HOLDS, 0, 64⟩
def Reg.SCAT_REPLAYS : Nat := 0x08040070
def Fld.SCAT_REPLAYS_COUNT : Fld := ⟨Reg.SCAT_REPLAYS, 0, 64⟩
def Reg.SCAT_FAULT : Nat := 0x080400C0
def Fld.SCAT_FAULT_FLAGS : Fld := ⟨Reg.SCAT_FAULT, 0, 8⟩
def Reg.SCAT_FAULT_INFO : Nat := 0x080400C8
def Fld.SCAT_FAULT_INFO_UID : Fld := ⟨Reg.SCAT_FAULT_INFO, 0, 14⟩
def Fld.SCAT_FAULT_INFO_CTX : Fld := ⟨Reg.SCAT_FAULT_INFO, 14, 8⟩
def Fld.SCAT_FAULT_INFO_LAYER : Fld := ⟨Reg.SCAT_FAULT_INFO, 22, 9⟩
def Fld.SCAT_FAULT_INFO_EXPERT : Fld := ⟨Reg.SCAT_FAULT_INFO, 31, 10⟩

/-! ### sl -/

def Reg.SL_INFO : Nat := 0x04000000
def Fld.SL_INFO_ENTRIES : Fld := ⟨Reg.SL_INFO, 0, 15⟩
def Fld.SL_INFO_LEN_CAP : Fld := ⟨Reg.SL_INFO, 15, 25⟩
def Fld.SL_INFO_TTL_MAX : Fld := ⟨Reg.SL_INFO, 40, 20⟩
def Reg.SL_CTRL : Nat := 0x04000008
def Fld.SL_CTRL_WORK_MS : Fld := ⟨Reg.SL_CTRL, 0, 16⟩
def Fld.SL_CTRL_IDLE_US : Fld := ⟨Reg.SL_CTRL, 16, 16⟩
def Reg.SL_VI_SEL : Nat := 0x04000010
def Fld.SL_VI_SEL_VI : Fld := ⟨Reg.SL_VI_SEL, 0, 8⟩
def Reg.SL_VI_QUOTA : Nat := 0x04000018
def Fld.SL_VI_QUOTA_ENTRIES : Fld := ⟨Reg.SL_VI_QUOTA, 0, 15⟩
def Reg.SL_VI_USE : Nat := 0x04000020
def Fld.SL_VI_USE_LIVE : Fld := ⟨Reg.SL_VI_USE, 0, 15⟩
def Reg.SL_SEL : Nat := 0x04000028
def Fld.SL_SEL_INDEX : Fld := ⟨Reg.SL_SEL, 0, 14⟩
def Reg.SL_STATES_0 : Nat := 0x04000030
def Fld.SL_STATES_0_FREE : Fld := ⟨Reg.SL_STATES_0, 0, 15⟩
def Fld.SL_STATES_0_ADMITTED : Fld := ⟨Reg.SL_STATES_0, 15, 15⟩
def Fld.SL_STATES_0_PREFILL : Fld := ⟨Reg.SL_STATES_0, 30, 15⟩
def Fld.SL_STATES_0_SHIPPING : Fld := ⟨Reg.SL_STATES_0, 45, 15⟩
def Reg.SL_STATES_1 : Nat := 0x04000038
def Fld.SL_STATES_1_DECODE : Fld := ⟨Reg.SL_STATES_1, 0, 15⟩
def Fld.SL_STATES_1_PAUSED : Fld := ⟨Reg.SL_STATES_1, 15, 15⟩
def Fld.SL_STATES_1_RESUMING : Fld := ⟨Reg.SL_STATES_1, 30, 15⟩
def Fld.SL_STATES_1_DONE : Fld := ⟨Reg.SL_STATES_1, 45, 15⟩
def Reg.SL_STATES_2 : Nat := 0x04000040
def Fld.SL_STATES_2_CANCELLED : Fld := ⟨Reg.SL_STATES_2, 0, 15⟩
def Fld.SL_STATES_2_FAILED : Fld := ⟨Reg.SL_STATES_2, 15, 15⟩
def Fld.SL_STATES_2_HELD : Fld := ⟨Reg.SL_STATES_2, 30, 15⟩
def Reg.SL_STEP : Nat := 0x04000048
def Fld.SL_STEP_STEPS : Fld := ⟨Reg.SL_STEP, 0, 32⟩
def Fld.SL_STEP_BATCH : Fld := ⟨Reg.SL_STEP, 32, 16⟩
def Fld.SL_STEP_SUBBATCHES : Fld := ⟨Reg.SL_STEP, 48, 16⟩
def Reg.SL_STEP_T : Nat := 0x04000050
def Fld.SL_STEP_T_LAUNCH : Fld := ⟨Reg.SL_STEP_T, 0, 64⟩
def Reg.SL_VER_SEL : Nat := 0x04000058
def Fld.SL_VER_SEL_VERSION : Fld := ⟨Reg.SL_VER_SEL, 0, 16⟩
def Reg.SL_VER : Nat := 0x04000060
def Fld.SL_VER_REFS : Fld := ⟨Reg.SL_VER, 0, 15⟩
def Fld.SL_VER_RETIRING : Fld := ⟨Reg.SL_VER, 15, 1⟩
def Fld.SL_VER_BATCH_MAX : Fld := ⟨Reg.SL_VER, 16, 16⟩
def Reg.SL_ENTRY : Nat := 0x04000080
def Fld.SL_ENTRY_WORD : Fld := ⟨Reg.SL_ENTRY, 0, 64⟩
def Reg.SL_ADMITS : Nat := 0x04000100
def Fld.SL_ADMITS_COUNT : Fld := ⟨Reg.SL_ADMITS, 0, 64⟩
def Reg.SL_REFUSED : Nat := 0x04000108
def Fld.SL_REFUSED_COUNT : Fld := ⟨Reg.SL_REFUSED, 0, 64⟩
def Reg.SL_DONE : Nat := 0x04000110
def Fld.SL_DONE_COUNT : Fld := ⟨Reg.SL_DONE, 0, 64⟩
def Reg.SL_CANCELLED : Nat := 0x04000118
def Fld.SL_CANCELLED_COUNT : Fld := ⟨Reg.SL_CANCELLED, 0, 64⟩
def Reg.SL_FAILED : Nat := 0x04000120
def Fld.SL_FAILED_COUNT : Fld := ⟨Reg.SL_FAILED, 0, 64⟩
def Reg.SL_PREEMPTS : Nat := 0x04000128
def Fld.SL_PREEMPTS_COUNT : Fld := ⟨Reg.SL_PREEMPTS, 0, 64⟩
def Reg.SL_HELD_STEPS : Nat := 0x04000130
def Fld.SL_HELD_STEPS_COUNT : Fld := ⟨Reg.SL_HELD_STEPS, 0, 64⟩
def Reg.SL_LATE_TOKENS : Nat := 0x04000138
def Fld.SL_LATE_TOKENS_COUNT : Fld := ⟨Reg.SL_LATE_TOKENS, 0, 64⟩
def Reg.SL_EXPIRED : Nat := 0x04000140
def Fld.SL_EXPIRED_COUNT : Fld := ⟨Reg.SL_EXPIRED, 0, 64⟩
def Reg.SL_RESENDS : Nat := 0x04000148
def Fld.SL_RESENDS_COUNT : Fld := ⟨Reg.SL_RESENDS, 0, 64⟩
def Reg.SL_ERR : Nat := 0x04000180
def Fld.SL_ERR_FLAGS : Fld := ⟨Reg.SL_ERR, 0, 5⟩
def Reg.SL_ERR_INFO : Nat := 0x04000188
def Fld.SL_ERR_INFO_HANDLE : Fld := ⟨Reg.SL_ERR_INFO, 0, 32⟩
def Fld.SL_ERR_INFO_CTX : Fld := ⟨Reg.SL_ERR_INFO, 32, 8⟩
def Fld.SL_ERR_INFO_BIT : Fld := ⟨Reg.SL_ERR_INFO, 40, 3⟩

/-! ### samp -/

def Reg.SAMP_INFO : Nat := 0x04C00000
def Fld.SAMP_INFO_VOCAB_MAX : Fld := ⟨Reg.SAMP_INFO, 0, 20⟩
def Fld.SAMP_INFO_K_MAX : Fld := ⟨Reg.SAMP_INFO, 20, 11⟩
def Fld.SAMP_INFO_STOPS_MAX : Fld := ⟨Reg.SAMP_INFO, 31, 4⟩
def Fld.SAMP_INFO_STOP_LEN_MAX : Fld := ⟨Reg.SAMP_INFO, 35, 4⟩
def Reg.SAMP_ROWS : Nat := 0x04C00040
def Fld.SAMP_ROWS_COUNT : Fld := ⟨Reg.SAMP_ROWS, 0, 64⟩
def Reg.SAMP_GREEDY : Nat := 0x04C00048
def Fld.SAMP_GREEDY_COUNT : Fld := ⟨Reg.SAMP_GREEDY, 0, 64⟩
def Reg.SAMP_NAN_ROWS : Nat := 0x04C00050
def Fld.SAMP_NAN_ROWS_COUNT : Fld := ⟨Reg.SAMP_NAN_ROWS, 0, 64⟩
def Reg.SAMP_NO_CHOICE : Nat := 0x04C00058
def Fld.SAMP_NO_CHOICE_COUNT : Fld := ⟨Reg.SAMP_NO_CHOICE, 0, 64⟩
def Reg.SAMP_STOPS : Nat := 0x04C00060
def Fld.SAMP_STOPS_COUNT : Fld := ⟨Reg.SAMP_STOPS, 0, 64⟩
def Reg.SAMP_RING_WAITS : Nat := 0x04C00068
def Fld.SAMP_RING_WAITS_COUNT : Fld := ⟨Reg.SAMP_RING_WAITS, 0, 64⟩
def Reg.SAMP_COUNT_REBUILDS : Nat := 0x04C00070
def Fld.SAMP_COUNT_REBUILDS_COUNT : Fld := ⟨Reg.SAMP_COUNT_REBUILDS, 0, 64⟩
def Reg.SAMP_ERR : Nat := 0x04C000C0
def Fld.SAMP_ERR_FLAGS : Fld := ⟨Reg.SAMP_ERR, 0, 5⟩
def Reg.SAMP_ERR_INFO : Nat := 0x04C000C8
def Fld.SAMP_ERR_INFO_HANDLE : Fld := ⟨Reg.SAMP_ERR_INFO, 0, 32⟩
def Fld.SAMP_ERR_INFO_CTX : Fld := ⟨Reg.SAMP_ERR_INFO, 32, 8⟩
def Fld.SAMP_ERR_INFO_UID : Fld := ⟨Reg.SAMP_ERR_INFO, 40, 14⟩

/-! ### fabric -/

def Reg.FAB_ID : Nat := 0x01000000
def Fld.FAB_ID_MODULE_ID : Fld := ⟨Reg.FAB_ID, 0, 15⟩
def Fld.FAB_ID_VALID : Fld := ⟨Reg.FAB_ID, 15, 1⟩
def Fld.FAB_ID_RACK : Fld := ⟨Reg.FAB_ID, 16, 9⟩
def Fld.FAB_ID_TRAY : Fld := ⟨Reg.FAB_ID, 25, 5⟩
def Fld.FAB_ID_SLOT : Fld := ⟨Reg.FAB_ID, 30, 1⟩
def Reg.FAB_STATUS : Nat := 0x01000008
def Fld.FAB_STATUS_DISCOVERED : Fld := ⟨Reg.FAB_STATUS, 0, 1⟩
def Fld.FAB_STATUS_ROUTED : Fld := ⟨Reg.FAB_STATUS, 1, 1⟩
def Fld.FAB_STATUS_INJ_COPY : Fld := ⟨Reg.FAB_STATUS, 2, 1⟩
def Fld.FAB_STATUS_SWAP_PEND : Fld := ⟨Reg.FAB_STATUS, 3, 1⟩
def Fld.FAB_STATUS_TIME_ROOT : Fld := ⟨Reg.FAB_STATUS, 4, 1⟩
def Fld.FAB_STATUS_CUBE_UP : Fld := ⟨Reg.FAB_STATUS, 8, 6⟩
def Fld.FAB_STATUS_UPLINK_UP : Fld := ⟨Reg.FAB_STATUS, 14, 6⟩
def Fld.FAB_STATUS_TWIN_UP : Fld := ⟨Reg.FAB_STATUS, 20, 1⟩
def Reg.FAB_CTRL : Nat := 0x01000010
def Fld.FAB_CTRL_EN : Fld := ⟨Reg.FAB_CTRL, 0, 1⟩
def Fld.FAB_CTRL_ROOT_OK : Fld := ⟨Reg.FAB_CTRL, 1, 1⟩
def Fld.FAB_CTRL_BEACON_US : Fld := ⟨Reg.FAB_CTRL, 2, 16⟩
def Reg.FAB_PORT_SEL : Nat := 0x01000018
def Fld.FAB_PORT_SEL_PORT : Fld := ⟨Reg.FAB_PORT_SEL, 0, 5⟩
def Reg.FAB_PORT_STAT : Nat := 0x01000020
def Fld.FAB_PORT_STAT_STATE : Fld := ⟨Reg.FAB_PORT_STAT, 0, 3⟩
def Fld.FAB_PORT_STAT_LANES : Fld := ⟨Reg.FAB_PORT_STAT, 3, 4⟩
def Fld.FAB_PORT_STAT_LPORT : Fld := ⟨Reg.FAB_PORT_STAT, 7, 5⟩
def Fld.FAB_PORT_STAT_PEER_ID : Fld := ⟨Reg.FAB_PORT_STAT, 12, 15⟩
def Fld.FAB_PORT_STAT_PEER_PORT : Fld := ⟨Reg.FAB_PORT_STAT, 27, 5⟩
def Fld.FAB_PORT_STAT_PEER_SWITCH : Fld := ⟨Reg.FAB_PORT_STAT, 32, 1⟩
def Fld.FAB_PORT_STAT_RETRAINS : Fld := ⟨Reg.FAB_PORT_STAT, 48, 16⟩
def Reg.FAB_PORT_CTRL : Nat := 0x01000028
def Fld.FAB_PORT_CTRL_DISABLE : Fld := ⟨Reg.FAB_PORT_CTRL, 0, 1⟩
def Fld.FAB_PORT_CTRL_RETRAIN : Fld := ⟨Reg.FAB_PORT_CTRL, 1, 1⟩
def Reg.FAB_PORT_FEC : Nat := 0x01000030
def Fld.FAB_PORT_FEC_CORR_SYMBOLS : Fld := ⟨Reg.FAB_PORT_FEC, 0, 32⟩
def Fld.FAB_PORT_FEC_UNCORR_BLOCKS : Fld := ⟨Reg.FAB_PORT_FEC, 32, 16⟩
def Fld.FAB_PORT_FEC_REPLAYS : Fld := ⟨Reg.FAB_PORT_FEC, 48, 16⟩
def Reg.FAB_LPORT_SEL : Nat := 0x01000038
def Fld.FAB_LPORT_SEL_LPORT : Fld := ⟨Reg.FAB_LPORT_SEL, 0, 5⟩
def Reg.FAB_LPORT : Nat := 0x01000040
def Fld.FAB_LPORT_MEMBERS : Fld := ⟨Reg.FAB_LPORT, 0, 32⟩
def Fld.FAB_LPORT_ROLE : Fld := ⟨Reg.FAB_LPORT, 32, 3⟩
def Fld.FAB_LPORT_DIM : Fld := ⟨Reg.FAB_LPORT, 35, 3⟩
def Fld.FAB_LPORT_UP : Fld := ⟨Reg.FAB_LPORT, 38, 1⟩
def Reg.FAB_RT_SEL : Nat := 0x01000048
def Fld.FAB_RT_SEL_ENTRY : Fld := ⟨Reg.FAB_RT_SEL, 0, 10⟩
def Fld.FAB_RT_SEL_TABLE : Fld := ⟨Reg.FAB_RT_SEL, 10, 4⟩
def Fld.FAB_RT_SEL_COPY : Fld := ⟨Reg.FAB_RT_SEL, 14, 1⟩
def Reg.FAB_RT_DATA : Nat := 0x01000050
def Fld.FAB_RT_DATA_ENTRY : Fld := ⟨Reg.FAB_RT_DATA, 0, 64⟩
def Reg.FAB_RT_SWAP : Nat := 0x01000058
def Fld.FAB_RT_SWAP_AT : Fld := ⟨Reg.FAB_RT_SWAP, 0, 64⟩
def Reg.FAB_SLICE_SEL : Nat := 0x01000060
def Fld.FAB_SLICE_SEL_SLICE : Fld := ⟨Reg.FAB_SLICE_SEL, 0, 12⟩
def Reg.FAB_SLICE : Nat := 0x01000068
def Fld.FAB_SLICE_MEMBER : Fld := ⟨Reg.FAB_SLICE, 0, 1⟩
def Fld.FAB_SLICE_TABLE : Fld := ⟨Reg.FAB_SLICE, 1, 4⟩
def Reg.FAB_TIME : Nat := 0x01000080
def Fld.FAB_TIME_NOW : Fld := ⟨Reg.FAB_TIME, 0, 64⟩
def Reg.FAB_TIME_STAT : Nat := 0x01000088
def Fld.FAB_TIME_STAT_OFFSET_PS : Fld := ⟨Reg.FAB_TIME_STAT, 0, 32⟩
def Fld.FAB_TIME_STAT_DEPTH : Fld := ⟨Reg.FAB_TIME_STAT, 32, 5⟩
def Fld.FAB_TIME_STAT_SYNC : Fld := ⟨Reg.FAB_TIME_STAT, 37, 1⟩
def Fld.FAB_TIME_STAT_HOLDOVER : Fld := ⟨Reg.FAB_TIME_STAT, 38, 1⟩
def Fld.FAB_TIME_STAT_PARENT : Fld := ⟨Reg.FAB_TIME_STAT, 39, 5⟩
def Reg.FAB_ERR : Nat := 0x010000C0
def Fld.FAB_ERR_FLAGS : Fld := ⟨Reg.FAB_ERR, 0, 15⟩
def Reg.FAB_ERR_INFO : Nat := 0x010000C8
def Fld.FAB_ERR_INFO_PORT : Fld := ⟨Reg.FAB_ERR_INFO, 0, 5⟩
def Fld.FAB_ERR_INFO_SRC : Fld := ⟨Reg.FAB_ERR_INFO, 5, 15⟩
def Fld.FAB_ERR_INFO_SLICE : Fld := ⟨Reg.FAB_ERR_INFO, 20, 12⟩
def Fld.FAB_ERR_INFO_CTX : Fld := ⟨Reg.FAB_ERR_INFO, 32, 8⟩
def Fld.FAB_ERR_INFO_BIT : Fld := ⟨Reg.FAB_ERR_INFO, 40, 4⟩
def Reg.FAB_TX_FLITS : Nat := 0x01000100
def Fld.FAB_TX_FLITS_COUNT : Fld := ⟨Reg.FAB_TX_FLITS, 0, 64⟩
def Reg.FAB_RX_FLITS : Nat := 0x01000108
def Fld.FAB_RX_FLITS_COUNT : Fld := ⟨Reg.FAB_RX_FLITS, 0, 64⟩
def Reg.FAB_TRANSIT_FLITS : Nat := 0x01000110
def Fld.FAB_TRANSIT_FLITS_COUNT : Fld := ⟨Reg.FAB_TRANSIT_FLITS, 0, 64⟩
def Reg.FAB_DROPS : Nat := 0x01000118
def Fld.FAB_DROPS_COUNT : Fld := ⟨Reg.FAB_DROPS, 0, 64⟩
def Reg.FAB_HELD : Nat := 0x01000120
def Fld.FAB_HELD_COUNT : Fld := ⟨Reg.FAB_HELD, 0, 64⟩
def Reg.FAB_SWAPS : Nat := 0x01000128
def Fld.FAB_SWAPS_COUNT : Fld := ⟨Reg.FAB_SWAPS, 0, 64⟩

/-! ### coll -/

def Reg.COLL_STATUS : Nat := 0x08050000
def Fld.COLL_STATUS_INFLIGHT : Fld := ⟨Reg.COLL_STATUS, 0, 5⟩
def Fld.COLL_STATUS_KEYS : Fld := ⟨Reg.COLL_STATUS, 5, 11⟩
def Reg.COLL_CTRL : Nat := 0x08050008
def Fld.COLL_CTRL_TIMEOUT_US : Fld := ⟨Reg.COLL_CTRL, 0, 24⟩
def Reg.COLL_DONE : Nat := 0x08050040
def Fld.COLL_DONE_COUNT : Fld := ⟨Reg.COLL_DONE, 0, 64⟩
def Reg.COLL_TX_BYTES : Nat := 0x08050048
def Fld.COLL_TX_BYTES_COUNT : Fld := ⟨Reg.COLL_TX_BYTES, 0, 64⟩
def Reg.COLL_RX_BYTES : Nat := 0x08050050
def Fld.COLL_RX_BYTES_COUNT : Fld := ⟨Reg.COLL_RX_BYTES, 0, 64⟩
def Reg.COLL_ZERO_FRAMES : Nat := 0x08050058
def Fld.COLL_ZERO_FRAMES_COUNT : Fld := ⟨Reg.COLL_ZERO_FRAMES, 0, 64⟩
def Reg.COLL_LOST : Nat := 0x08050060
def Fld.COLL_LOST_COUNT : Fld := ⟨Reg.COLL_LOST, 0, 64⟩
def Reg.COLL_ORDER_WAITS : Nat := 0x08050068
def Fld.COLL_ORDER_WAITS_COUNT : Fld := ⟨Reg.COLL_ORDER_WAITS, 0, 64⟩
def Reg.COLL_FAULT : Nat := 0x080500C0
def Fld.COLL_FAULT_FLAGS : Fld := ⟨Reg.COLL_FAULT, 0, 6⟩
def Reg.COLL_FAULT_INFO : Nat := 0x080500C8
def Fld.COLL_FAULT_INFO_COLL_ID : Fld := ⟨Reg.COLL_FAULT_INFO, 0, 16⟩
def Fld.COLL_FAULT_INFO_CTX : Fld := ⟨Reg.COLL_FAULT_INFO, 16, 8⟩
def Fld.COLL_FAULT_INFO_RANK : Fld := ⟨Reg.COLL_FAULT_INFO, 24, 8⟩
def Fld.COLL_FAULT_INFO_MODULE : Fld := ⟨Reg.COLL_FAULT_INFO, 32, 15⟩

/-! ### victx -/

def Reg.VICTX_ID : Nat := 0x00900000
def Fld.VICTX_ID_VI : Fld := ⟨Reg.VICTX_ID, 0, 8⟩
def Fld.VICTX_ID_ENABLED : Fld := ⟨Reg.VICTX_ID, 8, 1⟩
def Fld.VICTX_ID_SLICE : Fld := ⟨Reg.VICTX_ID, 9, 12⟩
def Fld.VICTX_ID_DOMAIN : Fld := ⟨Reg.VICTX_ID, 21, 16⟩
def Reg.VICTX_RINGS : Nat := 0x00900008
def Fld.VICTX_RINGS_FIRST : Fld := ⟨Reg.VICTX_RINGS, 0, 13⟩
def Fld.VICTX_RINGS_COUNT : Fld := ⟨Reg.VICTX_RINGS, 13, 15⟩
def Reg.VICTX_LIMITS : Nat := 0x00900010
def Fld.VICTX_LIMITS_CTX_MAX : Fld := ⟨Reg.VICTX_LIMITS, 0, 9⟩
def Fld.VICTX_LIMITS_CTX_USED : Fld := ⟨Reg.VICTX_LIMITS, 9, 9⟩
def Fld.VICTX_LIMITS_PRIO_MAX : Fld := ⟨Reg.VICTX_LIMITS, 18, 3⟩
def Fld.VICTX_LIMITS_SL_QUOTA : Fld := ⟨Reg.VICTX_LIMITS, 21, 15⟩
def Fld.VICTX_LIMITS_SL_LIVE : Fld := ⟨Reg.VICTX_LIMITS, 36, 15⟩
def Reg.VICTX_CTX_SEL : Nat := 0x00900018
def Fld.VICTX_CTX_SEL_CTX : Fld := ⟨Reg.VICTX_CTX_SEL, 0, 8⟩
def Reg.VICTX_CTX_STATE : Nat := 0x00900020
def Fld.VICTX_CTX_STATE_VALID : Fld := ⟨Reg.VICTX_CTX_STATE, 0, 1⟩
def Fld.VICTX_CTX_STATE_TEARING : Fld := ⟨Reg.VICTX_CTX_STATE, 1, 1⟩
def Fld.VICTX_CTX_STATE_SCRUBBING : Fld := ⟨Reg.VICTX_CTX_STATE, 2, 1⟩
def Fld.VICTX_CTX_STATE_SPAN : Fld := ⟨Reg.VICTX_CTX_STATE, 3, 1⟩
def Fld.VICTX_CTX_STATE_PRIORITY : Fld := ⟨Reg.VICTX_CTX_STATE, 4, 3⟩
def Fld.VICTX_CTX_STATE_WEIGHT : Fld := ⟨Reg.VICTX_CTX_STATE, 7, 16⟩
def Fld.VICTX_CTX_STATE_NOTICE_CQ : Fld := ⟨Reg.VICTX_CTX_STATE, 23, 13⟩
def Fld.VICTX_CTX_STATE_MASTER : Fld := ⟨Reg.VICTX_CTX_STATE, 36, 15⟩
def Reg.VICTX_CTX_QUOTA_TS : Nat := 0x00900028
def Fld.VICTX_CTX_QUOTA_TS_UNITS : Fld := ⟨Reg.VICTX_CTX_QUOTA_TS, 0, 20⟩
def Reg.VICTX_CTX_QUOTA_SS : Nat := 0x00900030
def Fld.VICTX_CTX_QUOTA_SS_UNITS : Fld := ⟨Reg.VICTX_CTX_QUOTA_SS, 0, 25⟩
def Reg.VICTX_CTX_QUOTA_BR : Nat := 0x00900038
def Fld.VICTX_CTX_QUOTA_BR_UNITS : Fld := ⟨Reg.VICTX_CTX_QUOTA_BR, 0, 28⟩
def Reg.VICTX_CTX_USE_TS : Nat := 0x00900040
def Fld.VICTX_CTX_USE_TS_UNITS : Fld := ⟨Reg.VICTX_CTX_USE_TS, 0, 20⟩
def Reg.VICTX_CTX_USE_SS : Nat := 0x00900048
def Fld.VICTX_CTX_USE_SS_UNITS : Fld := ⟨Reg.VICTX_CTX_USE_SS, 0, 25⟩
def Reg.VICTX_CTX_USE_BR : Nat := 0x00900050
def Fld.VICTX_CTX_USE_BR_UNITS : Fld := ⟨Reg.VICTX_CTX_USE_BR, 0, 28⟩
def Reg.VICTX_CTX_NS : Nat := 0x00900058
def Fld.VICTX_CTX_NS_NS : Fld := ⟨Reg.VICTX_CTX_NS, 0, 64⟩
def Reg.VICTX_CTX_BYTES : Nat := 0x00900060
def Fld.VICTX_CTX_BYTES_COUNT : Fld := ⟨Reg.VICTX_CTX_BYTES, 0, 64⟩
def Reg.VICTX_CTX_WASTE : Nat := 0x00900068
def Fld.VICTX_CTX_WASTE_COUNT : Fld := ⟨Reg.VICTX_CTX_WASTE, 0, 64⟩
def Reg.VICTX_CTX_REFETCH : Nat := 0x00900070
def Fld.VICTX_CTX_REFETCH_COUNT : Fld := ⟨Reg.VICTX_CTX_REFETCH, 0, 64⟩
def Reg.VICTX_CTX_REQS : Nat := 0x00900078
def Fld.VICTX_CTX_REQS_LIVE : Fld := ⟨Reg.VICTX_CTX_REQS, 0, 15⟩
def Reg.VICTX_CTX_TEARDOWNS : Nat := 0x00900088
def Fld.VICTX_CTX_TEARDOWNS_COUNT : Fld := ⟨Reg.VICTX_CTX_TEARDOWNS, 0, 64⟩

/-! ### hostvi -/

def Reg.HOSTVI_DEV_STATUS : Nat := 0x00800000
def Fld.HOSTVI_DEV_STATUS_READY : Fld := ⟨Reg.HOSTVI_DEV_STATUS, 0, 1⟩
def Reg.HOSTVI_LINK : Nat := 0x00800008
def Fld.HOSTVI_LINK_RATE : Fld := ⟨Reg.HOSTVI_LINK, 0, 4⟩
def Fld.HOSTVI_LINK_WIDTH : Fld := ⟨Reg.HOSTVI_LINK, 4, 5⟩
def Fld.HOSTVI_LINK_FLIT : Fld := ⟨Reg.HOSTVI_LINK, 9, 1⟩
def Fld.HOSTVI_LINK_DEGRADED : Fld := ⟨Reg.HOSTVI_LINK, 10, 1⟩
def Reg.HOSTVI_CTRL : Nat := 0x00800010
def Fld.HOSTVI_CTRL_DEP_MS : Fld := ⟨Reg.HOSTVI_CTRL, 0, 16⟩
def Reg.HOSTVI_ERR : Nat := 0x008000C0
def Fld.HOSTVI_ERR_FLAGS : Fld := ⟨Reg.HOSTVI_ERR, 0, 6⟩
def Reg.HOSTVI_ERR_INFO : Nat := 0x008000C8
def Fld.HOSTVI_ERR_INFO_RING : Fld := ⟨Reg.HOSTVI_ERR_INFO, 0, 13⟩
def Fld.HOSTVI_ERR_INFO_VI : Fld := ⟨Reg.HOSTVI_ERR_INFO, 13, 8⟩
def Fld.HOSTVI_ERR_INFO_CTX : Fld := ⟨Reg.HOSTVI_ERR_INFO, 21, 8⟩
def Fld.HOSTVI_ERR_INFO_BIT : Fld := ⟨Reg.HOSTVI_ERR_INFO, 29, 3⟩
def Fld.HOSTVI_ERR_INFO_SEQ : Fld := ⟨Reg.HOSTVI_ERR_INFO, 32, 16⟩
def Reg.HOSTVI_VI_SEL : Nat := 0x00810000
def Fld.HOSTVI_VI_SEL_VI : Fld := ⟨Reg.HOSTVI_VI_SEL, 0, 8⟩
def Reg.HOSTVI_VI_CFG : Nat := 0x00810008
def Fld.HOSTVI_VI_CFG_ALL : Fld := ⟨Reg.HOSTVI_VI_CFG, 0, 64⟩
def Reg.HOSTVI_VI_LIM : Nat := 0x00810010
def Fld.HOSTVI_VI_LIM_ALL : Fld := ⟨Reg.HOSTVI_VI_LIM, 0, 64⟩

/-! ### ring -/

def Reg.RING_BASE : Nat := 0x00C00000
def Fld.RING_BASE_ADDR : Fld := ⟨Reg.RING_BASE, 0, 64⟩
def Reg.RING_CFG : Nat := 0x00C00008
def Fld.RING_CFG_TYPE : Fld := ⟨Reg.RING_CFG, 0, 2⟩
def Fld.RING_CFG_LOG2 : Fld := ⟨Reg.RING_CFG, 2, 4⟩
def Fld.RING_CFG_CTX_BOUND : Fld := ⟨Reg.RING_CFG, 6, 1⟩
def Fld.RING_CFG_CTX : Fld := ⟨Reg.RING_CFG, 7, 8⟩
def Fld.RING_CFG_CQ : Fld := ⟨Reg.RING_CFG, 15, 13⟩
def Fld.RING_CFG_VECTOR : Fld := ⟨Reg.RING_CFG, 28, 8⟩
def Fld.RING_CFG_ITR_US : Fld := ⟨Reg.RING_CFG, 36, 16⟩
def Reg.RING_SHADOW : Nat := 0x00C00010
def Fld.RING_SHADOW_ADDR : Fld := ⟨Reg.RING_SHADOW, 0, 64⟩
def Reg.RING_CTRL : Nat := 0x00C00018
def Fld.RING_CTRL_ENABLE : Fld := ⟨Reg.RING_CTRL, 0, 1⟩
def Reg.RING_STATUS : Nat := 0x00C00020
def Fld.RING_STATUS_STATE : Fld := ⟨Reg.RING_STATUS, 0, 2⟩
def Fld.RING_STATUS_HALT_CODE : Fld := ⟨Reg.RING_STATUS, 2, 4⟩
def Reg.RING_DB : Nat := 0x00C00028
def Fld.RING_DB_INDEX : Fld := ⟨Reg.RING_DB, 0, 16⟩
def Reg.RING_IDX : Nat := 0x00C00030
def Fld.RING_IDX_HEAD : Fld := ⟨Reg.RING_IDX, 0, 16⟩
def Fld.RING_IDX_TAIL : Fld := ⟨Reg.RING_IDX, 16, 16⟩
def Reg.RING_SEQ : Nat := 0x00C00038
def Fld.RING_SEQ_FETCHED : Fld := ⟨Reg.RING_SEQ, 0, 48⟩

/-! ### wpkg -/

def Reg.WPKG_STATUS : Nat := 0x04B00000
def Fld.WPKG_STATUS_GEN : Fld := ⟨Reg.WPKG_STATUS, 0, 1⟩
def Fld.WPKG_STATUS_SWAP_PEND : Fld := ⟨Reg.WPKG_STATUS, 1, 1⟩
def Fld.WPKG_STATUS_LOADS : Fld := ⟨Reg.WPKG_STATUS, 2, 3⟩
def Fld.WPKG_STATUS_RESIDENT : Fld := ⟨Reg.WPKG_STATUS, 5, 9⟩
def Reg.WPKG_VER_SEL : Nat := 0x04B00008
def Fld.WPKG_VER_SEL_VERSION : Fld := ⟨Reg.WPKG_VER_SEL, 0, 16⟩
def Reg.WPKG_VER_STATE : Nat := 0x04B00010
def Fld.WPKG_VER_STATE_STATE : Fld := ⟨Reg.WPKG_VER_STATE, 0, 3⟩
def Fld.WPKG_VER_STATE_MODEL : Fld := ⟨Reg.WPKG_VER_STATE, 3, 16⟩
def Fld.WPKG_VER_STATE_SLOT : Fld := ⟨Reg.WPKG_VER_STATE, 19, 4⟩
def Fld.WPKG_VER_STATE_CTX : Fld := ⟨Reg.WPKG_VER_STATE, 23, 8⟩
def Fld.WPKG_VER_STATE_TWIN_OK : Fld := ⟨Reg.WPKG_VER_STATE, 31, 1⟩
def Fld.WPKG_VER_STATE_LIVE : Fld := ⟨Reg.WPKG_VER_STATE, 32, 1⟩
def Fld.WPKG_VER_STATE_KV_FMT : Fld := ⟨Reg.WPKG_VER_STATE, 33, 4⟩
def Fld.WPKG_VER_STATE_REFS : Fld := ⟨Reg.WPKG_VER_STATE, 37, 15⟩
def Reg.WPKG_VER_TILES : Nat := 0x04B00018
def Fld.WPKG_VER_TILES_TILES : Fld := ⟨Reg.WPKG_VER_TILES, 0, 28⟩
def Fld.WPKG_VER_TILES_VERIFIED : Fld := ⟨Reg.WPKG_VER_TILES, 28, 28⟩
def Reg.WPKG_VER_ROOT : Nat := 0x04B00020
def Fld.WPKG_VER_ROOT_ROOT_LO : Fld := ⟨Reg.WPKG_VER_ROOT, 0, 64⟩
def Reg.WPKG_VER_PARAMS : Nat := 0x04B00028
def Fld.WPKG_VER_PARAMS_VOCAB : Fld := ⟨Reg.WPKG_VER_PARAMS, 0, 20⟩
def Fld.WPKG_VER_PARAMS_EOS : Fld := ⟨Reg.WPKG_VER_PARAMS, 20, 20⟩
def Fld.WPKG_VER_PARAMS_LAYERS : Fld := ⟨Reg.WPKG_VER_PARAMS, 40, 10⟩
def Fld.WPKG_VER_PARAMS_KV_HEADS : Fld := ⟨Reg.WPKG_VER_PARAMS, 50, 7⟩
def Fld.WPKG_VER_PARAMS_HEAD_DIM32 : Fld := ⟨Reg.WPKG_VER_PARAMS, 57, 4⟩
def Reg.WPKG_MODEL_SEL : Nat := 0x04B00030
def Fld.WPKG_MODEL_SEL_MODEL : Fld := ⟨Reg.WPKG_MODEL_SEL, 0, 16⟩
def Reg.WPKG_MODEL_LIVE : Nat := 0x04B00038
def Fld.WPKG_MODEL_LIVE_VERSION : Fld := ⟨Reg.WPKG_MODEL_LIVE, 0, 16⟩
def Fld.WPKG_MODEL_LIVE_VALID : Fld := ⟨Reg.WPKG_MODEL_LIVE, 16, 1⟩
def Reg.WPKG_LOAD_INFO : Nat := 0x04B00040
def Fld.WPKG_LOAD_INFO_STATUS : Fld := ⟨Reg.WPKG_LOAD_INFO, 0, 8⟩
def Fld.WPKG_LOAD_INFO_TILE : Fld := ⟨Reg.WPKG_LOAD_INFO, 8, 28⟩
def Fld.WPKG_LOAD_INFO_VERSION : Fld := ⟨Reg.WPKG_LOAD_INFO, 36, 16⟩
def Reg.WPKG_LOADS : Nat := 0x04B00080
def Fld.WPKG_LOADS_COUNT : Fld := ⟨Reg.WPKG_LOADS, 0, 64⟩
def Reg.WPKG_TILES_VERIFIED : Nat := 0x04B00088
def Fld.WPKG_TILES_VERIFIED_COUNT : Fld := ⟨Reg.WPKG_TILES_VERIFIED, 0, 64⟩
def Reg.WPKG_TILE_RETRIES : Nat := 0x04B00090
def Fld.WPKG_TILE_RETRIES_COUNT : Fld := ⟨Reg.WPKG_TILE_RETRIES, 0, 64⟩
def Reg.WPKG_SWITCHES : Nat := 0x04B00098
def Fld.WPKG_SWITCHES_COUNT : Fld := ⟨Reg.WPKG_SWITCHES, 0, 64⟩
def Reg.WPKG_ERR : Nat := 0x04B000C0
def Fld.WPKG_ERR_FLAGS : Fld := ⟨Reg.WPKG_ERR, 0, 5⟩

/-! ### twin -/

def Reg.TWIN_ID : Nat := 0x02000000
def Fld.TWIN_ID_PEER : Fld := ⟨Reg.TWIN_ID, 0, 15⟩
def Fld.TWIN_ID_PAIR_EN : Fld := ⟨Reg.TWIN_ID, 15, 1⟩
def Fld.TWIN_ID_PAIR : Fld := ⟨Reg.TWIN_ID, 16, 15⟩
def Fld.TWIN_ID_LOWER : Fld := ⟨Reg.TWIN_ID, 31, 1⟩
def Reg.TWIN_STATUS : Nat := 0x02000008
def Fld.TWIN_STATUS_STATE : Fld := ⟨Reg.TWIN_STATUS, 0, 3⟩
def Fld.TWIN_STATUS_FABRIC_PATH : Fld := ⟨Reg.TWIN_STATUS, 3, 1⟩
def Fld.TWIN_STATUS_SUSPECT : Fld := ⟨Reg.TWIN_STATUS, 4, 1⟩
def Fld.TWIN_STATUS_MIRRORED : Fld := ⟨Reg.TWIN_STATUS, 5, 15⟩
def Reg.TWIN_CTRL : Nat := 0x02000010
def Fld.TWIN_CTRL_CKPT_TOKENS : Fld := ⟨Reg.TWIN_CTRL, 0, 11⟩
def Fld.TWIN_CTRL_READMIT_S : Fld := ⟨Reg.TWIN_CTRL, 11, 16⟩
def Fld.TWIN_CTRL_DRAIN_S : Fld := ⟨Reg.TWIN_CTRL, 27, 16⟩
def Reg.TWIN_SEQ : Nat := 0x02000018
def Fld.TWIN_SEQ_TX : Fld := ⟨Reg.TWIN_SEQ, 0, 32⟩
def Fld.TWIN_SEQ_ACKED : Fld := ⟨Reg.TWIN_SEQ, 32, 32⟩
def Reg.TWIN_HB_T : Nat := 0x02000020
def Fld.TWIN_HB_T_T : Fld := ⟨Reg.TWIN_HB_T, 0, 64⟩
def Reg.TWIN_MIRROR_GIB : Nat := 0x02000028
def Fld.TWIN_MIRROR_GIB_GIB : Fld := ⟨Reg.TWIN_MIRROR_GIB, 0, 13⟩
def Reg.TWIN_RECORDS : Nat := 0x02000040
def Fld.TWIN_RECORDS_COUNT : Fld := ⟨Reg.TWIN_RECORDS, 0, 64⟩
def Reg.TWIN_CKPT_BYTES : Nat := 0x02000048
def Fld.TWIN_CKPT_BYTES_COUNT : Fld := ⟨Reg.TWIN_CKPT_BYTES, 0, 64⟩
def Reg.TWIN_TAKEOVERS : Nat := 0x02000050
def Fld.TWIN_TAKEOVERS_COUNT : Fld := ⟨Reg.TWIN_TAKEOVERS, 0, 64⟩
def Reg.TWIN_RECOMPUTED : Nat := 0x02000058
def Fld.TWIN_RECOMPUTED_COUNT : Fld := ⟨Reg.TWIN_RECOMPUTED, 0, 64⟩
def Reg.TWIN_RING_WAITS : Nat := 0x02000060
def Fld.TWIN_RING_WAITS_COUNT : Fld := ⟨Reg.TWIN_RING_WAITS, 0, 64⟩
def Reg.TWIN_ERR : Nat := 0x020000C0
def Fld.TWIN_ERR_FLAGS : Fld := ⟨Reg.TWIN_ERR, 0, 10⟩
def Reg.TWIN_ERR_INFO : Nat := 0x020000C8
def Fld.TWIN_ERR_INFO_MODULE : Fld := ⟨Reg.TWIN_ERR_INFO, 0, 15⟩
def Fld.TWIN_ERR_INFO_BIT : Fld := ⟨Reg.TWIN_ERR_INFO, 15, 4⟩

/-! ### keel -/

def Reg.KEEL_STATUS : Nat := 0x00100000
def Fld.KEEL_STATUS_ANCHOR_SET : Fld := ⟨Reg.KEEL_STATUS, 0, 1⟩
def Fld.KEEL_STATUS_ALARMS : Fld := ⟨Reg.KEEL_STATUS, 1, 5⟩
def Fld.KEEL_STATUS_SUSTAINED : Fld := ⟨Reg.KEEL_STATUS, 6, 1⟩
def Fld.KEEL_STATUS_EMERG_ACTIVE : Fld := ⟨Reg.KEEL_STATUS, 7, 1⟩
def Fld.KEEL_STATUS_LOCKSTEP_OK : Fld := ⟨Reg.KEEL_STATUS, 8, 1⟩
def Reg.KEEL_ORDER_SEQ : Nat := 0x00100008
def Fld.KEEL_ORDER_SEQ_SEQ : Fld := ⟨Reg.KEEL_ORDER_SEQ, 0, 64⟩
def Reg.KEEL_ANCHOR_ID : Nat := 0x00100010
def Fld.KEEL_ANCHOR_ID_ID : Fld := ⟨Reg.KEEL_ANCHOR_ID, 0, 64⟩
def Reg.KEEL_CAP : Nat := 0x00100018
def Fld.KEEL_CAP_MODULE_W : Fld := ⟨Reg.KEEL_CAP, 0, 13⟩
def Fld.KEEL_CAP_ALERT_W : Fld := ⟨Reg.KEEL_CAP, 13, 13⟩
def Reg.KEEL_THERM : Nat := 0x00100020
def Fld.KEEL_THERM_THROTTLE_C : Fld := ⟨Reg.KEEL_THERM, 0, 7⟩
def Fld.KEEL_THERM_TRIP_C : Fld := ⟨Reg.KEEL_THERM, 7, 7⟩
def Fld.KEEL_THERM_INLET_C : Fld := ⟨Reg.KEEL_THERM, 14, 6⟩
def Reg.KEEL_ALARM : Nat := 0x00100028
def Fld.KEEL_ALARM_SUSTAIN_MS : Fld := ⟨Reg.KEEL_ALARM, 0, 14⟩
def Fld.KEEL_ALARM_CLEAR_MS : Fld := ⟨Reg.KEEL_ALARM, 14, 16⟩
def Reg.KEEL_TWIN : Nat := 0x00100030
def Fld.KEEL_TWIN_PEER : Fld := ⟨Reg.KEEL_TWIN, 0, 15⟩
def Fld.KEEL_TWIN_PAIR_EN : Fld := ⟨Reg.KEEL_TWIN, 15, 1⟩
def Reg.KEEL_LOCATION : Nat := 0x00100038
def Fld.KEEL_LOCATION_RACK : Fld := ⟨Reg.KEEL_LOCATION, 0, 9⟩
def Fld.KEEL_LOCATION_TRAY : Fld := ⟨Reg.KEEL_LOCATION, 9, 5⟩
def Fld.KEEL_LOCATION_SLOT : Fld := ⟨Reg.KEEL_LOCATION, 14, 1⟩
def Fld.KEEL_LOCATION_VALID : Fld := ⟨Reg.KEEL_LOCATION, 15, 1⟩
def Reg.KEEL_EMERG : Nat := 0x00100040
def Fld.KEEL_EMERG_FORCE : Fld := ⟨Reg.KEEL_EMERG, 0, 1⟩
def Reg.KEEL_POWER : Nat := 0x00100048
def Fld.KEEL_POWER_OFF : Fld := ⟨Reg.KEEL_POWER, 0, 1⟩
def Reg.KEEL_LOG_POLICY : Nat := 0x00100050
def Fld.KEEL_LOG_POLICY_PERIODIC_S : Fld := ⟨Reg.KEEL_LOG_POLICY, 0, 16⟩
def Fld.KEEL_LOG_POLICY_MIN_SEV : Fld := ⟨Reg.KEEL_LOG_POLICY, 16, 3⟩
def Fld.KEEL_LOG_POLICY_ERASE_LOCK : Fld := ⟨Reg.KEEL_LOG_POLICY, 19, 1⟩
def Reg.KEEL_ORDERS : Nat := 0x00100060
def Fld.KEEL_ORDERS_ACCEPTED : Fld := ⟨Reg.KEEL_ORDERS, 0, 32⟩
def Fld.KEEL_ORDERS_REFUSED : Fld := ⟨Reg.KEEL_ORDERS, 32, 32⟩
def Reg.KEEL_LAST_REFUSE : Nat := 0x00100068
def Fld.KEEL_LAST_REFUSE_CODE : Fld := ⟨Reg.KEEL_LAST_REFUSE, 0, 8⟩
def Fld.KEEL_LAST_REFUSE_SEQ : Fld := ⟨Reg.KEEL_LAST_REFUSE, 8, 56⟩
def Reg.KEEL_KEY_ID : Nat := 0x00100100
def Fld.KEEL_KEY_ID_KEY_ID : Fld := ⟨Reg.KEEL_KEY_ID, 0, 64⟩
def Reg.KEEL_KEY_STATE : Nat := 0x00100108
def Fld.KEEL_KEY_STATE_VALID : Fld := ⟨Reg.KEEL_KEY_STATE, 0, 1⟩
def Fld.KEEL_KEY_STATE_REVOKED : Fld := ⟨Reg.KEEL_KEY_STATE, 1, 1⟩
def Reg.KEEL_KEY_DATA : Nat := 0x00110000
def Fld.KEEL_KEY_DATA_KEY : Fld := ⟨Reg.KEEL_KEY_DATA, 0, 64⟩

/-! ### pwrclk -/

def Reg.PWRCLK_STATE : Nat := 0x00200000
def Fld.PWRCLK_STATE_MSTATE : Fld := ⟨Reg.PWRCLK_STATE, 0, 2⟩
def Fld.PWRCLK_STATE_BY_ALARM : Fld := ⟨Reg.PWRCLK_STATE, 2, 1⟩
def Fld.PWRCLK_STATE_SEAT_SLEEP : Fld := ⟨Reg.PWRCLK_STATE, 8, 8⟩
def Fld.PWRCLK_STATE_SEAT_MOVING : Fld := ⟨Reg.PWRCLK_STATE, 16, 8⟩
def Reg.PWRCLK_REQ : Nat := 0x00200008
def Fld.PWRCLK_REQ_TARGET : Fld := ⟨Reg.PWRCLK_REQ, 0, 2⟩
def Fld.PWRCLK_REQ_SEAT_SLEEP_REQ : Fld := ⟨Reg.PWRCLK_REQ, 8, 8⟩
def Reg.PWRCLK_REFUSE : Nat := 0x00200010
def Fld.PWRCLK_REFUSE_CODE : Fld := ⟨Reg.PWRCLK_REFUSE, 0, 4⟩
def Fld.PWRCLK_REFUSE_SEAT : Fld := ⟨Reg.PWRCLK_REFUSE, 4, 3⟩
def Reg.PWRCLK_HOST_WAKE : Nat := 0x00200018
def Fld.PWRCLK_HOST_WAKE_WAKE : Fld := ⟨Reg.PWRCLK_HOST_WAKE, 0, 1⟩
def Reg.PWRCLK_WAKE_AT : Nat := 0x00200020
def Fld.PWRCLK_WAKE_AT_T : Fld := ⟨Reg.PWRCLK_WAKE_AT, 0, 64⟩
def Reg.PWRCLK_INPUT : Nat := 0x00200028
def Fld.PWRCLK_INPUT_VIN_MV : Fld := ⟨Reg.PWRCLK_INPUT, 0, 16⟩
def Fld.PWRCLK_INPUT_IIN_DA : Fld := ⟨Reg.PWRCLK_INPUT, 16, 16⟩
def Fld.PWRCLK_INPUT_PIN_W : Fld := ⟨Reg.PWRCLK_INPUT, 32, 13⟩
def Reg.PWRCLK_CAP : Nat := 0x00200030
def Fld.PWRCLK_CAP_CAP_W : Fld := ⟨Reg.PWRCLK_CAP, 0, 13⟩
def Fld.PWRCLK_CAP_STRETCH : Fld := ⟨Reg.PWRCLK_CAP, 13, 2⟩
def Fld.PWRCLK_CAP_CEIL_MHZ : Fld := ⟨Reg.PWRCLK_CAP, 15, 12⟩
def Reg.PWRCLK_THERM : Nat := 0x00200038
def Fld.PWRCLK_THERM_TJ_MAX_0 : Fld := ⟨Reg.PWRCLK_THERM, 0, 8⟩
def Fld.PWRCLK_THERM_TJ_MAX_1 : Fld := ⟨Reg.PWRCLK_THERM, 8, 8⟩
def Fld.PWRCLK_THERM_TJ_MAX_2 : Fld := ⟨Reg.PWRCLK_THERM, 16, 8⟩
def Fld.PWRCLK_THERM_TJ_MAX_3 : Fld := ⟨Reg.PWRCLK_THERM, 24, 8⟩
def Fld.PWRCLK_THERM_TJ_MAX_4 : Fld := ⟨Reg.PWRCLK_THERM, 32, 8⟩
def Fld.PWRCLK_THERM_TJ_MAX_5 : Fld := ⟨Reg.PWRCLK_THERM, 40, 8⟩
def Fld.PWRCLK_THERM_TJ_MAX_6 : Fld := ⟨Reg.PWRCLK_THERM, 48, 8⟩
def Fld.PWRCLK_THERM_TJ_MAX_7 : Fld := ⟨Reg.PWRCLK_THERM, 56, 8⟩
def Reg.PWRCLK_WAKE_LOST : Nat := 0x00200080
def Fld.PWRCLK_WAKE_LOST_COUNT : Fld := ⟨Reg.PWRCLK_WAKE_LOST, 0, 64⟩
def Reg.PWRCLK_SEAT_SLEEPS : Nat := 0x00200088
def Fld.PWRCLK_SEAT_SLEEPS_COUNT : Fld := ⟨Reg.PWRCLK_SEAT_SLEEPS, 0, 64⟩
def Reg.PWRCLK_WAKES : Nat := 0x00200090
def Fld.PWRCLK_WAKES_COUNT : Fld := ⟨Reg.PWRCLK_WAKES, 0, 64⟩
def Reg.PWRCLK_CAP_NS : Nat := 0x00200098
def Fld.PWRCLK_CAP_NS_NS : Fld := ⟨Reg.PWRCLK_CAP_NS, 0, 64⟩
def Reg.PWRCLK_EMERG_NS : Nat := 0x002000A0
def Fld.PWRCLK_EMERG_NS_NS : Fld := ⟨Reg.PWRCLK_EMERG_NS, 0, 64⟩
def Reg.PWRCLK_ERR : Nat := 0x002000C0
def Fld.PWRCLK_ERR_FLAGS : Fld := ⟨Reg.PWRCLK_ERR, 0, 9⟩

/-! ### errobs -/

def Reg.ERR_STATUS : Nat := 0x00400000
def Fld.ERR_STATUS_STALLED : Fld := ⟨Reg.ERR_STATUS, 0, 1⟩
def Fld.ERR_STATUS_BACKLOG : Fld := ⟨Reg.ERR_STATUS, 1, 1⟩
def Reg.ERR_RING_PROD : Nat := 0x00400008
def Fld.ERR_RING_PROD_PROD : Fld := ⟨Reg.ERR_RING_PROD, 0, 32⟩
def Reg.ERR_RING_CONS : Nat := 0x00400010
def Fld.ERR_RING_CONS_CONS : Fld := ⟨Reg.ERR_RING_CONS, 0, 32⟩
def Reg.ERR_RING_OCC : Nat := 0x00400018
def Fld.ERR_RING_OCC_HELD : Fld := ⟨Reg.ERR_RING_OCC, 0, 11⟩
def Fld.ERR_RING_OCC_HIGH : Fld := ⟨Reg.ERR_RING_OCC, 11, 11⟩
def Fld.ERR_RING_OCC_BACKLOG : Fld := ⟨Reg.ERR_RING_OCC, 22, 17⟩
def Reg.ERR_IRQ : Nat := 0x00400020
def Fld.ERR_IRQ_MIN_SEV : Fld := ⟨Reg.ERR_IRQ, 0, 3⟩
def Fld.ERR_IRQ_VECTOR : Fld := ⟨Reg.ERR_IRQ, 3, 8⟩
def Fld.ERR_IRQ_EN : Fld := ⟨Reg.ERR_IRQ, 11, 1⟩
def Reg.ERR_DROPPED : Nat := 0x00400028
def Fld.ERR_DROPPED_COUNT : Fld := ⟨Reg.ERR_DROPPED, 0, 64⟩
def Reg.ERR_ESCALATED : Nat := 0x00400030
def Fld.ERR_ESCALATED_COUNT : Fld := ⟨Reg.ERR_ESCALATED, 0, 64⟩
def Reg.ERR_ABSORBED : Nat := 0x00400038
def Fld.ERR_ABSORBED_COUNT : Fld := ⟨Reg.ERR_ABSORBED, 0, 64⟩
def Reg.ERR_RAISED_S : Nat := 0x00400040
def Fld.ERR_RAISED_S_COUNT : Fld := ⟨Reg.ERR_RAISED_S, 0, 64⟩
def Reg.ERR_POISON_ADDR : Nat := 0x00400070
def Fld.ERR_POISON_ADDR_ADDR : Fld := ⟨Reg.ERR_POISON_ADDR, 0, 60⟩
def Reg.ERR_POISON_T : Nat := 0x00400078
def Fld.ERR_POISON_T_T : Fld := ⟨Reg.ERR_POISON_T, 0, 64⟩
def Reg.ERR_FAULT : Nat := 0x004000C0
def Fld.ERR_FAULT_FLAGS : Fld := ⟨Reg.ERR_FAULT, 0, 6⟩
def Reg.ERR_HANDLING : Nat := 0x004000C8
def Fld.ERR_HANDLING_REQUESTS : Fld := ⟨Reg.ERR_HANDLING, 0, 15⟩
def Fld.ERR_HANDLING_CONTEXTS : Fld := ⟨Reg.ERR_HANDLING, 15, 9⟩
def Fld.ERR_HANDLING_MODULE : Fld := ⟨Reg.ERR_HANDLING, 24, 1⟩
def Reg.SNAP_TARGET : Nat := 0x00400100
def Fld.SNAP_TARGET_T : Fld := ⟨Reg.SNAP_TARGET, 0, 64⟩
def Reg.SNAP_CTRL : Nat := 0x00400108
def Fld.SNAP_CTRL_GO : Fld := ⟨Reg.SNAP_CTRL, 0, 1⟩
def Fld.SNAP_CTRL_SCOPE : Fld := ⟨Reg.SNAP_CTRL, 1, 2⟩
def Fld.SNAP_CTRL_SLICE : Fld := ⟨Reg.SNAP_CTRL, 3, 12⟩
def Fld.SNAP_CTRL_HOST_COPY : Fld := ⟨Reg.SNAP_CTRL, 15, 1⟩
def Reg.SNAP_HOST_ADDR : Nat := 0x00400110
def Fld.SNAP_HOST_ADDR_ADDR : Fld := ⟨Reg.SNAP_HOST_ADDR, 0, 64⟩
def Reg.SNAP_HOST_LEN : Nat := 0x00400118
def Fld.SNAP_HOST_LEN_BYTES : Fld := ⟨Reg.SNAP_HOST_LEN, 0, 32⟩
def Reg.SNAP_STATUS : Nat := 0x00400120
def Fld.SNAP_STATUS_SETS_BUSY : Fld := ⟨Reg.SNAP_STATUS, 0, 2⟩
def Fld.SNAP_STATUS_NEWEST : Fld := ⟨Reg.SNAP_STATUS, 2, 2⟩
def Fld.SNAP_STATUS_PACKING : Fld := ⟨Reg.SNAP_STATUS, 4, 1⟩
def Reg.SNAP_LAST_ID : Nat := 0x00400128
def Fld.SNAP_LAST_ID_ID : Fld := ⟨Reg.SNAP_LAST_ID, 0, 32⟩
def Reg.SNAP_LAST_T : Nat := 0x00400130
def Fld.SNAP_LAST_T_T : Fld := ⟨Reg.SNAP_LAST_T, 0, 64⟩
def Reg.SNAP_TAKEN : Nat := 0x00400138
def Fld.SNAP_TAKEN_COUNT : Fld := ⟨Reg.SNAP_TAKEN, 0, 64⟩
def Reg.SNAP_SKIPPED : Nat := 0x00400140
def Fld.SNAP_SKIPPED_COUNT : Fld := ⟨Reg.SNAP_SKIPPED, 0, 64⟩
def Reg.SNAP_MERGED : Nat := 0x00400148
def Fld.SNAP_MERGED_COUNT : Fld := ⟨Reg.SNAP_MERGED, 0, 64⟩
def Reg.SNAP_STORE_SEL : Nat := 0x00400150
def Fld.SNAP_STORE_SEL_SLOT : Fld := ⟨Reg.SNAP_STORE_SEL, 0, 2⟩
def Fld.SNAP_STORE_SEL_RECORD : Fld := ⟨Reg.SNAP_STORE_SEL, 2, 16⟩
def Reg.SNAP_STORE_DATA : Nat := 0x00400180
def Fld.SNAP_STORE_DATA_DATA : Fld := ⟨Reg.SNAP_STORE_DATA, 0, 64⟩
def Reg.PMC_SEL : Nat := 0x00400200
def Fld.PMC_SEL_EVENT : Fld := ⟨Reg.PMC_SEL, 0, 8⟩
def Fld.PMC_SEL_CTX : Fld := ⟨Reg.PMC_SEL, 8, 8⟩
def Fld.PMC_SEL_CTX_EN : Fld := ⟨Reg.PMC_SEL, 16, 1⟩
def Fld.PMC_SEL_CLEAR : Fld := ⟨Reg.PMC_SEL, 17, 1⟩
def Reg.PMC : Nat := 0x00400208
def Fld.PMC_COUNT : Fld := ⟨Reg.PMC, 0, 64⟩
def Reg.LOG_STATUS : Nat := 0x00400300
def Fld.LOG_STATUS_CAL_VALID : Fld := ⟨Reg.LOG_STATUS, 0, 1⟩
def Fld.LOG_STATUS_READY : Fld := ⟨Reg.LOG_STATUS, 1, 1⟩
def Fld.LOG_STATUS_NOT_FOUND : Fld := ⟨Reg.LOG_STATUS, 2, 1⟩
def Fld.LOG_STATUS_WRITE_FAIL : Fld := ⟨Reg.LOG_STATUS, 3, 1⟩
def Reg.LOG_HEAD : Nat := 0x00400308
def Fld.LOG_HEAD_NEWEST : Fld := ⟨Reg.LOG_HEAD, 0, 32⟩
def Fld.LOG_HEAD_OLDEST : Fld := ⟨Reg.LOG_HEAD, 32, 32⟩
def Reg.LOG_CALENDAR : Nat := 0x00400310
def Fld.LOG_CALENDAR_S : Fld := ⟨Reg.LOG_CALENDAR, 0, 64⟩
def Reg.LOG_UTC_OFFSET : Nat := 0x00400318
def Fld.LOG_UTC_OFFSET_S : Fld := ⟨Reg.LOG_UTC_OFFSET, 0, 16⟩
def Reg.LOG_POWER_ON_S : Nat := 0x00400320
def Fld.LOG_POWER_ON_S_S : Fld := ⟨Reg.LOG_POWER_ON_S, 0, 32⟩
def Reg.LOG_ENERGY_KJ : Nat := 0x00400328
def Fld.LOG_ENERGY_KJ_KJ : Fld := ⟨Reg.LOG_ENERGY_KJ, 0, 64⟩
def Reg.LOG_CYCLES : Nat := 0x00400330
def Fld.LOG_CYCLES_THERMAL : Fld := ⟨Reg.LOG_CYCLES, 0, 32⟩
def Fld.LOG_CYCLES_RETRAINS : Fld := ⟨Reg.LOG_CYCLES, 32, 32⟩
def Reg.LOG_PAIR : Nat := 0x00400338
def Fld.LOG_PAIR_TAKEOVERS : Fld := ⟨Reg.LOG_PAIR, 0, 16⟩
def Fld.LOG_PAIR_FENCES : Fld := ⟨Reg.LOG_PAIR, 16, 16⟩
def Fld.LOG_PAIR_RETIRED : Fld := ⟨Reg.LOG_PAIR, 32, 32⟩
def Reg.LOG_HBM_CE : Nat := 0x00400340
def Fld.LOG_HBM_CE_COUNT : Fld := ⟨Reg.LOG_HBM_CE, 0, 64⟩
def Reg.LOG_HBM_UE : Nat := 0x00400348
def Fld.LOG_HBM_UE_COUNT : Fld := ⟨Reg.LOG_HBM_UE, 0, 32⟩
def Reg.LOG_AGING : Nat := 0x00400350
def Fld.LOG_AGING_DRIFT : Fld := ⟨Reg.LOG_AGING, 0, 16⟩
def Reg.LOG_SUPPRESSED : Nat := 0x00400390
def Fld.LOG_SUPPRESSED_COUNT : Fld := ⟨Reg.LOG_SUPPRESSED, 0, 64⟩
def Reg.LOG_SEL : Nat := 0x004003C0
def Fld.LOG_SEL_SEQ : Fld := ⟨Reg.LOG_SEL, 0, 32⟩
def Reg.LOG_DATA : Nat := 0x004003C8
def Fld.LOG_DATA_DATA : Fld := ⟨Reg.LOG_DATA, 0, 64⟩
def Reg.ERR_RING_ENTRY : Nat := 0x00401000
def Fld.ERR_RING_ENTRY_RECORD : Fld := ⟨Reg.ERR_RING_ENTRY, 0, 64⟩

/-! ### board -/

def Reg.BOOT_STATUS : Nat := 0x00210000
def Fld.BOOT_STATUS_STAGE : Fld := ⟨Reg.BOOT_STATUS, 0, 5⟩
def Fld.BOOT_STATUS_FAILED : Fld := ⟨Reg.BOOT_STATUS, 5, 1⟩
def Fld.BOOT_STATUS_FAIL_CODE : Fld := ⟨Reg.BOOT_STATUS, 6, 8⟩
def Fld.BOOT_STATUS_STANDALONE : Fld := ⟨Reg.BOOT_STATUS, 14, 1⟩
def Fld.BOOT_STATUS_RETRYING : Fld := ⟨Reg.BOOT_STATUS, 15, 1⟩
def Reg.BOOT_CAUSE : Nat := 0x00210008
def Fld.BOOT_CAUSE_CAUSE : Fld := ⟨Reg.BOOT_CAUSE, 0, 3⟩
def Reg.BOOT_TIME : Nat := 0x00210010
def Fld.BOOT_TIME_MS : Fld := ⟨Reg.BOOT_TIME, 0, 32⟩
def Fld.BOOT_TIME_BOOTS : Fld := ⟨Reg.BOOT_TIME, 32, 32⟩
def Reg.BOOT_PARAM : Nat := 0x00210018
def Fld.BOOT_PARAM_STANDALONE : Fld := ⟨Reg.BOOT_PARAM, 0, 1⟩
def Fld.BOOT_PARAM_ROOT_ALLOW : Fld := ⟨Reg.BOOT_PARAM, 1, 1⟩
def Reg.RAIL_SEL : Nat := 0x00210020
def Fld.RAIL_SEL_RAIL : Fld := ⟨Reg.RAIL_SEL, 0, 5⟩
def Reg.RAIL_STAT : Nat := 0x00210028
def Fld.RAIL_STAT_MV : Fld := ⟨Reg.RAIL_STAT, 0, 16⟩
def Fld.RAIL_STAT_DA : Fld := ⟨Reg.RAIL_STAT, 16, 16⟩
def Fld.RAIL_STAT_STATE : Fld := ⟨Reg.RAIL_STAT, 32, 2⟩
def Reg.REF_STAT : Nat := 0x00210030
def Fld.REF_STAT_REF100_OK : Fld := ⟨Reg.REF_STAT, 0, 1⟩
def Fld.REF_STAT_REF156_OK : Fld := ⟨Reg.REF_STAT, 1, 1⟩
def Fld.REF_STAT_PPS_LOCK : Fld := ⟨Reg.REF_STAT, 2, 1⟩
def Fld.REF_STAT_LOSSES : Fld := ⟨Reg.REF_STAT, 16, 16⟩
def Reg.SIDEBAND : Nat := 0x00210038
def Fld.SIDEBAND_LEVELS : Fld := ⟨Reg.SIDEBAND, 0, 8⟩
def Reg.COOLANT : Nat := 0x00210040
def Fld.COOLANT_FLOW_DL : Fld := ⟨Reg.COOLANT, 0, 12⟩
def Fld.COOLANT_INLET_C : Fld := ⟨Reg.COOLANT, 12, 8⟩
def Fld.COOLANT_OUTLET_C : Fld := ⟨Reg.COOLANT, 20, 8⟩
def Reg.BIST_SEL : Nat := 0x00210048
def Fld.BIST_SEL_SEAT : Fld := ⟨Reg.BIST_SEL, 0, 3⟩
def Fld.BIST_SEL_WORD : Fld := ⟨Reg.BIST_SEL, 3, 4⟩
def Reg.BIST_DATA : Nat := 0x00210050
def Fld.BIST_DATA_RETIRED : Fld := ⟨Reg.BIST_DATA, 0, 64⟩
def Reg.BIST_STAT : Nat := 0x00210058
def Fld.BIST_STAT_RETIRED_CU : Fld := ⟨Reg.BIST_STAT, 0, 11⟩
def Fld.BIST_STAT_RETIRED_SU : Fld := ⟨Reg.BIST_STAT, 11, 5⟩
def Fld.BIST_STAT_RUNS : Fld := ⟨Reg.BIST_STAT, 16, 16⟩
def Reg.BOARD_ERR : Nat := 0x002100C0
def Fld.BOARD_ERR_FLAGS : Fld := ⟨Reg.BOARD_ERR, 0, 10⟩
def Reg.BOARD_ERR_INFO : Nat := 0x002100C8
def Fld.BOARD_ERR_INFO_BIT : Fld := ⟨Reg.BOARD_ERR_INFO, 0, 4⟩
def Fld.BOARD_ERR_INFO_RAIL : Fld := ⟨Reg.BOARD_ERR_INFO, 4, 5⟩
def Reg.MGMT_RX : Nat := 0x00210100
def Fld.MGMT_RX_COUNT : Fld := ⟨Reg.MGMT_RX, 0, 64⟩
def Reg.MGMT_REJECTS : Nat := 0x00210108
def Fld.MGMT_REJECTS_COUNT : Fld := ⟨Reg.MGMT_REJECTS, 0, 64⟩

end Sys2Proof.Machine
end

