-- ==== Sys2Proof/Machine/RegTable.lean ====
section
/-! DEFINITION. The register tables as data: for every register its offset, members and fields with the access code
(R16, Table 0.7) and the reset value the manual gives. Field order is that of the manual's rows. -/

namespace Sys2Proof.Machine

/-- Access codes of Table 0.7 (R16). -/
inductive Access where
  | ro | rw | w1c | w1s | rc | wo | wk
deriving DecidableEq, Repr

/-- One field: its place, its access code, its reset value, and whether a command of its own row acts on it (such a
field is left alone by REGISTER_WRITE). -/
structure FldDesc where
  fld : Fld
  acc : Access
  reset : Nat
  own : Bool
deriving DecidableEq, Repr

/-- One register: the offset of its first member, the number and stride of the members, the 64-bit words of each,
the view selector that chooses the instance shown (0: none, R605), whether the physical function's host driver may
write it, whether it is itself a view selector, and its fields. -/
structure RegDesc where
  off : Nat
  count : Nat
  stride : Nat
  words : Nat
  sel : Nat
  hostW : Bool
  isSel : Bool
  fields : List FldDesc
deriving DecidableEq, Repr

/-- The ident registers. -/
def regsIdent0 : List RegDesc := [
  ⟨Reg.IDENT_PART, 1, 8, 1, 0, false, false,
    [⟨.IDENT_PART_PART_CODE, .ro, 8, false⟩, ⟨.IDENT_PART_STEP_MINOR, .ro, 0, false⟩, ⟨.IDENT_PART_STEP_MAJOR, .ro, 1, false⟩, ⟨.IDENT_PART_SUBSOIL_GIB, .ro, 0x480, false⟩, ⟨.IDENT_PART_COOLING, .ro, 1, false⟩]⟩,
  ⟨Reg.IDENT_SERIAL_0, 1, 8, 1, 0, false, false,
    [⟨.IDENT_SERIAL_0_SERIAL_LO, .ro, 0, false⟩]⟩,
  ⟨Reg.IDENT_SERIAL_1, 1, 8, 1, 0, false, false,
    [⟨.IDENT_SERIAL_1_SERIAL_HI, .ro, 0, false⟩]⟩,
  ⟨Reg.IDENT_FW, 1, 8, 1, 0, false, false,
    [⟨.IDENT_FW_MAJOR, .ro, 0, false⟩, ⟨.IDENT_FW_MINOR, .ro, 0, false⟩, ⟨.IDENT_FW_BANK, .ro, 0, false⟩]⟩]

/-- The ident block. -/
def regsIdent : List RegDesc := regsIdent0

/-- The unit registers. -/
def regsUnit0 : List RegDesc := [
  ⟨Reg.UNIT_ID, 1, 8, 1, 0, false, false,
    [⟨.UNIT_ID_UID, .ro, 0, false⟩]⟩,
  ⟨Reg.UNIT_STATUS, 1, 8, 1, 0, false, false,
    [⟨.UNIT_STATUS_STATE, .ro, 0, false⟩, ⟨.UNIT_STATUS_CUR_PLANE, .ro, 0, false⟩, ⟨.UNIT_STATUS_CUR_EPOCH, .ro, 0, false⟩, ⟨.UNIT_STATUS_STATIC_ACTIVE, .ro, 1, false⟩, ⟨.UNIT_STATUS_ENG_BUSY, .ro, 0, false⟩, ⟨.UNIT_STATUS_PLANE_VALID, .ro, 0, false⟩]⟩,
  ⟨Reg.UNIT_CTRL, 1, 8, 1, 0, false, false,
    [⟨.UNIT_CTRL_HALT, .rw, 0, true⟩, ⟨.UNIT_CTRL_OFFLINE, .rw, 0, true⟩]⟩,
  ⟨Reg.SEQ_MODE, 1, 8, 1, 0, false, false,
    [⟨.SEQ_MODE_FORCE_STATIC, .rw, 1, true⟩, ⟨.SEQ_MODE_STATIC_ACTIVE, .ro, 1, false⟩, ⟨.SEQ_MODE_PEND, .ro, 0, false⟩]⟩,
  ⟨Reg.UNIT_PLANE_MAP, 1, 8, 1, 0, false, false,
    [⟨.UNIT_PLANE_MAP_CTX_0, .ro, 0, false⟩, ⟨.UNIT_PLANE_MAP_CTX_1, .ro, 0, false⟩, ⟨.UNIT_PLANE_MAP_CTX_2, .ro, 0, false⟩, ⟨.UNIT_PLANE_MAP_CTX_3, .ro, 0, false⟩, ⟨.UNIT_PLANE_MAP_CTX_4, .ro, 0, false⟩, ⟨.UNIT_PLANE_MAP_CTX_5, .ro, 0, false⟩, ⟨.UNIT_PLANE_MAP_CTX_6, .ro, 0, false⟩, ⟨.UNIT_PLANE_MAP_CTX_7, .ro, 0, false⟩]⟩,
  ⟨Reg.UNIT_VIEW_PLANE, 1, 8, 1, 0, false, true,
    [⟨.UNIT_VIEW_PLANE_VIEW, .rw, 0, false⟩]⟩,
  ⟨Reg.SEQ_PC, 1, 8, 1, Reg.UNIT_VIEW_PLANE, false, false,
    [⟨.SEQ_PC_PC, .ro, 0, false⟩, ⟨.SEQ_PC_IN_RUN, .ro, 0, false⟩, ⟨.SEQ_PC_RUNS, .ro, 0, false⟩]⟩,
  ⟨Reg.SEQ_PRED, 1, 8, 1, Reg.UNIT_VIEW_PLANE, false, false,
    [⟨.SEQ_PRED_PRED, .ro, 0, false⟩]⟩,
  ⟨Reg.SEQ_SHAPE_WAIT, 1, 8, 1, 0, false, false,
    [⟨.SEQ_SHAPE_WAIT_WAIT_US, .rw, 0x3e8, false⟩]⟩,
  ⟨Reg.UNIT_CLK, 1, 8, 1, 0, false, false,
    [⟨.UNIT_CLK_FREQ_MHZ, .ro, 0x258, false⟩, ⟨.UNIT_CLK_TARGET_MHZ, .ro, 0x258, false⟩, ⟨.UNIT_CLK_VOLT_MV, .ro, 0, false⟩, ⟨.UNIT_CLK_STRETCHING, .ro, 0, false⟩]⟩,
  ⟨Reg.UNIT_STRETCH, 1, 8, 1, 0, false, false,
    [⟨.UNIT_STRETCH_STRETCHED, .rc, 0, false⟩]⟩,
  ⟨Reg.UNIT_FAULT, 1, 8, 1, 0, false, false,
    [⟨.UNIT_FAULT_FLAGS, .w1c, 0, false⟩]⟩]

def regsUnit1 : List RegDesc := [
  ⟨Reg.UNIT_FAULT_INFO, 1, 8, 1, 0, false, false,
    [⟨.UNIT_FAULT_INFO_PLANE, .ro, 0, false⟩, ⟨.UNIT_FAULT_INFO_ENTRY, .ro, 0, false⟩, ⟨.UNIT_FAULT_INFO_CTR, .ro, 0, false⟩, ⟨.UNIT_FAULT_INFO_PORT, .ro, 0, false⟩, ⟨.UNIT_FAULT_INFO_VALUE, .ro, 0, false⟩]⟩,
  ⟨Reg.UNIT_CATCHES, 1, 8, 1, 0, false, false,
    [⟨.UNIT_CATCHES_COUNT, .ro, 0, false⟩]⟩,
  ⟨Reg.UNIT_NULL_CATCHES, 1, 8, 1, 0, false, false,
    [⟨.UNIT_NULL_CATCHES_COUNT, .ro, 0, false⟩]⟩,
  ⟨Reg.UNIT_STALL_INPUT, 1, 8, 1, 0, false, false,
    [⟨.UNIT_STALL_INPUT_COUNT, .ro, 0, false⟩]⟩,
  ⟨Reg.UNIT_STALL_CREDIT, 1, 8, 1, 0, false, false,
    [⟨.UNIT_STALL_CREDIT_COUNT, .ro, 0, false⟩]⟩,
  ⟨Reg.UNIT_STALL_SHAPE, 1, 8, 1, 0, false, false,
    [⟨.UNIT_STALL_SHAPE_COUNT, .ro, 0, false⟩]⟩,
  ⟨Reg.UNIT_STALE_DROP, 1, 8, 1, 0, false, false,
    [⟨.UNIT_STALE_DROP_COUNT, .ro, 0, false⟩]⟩,
  ⟨Reg.UNIT_EARLY_HOLD, 1, 8, 1, 0, false, false,
    [⟨.UNIT_EARLY_HOLD_COUNT, .ro, 0, false⟩]⟩,
  ⟨Reg.UNIT_NUMCTL, 1, 8, 1, Reg.UNIT_VIEW_PLANE, false, false,
    [⟨.UNIT_NUMCTL_NUMCTL, .ro, 0, false⟩]⟩,
  ⟨Reg.UNIT_NUM_FLAGS, 1, 8, 1, 0, false, false,
    [⟨.UNIT_NUM_FLAGS_ACC_OVF, .w1c, 0, false⟩, ⟨.UNIT_NUM_FLAGS_NARROW_SAT, .w1c, 0, false⟩, ⟨.UNIT_NUM_FLAGS_NARROW_INF, .w1c, 0, false⟩, ⟨.UNIT_NUM_FLAGS_NAN_GEN, .w1c, 0, false⟩, ⟨.UNIT_NUM_FLAGS_SCALE_NAN, .w1c, 0, false⟩, ⟨.UNIT_NUM_FLAGS_UNDERFLOW, .w1c, 0, false⟩, ⟨.UNIT_NUM_FLAGS_STAT_CLAMP, .w1c, 0, false⟩]⟩,
  ⟨Reg.UNIT_ACC_OVF, 1, 8, 1, 0, false, false,
    [⟨.UNIT_ACC_OVF_COUNT, .ro, 0, false⟩]⟩,
  ⟨Reg.UNIT_SFN_FTZ, 1, 8, 1, 0, false, false,
    [⟨.UNIT_SFN_FTZ_COUNT, .ro, 0, false⟩]⟩]

def regsUnit2 : List RegDesc := [
  ⟨Reg.UNIT_SFN_INFO, 1, 8, 1, 0, false, false,
    [⟨.UNIT_SFN_INFO_TABLE_REV, .ro, 1, false⟩, ⟨.UNIT_SFN_INFO_MP_SLOTS, .ro, 6, false⟩, ⟨.UNIT_SFN_INFO_EPI_SLOTS, .ro, 4, false⟩]⟩,
  ⟨Reg.UNIT_STAT_CLAMP, 1, 8, 1, 0, false, false,
    [⟨.UNIT_STAT_CLAMP_COUNT, .ro, 0, false⟩]⟩,
  ⟨Reg.UNIT_FOLD_CTRL, 1, 8, 1, 0, false, false,
    [⟨.UNIT_FOLD_CTRL_COUNT, .rw, 0, false⟩, ⟨.UNIT_FOLD_CTRL_YIELD, .rw, 0x40, false⟩, ⟨.UNIT_FOLD_CTRL_CUR, .ro, 0, false⟩, ⟨.UNIT_FOLD_CTRL_COMMIT, .w1s, 0, true⟩, ⟨.UNIT_FOLD_CTRL_PEND, .ro, 0, false⟩]⟩,
  ⟨Reg.UNIT_FOLD, 8, 8, 1, 0, false, false,
    [⟨.UNIT_FOLD_PLANE, .rw, 0, false⟩, ⟨.UNIT_FOLD_BEATS, .rw, 0, false⟩]⟩,
  ⟨Reg.UNIT_PLANE_EPOCH, 1, 8, 1, 0, false, false,
    [⟨.UNIT_PLANE_EPOCH_EPOCH_0, .ro, 0, false⟩, ⟨.UNIT_PLANE_EPOCH_EPOCH_1, .ro, 0, false⟩, ⟨.UNIT_PLANE_EPOCH_EPOCH_2, .ro, 0, false⟩, ⟨.UNIT_PLANE_EPOCH_EPOCH_3, .ro, 0, false⟩, ⟨.UNIT_PLANE_EPOCH_EPOCH_4, .ro, 0, false⟩, ⟨.UNIT_PLANE_EPOCH_EPOCH_5, .ro, 0, false⟩, ⟨.UNIT_PLANE_EPOCH_EPOCH_6, .ro, 0, false⟩, ⟨.UNIT_PLANE_EPOCH_EPOCH_7, .ro, 0, false⟩]⟩,
  ⟨Reg.UNIT_WAVE, 1, 8, 1, Reg.UNIT_VIEW_PLANE, false, false,
    [⟨.UNIT_WAVE_ACTIVE_BANK, .ro, 0, false⟩, ⟨.UNIT_WAVE_IDLE_READY, .ro, 0, false⟩, ⟨.UNIT_WAVE_WAVE_PEND, .ro, 0, false⟩, ⟨.UNIT_WAVE_LIVE_IN, .ro, 0, false⟩, ⟨.UNIT_WAVE_MARK_IN, .ro, 0, false⟩]⟩,
  ⟨Reg.UNIT_CFG_SEL, 1, 8, 1, 0, false, true,
    [⟨.UNIT_CFG_SEL_PLANE, .rw, 0, false⟩, ⟨.UNIT_CFG_SEL_BANK, .rw, 0, false⟩, ⟨.UNIT_CFG_SEL_WORD, .rw, 0, false⟩]⟩,
  ⟨Reg.UNIT_CFG_DATA, 1, 8, 1, Reg.UNIT_CFG_SEL, false, false,
    [⟨.UNIT_CFG_DATA_DATA, .ro, 0, false⟩]⟩,
  ⟨Reg.UNIT_ABANDONED, 1, 8, 1, 0, false, false,
    [⟨.UNIT_ABANDONED_COUNT, .ro, 0, false⟩]⟩,
  ⟨Reg.UNIT_PLANE_NS, 8, 8, 1, 0, false, false,
    [⟨.UNIT_PLANE_NS_NS, .ro, 0, false⟩]⟩,
  ⟨Reg.SEQ_CTR, 16, 8, 1, Reg.UNIT_VIEW_PLANE, false, false,
    [⟨.SEQ_CTR_VALUE, .ro, 0, false⟩, ⟨.SEQ_CTR_LIMIT, .ro, 0, false⟩]⟩]

/-- The unit block. -/
def regsUnit : List RegDesc := regsUnit0 ++ regsUnit1 ++ regsUnit2

/-- The net registers. -/
def regsNet0 : List RegDesc := [
  ⟨Reg.NET_ID, 1, 8, 1, 0, false, false,
    [⟨.NET_ID_SEAT, .ro, 0, false⟩, ⟨.NET_ID_ORIENT, .ro, 0, false⟩]⟩,
  ⟨Reg.NET_STATUS, 1, 8, 1, 0, false, false,
    [⟨.NET_STATUS_READY, .ro, 0, false⟩, ⟨.NET_STATUS_BRIDGE_ATT, .ro, 0, false⟩]⟩,
  ⟨Reg.NET_CTRL, 1, 8, 1, 0, false, false,
    [⟨.NET_CTRL_FATAL_MULT, .rw, 0x40, false⟩, ⟨.NET_CTRL_MARK_TIMEOUT, .rw, 0x14, false⟩]⟩,
  ⟨Reg.NET_STROKES, 1, 8, 1, 0, false, false,
    [⟨.NET_STROKES_COUNT, .ro, 0, false⟩]⟩,
  ⟨Reg.NET_SW_SEL, 1, 8, 1, 0, false, true,
    [⟨.NET_SW_SEL_SWITCH, .rw, 0, false⟩, ⟨.NET_SW_SEL_LINK, .rw, 0, false⟩, ⟨.NET_SW_SEL_SLOT, .rw, 0, false⟩]⟩,
  ⟨Reg.NET_SW_DATA, 1, 8, 1, Reg.NET_SW_SEL, false, false,
    [⟨.NET_SW_DATA_VALID, .rw, 0, true⟩, ⟨.NET_SW_DATA_IN_PORT, .rw, 0, true⟩, ⟨.NET_SW_DATA_FIRST, .rw, 0, true⟩, ⟨.NET_SW_DATA_CTX, .rw, 0, true⟩, ⟨.NET_SW_DATA_GATEWAY, .rw, 0, true⟩, ⟨.NET_SW_DATA_DOWN, .ro, 0, true⟩]⟩,
  ⟨Reg.NET_WD_REPORT, 1, 8, 1, 0, false, false,
    [⟨.NET_WD_REPORT_KIND, .rc, 0, false⟩, ⟨.NET_WD_REPORT_UID, .rc, 0, false⟩, ⟨.NET_WD_REPORT_PLANE, .rc, 0, false⟩, ⟨.NET_WD_REPORT_PORT, .rc, 0, false⟩, ⟨.NET_WD_REPORT_DIR, .rc, 0, false⟩, ⟨.NET_WD_REPORT_STROKES, .rc, 0, false⟩]⟩,
  ⟨Reg.NET_LINK_CE, 1, 8, 1, 0, false, false,
    [⟨.NET_LINK_CE_COUNT, .ro, 0, false⟩]⟩,
  ⟨Reg.NET_LINK_UE, 1, 8, 1, 0, false, false,
    [⟨.NET_LINK_UE_COUNT, .ro, 0, false⟩]⟩,
  ⟨Reg.NET_ORPHAN, 1, 8, 1, 0, false, false,
    [⟨.NET_ORPHAN_COUNT, .ro, 0, false⟩]⟩,
  ⟨Reg.NET_BRIDGE_RETRY, 1, 8, 1, 0, false, false,
    [⟨.NET_BRIDGE_RETRY_COUNT, .ro, 0, false⟩]⟩,
  ⟨Reg.NET_CREDIT_STALLS, 1, 8, 1, 0, false, false,
    [⟨.NET_CREDIT_STALLS_COUNT, .ro, 0, false⟩]⟩]

/-- NET_ERR's flags are W1C: the tables give them no access code (DESIGN CHOICE, log 125). -/
def regsNet1 : List RegDesc := [
  ⟨Reg.NET_JOIN_STALLS, 1, 8, 1, 0, false, false,
    [⟨.NET_JOIN_STALLS_COUNT, .ro, 0, false⟩]⟩,
  ⟨Reg.NET_SPILL_BEATS, 1, 8, 1, 0, false, false,
    [⟨.NET_SPILL_BEATS_COUNT, .ro, 0, false⟩]⟩,
  ⟨Reg.NET_ERR, 1, 8, 1, 0, false, false,
    [⟨.NET_ERR_FLAGS, .w1c, 0, false⟩]⟩]

/-- The net block. -/
def regsNet : List RegDesc := regsNet0 ++ regsNet1

/-- The rig registers. -/
def regsRig0 : List RegDesc := [
  ⟨Reg.RIG_STATUS, 1, 8, 1, 0, false, false,
    [⟨.RIG_STATUS_LOADER_BUSY, .ro, 0, false⟩, ⟨.RIG_STATUS_WAVES, .ro, 0, false⟩, ⟨.RIG_STATUS_RIGS, .ro, 0, false⟩]⟩,
  ⟨Reg.RIG_REJECT, 1, 8, 1, 0, false, false,
    [⟨.RIG_REJECT_CODE, .rc, 0, false⟩, ⟨.RIG_REJECT_SECTION, .rc, 0, false⟩, ⟨.RIG_REJECT_RECORD, .rc, 0, false⟩, ⟨.RIG_REJECT_CTX, .rc, 0, false⟩]⟩,
  ⟨Reg.RIG_TAB_SEL, 1, 8, 1, 0, false, true,
    [⟨.RIG_TAB_SEL_INDEX, .rw, 0, false⟩]⟩,
  ⟨Reg.RIG_TAB_ID, 1, 8, 1, Reg.RIG_TAB_SEL, false, false,
    [⟨.RIG_TAB_ID_RIG_ID, .ro, 0, false⟩]⟩,
  ⟨Reg.RIG_TAB_STATE, 1, 8, 1, Reg.RIG_TAB_SEL, false, false,
    [⟨.RIG_TAB_STATE_STATE, .ro, 0, false⟩, ⟨.RIG_TAB_STATE_CTX, .ro, 0, false⟩, ⟨.RIG_TAB_STATE_EPOCH, .ro, 0, false⟩, ⟨.RIG_TAB_STATE_RECOMPILE, .ro, 0, false⟩, ⟨.RIG_TAB_STATE_DRAIN, .ro, 0, false⟩, ⟨.RIG_TAB_STATE_ROTATION, .ro, 0, false⟩, ⟨.RIG_TAB_STATE_RANK, .ro, 0, false⟩, ⟨.RIG_TAB_STATE_WAVE_SEQ, .ro, 0, false⟩]⟩,
  ⟨Reg.RIG_TAB_COUNTS, 1, 8, 1, Reg.RIG_TAB_SEL, false, false,
    [⟨.RIG_TAB_COUNTS_PLANES, .ro, 0, false⟩, ⟨.RIG_TAB_COUNTS_ENTRIES, .ro, 0, false⟩]⟩,
  ⟨Reg.RIG_WAVE_STATE, 1, 8, 1, 0, false, false,
    [⟨.RIG_WAVE_STATE_PENDING, .ro, 0, false⟩, ⟨.RIG_WAVE_STATE_ELAPSED_US, .ro, 0, false⟩]⟩,
  ⟨Reg.RIG_LOADS, 1, 8, 1, 0, false, false,
    [⟨.RIG_LOADS_COUNT, .ro, 0, false⟩]⟩,
  ⟨Reg.RIG_REJECTS, 1, 8, 1, 0, false, false,
    [⟨.RIG_REJECTS_COUNT, .ro, 0, false⟩]⟩,
  ⟨Reg.RIG_WAVES, 1, 8, 1, 0, false, false,
    [⟨.RIG_WAVES_COUNT, .ro, 0, false⟩]⟩,
  ⟨Reg.RIG_FAULTS, 1, 8, 1, 0, false, false,
    [⟨.RIG_FAULTS_WAVE_STALL, .w1c, 0, false⟩, ⟨.RIG_FAULTS_WAVE_MISMATCH, .w1c, 0, false⟩, ⟨.RIG_FAULTS_MARK_DEAD, .w1c, 0, false⟩]⟩]

/-- The rig block. -/
def regsRig : List RegDesc := regsRig0

/-- The tiers registers. -/
def regsTiers0 : List RegDesc := [
  ⟨Reg.TIERS_CAP, 1, 8, 1, 0, false, false,
    [⟨.TIERS_CAP_SUBSOIL_GIB, .ro, 0x480, false⟩, ⟨.TIERS_CAP_STACKS_UP, .ro, 0, false⟩, ⟨.TIERS_CAP_PORTS_UP, .ro, 0, false⟩]⟩,
  ⟨Reg.TIERS_HBM_SEL, 1, 8, 1, 0, false, true,
    [⟨.TIERS_HBM_SEL_STACK, .rw, 0, false⟩]⟩,
  ⟨Reg.TIERS_HBM_STAT, 1, 8, 1, Reg.TIERS_HBM_SEL, false, false,
    [⟨.TIERS_HBM_STAT_STATE, .ro, 0, false⟩, ⟨.TIERS_HBM_STAT_RATE, .ro, 0, false⟩, ⟨.TIERS_HBM_STAT_TEMP_C, .ro, 0, false⟩, ⟨.TIERS_HBM_STAT_REFRESH_2X, .ro, 0, false⟩, ⟨.TIERS_HBM_STAT_RETRAINS, .ro, 0, false⟩]⟩,
  ⟨Reg.TIERS_BR_STAT, 4, 8, 1, 0, false, false,
    [⟨.TIERS_BR_STAT_STATE, .ro, 0, false⟩, ⟨.TIERS_BR_STAT_WIDTH, .ro, 0, false⟩, ⟨.TIERS_BR_STAT_RATE_GT, .ro, 0, false⟩, ⟨.TIERS_BR_STAT_FLIT_LOPT, .ro, 0, false⟩, ⟨.TIERS_BR_STAT_CAP_GIB, .ro, 0, false⟩, ⟨.TIERS_BR_STAT_OVER_CAP, .ro, 0, false⟩]⟩,
  ⟨Reg.TIERS_BR_CTRL, 4, 8, 1, 0, false, false,
    [⟨.TIERS_BR_CTRL_OFFLINE, .w1s, 0, true⟩, ⟨.TIERS_BR_CTRL_ONLINE, .w1s, 0, true⟩, ⟨.TIERS_BR_CTRL_EVAC_BUSY, .ro, 0, false⟩]⟩,
  ⟨Reg.TIERS_CTX_SEL, 1, 8, 1, 0, false, true,
    [⟨.TIERS_CTX_SEL_CTX, .rw, 0, false⟩]⟩,
  ⟨Reg.TIERS_CTX_CTRL, 1, 8, 1, Reg.TIERS_CTX_SEL, false, false,
    [⟨.TIERS_CTX_CTRL_VALID, .ro, 0, false⟩, ⟨.TIERS_CTX_CTRL_ROOT_SEL, .rw, 0, true⟩, ⟨.TIERS_CTX_CTRL_SWAP_PEND, .ro, 0, false⟩, ⟨.TIERS_CTX_CTRL_SCRUBBING, .ro, 0, false⟩, ⟨.TIERS_CTX_CTRL_MASTER, .ro, 0, false⟩]⟩,
  ⟨Reg.TIERS_CTX_ROOT0, 1, 8, 1, Reg.TIERS_CTX_SEL, false, false,
    [⟨.TIERS_CTX_ROOT0_ROOT, .rw, 0, false⟩]⟩,
  ⟨Reg.TIERS_CTX_ROOT1, 1, 8, 1, Reg.TIERS_CTX_SEL, false, false,
    [⟨.TIERS_CTX_ROOT1_ROOT, .rw, 0, false⟩]⟩,
  ⟨Reg.TIERS_CTX_QUOTA_TS, 1, 8, 1, Reg.TIERS_CTX_SEL, false, false,
    [⟨.TIERS_CTX_QUOTA_TS_UNITS, .rw, 0, false⟩]⟩,
  ⟨Reg.TIERS_CTX_QUOTA_SS, 1, 8, 1, Reg.TIERS_CTX_SEL, false, false,
    [⟨.TIERS_CTX_QUOTA_SS_UNITS, .rw, 0, false⟩]⟩,
  ⟨Reg.TIERS_CTX_QUOTA_BR, 1, 8, 1, Reg.TIERS_CTX_SEL, false, false,
    [⟨.TIERS_CTX_QUOTA_BR_UNITS, .rw, 0, false⟩]⟩]

def regsTiers1 : List RegDesc := [
  ⟨Reg.TIERS_CTX_USE_TS, 1, 8, 1, Reg.TIERS_CTX_SEL, false, false,
    [⟨.TIERS_CTX_USE_TS_UNITS, .ro, 0, false⟩]⟩,
  ⟨Reg.TIERS_CTX_USE_SS, 1, 8, 1, Reg.TIERS_CTX_SEL, false, false,
    [⟨.TIERS_CTX_USE_SS_UNITS, .ro, 0, false⟩]⟩,
  ⟨Reg.TIERS_CTX_USE_BR, 1, 8, 1, Reg.TIERS_CTX_SEL, false, false,
    [⟨.TIERS_CTX_USE_BR_UNITS, .ro, 0, false⟩]⟩,
  ⟨Reg.TIERS_INVAL_VA, 1, 8, 1, 0, false, false,
    [⟨.TIERS_INVAL_VA_VPAGE, .rw, 0, false⟩]⟩,
  ⟨Reg.TIERS_INVAL_CMD, 1, 8, 1, 0, false, false,
    [⟨.TIERS_INVAL_CMD_CTX, .wo, 0, true⟩, ⟨.TIERS_INVAL_CMD_SCOPE, .wo, 0, true⟩, ⟨.TIERS_INVAL_CMD_SLICE, .wo, 0, true⟩]⟩,
  ⟨Reg.TIERS_INVAL_STAT, 1, 8, 1, 0, false, false,
    [⟨.TIERS_INVAL_STAT_BUSY, .ro, 0, false⟩, ⟨.TIERS_INVAL_STAT_DONE, .ro, 0, false⟩]⟩,
  ⟨Reg.TIERS_TILLER_CTRL, 1, 8, 1, 0, false, false,
    [⟨.TIERS_TILLER_CTRL_EN, .rw, 0, false⟩, ⟨.TIERS_TILLER_CTRL_PERIOD_US, .rw, 0x3e8, false⟩, ⟨.TIERS_TILLER_CTRL_BW_PCT, .rw, 0xa, false⟩, ⟨.TIERS_TILLER_CTRL_MAX_MIG, .rw, 0x40, false⟩, ⟨.TIERS_TILLER_CTRL_PROMOTE_T, .rw, 0x40, false⟩]⟩,
  ⟨Reg.TIERS_TILLER_LEVELS, 1, 8, 1, 0, false, false,
    [⟨.TIERS_TILLER_LEVELS_SUB_LOW, .rw, 0x14, false⟩, ⟨.TIERS_TILLER_LEVELS_SUB_HIGH, .rw, 0x28, false⟩, ⟨.TIERS_TILLER_LEVELS_DEMOTE_PERIODS, .rw, 0x3e8, false⟩]⟩,
  ⟨Reg.TIERS_SCRUB, 1, 8, 1, 0, false, false,
    [⟨.TIERS_SCRUB_TS_PERIOD_MIN, .rw, 0x3c, false⟩, ⟨.TIERS_SCRUB_SS_PERIOD_MIN, .rw, 0x5a0, false⟩, ⟨.TIERS_SCRUB_BR_PERIOD_MIN, .rw, 0x5a0, false⟩]⟩,
  ⟨Reg.TIERS_ERR, 1, 8, 1, 0, false, false,
    [⟨.TIERS_ERR_FLAGS, .w1c, 0, false⟩]⟩,
  ⟨Reg.TIERS_ERR_ADDR, 1, 8, 1, 0, false, false,
    [⟨.TIERS_ERR_ADDR_ADDR, .ro, 0, false⟩]⟩,
  ⟨Reg.TIERS_ERR_INFO, 1, 8, 1, 0, false, false,
    [⟨.TIERS_ERR_INFO_CTX, .ro, 0, false⟩, ⟨.TIERS_ERR_INFO_GEN, .ro, 0, false⟩, ⟨.TIERS_ERR_INFO_BIT, .ro, 0, false⟩]⟩]

def regsTiers2 : List RegDesc := [
  ⟨Reg.TIERS_WALKS, 1, 8, 1, 0, false, false,
    [⟨.TIERS_WALKS_COUNT, .ro, 0, false⟩]⟩,
  ⟨Reg.TIERS_MIGRATIONS, 1, 8, 1, 0, false, false,
    [⟨.TIERS_MIGRATIONS_COUNT, .ro, 0, false⟩]⟩,
  ⟨Reg.TIERS_MIG_BYTES, 1, 8, 1, 0, false, false,
    [⟨.TIERS_MIG_BYTES_COUNT, .ro, 0, false⟩]⟩,
  ⟨Reg.TIERS_CE, 1, 8, 1, 0, false, false,
    [⟨.TIERS_CE_COUNT, .ro, 0, false⟩]⟩,
  ⟨Reg.TIERS_UE, 1, 8, 1, 0, false, false,
    [⟨.TIERS_UE_COUNT, .ro, 0, false⟩]⟩,
  ⟨Reg.TIERS_RETIRED, 1, 8, 1, 0, false, false,
    [⟨.TIERS_RETIRED_FRAMES, .ro, 0, false⟩]⟩]

/-- The tiers block. -/
def regsTiers : List RegDesc := regsTiers0 ++ regsTiers1 ++ regsTiers2

/-- The stream registers. -/
def regsStream0 : List RegDesc := [
  ⟨Reg.STREAM_STATUS, 1, 8, 1, 0, false, false,
    [⟨.STREAM_STATUS_ENG_BUSY, .ro, 0, false⟩, ⟨.STREAM_STATUS_ACTIVE, .ro, 0, false⟩, ⟨.STREAM_STATUS_AHEAD, .ro, 0, false⟩]⟩,
  ⟨Reg.STREAM_MODE, 1, 8, 1, 0, false, false,
    [⟨.STREAM_MODE_FORCE_STATIC, .rw, 1, false⟩, ⟨.STREAM_MODE_STATIC_ACTIVE, .ro, 1, false⟩, ⟨.STREAM_MODE_WAIT_US, .rw, 0x3e8, false⟩, ⟨.STREAM_MODE_FETCH_AHEAD, .rw, 4, false⟩]⟩,
  ⟨Reg.STREAM_MERGE, 1, 8, 1, 0, false, false,
    [⟨.STREAM_MERGE_EN, .rw, 1, false⟩, ⟨.STREAM_MERGE_WINDOW_NS, .rw, 0x14, false⟩]⟩,
  ⟨Reg.STREAM_CTX_SEL, 1, 8, 1, 0, false, true,
    [⟨.STREAM_CTX_SEL_CTX, .rw, 0, false⟩]⟩,
  ⟨Reg.STREAM_CTX_BYTES, 1, 8, 1, Reg.STREAM_CTX_SEL, false, false,
    [⟨.STREAM_CTX_BYTES_COUNT, .ro, 0, false⟩]⟩,
  ⟨Reg.STREAM_CTX_WASTE, 1, 8, 1, Reg.STREAM_CTX_SEL, false, false,
    [⟨.STREAM_CTX_WASTE_COUNT, .ro, 0, false⟩]⟩,
  ⟨Reg.STREAM_CTX_REFETCH, 1, 8, 1, Reg.STREAM_CTX_SEL, false, false,
    [⟨.STREAM_CTX_REFETCH_COUNT, .ro, 0, false⟩]⟩,
  ⟨Reg.STREAM_JOB_VOID, 1, 8, 1, 0, false, false,
    [⟨.STREAM_JOB_VOID_CTX, .wo, 0, true⟩, ⟨.STREAM_JOB_VOID_JOB, .wo, 0, true⟩, ⟨.STREAM_JOB_VOID_ALL, .wo, 0, true⟩]⟩,
  ⟨Reg.STREAM_FAULT, 1, 8, 1, 0, false, false,
    [⟨.STREAM_FAULT_FLAGS, .w1c, 0, false⟩]⟩,
  ⟨Reg.STREAM_FAULT_INFO, 1, 8, 1, 0, false, false,
    [⟨.STREAM_FAULT_INFO_ENGINE, .ro, 0, false⟩, ⟨.STREAM_FAULT_INFO_SLOT, .ro, 0, false⟩, ⟨.STREAM_FAULT_INFO_CTX, .ro, 0, false⟩, ⟨.STREAM_FAULT_INFO_RECORD, .ro, 0, false⟩, ⟨.STREAM_FAULT_INFO_VALUE, .ro, 0, false⟩]⟩,
  ⟨Reg.STREAM_REQS, 1, 8, 1, 0, false, false,
    [⟨.STREAM_REQS_COUNT, .ro, 0, false⟩]⟩,
  ⟨Reg.STREAM_MERGED, 1, 8, 1, 0, false, false,
    [⟨.STREAM_MERGED_COUNT, .ro, 0, false⟩]⟩]

def regsStream1 : List RegDesc := [
  ⟨Reg.STREAM_POISON_LINES, 1, 8, 1, 0, false, false,
    [⟨.STREAM_POISON_LINES_COUNT, .ro, 0, false⟩]⟩,
  ⟨Reg.STREAM_AHEAD_STOPS, 1, 8, 1, 0, false, false,
    [⟨.STREAM_AHEAD_STOPS_COUNT, .ro, 0, false⟩]⟩,
  ⟨Reg.STREAM_FLOOR_GRANTS, 1, 8, 1, 0, false, false,
    [⟨.STREAM_FLOOR_GRANTS_COUNT, .ro, 0, false⟩]⟩]

/-- The stream block. -/
def regsStream : List RegDesc := regsStream0 ++ regsStream1

/-- The sel registers. -/
def regsSel0 : List RegDesc := [
  ⟨Reg.SEL_INFO, 1, 8, 1, 0, false, false,
    [⟨.SEL_INFO_K_MAX, .ro, 0x400, false⟩, ⟨.SEL_INFO_W_MAX, .ro, 0x40, false⟩, ⟨.SEL_INFO_CAND_MAX, .ro, 0x10000, false⟩]⟩,
  ⟨Reg.SEL_CALLS, 1, 8, 1, 0, false, false,
    [⟨.SEL_CALLS_COUNT, .ro, 0, false⟩]⟩,
  ⟨Reg.SEL_SCORES, 1, 8, 1, 0, false, false,
    [⟨.SEL_SCORES_COUNT, .ro, 0, false⟩]⟩,
  ⟨Reg.SEL_FORCED, 1, 8, 1, 0, false, false,
    [⟨.SEL_FORCED_COUNT, .ro, 0, false⟩]⟩,
  ⟨Reg.SEL_NAN, 1, 8, 1, 0, false, false,
    [⟨.SEL_NAN_COUNT, .ro, 0, false⟩]⟩,
  ⟨Reg.SEL_FAULT_INFO, 1, 8, 1, 0, false, false,
    [⟨.SEL_FAULT_INFO_UID, .ro, 0, false⟩, ⟨.SEL_FAULT_INFO_CTX, .ro, 0, false⟩, ⟨.SEL_FAULT_INFO_HANDLE, .ro, 0, false⟩]⟩]

/-- The sel block. -/
def regsSel : List RegDesc := regsSel0

/-- The sed registers. -/
def regsSed0 : List RegDesc := [
  ⟨Reg.SED_STATUS, 1, 8, 1, 0, false, false,
    [⟨.SED_STATUS_SHARD_ACTIVE, .ro, 0, false⟩, ⟨.SED_STATUS_GEN, .ro, 0, false⟩, ⟨.SED_STATUS_REBUILD, .ro, 0, false⟩, ⟨.SED_STATUS_SWAP_PEND, .ro, 0, false⟩, ⟨.SED_STATUS_MAP_GEN, .ro, 0, false⟩, ⟨.SED_STATUS_MAP_SWAP_PEND, .ro, 0, false⟩, ⟨.SED_STATUS_SHARD_ID, .ro, 0, false⟩, ⟨.SED_STATUS_SHARDS, .ro, 0, false⟩]⟩,
  ⟨Reg.SED_CAP, 1, 8, 1, 0, false, false,
    [⟨.SED_CAP_BUCKETS_LOG2, .ro, 0, false⟩, ⟨.SED_CAP_ENTRIES, .ro, 0, false⟩]⟩,
  ⟨Reg.SED_CTRL, 1, 8, 1, 0, false, false,
    [⟨.SED_CTRL_LOW, .rw, 0x14, false⟩, ⟨.SED_CTRL_HIGH, .rw, 0x28, false⟩, ⟨.SED_CTRL_PIN_MS, .rw, 0x64, false⟩, ⟨.SED_CTRL_OFFER_MS, .rw, 0xa, false⟩]⟩,
  ⟨Reg.SED_LOOKUPS, 1, 8, 1, 0, false, false,
    [⟨.SED_LOOKUPS_COUNT, .ro, 0, false⟩]⟩,
  ⟨Reg.SED_HIT_PAGES, 1, 8, 1, 0, false, false,
    [⟨.SED_HIT_PAGES_COUNT, .ro, 0, false⟩]⟩,
  ⟨Reg.SED_MISS_PAGES, 1, 8, 1, 0, false, false,
    [⟨.SED_MISS_PAGES_COUNT, .ro, 0, false⟩]⟩,
  ⟨Reg.SED_TOKEN_MISMATCH, 1, 8, 1, 0, false, false,
    [⟨.SED_TOKEN_MISMATCH_COUNT, .ro, 0, false⟩]⟩,
  ⟨Reg.SED_DEPOSITS, 1, 8, 1, 0, false, false,
    [⟨.SED_DEPOSITS_COUNT, .ro, 0, false⟩]⟩,
  ⟨Reg.SED_EVICTIONS, 1, 8, 1, 0, false, false,
    [⟨.SED_EVICTIONS_COUNT, .ro, 0, false⟩]⟩,
  ⟨Reg.SED_PINS, 1, 8, 1, 0, false, false,
    [⟨.SED_PINS_COUNT, .ro, 0, false⟩]⟩,
  ⟨Reg.SED_LATE, 1, 8, 1, 0, false, false,
    [⟨.SED_LATE_COUNT, .ro, 0, false⟩]⟩,
  ⟨Reg.SED_COPY_FAIL, 1, 8, 1, 0, false, false,
    [⟨.SED_COPY_FAIL_COUNT, .ro, 0, false⟩]⟩]

def regsSed1 : List RegDesc := [
  ⟨Reg.SED_ERR, 1, 8, 1, 0, false, false,
    [⟨.SED_ERR_FLAGS, .w1c, 0, false⟩]⟩]

/-- The sed block. -/
def regsSed : List RegDesc := regsSed0 ++ regsSed1

/-- The expmap registers. -/
def regsExpmap0 : List RegDesc := [
  ⟨Reg.EXPMAP_CTX_SEL, 1, 8, 1, 0, false, true,
    [⟨.EXPMAP_CTX_SEL_CTX, .rw, 0, false⟩]⟩,
  ⟨Reg.EXPMAP_CTRL, 1, 8, 1, Reg.EXPMAP_CTX_SEL, false, false,
    [⟨.EXPMAP_CTRL_VALID, .ro, 0, false⟩, ⟨.EXPMAP_CTRL_GEN, .ro, 0, false⟩, ⟨.EXPMAP_CTRL_SWAP_PEND, .ro, 0, false⟩, ⟨.EXPMAP_CTRL_CAP_LIMITED, .ro, 0, false⟩]⟩,
  ⟨Reg.EXPMAP_BASE0, 1, 8, 1, Reg.EXPMAP_CTX_SEL, false, false,
    [⟨.EXPMAP_BASE0_ADDR, .rw, 0, false⟩]⟩,
  ⟨Reg.EXPMAP_BASE1, 1, 8, 1, Reg.EXPMAP_CTX_SEL, false, false,
    [⟨.EXPMAP_BASE1_ADDR, .rw, 0, false⟩]⟩,
  ⟨Reg.EXPMAP_LAYERS, 1, 8, 1, Reg.EXPMAP_CTX_SEL, false, false,
    [⟨.EXPMAP_LAYERS_LAYERS, .ro, 0, false⟩]⟩,
  ⟨Reg.EXPMAP_STATUS, 1, 8, 1, Reg.EXPMAP_CTX_SEL, false, false,
    [⟨.EXPMAP_STATUS_LAST, .rc, 0, false⟩]⟩,
  ⟨Reg.EXPMAP_INSTALLS, 1, 8, 1, Reg.EXPMAP_CTX_SEL, false, false,
    [⟨.EXPMAP_INSTALLS_COUNT, .ro, 0, false⟩]⟩]

/-- The expmap block. -/
def regsExpmap : List RegDesc := regsExpmap0

/-- The scat registers. -/
def regsScat0 : List RegDesc := [
  ⟨Reg.SCAT_STATUS, 1, 8, 1, 0, false, false,
    [⟨.SCAT_STATUS_OPEN, .ro, 0, false⟩, ⟨.SCAT_STATUS_QUEUES, .ro, 0, false⟩]⟩,
  ⟨Reg.SCAT_CTRL, 1, 8, 1, 0, false, false,
    [⟨.SCAT_CTRL_RETURN_US, .rw, 0x3e8, false⟩]⟩,
  ⟨Reg.SCAT_DISPATCHED, 1, 8, 1, 0, false, false,
    [⟨.SCAT_DISPATCHED_COUNT, .ro, 0, false⟩]⟩,
  ⟨Reg.SCAT_DROPS, 1, 8, 1, 0, false, false,
    [⟨.SCAT_DROPS_COUNT, .ro, 0, false⟩]⟩,
  ⟨Reg.SCAT_ZERO_COUNTS, 1, 8, 1, 0, false, false,
    [⟨.SCAT_ZERO_COUNTS_COUNT, .ro, 0, false⟩]⟩,
  ⟨Reg.SCAT_RETURNS, 1, 8, 1, 0, false, false,
    [⟨.SCAT_RETURNS_COUNT, .ro, 0, false⟩]⟩,
  ⟨Reg.SCAT_COMBINED, 1, 8, 1, 0, false, false,
    [⟨.SCAT_COMBINED_COUNT, .ro, 0, false⟩]⟩,
  ⟨Reg.SCAT_COUNT_HOLDS, 1, 8, 1, 0, false, false,
    [⟨.SCAT_COUNT_HOLDS_COUNT, .ro, 0, false⟩]⟩,
  ⟨Reg.SCAT_REPLAYS, 1, 8, 1, 0, false, false,
    [⟨.SCAT_REPLAYS_COUNT, .ro, 0, false⟩]⟩,
  ⟨Reg.SCAT_FAULT, 1, 8, 1, 0, false, false,
    [⟨.SCAT_FAULT_FLAGS, .w1c, 0, false⟩]⟩,
  ⟨Reg.SCAT_FAULT_INFO, 1, 8, 1, 0, false, false,
    [⟨.SCAT_FAULT_INFO_UID, .ro, 0, false⟩, ⟨.SCAT_FAULT_INFO_CTX, .ro, 0, false⟩, ⟨.SCAT_FAULT_INFO_LAYER, .ro, 0, false⟩, ⟨.SCAT_FAULT_INFO_EXPERT, .ro, 0, false⟩]⟩]

/-- The scat block. -/
def regsScat : List RegDesc := regsScat0

/-- The sl registers. -/
def regsSl0 : List RegDesc := [
  ⟨Reg.SL_INFO, 1, 8, 1, 0, false, false,
    [⟨.SL_INFO_ENTRIES, .ro, 0x4000, false⟩, ⟨.SL_INFO_LEN_CAP, .ro, 0x1000000, false⟩, ⟨.SL_INFO_TTL_MAX, .ro, 0x93a80, false⟩]⟩,
  ⟨Reg.SL_CTRL, 1, 8, 1, 0, false, false,
    [⟨.SL_CTRL_WORK_MS, .rw, 0xc8, false⟩, ⟨.SL_CTRL_IDLE_US, .rw, 0xa, false⟩]⟩,
  ⟨Reg.SL_VI_SEL, 1, 8, 1, 0, false, true,
    [⟨.SL_VI_SEL_VI, .rw, 0, false⟩]⟩,
  ⟨Reg.SL_VI_QUOTA, 1, 8, 1, Reg.SL_VI_SEL, false, false,
    [⟨.SL_VI_QUOTA_ENTRIES, .rw, 0x4000, false⟩]⟩,
  ⟨Reg.SL_VI_USE, 1, 8, 1, Reg.SL_VI_SEL, false, false,
    [⟨.SL_VI_USE_LIVE, .ro, 0, false⟩]⟩,
  ⟨Reg.SL_SEL, 1, 8, 1, 0, false, true,
    [⟨.SL_SEL_INDEX, .rw, 0, false⟩]⟩,
  ⟨Reg.SL_STATES_0, 1, 8, 1, 0, false, false,
    [⟨.SL_STATES_0_FREE, .ro, 0x4000, false⟩, ⟨.SL_STATES_0_ADMITTED, .ro, 0, false⟩, ⟨.SL_STATES_0_PREFILL, .ro, 0, false⟩, ⟨.SL_STATES_0_SHIPPING, .ro, 0, false⟩]⟩,
  ⟨Reg.SL_STATES_1, 1, 8, 1, 0, false, false,
    [⟨.SL_STATES_1_DECODE, .ro, 0, false⟩, ⟨.SL_STATES_1_PAUSED, .ro, 0, false⟩, ⟨.SL_STATES_1_RESUMING, .ro, 0, false⟩, ⟨.SL_STATES_1_DONE, .ro, 0, false⟩]⟩,
  ⟨Reg.SL_STATES_2, 1, 8, 1, 0, false, false,
    [⟨.SL_STATES_2_CANCELLED, .ro, 0, false⟩, ⟨.SL_STATES_2_FAILED, .ro, 0, false⟩, ⟨.SL_STATES_2_HELD, .ro, 0, false⟩]⟩,
  ⟨Reg.SL_STEP, 1, 8, 1, 0, false, false,
    [⟨.SL_STEP_STEPS, .ro, 0, false⟩, ⟨.SL_STEP_BATCH, .ro, 0, false⟩, ⟨.SL_STEP_SUBBATCHES, .ro, 0, false⟩]⟩,
  ⟨Reg.SL_STEP_T, 1, 8, 1, 0, false, false,
    [⟨.SL_STEP_T_LAUNCH, .ro, 0, false⟩]⟩,
  ⟨Reg.SL_VER_SEL, 1, 8, 1, 0, false, true,
    [⟨.SL_VER_SEL_VERSION, .rw, 0, false⟩]⟩]

def regsSl1 : List RegDesc := [
  ⟨Reg.SL_VER, 1, 8, 1, Reg.SL_VER_SEL, false, false,
    [⟨.SL_VER_REFS, .ro, 0, false⟩, ⟨.SL_VER_RETIRING, .ro, 0, false⟩, ⟨.SL_VER_BATCH_MAX, .rw, 0, false⟩]⟩,
  ⟨Reg.SL_ENTRY, 16, 8, 1, Reg.SL_SEL, false, false,
    [⟨.SL_ENTRY_WORD, .ro, 0, false⟩]⟩,
  ⟨Reg.SL_ADMITS, 1, 8, 1, 0, false, false,
    [⟨.SL_ADMITS_COUNT, .ro, 0, false⟩]⟩,
  ⟨Reg.SL_REFUSED, 1, 8, 1, 0, false, false,
    [⟨.SL_REFUSED_COUNT, .ro, 0, false⟩]⟩,
  ⟨Reg.SL_DONE, 1, 8, 1, 0, false, false,
    [⟨.SL_DONE_COUNT, .ro, 0, false⟩]⟩,
  ⟨Reg.SL_CANCELLED, 1, 8, 1, 0, false, false,
    [⟨.SL_CANCELLED_COUNT, .ro, 0, false⟩]⟩,
  ⟨Reg.SL_FAILED, 1, 8, 1, 0, false, false,
    [⟨.SL_FAILED_COUNT, .ro, 0, false⟩]⟩,
  ⟨Reg.SL_PREEMPTS, 1, 8, 1, 0, false, false,
    [⟨.SL_PREEMPTS_COUNT, .ro, 0, false⟩]⟩,
  ⟨Reg.SL_HELD_STEPS, 1, 8, 1, 0, false, false,
    [⟨.SL_HELD_STEPS_COUNT, .ro, 0, false⟩]⟩,
  ⟨Reg.SL_LATE_TOKENS, 1, 8, 1, 0, false, false,
    [⟨.SL_LATE_TOKENS_COUNT, .ro, 0, false⟩]⟩,
  ⟨Reg.SL_EXPIRED, 1, 8, 1, 0, false, false,
    [⟨.SL_EXPIRED_COUNT, .ro, 0, false⟩]⟩,
  ⟨Reg.SL_RESENDS, 1, 8, 1, 0, false, false,
    [⟨.SL_RESENDS_COUNT, .ro, 0, false⟩]⟩]

def regsSl2 : List RegDesc := [
  ⟨Reg.SL_ERR, 1, 8, 1, 0, false, false,
    [⟨.SL_ERR_FLAGS, .w1c, 0, false⟩]⟩,
  ⟨Reg.SL_ERR_INFO, 1, 8, 1, 0, false, false,
    [⟨.SL_ERR_INFO_HANDLE, .ro, 0, false⟩, ⟨.SL_ERR_INFO_CTX, .ro, 0, false⟩, ⟨.SL_ERR_INFO_BIT, .ro, 0, false⟩]⟩]

/-- The sl block. -/
def regsSl : List RegDesc := regsSl0 ++ regsSl1 ++ regsSl2

/-- The samp registers. -/
def regsSamp0 : List RegDesc := [
  ⟨Reg.SAMP_INFO, 1, 8, 1, 0, false, false,
    [⟨.SAMP_INFO_VOCAB_MAX, .ro, 0x80000, false⟩, ⟨.SAMP_INFO_K_MAX, .ro, 0x400, false⟩, ⟨.SAMP_INFO_STOPS_MAX, .ro, 8, false⟩, ⟨.SAMP_INFO_STOP_LEN_MAX, .ro, 0xf, false⟩]⟩,
  ⟨Reg.SAMP_ROWS, 1, 8, 1, 0, false, false,
    [⟨.SAMP_ROWS_COUNT, .ro, 0, false⟩]⟩,
  ⟨Reg.SAMP_GREEDY, 1, 8, 1, 0, false, false,
    [⟨.SAMP_GREEDY_COUNT, .ro, 0, false⟩]⟩,
  ⟨Reg.SAMP_NAN_ROWS, 1, 8, 1, 0, false, false,
    [⟨.SAMP_NAN_ROWS_COUNT, .ro, 0, false⟩]⟩,
  ⟨Reg.SAMP_NO_CHOICE, 1, 8, 1, 0, false, false,
    [⟨.SAMP_NO_CHOICE_COUNT, .ro, 0, false⟩]⟩,
  ⟨Reg.SAMP_STOPS, 1, 8, 1, 0, false, false,
    [⟨.SAMP_STOPS_COUNT, .ro, 0, false⟩]⟩,
  ⟨Reg.SAMP_RING_WAITS, 1, 8, 1, 0, false, false,
    [⟨.SAMP_RING_WAITS_COUNT, .ro, 0, false⟩]⟩,
  ⟨Reg.SAMP_COUNT_REBUILDS, 1, 8, 1, 0, false, false,
    [⟨.SAMP_COUNT_REBUILDS_COUNT, .ro, 0, false⟩]⟩,
  ⟨Reg.SAMP_ERR, 1, 8, 1, 0, false, false,
    [⟨.SAMP_ERR_FLAGS, .w1c, 0, false⟩]⟩,
  ⟨Reg.SAMP_ERR_INFO, 1, 8, 1, 0, false, false,
    [⟨.SAMP_ERR_INFO_HANDLE, .ro, 0, false⟩, ⟨.SAMP_ERR_INFO_CTX, .ro, 0, false⟩, ⟨.SAMP_ERR_INFO_UID, .ro, 0, false⟩]⟩]

/-- The samp block. -/
def regsSamp : List RegDesc := regsSamp0

/-- The fabric registers. -/
def regsFabric0 : List RegDesc := [
  ⟨Reg.FAB_ID, 1, 8, 1, 0, false, false,
    [⟨.FAB_ID_MODULE_ID, .ro, 0, false⟩, ⟨.FAB_ID_VALID, .ro, 0, false⟩, ⟨.FAB_ID_RACK, .ro, 0, false⟩, ⟨.FAB_ID_TRAY, .ro, 0, false⟩, ⟨.FAB_ID_SLOT, .ro, 0, false⟩]⟩,
  ⟨Reg.FAB_STATUS, 1, 8, 1, 0, false, false,
    [⟨.FAB_STATUS_DISCOVERED, .ro, 0, false⟩, ⟨.FAB_STATUS_ROUTED, .ro, 0, false⟩, ⟨.FAB_STATUS_INJ_COPY, .ro, 0, false⟩, ⟨.FAB_STATUS_SWAP_PEND, .ro, 0, false⟩, ⟨.FAB_STATUS_TIME_ROOT, .ro, 0, false⟩, ⟨.FAB_STATUS_CUBE_UP, .ro, 0, false⟩, ⟨.FAB_STATUS_UPLINK_UP, .ro, 0, false⟩, ⟨.FAB_STATUS_TWIN_UP, .ro, 0, false⟩]⟩,
  ⟨Reg.FAB_CTRL, 1, 8, 1, 0, false, false,
    [⟨.FAB_CTRL_EN, .rw, 0, false⟩, ⟨.FAB_CTRL_ROOT_OK, .rw, 0, false⟩, ⟨.FAB_CTRL_BEACON_US, .rw, 0x3e8, false⟩]⟩,
  ⟨Reg.FAB_PORT_SEL, 1, 8, 1, 0, false, true,
    [⟨.FAB_PORT_SEL_PORT, .rw, 0, false⟩]⟩,
  ⟨Reg.FAB_PORT_STAT, 1, 8, 1, Reg.FAB_PORT_SEL, false, false,
    [⟨.FAB_PORT_STAT_STATE, .ro, 0, false⟩, ⟨.FAB_PORT_STAT_LANES, .ro, 0, false⟩, ⟨.FAB_PORT_STAT_LPORT, .ro, 0, false⟩, ⟨.FAB_PORT_STAT_PEER_ID, .ro, 0, false⟩, ⟨.FAB_PORT_STAT_PEER_PORT, .ro, 0, false⟩, ⟨.FAB_PORT_STAT_PEER_SWITCH, .ro, 0, false⟩, ⟨.FAB_PORT_STAT_RETRAINS, .ro, 0, false⟩]⟩,
  ⟨Reg.FAB_PORT_CTRL, 1, 8, 1, Reg.FAB_PORT_SEL, false, false,
    [⟨.FAB_PORT_CTRL_DISABLE, .rw, 0, true⟩, ⟨.FAB_PORT_CTRL_RETRAIN, .w1s, 0, true⟩]⟩,
  ⟨Reg.FAB_PORT_FEC, 1, 8, 1, Reg.FAB_PORT_SEL, false, false,
    [⟨.FAB_PORT_FEC_CORR_SYMBOLS, .rc, 0, false⟩, ⟨.FAB_PORT_FEC_UNCORR_BLOCKS, .rc, 0, false⟩, ⟨.FAB_PORT_FEC_REPLAYS, .rc, 0, false⟩]⟩,
  ⟨Reg.FAB_LPORT_SEL, 1, 8, 1, 0, false, true,
    [⟨.FAB_LPORT_SEL_LPORT, .rw, 0, false⟩]⟩,
  ⟨Reg.FAB_LPORT, 1, 8, 1, Reg.FAB_LPORT_SEL, false, false,
    [⟨.FAB_LPORT_MEMBERS, .rw, 0, false⟩, ⟨.FAB_LPORT_ROLE, .rw, 0, false⟩, ⟨.FAB_LPORT_DIM, .rw, 0, false⟩, ⟨.FAB_LPORT_UP, .ro, 0, false⟩]⟩,
  ⟨Reg.FAB_RT_SEL, 1, 8, 1, 0, false, true,
    [⟨.FAB_RT_SEL_ENTRY, .rw, 0, false⟩, ⟨.FAB_RT_SEL_TABLE, .rw, 0, false⟩, ⟨.FAB_RT_SEL_COPY, .rw, 0, false⟩]⟩,
  ⟨Reg.FAB_RT_DATA, 1, 8, 1, Reg.FAB_RT_SEL, false, false,
    [⟨.FAB_RT_DATA_ENTRY, .rw, 0, false⟩]⟩,
  ⟨Reg.FAB_RT_SWAP, 1, 8, 1, 0, false, false,
    [⟨.FAB_RT_SWAP_AT, .rw, 0, false⟩]⟩]

def regsFabric1 : List RegDesc := [
  ⟨Reg.FAB_SLICE_SEL, 1, 8, 1, 0, false, true,
    [⟨.FAB_SLICE_SEL_SLICE, .rw, 0, false⟩]⟩,
  ⟨Reg.FAB_SLICE, 1, 8, 1, Reg.FAB_SLICE_SEL, false, false,
    [⟨.FAB_SLICE_MEMBER, .rw, 0, false⟩, ⟨.FAB_SLICE_TABLE, .rw, 0, false⟩]⟩,
  ⟨Reg.FAB_TIME, 1, 8, 1, 0, false, false,
    [⟨.FAB_TIME_NOW, .ro, 0, false⟩]⟩,
  ⟨Reg.FAB_TIME_STAT, 1, 8, 1, 0, false, false,
    [⟨.FAB_TIME_STAT_OFFSET_PS, .ro, 0, false⟩, ⟨.FAB_TIME_STAT_DEPTH, .ro, 0, false⟩, ⟨.FAB_TIME_STAT_SYNC, .ro, 0, false⟩, ⟨.FAB_TIME_STAT_HOLDOVER, .ro, 0, false⟩, ⟨.FAB_TIME_STAT_PARENT, .ro, 0, false⟩]⟩,
  ⟨Reg.FAB_ERR, 1, 8, 1, 0, false, false,
    [⟨.FAB_ERR_FLAGS, .w1c, 0, false⟩]⟩,
  ⟨Reg.FAB_ERR_INFO, 1, 8, 1, 0, false, false,
    [⟨.FAB_ERR_INFO_PORT, .ro, 0, false⟩, ⟨.FAB_ERR_INFO_SRC, .ro, 0, false⟩, ⟨.FAB_ERR_INFO_SLICE, .ro, 0, false⟩, ⟨.FAB_ERR_INFO_CTX, .ro, 0, false⟩, ⟨.FAB_ERR_INFO_BIT, .ro, 0, false⟩]⟩,
  ⟨Reg.FAB_TX_FLITS, 1, 8, 1, 0, false, false,
    [⟨.FAB_TX_FLITS_COUNT, .ro, 0, false⟩]⟩,
  ⟨Reg.FAB_RX_FLITS, 1, 8, 1, 0, false, false,
    [⟨.FAB_RX_FLITS_COUNT, .ro, 0, false⟩]⟩,
  ⟨Reg.FAB_TRANSIT_FLITS, 1, 8, 1, 0, false, false,
    [⟨.FAB_TRANSIT_FLITS_COUNT, .ro, 0, false⟩]⟩,
  ⟨Reg.FAB_DROPS, 1, 8, 1, 0, false, false,
    [⟨.FAB_DROPS_COUNT, .ro, 0, false⟩]⟩,
  ⟨Reg.FAB_HELD, 1, 8, 1, 0, false, false,
    [⟨.FAB_HELD_COUNT, .ro, 0, false⟩]⟩,
  ⟨Reg.FAB_SWAPS, 1, 8, 1, 0, false, false,
    [⟨.FAB_SWAPS_COUNT, .ro, 0, false⟩]⟩]

/-- The fabric block. -/
def regsFabric : List RegDesc := regsFabric0 ++ regsFabric1

/-- The coll registers. -/
def regsColl0 : List RegDesc := [
  ⟨Reg.COLL_STATUS, 1, 8, 1, 0, false, false,
    [⟨.COLL_STATUS_INFLIGHT, .ro, 0, false⟩, ⟨.COLL_STATUS_KEYS, .ro, 0, false⟩]⟩,
  ⟨Reg.COLL_CTRL, 1, 8, 1, 0, false, false,
    [⟨.COLL_CTRL_TIMEOUT_US, .rw, 0x3e8, false⟩]⟩,
  ⟨Reg.COLL_DONE, 1, 8, 1, 0, false, false,
    [⟨.COLL_DONE_COUNT, .ro, 0, false⟩]⟩,
  ⟨Reg.COLL_TX_BYTES, 1, 8, 1, 0, false, false,
    [⟨.COLL_TX_BYTES_COUNT, .ro, 0, false⟩]⟩,
  ⟨Reg.COLL_RX_BYTES, 1, 8, 1, 0, false, false,
    [⟨.COLL_RX_BYTES_COUNT, .ro, 0, false⟩]⟩,
  ⟨Reg.COLL_ZERO_FRAMES, 1, 8, 1, 0, false, false,
    [⟨.COLL_ZERO_FRAMES_COUNT, .ro, 0, false⟩]⟩,
  ⟨Reg.COLL_LOST, 1, 8, 1, 0, false, false,
    [⟨.COLL_LOST_COUNT, .ro, 0, false⟩]⟩,
  ⟨Reg.COLL_ORDER_WAITS, 1, 8, 1, 0, false, false,
    [⟨.COLL_ORDER_WAITS_COUNT, .ro, 0, false⟩]⟩,
  ⟨Reg.COLL_FAULT, 1, 8, 1, 0, false, false,
    [⟨.COLL_FAULT_FLAGS, .w1c, 0, false⟩]⟩,
  ⟨Reg.COLL_FAULT_INFO, 1, 8, 1, 0, false, false,
    [⟨.COLL_FAULT_INFO_COLL_ID, .ro, 0, false⟩, ⟨.COLL_FAULT_INFO_CTX, .ro, 0, false⟩, ⟨.COLL_FAULT_INFO_RANK, .ro, 0, false⟩, ⟨.COLL_FAULT_INFO_MODULE, .ro, 0, false⟩]⟩]

/-- The coll block. -/
def regsColl : List RegDesc := regsColl0

/-- The victx registers. -/
def regsVictx0 : List RegDesc := [
  ⟨Reg.VICTX_ID, 1, 8, 1, 0, false, false,
    [⟨.VICTX_ID_VI, .ro, 0, false⟩, ⟨.VICTX_ID_ENABLED, .ro, 1, false⟩, ⟨.VICTX_ID_SLICE, .ro, 0, false⟩, ⟨.VICTX_ID_DOMAIN, .ro, 0, false⟩]⟩,
  ⟨Reg.VICTX_RINGS, 1, 8, 1, 0, false, false,
    [⟨.VICTX_RINGS_FIRST, .ro, 0, false⟩, ⟨.VICTX_RINGS_COUNT, .ro, 0x2000, false⟩]⟩,
  ⟨Reg.VICTX_LIMITS, 1, 8, 1, 0, false, false,
    [⟨.VICTX_LIMITS_CTX_MAX, .ro, 0x100, false⟩, ⟨.VICTX_LIMITS_CTX_USED, .ro, 0, false⟩, ⟨.VICTX_LIMITS_PRIO_MAX, .ro, 7, false⟩, ⟨.VICTX_LIMITS_SL_QUOTA, .ro, 0x4000, false⟩, ⟨.VICTX_LIMITS_SL_LIVE, .ro, 0, false⟩]⟩,
  ⟨Reg.VICTX_CTX_SEL, 1, 8, 1, 0, false, true,
    [⟨.VICTX_CTX_SEL_CTX, .rw, 0, false⟩]⟩,
  ⟨Reg.VICTX_CTX_STATE, 1, 8, 1, Reg.VICTX_CTX_SEL, false, false,
    [⟨.VICTX_CTX_STATE_VALID, .ro, 0, false⟩, ⟨.VICTX_CTX_STATE_TEARING, .ro, 0, false⟩, ⟨.VICTX_CTX_STATE_SCRUBBING, .ro, 0, false⟩, ⟨.VICTX_CTX_STATE_SPAN, .ro, 0, false⟩, ⟨.VICTX_CTX_STATE_PRIORITY, .ro, 0, false⟩, ⟨.VICTX_CTX_STATE_WEIGHT, .ro, 0, false⟩, ⟨.VICTX_CTX_STATE_NOTICE_CQ, .ro, 0, false⟩, ⟨.VICTX_CTX_STATE_MASTER, .ro, 0, false⟩]⟩,
  ⟨Reg.VICTX_CTX_QUOTA_TS, 1, 8, 1, Reg.VICTX_CTX_SEL, false, false,
    [⟨.VICTX_CTX_QUOTA_TS_UNITS, .ro, 0, false⟩]⟩,
  ⟨Reg.VICTX_CTX_QUOTA_SS, 1, 8, 1, Reg.VICTX_CTX_SEL, false, false,
    [⟨.VICTX_CTX_QUOTA_SS_UNITS, .ro, 0, false⟩]⟩,
  ⟨Reg.VICTX_CTX_QUOTA_BR, 1, 8, 1, Reg.VICTX_CTX_SEL, false, false,
    [⟨.VICTX_CTX_QUOTA_BR_UNITS, .ro, 0, false⟩]⟩,
  ⟨Reg.VICTX_CTX_USE_TS, 1, 8, 1, Reg.VICTX_CTX_SEL, false, false,
    [⟨.VICTX_CTX_USE_TS_UNITS, .ro, 0, false⟩]⟩,
  ⟨Reg.VICTX_CTX_USE_SS, 1, 8, 1, Reg.VICTX_CTX_SEL, false, false,
    [⟨.VICTX_CTX_USE_SS_UNITS, .ro, 0, false⟩]⟩,
  ⟨Reg.VICTX_CTX_USE_BR, 1, 8, 1, Reg.VICTX_CTX_SEL, false, false,
    [⟨.VICTX_CTX_USE_BR_UNITS, .ro, 0, false⟩]⟩,
  ⟨Reg.VICTX_CTX_NS, 1, 8, 1, Reg.VICTX_CTX_SEL, false, false,
    [⟨.VICTX_CTX_NS_NS, .ro, 0, false⟩]⟩]

def regsVictx1 : List RegDesc := [
  ⟨Reg.VICTX_CTX_BYTES, 1, 8, 1, Reg.VICTX_CTX_SEL, false, false,
    [⟨.VICTX_CTX_BYTES_COUNT, .ro, 0, false⟩]⟩,
  ⟨Reg.VICTX_CTX_WASTE, 1, 8, 1, Reg.VICTX_CTX_SEL, false, false,
    [⟨.VICTX_CTX_WASTE_COUNT, .ro, 0, false⟩]⟩,
  ⟨Reg.VICTX_CTX_REFETCH, 1, 8, 1, Reg.VICTX_CTX_SEL, false, false,
    [⟨.VICTX_CTX_REFETCH_COUNT, .ro, 0, false⟩]⟩,
  ⟨Reg.VICTX_CTX_REQS, 1, 8, 1, Reg.VICTX_CTX_SEL, false, false,
    [⟨.VICTX_CTX_REQS_LIVE, .ro, 0, false⟩]⟩,
  ⟨Reg.VICTX_CTX_TEARDOWNS, 1, 8, 1, Reg.VICTX_CTX_SEL, false, false,
    [⟨.VICTX_CTX_TEARDOWNS_COUNT, .ro, 0, false⟩]⟩]

/-- The victx block. -/
def regsVictx : List RegDesc := regsVictx0 ++ regsVictx1

/-- The hostvi registers. -/
def regsHostvi0 : List RegDesc := [
  ⟨Reg.HOSTVI_DEV_STATUS, 1, 8, 1, 0, false, false,
    [⟨.HOSTVI_DEV_STATUS_READY, .ro, 0, false⟩]⟩,
  ⟨Reg.HOSTVI_LINK, 1, 8, 1, 0, false, false,
    [⟨.HOSTVI_LINK_RATE, .ro, 0, false⟩, ⟨.HOSTVI_LINK_WIDTH, .ro, 0, false⟩, ⟨.HOSTVI_LINK_FLIT, .ro, 0, false⟩, ⟨.HOSTVI_LINK_DEGRADED, .ro, 0, false⟩]⟩,
  ⟨Reg.HOSTVI_CTRL, 1, 8, 1, 0, true, false,
    [⟨.HOSTVI_CTRL_DEP_MS, .rw, 0x3e8, false⟩]⟩,
  ⟨Reg.HOSTVI_ERR, 1, 8, 1, 0, false, false,
    [⟨.HOSTVI_ERR_FLAGS, .w1c, 0, false⟩]⟩,
  ⟨Reg.HOSTVI_ERR_INFO, 1, 8, 1, 0, false, false,
    [⟨.HOSTVI_ERR_INFO_RING, .ro, 0, false⟩, ⟨.HOSTVI_ERR_INFO_VI, .ro, 0, false⟩, ⟨.HOSTVI_ERR_INFO_CTX, .ro, 0, false⟩, ⟨.HOSTVI_ERR_INFO_BIT, .ro, 0, false⟩, ⟨.HOSTVI_ERR_INFO_SEQ, .ro, 0, false⟩]⟩,
  ⟨Reg.HOSTVI_VI_SEL, 1, 8, 1, 0, false, true,
    [⟨.HOSTVI_VI_SEL_VI, .rw, 0, false⟩]⟩,
  ⟨Reg.HOSTVI_VI_CFG, 1, 8, 1, Reg.HOSTVI_VI_SEL, false, false,
    [⟨.HOSTVI_VI_CFG_ALL, .ro, 0, false⟩]⟩,
  ⟨Reg.HOSTVI_VI_LIM, 1, 8, 1, Reg.HOSTVI_VI_SEL, false, false,
    [⟨.HOSTVI_VI_LIM_ALL, .ro, 0, false⟩]⟩]

/-- The hostvi block. -/
def regsHostvi : List RegDesc := regsHostvi0

/-- The ring registers. -/
def regsRing0 : List RegDesc := [
  ⟨Reg.RING_BASE, 8192, 512, 1, 0, true, false,
    [⟨.RING_BASE_ADDR, .rw, 0, false⟩]⟩,
  ⟨Reg.RING_CFG, 8192, 512, 1, 0, true, false,
    [⟨.RING_CFG_TYPE, .rw, 0, false⟩, ⟨.RING_CFG_LOG2, .rw, 0, false⟩, ⟨.RING_CFG_CTX_BOUND, .rw, 0, false⟩, ⟨.RING_CFG_CTX, .rw, 0, false⟩, ⟨.RING_CFG_CQ, .rw, 0, false⟩, ⟨.RING_CFG_VECTOR, .rw, 0, false⟩, ⟨.RING_CFG_ITR_US, .rw, 0, false⟩]⟩,
  ⟨Reg.RING_SHADOW, 8192, 512, 1, 0, true, false,
    [⟨.RING_SHADOW_ADDR, .rw, 0, false⟩]⟩,
  ⟨Reg.RING_CTRL, 8192, 512, 1, 0, true, false,
    [⟨.RING_CTRL_ENABLE, .rw, 0, true⟩]⟩,
  ⟨Reg.RING_STATUS, 8192, 512, 1, 0, false, false,
    [⟨.RING_STATUS_STATE, .ro, 0, false⟩, ⟨.RING_STATUS_HALT_CODE, .ro, 0, false⟩]⟩,
  ⟨Reg.RING_DB, 8192, 512, 1, 0, true, false,
    [⟨.RING_DB_INDEX, .wo, 0, true⟩]⟩,
  ⟨Reg.RING_IDX, 8192, 512, 1, 0, false, false,
    [⟨.RING_IDX_HEAD, .ro, 0, false⟩, ⟨.RING_IDX_TAIL, .ro, 0, false⟩]⟩,
  ⟨Reg.RING_SEQ, 8192, 512, 1, 0, false, false,
    [⟨.RING_SEQ_FETCHED, .ro, 0, false⟩]⟩]

/-- The ring block. -/
def regsRing : List RegDesc := regsRing0

/-- The wpkg registers. -/
def regsWpkg0 : List RegDesc := [
  ⟨Reg.WPKG_STATUS, 1, 8, 1, 0, false, false,
    [⟨.WPKG_STATUS_GEN, .ro, 0, false⟩, ⟨.WPKG_STATUS_SWAP_PEND, .ro, 0, false⟩, ⟨.WPKG_STATUS_LOADS, .ro, 0, false⟩, ⟨.WPKG_STATUS_RESIDENT, .ro, 0, false⟩]⟩,
  ⟨Reg.WPKG_VER_SEL, 1, 8, 1, 0, false, true,
    [⟨.WPKG_VER_SEL_VERSION, .rw, 0, false⟩]⟩,
  ⟨Reg.WPKG_VER_STATE, 1, 8, 1, Reg.WPKG_VER_SEL, false, false,
    [⟨.WPKG_VER_STATE_STATE, .ro, 0, false⟩, ⟨.WPKG_VER_STATE_MODEL, .ro, 0, false⟩, ⟨.WPKG_VER_STATE_SLOT, .ro, 0, false⟩, ⟨.WPKG_VER_STATE_CTX, .ro, 0, false⟩, ⟨.WPKG_VER_STATE_TWIN_OK, .ro, 0, false⟩, ⟨.WPKG_VER_STATE_LIVE, .ro, 0, false⟩, ⟨.WPKG_VER_STATE_KV_FMT, .ro, 0, false⟩, ⟨.WPKG_VER_STATE_REFS, .ro, 0, false⟩]⟩,
  ⟨Reg.WPKG_VER_TILES, 1, 8, 1, Reg.WPKG_VER_SEL, false, false,
    [⟨.WPKG_VER_TILES_TILES, .ro, 0, false⟩, ⟨.WPKG_VER_TILES_VERIFIED, .ro, 0, false⟩]⟩,
  ⟨Reg.WPKG_VER_ROOT, 1, 8, 1, Reg.WPKG_VER_SEL, false, false,
    [⟨.WPKG_VER_ROOT_ROOT_LO, .ro, 0, false⟩]⟩,
  ⟨Reg.WPKG_VER_PARAMS, 1, 8, 1, Reg.WPKG_VER_SEL, false, false,
    [⟨.WPKG_VER_PARAMS_VOCAB, .ro, 0, false⟩, ⟨.WPKG_VER_PARAMS_EOS, .ro, 0, false⟩, ⟨.WPKG_VER_PARAMS_LAYERS, .ro, 0, false⟩, ⟨.WPKG_VER_PARAMS_KV_HEADS, .ro, 0, false⟩, ⟨.WPKG_VER_PARAMS_HEAD_DIM32, .ro, 0, false⟩]⟩,
  ⟨Reg.WPKG_MODEL_SEL, 1, 8, 1, 0, false, true,
    [⟨.WPKG_MODEL_SEL_MODEL, .rw, 0, false⟩]⟩,
  ⟨Reg.WPKG_MODEL_LIVE, 1, 8, 1, Reg.WPKG_MODEL_SEL, false, false,
    [⟨.WPKG_MODEL_LIVE_VERSION, .ro, 0, false⟩, ⟨.WPKG_MODEL_LIVE_VALID, .ro, 0, false⟩]⟩,
  ⟨Reg.WPKG_LOAD_INFO, 1, 8, 1, 0, false, false,
    [⟨.WPKG_LOAD_INFO_STATUS, .rc, 0, false⟩, ⟨.WPKG_LOAD_INFO_TILE, .rc, 0, false⟩, ⟨.WPKG_LOAD_INFO_VERSION, .rc, 0, false⟩]⟩,
  ⟨Reg.WPKG_LOADS, 1, 8, 1, 0, false, false,
    [⟨.WPKG_LOADS_COUNT, .ro, 0, false⟩]⟩,
  ⟨Reg.WPKG_TILES_VERIFIED, 1, 8, 1, 0, false, false,
    [⟨.WPKG_TILES_VERIFIED_COUNT, .ro, 0, false⟩]⟩,
  ⟨Reg.WPKG_TILE_RETRIES, 1, 8, 1, 0, false, false,
    [⟨.WPKG_TILE_RETRIES_COUNT, .ro, 0, false⟩]⟩]

def regsWpkg1 : List RegDesc := [
  ⟨Reg.WPKG_SWITCHES, 1, 8, 1, 0, false, false,
    [⟨.WPKG_SWITCHES_COUNT, .ro, 0, false⟩]⟩,
  ⟨Reg.WPKG_ERR, 1, 8, 1, 0, false, false,
    [⟨.WPKG_ERR_FLAGS, .w1c, 0, false⟩]⟩]

/-- The wpkg block. -/
def regsWpkg : List RegDesc := regsWpkg0 ++ regsWpkg1

/-- The twin registers. -/
def regsTwin0 : List RegDesc := [
  ⟨Reg.TWIN_ID, 1, 8, 1, 0, false, false,
    [⟨.TWIN_ID_PEER, .ro, 0, false⟩, ⟨.TWIN_ID_PAIR_EN, .ro, 0, false⟩, ⟨.TWIN_ID_PAIR, .ro, 0, false⟩, ⟨.TWIN_ID_LOWER, .ro, 0, false⟩]⟩,
  ⟨Reg.TWIN_STATUS, 1, 8, 1, 0, false, false,
    [⟨.TWIN_STATUS_STATE, .ro, 0, false⟩, ⟨.TWIN_STATUS_FABRIC_PATH, .ro, 0, false⟩, ⟨.TWIN_STATUS_SUSPECT, .ro, 0, false⟩, ⟨.TWIN_STATUS_MIRRORED, .ro, 0, false⟩]⟩,
  ⟨Reg.TWIN_CTRL, 1, 8, 1, 0, false, false,
    [⟨.TWIN_CTRL_CKPT_TOKENS, .rw, 0x40, false⟩, ⟨.TWIN_CTRL_READMIT_S, .rw, 0xa, false⟩, ⟨.TWIN_CTRL_DRAIN_S, .rw, 0xe10, false⟩]⟩,
  ⟨Reg.TWIN_SEQ, 1, 8, 1, 0, false, false,
    [⟨.TWIN_SEQ_TX, .ro, 0, false⟩, ⟨.TWIN_SEQ_ACKED, .ro, 0, false⟩]⟩,
  ⟨Reg.TWIN_HB_T, 1, 8, 1, 0, false, false,
    [⟨.TWIN_HB_T_T, .ro, 0, false⟩]⟩,
  ⟨Reg.TWIN_MIRROR_GIB, 1, 8, 1, 0, false, false,
    [⟨.TWIN_MIRROR_GIB_GIB, .ro, 0, false⟩]⟩,
  ⟨Reg.TWIN_RECORDS, 1, 8, 1, 0, false, false,
    [⟨.TWIN_RECORDS_COUNT, .ro, 0, false⟩]⟩,
  ⟨Reg.TWIN_CKPT_BYTES, 1, 8, 1, 0, false, false,
    [⟨.TWIN_CKPT_BYTES_COUNT, .ro, 0, false⟩]⟩,
  ⟨Reg.TWIN_TAKEOVERS, 1, 8, 1, 0, false, false,
    [⟨.TWIN_TAKEOVERS_COUNT, .ro, 0, false⟩]⟩,
  ⟨Reg.TWIN_RECOMPUTED, 1, 8, 1, 0, false, false,
    [⟨.TWIN_RECOMPUTED_COUNT, .ro, 0, false⟩]⟩,
  ⟨Reg.TWIN_RING_WAITS, 1, 8, 1, 0, false, false,
    [⟨.TWIN_RING_WAITS_COUNT, .ro, 0, false⟩]⟩,
  ⟨Reg.TWIN_ERR, 1, 8, 1, 0, false, false,
    [⟨.TWIN_ERR_FLAGS, .w1c, 0, false⟩]⟩]

def regsTwin1 : List RegDesc := [
  ⟨Reg.TWIN_ERR_INFO, 1, 8, 1, 0, false, false,
    [⟨.TWIN_ERR_INFO_MODULE, .ro, 0, false⟩, ⟨.TWIN_ERR_INFO_BIT, .ro, 0, false⟩]⟩]

/-- The twin block. -/
def regsTwin : List RegDesc := regsTwin0 ++ regsTwin1

/-- The keel registers. -/
def regsKeel0 : List RegDesc := [
  ⟨Reg.KEEL_STATUS, 1, 8, 1, 0, false, false,
    [⟨.KEEL_STATUS_ANCHOR_SET, .ro, 0, false⟩, ⟨.KEEL_STATUS_ALARMS, .ro, 0, false⟩, ⟨.KEEL_STATUS_SUSTAINED, .ro, 0, false⟩, ⟨.KEEL_STATUS_EMERG_ACTIVE, .ro, 0, false⟩, ⟨.KEEL_STATUS_LOCKSTEP_OK, .ro, 1, false⟩]⟩,
  ⟨Reg.KEEL_ORDER_SEQ, 1, 8, 1, 0, false, false,
    [⟨.KEEL_ORDER_SEQ_SEQ, .ro, 0, false⟩]⟩,
  ⟨Reg.KEEL_ANCHOR_ID, 1, 8, 1, 0, false, false,
    [⟨.KEEL_ANCHOR_ID_ID, .ro, 0, false⟩]⟩,
  ⟨Reg.KEEL_CAP, 1, 8, 1, 0, false, false,
    [⟨.KEEL_CAP_MODULE_W, .wk, 0x11f8, false⟩, ⟨.KEEL_CAP_ALERT_W, .wk, 0x8fc, false⟩]⟩,
  ⟨Reg.KEEL_THERM, 1, 8, 1, 0, false, false,
    [⟨.KEEL_THERM_THROTTLE_C, .wk, 0x64, false⟩, ⟨.KEEL_THERM_TRIP_C, .wk, 0x69, false⟩, ⟨.KEEL_THERM_INLET_C, .wk, 0x2d, false⟩]⟩,
  ⟨Reg.KEEL_ALARM, 1, 8, 1, 0, false, false,
    [⟨.KEEL_ALARM_SUSTAIN_MS, .wk, 0x14, false⟩, ⟨.KEEL_ALARM_CLEAR_MS, .wk, 0x3e8, false⟩]⟩,
  ⟨Reg.KEEL_TWIN, 1, 8, 1, 0, false, false,
    [⟨.KEEL_TWIN_PEER, .wk, 0, false⟩, ⟨.KEEL_TWIN_PAIR_EN, .wk, 0, false⟩]⟩,
  ⟨Reg.KEEL_LOCATION, 1, 8, 1, 0, false, false,
    [⟨.KEEL_LOCATION_RACK, .wk, 0, false⟩, ⟨.KEEL_LOCATION_TRAY, .wk, 0, false⟩, ⟨.KEEL_LOCATION_SLOT, .wk, 0, false⟩, ⟨.KEEL_LOCATION_VALID, .wk, 0, false⟩]⟩,
  ⟨Reg.KEEL_EMERG, 1, 8, 1, 0, false, false,
    [⟨.KEEL_EMERG_FORCE, .wk, 0, false⟩]⟩,
  ⟨Reg.KEEL_POWER, 1, 8, 1, 0, false, false,
    [⟨.KEEL_POWER_OFF, .wk, 0, false⟩]⟩,
  ⟨Reg.KEEL_LOG_POLICY, 1, 8, 1, 0, false, false,
    [⟨.KEEL_LOG_POLICY_PERIODIC_S, .wk, 0xe10, false⟩, ⟨.KEEL_LOG_POLICY_MIN_SEV, .wk, 2, false⟩, ⟨.KEEL_LOG_POLICY_ERASE_LOCK, .wk, 1, false⟩]⟩,
  ⟨Reg.KEEL_ORDERS, 1, 8, 1, 0, false, false,
    [⟨.KEEL_ORDERS_ACCEPTED, .ro, 0, false⟩, ⟨.KEEL_ORDERS_REFUSED, .ro, 0, false⟩]⟩]

def regsKeel1 : List RegDesc := [
  ⟨Reg.KEEL_LAST_REFUSE, 1, 8, 1, 0, false, false,
    [⟨.KEEL_LAST_REFUSE_CODE, .ro, 0, false⟩, ⟨.KEEL_LAST_REFUSE_SEQ, .ro, 0, false⟩]⟩,
  ⟨Reg.KEEL_KEY_ID, 16, 16, 1, 0, false, false,
    [⟨.KEEL_KEY_ID_KEY_ID, .wk, 0, false⟩]⟩,
  ⟨Reg.KEEL_KEY_STATE, 16, 16, 1, 0, false, false,
    [⟨.KEEL_KEY_STATE_VALID, .wk, 0, false⟩, ⟨.KEEL_KEY_STATE_REVOKED, .wk, 0, false⟩]⟩,
  ⟨Reg.KEEL_KEY_DATA, 16, 4096, 324, 0, false, false,
    [⟨.KEEL_KEY_DATA_KEY, .wk, 0, false⟩]⟩]

/-- The keel block. -/
def regsKeel : List RegDesc := regsKeel0 ++ regsKeel1

/-- The pwrclk registers. -/
def regsPwrclk0 : List RegDesc := [
  ⟨Reg.PWRCLK_STATE, 1, 8, 1, 0, false, false,
    [⟨.PWRCLK_STATE_MSTATE, .ro, 0, false⟩, ⟨.PWRCLK_STATE_BY_ALARM, .ro, 0, false⟩, ⟨.PWRCLK_STATE_SEAT_SLEEP, .ro, 0, false⟩, ⟨.PWRCLK_STATE_SEAT_MOVING, .ro, 0, false⟩]⟩,
  ⟨Reg.PWRCLK_REQ, 1, 8, 1, 0, false, false,
    [⟨.PWRCLK_REQ_TARGET, .rw, 0, true⟩, ⟨.PWRCLK_REQ_SEAT_SLEEP_REQ, .rw, 0, true⟩]⟩,
  ⟨Reg.PWRCLK_REFUSE, 1, 8, 1, 0, false, false,
    [⟨.PWRCLK_REFUSE_CODE, .rc, 0, false⟩, ⟨.PWRCLK_REFUSE_SEAT, .rc, 0, false⟩]⟩,
  ⟨Reg.PWRCLK_HOST_WAKE, 1, 8, 1, 0, true, false,
    [⟨.PWRCLK_HOST_WAKE_WAKE, .w1s, 0, true⟩]⟩,
  ⟨Reg.PWRCLK_WAKE_AT, 1, 8, 1, 0, false, false,
    [⟨.PWRCLK_WAKE_AT_T, .rw, 0, false⟩]⟩,
  ⟨Reg.PWRCLK_INPUT, 1, 8, 1, 0, false, false,
    [⟨.PWRCLK_INPUT_VIN_MV, .ro, 0, false⟩, ⟨.PWRCLK_INPUT_IIN_DA, .ro, 0, false⟩, ⟨.PWRCLK_INPUT_PIN_W, .ro, 0, false⟩]⟩,
  ⟨Reg.PWRCLK_CAP, 1, 8, 1, 0, false, false,
    [⟨.PWRCLK_CAP_CAP_W, .ro, 0x11f8, false⟩, ⟨.PWRCLK_CAP_STRETCH, .ro, 0, false⟩, ⟨.PWRCLK_CAP_CEIL_MHZ, .ro, 0x5dc, false⟩]⟩,
  ⟨Reg.PWRCLK_THERM, 1, 8, 1, 0, false, false,
    [⟨.PWRCLK_THERM_TJ_MAX_0, .ro, 0, false⟩, ⟨.PWRCLK_THERM_TJ_MAX_1, .ro, 0, false⟩, ⟨.PWRCLK_THERM_TJ_MAX_2, .ro, 0, false⟩, ⟨.PWRCLK_THERM_TJ_MAX_3, .ro, 0, false⟩, ⟨.PWRCLK_THERM_TJ_MAX_4, .ro, 0, false⟩, ⟨.PWRCLK_THERM_TJ_MAX_5, .ro, 0, false⟩, ⟨.PWRCLK_THERM_TJ_MAX_6, .ro, 0, false⟩, ⟨.PWRCLK_THERM_TJ_MAX_7, .ro, 0, false⟩]⟩,
  ⟨Reg.PWRCLK_WAKE_LOST, 1, 8, 1, 0, false, false,
    [⟨.PWRCLK_WAKE_LOST_COUNT, .ro, 0, false⟩]⟩,
  ⟨Reg.PWRCLK_SEAT_SLEEPS, 1, 8, 1, 0, false, false,
    [⟨.PWRCLK_SEAT_SLEEPS_COUNT, .ro, 0, false⟩]⟩,
  ⟨Reg.PWRCLK_WAKES, 1, 8, 1, 0, false, false,
    [⟨.PWRCLK_WAKES_COUNT, .ro, 0, false⟩]⟩,
  ⟨Reg.PWRCLK_CAP_NS, 1, 8, 1, 0, false, false,
    [⟨.PWRCLK_CAP_NS_NS, .ro, 0, false⟩]⟩]

def regsPwrclk1 : List RegDesc := [
  ⟨Reg.PWRCLK_EMERG_NS, 1, 8, 1, 0, false, false,
    [⟨.PWRCLK_EMERG_NS_NS, .ro, 0, false⟩]⟩,
  ⟨Reg.PWRCLK_ERR, 1, 8, 1, 0, false, false,
    [⟨.PWRCLK_ERR_FLAGS, .w1c, 0, false⟩]⟩]

/-- The pwrclk block. -/
def regsPwrclk : List RegDesc := regsPwrclk0 ++ regsPwrclk1

/-- The errobs registers. -/
def regsErrobs0 : List RegDesc := [
  ⟨Reg.ERR_STATUS, 1, 8, 1, 0, false, false,
    [⟨.ERR_STATUS_STALLED, .ro, 0, false⟩, ⟨.ERR_STATUS_BACKLOG, .ro, 0, false⟩]⟩,
  ⟨Reg.ERR_RING_PROD, 1, 8, 1, 0, false, false,
    [⟨.ERR_RING_PROD_PROD, .ro, 0, false⟩]⟩,
  ⟨Reg.ERR_RING_CONS, 1, 8, 1, 0, true, false,
    [⟨.ERR_RING_CONS_CONS, .rw, 0, true⟩]⟩,
  ⟨Reg.ERR_RING_OCC, 1, 8, 1, 0, false, false,
    [⟨.ERR_RING_OCC_HELD, .ro, 0, false⟩, ⟨.ERR_RING_OCC_HIGH, .ro, 0, false⟩, ⟨.ERR_RING_OCC_BACKLOG, .ro, 0, false⟩]⟩,
  ⟨Reg.ERR_IRQ, 1, 8, 1, 0, true, false,
    [⟨.ERR_IRQ_MIN_SEV, .rw, 2, false⟩, ⟨.ERR_IRQ_VECTOR, .rw, 0, false⟩, ⟨.ERR_IRQ_EN, .rw, 0, false⟩]⟩,
  ⟨Reg.ERR_DROPPED, 1, 8, 1, 0, false, false,
    [⟨.ERR_DROPPED_COUNT, .ro, 0, false⟩]⟩,
  ⟨Reg.ERR_ESCALATED, 1, 8, 1, 0, false, false,
    [⟨.ERR_ESCALATED_COUNT, .ro, 0, false⟩]⟩,
  ⟨Reg.ERR_ABSORBED, 1, 8, 1, 0, false, false,
    [⟨.ERR_ABSORBED_COUNT, .ro, 0, false⟩]⟩,
  ⟨Reg.ERR_RAISED_S, 6, 8, 1, 0, false, false,
    [⟨.ERR_RAISED_S_COUNT, .ro, 0, false⟩]⟩,
  ⟨Reg.ERR_POISON_ADDR, 1, 8, 1, 0, false, false,
    [⟨.ERR_POISON_ADDR_ADDR, .ro, 0, false⟩]⟩,
  ⟨Reg.ERR_POISON_T, 1, 8, 1, 0, false, false,
    [⟨.ERR_POISON_T_T, .ro, 0, false⟩]⟩,
  ⟨Reg.ERR_FAULT, 1, 8, 1, 0, false, false,
    [⟨.ERR_FAULT_FLAGS, .w1c, 0, false⟩]⟩]

def regsErrobs1 : List RegDesc := [
  ⟨Reg.ERR_HANDLING, 1, 8, 1, 0, false, false,
    [⟨.ERR_HANDLING_REQUESTS, .ro, 0, false⟩, ⟨.ERR_HANDLING_CONTEXTS, .ro, 0, false⟩, ⟨.ERR_HANDLING_MODULE, .ro, 0, false⟩]⟩,
  ⟨Reg.SNAP_TARGET, 1, 8, 1, 0, true, false,
    [⟨.SNAP_TARGET_T, .rw, 0, false⟩]⟩,
  ⟨Reg.SNAP_CTRL, 1, 8, 1, 0, true, false,
    [⟨.SNAP_CTRL_GO, .w1s, 0, true⟩, ⟨.SNAP_CTRL_SCOPE, .rw, 0, false⟩, ⟨.SNAP_CTRL_SLICE, .rw, 0, false⟩, ⟨.SNAP_CTRL_HOST_COPY, .rw, 0, false⟩]⟩,
  ⟨Reg.SNAP_HOST_ADDR, 1, 8, 1, 0, true, false,
    [⟨.SNAP_HOST_ADDR_ADDR, .rw, 0, false⟩]⟩,
  ⟨Reg.SNAP_HOST_LEN, 1, 8, 1, 0, true, false,
    [⟨.SNAP_HOST_LEN_BYTES, .rw, 0, false⟩]⟩,
  ⟨Reg.SNAP_STATUS, 1, 8, 1, 0, false, false,
    [⟨.SNAP_STATUS_SETS_BUSY, .ro, 0, false⟩, ⟨.SNAP_STATUS_NEWEST, .ro, 0, false⟩, ⟨.SNAP_STATUS_PACKING, .ro, 0, false⟩]⟩,
  ⟨Reg.SNAP_LAST_ID, 1, 8, 1, 0, false, false,
    [⟨.SNAP_LAST_ID_ID, .ro, 0, false⟩]⟩,
  ⟨Reg.SNAP_LAST_T, 1, 8, 1, 0, false, false,
    [⟨.SNAP_LAST_T_T, .ro, 0, false⟩]⟩,
  ⟨Reg.SNAP_TAKEN, 1, 8, 1, 0, false, false,
    [⟨.SNAP_TAKEN_COUNT, .ro, 0, false⟩]⟩,
  ⟨Reg.SNAP_SKIPPED, 1, 8, 1, 0, false, false,
    [⟨.SNAP_SKIPPED_COUNT, .ro, 0, false⟩]⟩,
  ⟨Reg.SNAP_MERGED, 1, 8, 1, 0, false, false,
    [⟨.SNAP_MERGED_COUNT, .ro, 0, false⟩]⟩,
  ⟨Reg.SNAP_STORE_SEL, 1, 8, 1, 0, false, true,
    [⟨.SNAP_STORE_SEL_SLOT, .rw, 0, false⟩, ⟨.SNAP_STORE_SEL_RECORD, .rw, 0, false⟩]⟩]

def regsErrobs2 : List RegDesc := [
  ⟨Reg.SNAP_STORE_DATA, 8, 8, 1, Reg.SNAP_STORE_SEL, false, false,
    [⟨.SNAP_STORE_DATA_DATA, .ro, 0, false⟩]⟩,
  ⟨Reg.PMC_SEL, 16, 16, 1, 0, true, false,
    [⟨.PMC_SEL_EVENT, .rw, 0, false⟩, ⟨.PMC_SEL_CTX, .rw, 0, false⟩, ⟨.PMC_SEL_CTX_EN, .rw, 0, false⟩, ⟨.PMC_SEL_CLEAR, .w1s, 0, true⟩]⟩,
  ⟨Reg.PMC, 16, 16, 1, 0, false, false,
    [⟨.PMC_COUNT, .ro, 0, false⟩]⟩,
  ⟨Reg.LOG_STATUS, 1, 8, 1, 0, false, false,
    [⟨.LOG_STATUS_CAL_VALID, .ro, 0, false⟩, ⟨.LOG_STATUS_READY, .ro, 0, false⟩, ⟨.LOG_STATUS_NOT_FOUND, .ro, 0, false⟩, ⟨.LOG_STATUS_WRITE_FAIL, .ro, 0, false⟩]⟩,
  ⟨Reg.LOG_HEAD, 1, 8, 1, 0, false, false,
    [⟨.LOG_HEAD_NEWEST, .ro, 0, false⟩, ⟨.LOG_HEAD_OLDEST, .ro, 0, false⟩]⟩,
  ⟨Reg.LOG_CALENDAR, 1, 8, 1, 0, false, false,
    [⟨.LOG_CALENDAR_S, .ro, 0, false⟩]⟩,
  ⟨Reg.LOG_UTC_OFFSET, 1, 8, 1, 0, false, false,
    [⟨.LOG_UTC_OFFSET_S, .ro, 0, false⟩]⟩,
  ⟨Reg.LOG_POWER_ON_S, 1, 8, 1, 0, false, false,
    [⟨.LOG_POWER_ON_S_S, .ro, 0, false⟩]⟩,
  ⟨Reg.LOG_ENERGY_KJ, 1, 8, 1, 0, false, false,
    [⟨.LOG_ENERGY_KJ_KJ, .ro, 0, false⟩]⟩,
  ⟨Reg.LOG_CYCLES, 1, 8, 1, 0, false, false,
    [⟨.LOG_CYCLES_THERMAL, .ro, 0, false⟩, ⟨.LOG_CYCLES_RETRAINS, .ro, 0, false⟩]⟩,
  ⟨Reg.LOG_PAIR, 1, 8, 1, 0, false, false,
    [⟨.LOG_PAIR_TAKEOVERS, .ro, 0, false⟩, ⟨.LOG_PAIR_FENCES, .ro, 0, false⟩, ⟨.LOG_PAIR_RETIRED, .ro, 0, false⟩]⟩,
  ⟨Reg.LOG_HBM_CE, 1, 8, 1, 0, false, false,
    [⟨.LOG_HBM_CE_COUNT, .ro, 0, false⟩]⟩]

def regsErrobs3 : List RegDesc := [
  ⟨Reg.LOG_HBM_UE, 1, 8, 1, 0, false, false,
    [⟨.LOG_HBM_UE_COUNT, .ro, 0, false⟩]⟩,
  ⟨Reg.LOG_AGING, 8, 8, 1, 0, false, false,
    [⟨.LOG_AGING_DRIFT, .ro, 0, false⟩]⟩,
  ⟨Reg.LOG_SUPPRESSED, 1, 8, 1, 0, false, false,
    [⟨.LOG_SUPPRESSED_COUNT, .ro, 0, false⟩]⟩,
  ⟨Reg.LOG_SEL, 1, 8, 1, 0, false, true,
    [⟨.LOG_SEL_SEQ, .rw, 0, true⟩]⟩,
  ⟨Reg.LOG_DATA, 8, 8, 1, 0, false, false,
    [⟨.LOG_DATA_DATA, .ro, 0, false⟩]⟩,
  ⟨Reg.ERR_RING_ENTRY, 1024, 32, 4, 0, false, false,
    [⟨.ERR_RING_ENTRY_RECORD, .ro, 0, false⟩]⟩]

/-- The errobs block. -/
def regsErrobs : List RegDesc := regsErrobs0 ++ regsErrobs1 ++ regsErrobs2 ++ regsErrobs3

/-- The board registers. -/
def regsBoard0 : List RegDesc := [
  ⟨Reg.BOOT_STATUS, 1, 8, 1, 0, false, false,
    [⟨.BOOT_STATUS_STAGE, .ro, 0, false⟩, ⟨.BOOT_STATUS_FAILED, .ro, 0, false⟩, ⟨.BOOT_STATUS_FAIL_CODE, .ro, 0, false⟩, ⟨.BOOT_STATUS_STANDALONE, .ro, 0, false⟩, ⟨.BOOT_STATUS_RETRYING, .ro, 0, false⟩]⟩,
  ⟨Reg.BOOT_CAUSE, 1, 8, 1, 0, false, false,
    [⟨.BOOT_CAUSE_CAUSE, .ro, 0, false⟩]⟩,
  ⟨Reg.BOOT_TIME, 1, 8, 1, 0, false, false,
    [⟨.BOOT_TIME_MS, .ro, 0, false⟩, ⟨.BOOT_TIME_BOOTS, .ro, 0, false⟩]⟩,
  ⟨Reg.BOOT_PARAM, 1, 8, 1, 0, false, false,
    [⟨.BOOT_PARAM_STANDALONE, .rw, 0, false⟩, ⟨.BOOT_PARAM_ROOT_ALLOW, .rw, 0, false⟩]⟩,
  ⟨Reg.RAIL_SEL, 1, 8, 1, 0, false, true,
    [⟨.RAIL_SEL_RAIL, .rw, 0, false⟩]⟩,
  ⟨Reg.RAIL_STAT, 1, 8, 1, Reg.RAIL_SEL, false, false,
    [⟨.RAIL_STAT_MV, .ro, 0, false⟩, ⟨.RAIL_STAT_DA, .ro, 0, false⟩, ⟨.RAIL_STAT_STATE, .ro, 0, false⟩]⟩,
  ⟨Reg.REF_STAT, 1, 8, 1, 0, false, false,
    [⟨.REF_STAT_REF100_OK, .ro, 0, false⟩, ⟨.REF_STAT_REF156_OK, .ro, 0, false⟩, ⟨.REF_STAT_PPS_LOCK, .ro, 0, false⟩, ⟨.REF_STAT_LOSSES, .ro, 0, false⟩]⟩,
  ⟨Reg.SIDEBAND, 1, 8, 1, 0, false, false,
    [⟨.SIDEBAND_LEVELS, .ro, 0, false⟩]⟩,
  ⟨Reg.COOLANT, 1, 8, 1, 0, false, false,
    [⟨.COOLANT_FLOW_DL, .ro, 0, false⟩, ⟨.COOLANT_INLET_C, .ro, 0, false⟩, ⟨.COOLANT_OUTLET_C, .ro, 0, false⟩]⟩,
  ⟨Reg.BIST_SEL, 1, 8, 1, 0, false, true,
    [⟨.BIST_SEL_SEAT, .rw, 0, false⟩, ⟨.BIST_SEL_WORD, .rw, 0, false⟩]⟩,
  ⟨Reg.BIST_DATA, 1, 8, 1, Reg.BIST_SEL, false, false,
    [⟨.BIST_DATA_RETIRED, .ro, 0, false⟩]⟩,
  ⟨Reg.BIST_STAT, 1, 8, 1, Reg.BIST_SEL, false, false,
    [⟨.BIST_STAT_RETIRED_CU, .ro, 0, false⟩, ⟨.BIST_STAT_RETIRED_SU, .ro, 0, false⟩, ⟨.BIST_STAT_RUNS, .ro, 0, false⟩]⟩]

def regsBoard1 : List RegDesc := [
  ⟨Reg.BOARD_ERR, 1, 8, 1, 0, false, false,
    [⟨.BOARD_ERR_FLAGS, .w1c, 0, false⟩]⟩,
  ⟨Reg.BOARD_ERR_INFO, 1, 8, 1, 0, false, false,
    [⟨.BOARD_ERR_INFO_BIT, .ro, 0, false⟩, ⟨.BOARD_ERR_INFO_RAIL, .ro, 0, false⟩]⟩,
  ⟨Reg.MGMT_RX, 1, 8, 1, 0, false, false,
    [⟨.MGMT_RX_COUNT, .ro, 0, false⟩]⟩,
  ⟨Reg.MGMT_REJECTS, 1, 8, 1, 0, false, false,
    [⟨.MGMT_REJECTS_COUNT, .ro, 0, false⟩]⟩]

/-- The board block. -/
def regsBoard : List RegDesc := regsBoard0 ++ regsBoard1

/-- Bytes of the window of a seat (Table 0.6). -/
def seatStride : Nat := 0x01000000

/-- First byte of the seat windows (Table 0.6). -/
def seatBase : Nat := 0x08000000

/-- The offset with the seat and unit taken away: the register of seat 0 and of its unit 0 (Table 0.6, Table 2.7). -/
def canonOff (off : Nat) : Nat :=
  if off < seatBase then off
  else
    let r := (off - seatBase) % seatStride
    if 0x400000 ≤ r ∧ r < 0x800000 then seatBase + 0x400000 + (r - 0x400000) % 0x1000 else seatBase + r

/-- The registers of the block that holds an offset (Table 0.6). -/
def blockRegs (off : Nat) : List RegDesc :=
  if off < 0x00100000 then regsIdent
  else if off < 0x00200000 then regsKeel
  else if off < 0x00210000 then regsPwrclk
  else if off < 0x00220000 then regsBoard
  else if off < 0x00400000 then []
  else if off < 0x00800000 then regsErrobs
  else if off < 0x00900000 then regsHostvi
  else if off < 0x00A00000 then regsVictx
  else if off < 0x00C00000 then []
  else if off < 0x01000000 then regsRing
  else if off < 0x01800000 then regsFabric
  else if off < 0x02000000 then regsTiers
  else if off < 0x04000000 then regsTwin
  else if off < 0x04B00000 then regsSl
  else if off < 0x04C00000 then regsWpkg
  else if off < 0x04D00000 then regsSamp
  else if off < 0x04E00000 then regsExpmap
  else if off < 0x04F00000 then regsSel
  else if off < 0x08000000 then regsSed
  else
    let r := canonOff off - seatBase
    if r < 0x10000 then []
    else if r < 0x20000 then regsNet
    else if r < 0x30000 then regsRig
    else if r < 0x40000 then regsStream
    else if r < 0x50000 then regsScat
    else if r < 0x60000 then regsColl
    else if r < 0x400000 then []
    else if r < 0x800000 then regsUnit
    else []

/-- The register (and member) a canonical offset falls on, when it falls on one. -/
def RegDesc.holds (d : RegDesc) (o : Nat) : Bool :=
  decide (d.off ≤ o) && decide ((o - d.off) / d.stride < d.count) && decide ((o - d.off) % d.stride < 8 * d.words)
    && (o - d.off) % d.stride % 8 == 0

/-- The register at an 8-byte-aligned offset of the physical function's window (R12, R14: none where a hole is). -/
def descOf (off : Nat) : Option RegDesc := (blockRegs off).find? (·.holds (canonOff off))

end Sys2Proof.Machine
end

