-- ==== Sys2Proof/Machine/Store.lean ====
section
/-! DEFINITION. Sparse stores: a list of (key, value) pairs in one canonical form, keys strictly rising and no
entry equal to what an unlisted key reads as. Memory, the register file and every table of the block that has
more entries than a structure can name are such stores. What an unlisted key reads as is an argument, so that the
one definition of it stays with the store's owner. -/

namespace Sys2Proof.Machine

/-- A sparse store: keys strictly rising, no value equal to the owner's default. -/
abbrev SMap (α : Type) := List (Nat × α)

/-- The value at `k`; `d` where nothing is listed. -/
def SMap.get {α : Type} (d : α) : SMap α → Nat → α
  | [], _ => d
  | (j, v) :: r, k => if j = k then v else SMap.get d r k

/-- List `v` at `k`, in place of whatever stood there. -/
def SMap.put {α : Type} : SMap α → Nat → α → SMap α
  | [], k, v => [(k, v)]
  | (j, w) :: r, k, v =>
    if k < j then (k, v) :: (j, w) :: r
    else if j = k then (k, v) :: r
    else (j, w) :: SMap.put r k v

/-- List nothing at `k`. -/
def SMap.drop {α : Type} (m : SMap α) (k : Nat) : SMap α := m.filter (fun p => p.1 != k)

/-- Store `v` at `k`: a value equal to the default `d` removes the entry, so equal stores are equal lists. -/
def SMap.set {α : Type} [DecidableEq α] (d : α) (m : SMap α) (k : Nat) (v : α) : SMap α :=
  if v = d then m.drop k else m.put k v

/-- Change the value at `k` by `f`. -/
def SMap.modify {α : Type} [DecidableEq α] (d : α) (m : SMap α) (k : Nat) (f : α → α) : SMap α :=
  SMap.set d m k (f (m.get d k))

/-- The keys listed, in rising order. -/
def SMap.keys {α : Type} (m : SMap α) : List Nat := m.map (·.1)

/-- The canonical form of a list: sorted, each key once (the first listed wins), no entry at its default `d`. -/
def SMap.norm {α : Type} [DecidableEq α] (d : Nat → α) : SMap α → SMap α
  | [] => []
  | (k, v) :: r => SMap.set (d k) (SMap.norm d r) k v

/-- Keys strictly rise. -/
def SMap.sorted {α : Type} : SMap α → Bool
  | [] => true
  | [_] => true
  | (j, _) :: (k, v) :: r => decide (j < k) && SMap.sorted ((k, v) :: r)

/-- The canonical form, `d` the default value at each key. -/
def SMap.wf {α : Type} [DecidableEq α] (d : Nat → α) (m : SMap α) : Bool :=
  m.sorted && m.all (fun p => !decide (p.2 = d p.1))

/-- Put `x` into an ordered list, before the first it is not after. -/
def orderInto {α : Type} (le : α → α → Bool) (x : α) : List α → List α
  | [] => [x]
  | y :: r => if le x y then x :: y :: r else y :: orderInto le x r

/-- A list in the order `le`, equal elements as they stood. -/
def orderBy {α : Type} (l : List α) (le : α → α → Bool) : List α := l.foldr (fun x r => orderInto le x r) []

end Sys2Proof.Machine
end

