-- ==== Sys2Proof/Types/Output.lean ====
section
/-! DEFINITION. What the block sends out: beats and credits on circuits, link words, fabric messages, records and
interrupts to hosts, answers to register reads and to the management endpoint. State.out keeps them, newest first;
nothing of the block reads them back. -/

namespace Sys2Proof.Machine

/-- One thing sent. -/
inductive Output where
  /-- An output port's beat (R50). -/
  | beat (uid plane port : Nat) (b : Beat)
  /-- Credits going back upstream from an input port (R50). -/
  | credit (uid plane port n : Nat)
  /-- A beat on a switch's output link and slot (R131). -/
  | link (seat switch port slot : Nat) (b : Beat)
  /-- A message or notice on the fabric: its kind by name, destination module, arguments. -/
  | message (kind : String) (dest : Nat) (args : List Nat)
  /-- A completion record on a CQ (R453). -/
  | record (cq : Nat) (r : ComplRec)
  /-- A token record on a TQ (Table 12.7): handle, position, token, flags. -/
  | token (tq handle pos id flags : Nat)
  /-- A ring's tail or fetch head written to its shadow (R440). -/
  | shadow (ring addr index : Nat)
  /-- An MSI-X message (R440). -/
  | msix (fn vector : Nat)
  /-- The answer to a register read. -/
  | read (off : Nat) (w : Word)
  /-- The answer to a management operation: OP, SEQ, STATUS, DETAIL, body (R592). -/
  | answer (op seq status detail : Nat) (body : List Nat)
  /-- A pin driven: its name and level. -/
  | pin (name : String) (level : Bool)
  /-- A host memory access: direction, address, length. -/
  | host (write : Bool) (addr len : Nat)
  /-- The data of a host write: address, bytes, and the EP bit of data from poisoned lines (R434). -/
  | hostData (addr : Nat) (data : List Byte) (ep : Bool)
  /-- A flit or physical-layer action on a Tenith port. -/
  | port (p : Nat) (action : String) (args : List Nat)
  /-- A memory request put on its path (R236). -/
  | request (seat : Nat) (args : List Nat)
deriving DecidableEq, Repr

end Sys2Proof.Machine
end

