-- ==== Sys2Proof/Machine/State.lean ====
section
/-! DEFINITION. The state of the module: every register (one sparse file), every store, table and queue the manual gives it,
the queue of commands that wait, fabric time, and what the block has sent. Plain data. -/

namespace Sys2Proof.Machine

/-- Why a run stops. No command of the table ends so; the type is closed and empty of reasons but one. -/
inductive Fault where
  /-- Raised by no command: a memory access outside the ranges of Table 1.2 has its effect by R22 (poison, S3). Safe. -/
  | unreachable
deriving DecidableEq, Repr

/-- Why a command has no meaning here. -/
inductive Refusal where
  /-- An arm of exec whose meaning is not written. Safe: the run stops. -/
  | notModelled (mnemonic : String)
deriving DecidableEq, Repr

/-- The state. -/
structure State where
  /-- Registers: key offset + 2^28 x instance (regKey), unlisted at the reset value (resetWord). -/
  regs : SMap Word := []
  /-- View selectors, one copy a master (R605): key master code x 2^32 + offset, unlisted 0. -/
  sel : SMap Nat := []
  /-- Memory bytes at module offsets (R21), unlisted 0 (R219). -/
  mem : List Host.Cell := []
  /-- Lines that are poisoned (R35, R212), by line number. -/
  memPoison : SMap Bool := []
  /-- Format tags of Topsoil lines (R68), by line number. -/
  memTag : SMap Nat := []
  /-- Operand-store lines, key unit x 4096 + line. -/
  ops : SMap OpLine := []
  planes : SMap Plane := []
  units : SMap UnitSt := []
  inPorts : SMap PortSt := []
  outPorts : SMap PortSt := []
  switches : SMap SwitchSt := []
  tiers : MemSt := {}
  streams : StreamSt := {}
  twin : TwinSt := {}
  rigs : SMap RigSt := []
  waves : List Wave := []
  ctxs : SMap CtxSt := []
  vis : SMap ViSt := []
  rings : SMap RingSt := []
  entries : SMap Entry := []
  wpkg : WpkgSt := {}
  step : StepSt := {}
  sed : SedSt := {}
  seals : List SealPass := []
  scat : ScatSt := {}
  fab : FabSt := {}
  coll : CollSt := {}
  reqs : SMap ReqSt := []
  /-- Members of each fabric slice (R394), by slice. -/
  slices : SMap (List Nat) := []
  err : ErrSt := {}
  snap : SnapSt := {}
  log : LogSt := {}
  pwr : PwrSt := {}
  seats : SMap SeatPwr := []
  board : BoardSt := {}
  out : List Output := []
  now : Nat := 0
  fresh : Nat := 0
  pending : List Instr := []
deriving DecidableEq, Repr

/-- The module right after reset: every register at its reset value, every store empty, no command waiting. -/
def State.reset : State := {}

end Sys2Proof.Machine
end

