-- ==== Sys2Proof/Machine/Regs.lean ====
section
/-! DEFINITION. The register file: one home for every register, read and written by key and field. A key is an offset of
the physical function's window (R12) plus, where a view selector chooses an instance (R605), 2^28 times the instance; a seat or unit
adds its window offset, a member of an array its stride. -/

namespace Sys2Proof.Machine

/-- The step between instances of one register in the register file. -/
def instStride : Nat := 0x10000000

/-- The part of a key for instance `n` of a register shown through a view selector. -/
def inst (n : Nat) : Nat := n * instStride

/-- The part of a key for seat `s` (Table 0.6). -/
def seatOff (s : Nat) : Nat := s * seatStride

/-- The seat of a unit identifier (R19). -/
def seatOf (uid : Nat) : Nat := uid / 2048 % 8

/-- The part of a key for a compute unit's register frame (Table 2.7, R19). -/
def unitOff (uid : Nat) : Nat := seatOff (seatOf uid) + uid % 1024 * 0x1000

/-- Whether the unit is a service unit (R19). -/
def isService (uid : Nat) : Bool := uid / 1024 % 2 == 1

/-- A register's value at reset: the reset values of its fields; SL_VI_QUOTA is 0 for every interface but 0 (Table 11.8), and
an identity register holds its own number (Table 2.9). Irreducible, so that no proof reads the whole register table to see a field. -/
@[irreducible] def resetWord (key : Nat) : Word :=
  let off := key % instStride
  if off = Reg.SL_VI_QUOTA ∧ key ≥ instStride then 0
  else match descOf off with
    | none => 0
    | some d => d.fields.foldl (fun w f => putBits w f.fld.lo f.fld.len f.reset) 0

/-- A register's stored value. -/
def State.regAt (s : State) (key : Nat) : Word := s.regs.get (resetWord key) key

/-- Store a register's value. -/
def State.regPut (s : State) (key : Nat) (w : Word) : State :=
  { s with regs := s.regs.set (resetWord key) key w }

/-- A field's value, `d` the seat, unit, array and instance part of the key. -/
def State.getF (s : State) (f : Fld) (d : Nat := 0) : Nat := getBits (s.regAt (f.reg + d)) f.lo f.len

/-- Set a field. -/
def State.setF (s : State) (f : Fld) (v : Nat) (d : Nat := 0) : State :=
  s.regPut (f.reg + d) (putBits (s.regAt (f.reg + d)) f.lo f.len v)

/-- Advance a counter field; it wraps at its width. -/
def State.bump (s : State) (f : Fld) (n : Nat := 1) (d : Nat := 0) : State := s.setF f (s.getF f d + n) d

/-- Set one bit of a field. -/
def State.setBit (s : State) (f : Fld) (i : Nat) (b : Bool) (d : Nat := 0) : State :=
  let v := s.getF f d
  s.setF f (if b then (if natBit v i then v else v + 2 ^ i) else (if natBit v i then v - 2 ^ i else v)) d

/-- A one-bit field as a truth value. -/
def State.flag (s : State) (f : Fld) (d : Nat := 0) : Bool := s.getF f d == 1

/-- Something sent. -/
def State.emit (s : State) (o : Output) : State := { s with out := o :: s.out }

/-- A free value: one the manual leaves undefined or random; the counter advances, so each is fresh (log 2). -/
def State.takeFree (s : State) : Word × State := (Config.freeWord s.fresh, { s with fresh := s.fresh + 1 })

/-- A random draw of the part's random source (log 12). -/
def State.takeRandom (s : State) : Nat × State := ((Config.randomDraw s.fresh).toNat, { s with fresh := s.fresh + 1 })

/-- Virtual interface `n`'s limits at reset (R436): VI 0 owns every ring, every other interface nothing. -/
def viReset (n : Nat) : ViSt :=
  if n = 0 then
    { enabled := true, ringFirst := 0, ringCount := 8192, ctxMax := 256, prioMax := 7, tsMax := none, ssMax := none,
      brMax := none, weightMax := none }
  else {}

/-! Typed stores by key. -/

/-- A virtual interface. -/
def State.vi (s : State) (n : Nat) : ViSt := s.vis.get (viReset n) n
/-- Store a virtual interface. -/
def State.setVi (s : State) (n : Nat) (v : ViSt) : State := { s with vis := s.vis.set (viReset n) n v }
/-- A context. -/
def State.ctx (s : State) (c : Nat) : CtxSt := s.ctxs.get {} c
/-- Store a context. -/
def State.setCtx (s : State) (c : Nat) (v : CtxSt) : State := { s with ctxs := s.ctxs.set {} c v }
/-- A ring. -/
def State.ring (s : State) (r : Nat) : RingSt := s.rings.get {} r
/-- Store a ring. -/
def State.setRing (s : State) (r : Nat) (v : RingSt) : State := { s with rings := s.rings.set {} r v }
/-- A Start List entry. -/
def State.entry (s : State) (i : Nat) : Entry := s.entries.get {} i
/-- Store an entry. -/
def State.setEntry (s : State) (i : Nat) (e : Entry) : State := { s with entries := s.entries.set {} i e }
/-- What the module holds of a request beside its entry. -/
def State.req (s : State) (i : Nat) : ReqSt := s.reqs.get {} i
/-- Store it. -/
def State.setReq (s : State) (i : Nat) (r : ReqSt) : State := { s with reqs := s.reqs.set {} i r }
/-- A unit. -/
def State.unit (s : State) (u : Nat) : UnitSt := s.units.get {} u
/-- Store a unit. -/
def State.setUnit (s : State) (u : Nat) (v : UnitSt) : State := { s with units := s.units.set {} u v }
/-- Key of a plane of a unit. -/
def planeKey (u p : Nat) : Nat := u * 8 + p
/-- A plane of a unit. -/
def State.plane (s : State) (u p : Nat) : Plane := s.planes.get {} (planeKey u p)
/-- Store a plane. -/
def State.setPlane (s : State) (u p : Nat) (v : Plane) : State := { s with planes := s.planes.set {} (planeKey u p) v }
/-- Key of a port of a plane of a unit. -/
def portKey (u p n : Nat) : Nat := (u * 8 + p) * 16 + n
/-- An input port. -/
def State.inPort (s : State) (u p n : Nat) : PortSt := s.inPorts.get {} (portKey u p n)
/-- Store an input port. -/
def State.setInPort (s : State) (u p n : Nat) (v : PortSt) : State :=
  { s with inPorts := s.inPorts.set {} (portKey u p n) v }
/-- An output port. -/
def State.outPort (s : State) (u p n : Nat) : PortSt := s.outPorts.get {} (portKey u p n)
/-- Store an output port. -/
def State.setOutPort (s : State) (u p n : Nat) (v : PortSt) : State :=
  { s with outPorts := s.outPorts.set {} (portKey u p n) v }
/-- A line of a unit's operand store. -/
def State.opLine (s : State) (u l : Nat) : OpLine := s.ops.get {} (u * 4096 + l)
/-- Store a line of a unit's operand store. -/
def State.setOpLine (s : State) (u l : Nat) (v : OpLine) : State := { s with ops := s.ops.set {} (u * 4096 + l) v }
/-- A rig. -/
def State.rig (s : State) (r : Nat) : RigSt := s.rigs.get {} r
/-- Store a rig. -/
def State.setRig (s : State) (r : Nat) (v : RigSt) : State := { s with rigs := s.rigs.set {} r v }
/-- A seat's power state. -/
def State.seat (s : State) (n : Nat) : SeatPwr := s.seats.get {} n
/-- Store it. -/
def State.setSeat (s : State) (n : Nat) (v : SeatPwr) : State := { s with seats := s.seats.set {} n v }
/-- A seat's switch. -/
def State.switch (s : State) (k : Nat) : SwitchSt := s.switches.get {} k
/-- Store a switch. -/
def State.setSwitch (s : State) (k : Nat) (v : SwitchSt) : State := { s with switches := s.switches.set {} k v }

end Sys2Proof.Machine
end

