-- ==== Sys2Proof/Machine/Ops.lean ====
section
/-! DEFINITION. The operations every family shares: memory by byte and line with poison, records to hosts, the twin's records,
the logbook's buffer, the end of a request, the halt of a ring, the teardown of a context (Table 15.12a) and the fence (R501). -/

namespace Sys2Proof.Machine

/-! ### Memory (R21, R35, R219, R603) -/

/-- A byte of the module's memory; what nothing has written reads as zero (R219). -/
def State.byteAt (s : State) (a : Nat) : Byte := SMap.get 0 s.mem a

/-- Store a byte; a zero removes the entry, so equal memories are equal lists. -/
def memPut (m : List Host.Cell) (a : Nat) (b : Byte) : List Host.Cell := SMap.set 0 m a b

/-- Store bytes from `a` upward. -/
def memPuts : List Host.Cell → Nat → List Byte → List Host.Cell
  | m, _, [] => m
  | m, a, b :: r => memPuts (memPut m a b) (a + 1) r

/-- `n` bytes from `a` upward. -/
def State.bytesAt (s : State) (a n : Nat) : List Byte := (List.range n).map fun i => s.byteAt (a + i)

/-- The memory line that holds a byte. -/
def lineOf (a : Nat) : Nat := a / 64

/-- Whether a line is poisoned. -/
def State.poisonAt (s : State) (a : Nat) : Bool := s.memPoison.get false (lineOf a)

/-- A line's 64 bytes as one number, first byte least significant. -/
def State.lineAt (s : State) (a : Nat) : Line := BitVec.ofNat 512 (leNat (s.bytesAt (lineOf a * 64) 64))

/-- The unsigned number in the `n` bytes at `a`. -/
def State.numAt (s : State) (a n : Nat) : Nat := leNat (s.bytesAt a n)

/-- Write a whole line: its poison becomes the flag given (R603). -/
def State.putLine (s : State) (a : Nat) (d : Line) (poison : Bool) : State :=
  { s with
    mem := memPuts s.mem (lineOf a * 64) (leBytes 64 d.toNat)
    memPoison := s.memPoison.set false (lineOf a) poison }

/-- Write part of a line: a poisoned line stays poisoned (R603). -/
def State.putPart (s : State) (a : Nat) (bs : List Byte) : State := { s with mem := memPuts s.mem a bs }

/-- Write a whole line with its format tag (R68). -/
def State.putTagged (s : State) (a : Nat) (d : Line) (poison : Bool) (tag : Nat) : State :=
  let s := s.putLine a d poison
  { s with memTag := s.memTag.set 0 (lineOf a) tag }

/-- Write bytes at `a`: lines covered wholly lose their poison, lines covered in part keep it (R603). -/
def State.putBytes (s : State) (a : Nat) (bs : List Byte) : State :=
  let first := (a + 63) / 64
  let last := (a + bs.length) / 64
  let s := s.putPart a bs
  { s with memPoison := s.memPoison.filter fun p => !(decide (first ≤ p.1) && decide (p.1 < last)) }

/-- Zero-fill a range of whole lines (R219). -/
def State.zeroRange (s : State) (a n : Nat) : State :=
  { s with
    mem := s.mem.filter fun p => !(decide (a ≤ p.1) && decide (p.1 < a + n))
    memPoison := s.memPoison.filter fun p => !(decide (a / 64 ≤ p.1) && decide (p.1 < (a + n) / 64))
    memTag := s.memTag.filter fun p => !(decide (a / 64 ≤ p.1) && decide (p.1 < (a + n) / 64)) }

/-- Any line of a range poisoned. -/
def State.anyPoison (s : State) (a n : Nat) : Bool :=
  s.memPoison.any fun p => p.2 && decide (a / 64 ≤ p.1) && decide (p.1 * 64 < a + n)

/-! ### Performance counters (R561) -/

/-- Count an event of Table 19.7 on every counter programmed for it; a counter with CTX_EN counts only its context's events,
and events that carry no context ignore the filter. -/
def State.pmc (s : State) (ev n : Nat) (ctx : Option Nat) : State :=
  (List.range 16).foldl (fun s k =>
    let d := 16 * k
    let sameCtx := match ctx with
      | some c => !s.flag .PMC_SEL_CTX_EN d || s.getF .PMC_SEL_CTX d == c
      | none => true
    if s.getF .PMC_SEL_EVENT d == ev && ev != 0 && sameCtx then s.bump .PMC_COUNT n d else s) s

/-! ### Identity and pair -/

/-- This module's identifier (FAB_ID). -/
def State.self (s : State) : Nat := s.getF .FAB_ID_MODULE_ID

/-- The pair state of Table 17.1, as TWIN_STATUS codes it. -/
def State.pairState (s : State) : Nat := s.getF .TWIN_STATUS_STATE

/-- Fenced (R501). -/
def State.fenced (s : State) : Bool := s.pairState == 6

/-- Records go to the twin: JOINING without a mismatch, ACTIVE or DETACHING (R488, R494, R499). -/
def State.mirroring (s : State) : Bool := (s.pairState == 1 && !s.twin.mismatch) || s.pairState == 2 || s.pairState == 5

/-- A module of the pair serves as an unpaired one: UNPAIRED, SPLIT or SURVIVOR, or JOINING with a mismatch (R488, R507). -/
def State.unpaired (s : State) : Bool :=
  s.pairState == 0 || s.pairState == 3 || s.pairState == 4 ||
    (s.pairState == 1 && s.twin.mismatch) || (s.pairState == 6 && s.getF .TWIN_ID_PAIR_EN == 0)

/-- Members of a slice. -/
def State.sliceOf (s : State) (sl : Nat) : List Nat := s.slices.get [] sl

/-- A spanning context whose slice holds both modules of the pair (R490). -/
def State.pairCtx (s : State) (c : Nat) : Bool :=
  let x := s.ctx c
  x.span && (s.sliceOf x.slice).contains (s.getF .TWIN_ID_PEER)

/-- A context is mirrored when it spans a slice that holds both modules of an ACTIVE or DETACHING pair (R490), or of one whose resync has
sent the entries that stand (R508). -/
def State.mirrored (s : State) (c : Nat) : Bool :=
  (s.pairState == 2 || s.pairState == 5 || (s.mirroring && s.twin.began)) && s.pairCtx c

/-- A write request to another module (R29, R197, R368): its tag waits for the acknowledgement. Arguments: address, tag, context, generation, poison,
job, request handle, bytes. -/
def State.sendWrite (s : State) (a c va : Nat) (poison : Bool) (bs : List Nat) (gen : Nat := 0) (job : Nat := 0) (handle : Nat := 0) : State :=
  let t := s.fab.nextTag
  let s := { s with fab := { s.fab with
      nextTag := (t + 1) % 65536
      writes := s.fab.writes ++ [({ tag := t, dest := a / 2 ^ 45, ctx := c, va := va, at_ := s.now } : RemoteWrite)] } }
  s.emit (.message "WR_REQ" (a / 2 ^ 45) (a :: t :: c :: gen :: bit poison :: job :: handle :: bs))

/-- KIND of a twin record by its name (Table 17.3); the names of CONTROL's codes are records of kind 7. -/
def twinKind (name : String) : Nat :=
  if name = "ENTRY" then 1 else if name = "ADMIT_DATA" then 2 else if name = "TOKENS" then 3 else if name = "MIRROR_MAP" then 4
  else if name = "CKPT" then 5 else if name = "HEARTBEAT" then 6 else if name = "HOLD" then 8 else if name = "VERSIONS" then 9 else 7

/-- A twin record: the 32-byte header, CRC-32C over its bytes 0 to 27 and the body, then the body (Table 17.2). -/
def twinBytes (kind flags seq handle sender ctx ack : Nat) (body : List Nat) : List Nat :=
  let head := packBytes [(4, 0x4E495754), (1, kind), (1, flags), (2, body.length), (4, seq), (4, handle), (2, sender % 2 ^ 15), (1, ctx), (1, 0), (4, ack), (4, 0)]
  head ++ packBytes [(4, crc32c (head ++ body))] ++ body

/-- The body of a CONTROL record: CODE and eight bytes of argument (Table 17.3). -/
def controlBody (code arg : Nat) : List Nat := packBytes [(2, code), (8, arg)]

/-- Send a twin record (R492): SEQ advances, and one that waits for its acknowledgement is held unacknowledged. The bytes of the record are sent. -/
def State.sendTwin (s : State) (kind : String) (sync : Bool) (handle ctx : Nat) (body : List Nat) (more : Bool := false) : State :=
  let seq := (s.getF .TWIN_SEQ_TX + 1) % 2 ^ 32
  let s := s.setF .TWIN_SEQ_TX seq
  let s := s.bump .TWIN_RECORDS_COUNT
  let s := { s with twin := { s.twin with lastSent := s.now, unacked := if sync then s.twin.unacked ++ [(seq, s.now)] else s.twin.unacked } }
  s.emit (.message kind (s.getF .TWIN_ID_PEER) (twinBytes (twinKind kind) (bit sync + 2 * bit more) seq handle s.self ctx s.twin.rxSeq body))

/-- TOKENS records for positions from `first` on, at most 1,014 to a record (Table 17.3). -/
def State.sendTokens (s : State) (handle ctx first : Nat) (ids : List Nat) : State :=
  (List.range ((ids.length + 1013) / 1014)).foldl (fun s k =>
    let part := (ids.drop (1014 * k)).take 1014
    s.sendTwin "TOKENS" true handle ctx (packBytes ([(4, first + 1014 * k), (4, part.length)] ++ part.map fun t => (4, t))) true) s

/-- An ENTRY record: the 128-byte image (R492, Table 11.1). -/
def State.sendEntry (s : State) (handle : Nat) (e : Entry) : State := s.sendTwin "ENTRY" true handle e.a.ctx (entryBytes e)

/-- Send an entry's image when its context is mirrored and the pair mirrors (R317, R494); MIRROR_SEQ then advances. -/
def State.mirrorEntry (s : State) (i : Nat) : State :=
  let e := s.entry i
  if s.mirrored e.a.ctx then
    let e := { e with b := { e.b with mirrorSeq := (s.getF .TWIN_SEQ_TX + 1) % 2 ^ 32 } }
    (s.setEntry i e).sendEntry (e.a.gen * 2 ^ 14 + i) e
  else s

/-- Bytes with their CRC-32C after them. -/
def withCrc (bs : List Nat) : List Nat := bs ++ packBytes [(4, crc32c bs)]

/-- The latched sampling block (Table 12.1). -/
def SampBlk.bytes (p : SampBlk) : List Nat :=
  withCrc (packBytes [(8, p.seed), (4, p.temperature), (4, p.topP), (4, p.minP), (2, p.topK), (1, bit p.penInput), (1, p.stops.length), (4, p.repetition),
    (4, p.frequency), (4, p.presence), (4, 0), (8, p.stopAddr), (12, 0)])

/-- The grammar record with the state now reached (Table 12.4, R352). -/
def Grammar.bytes (g : Grammar) (vocab : Nat) : List Nat :=
  withCrc (packBytes [(1, g.kind), (1, bit g.eosOk), (2, 0), (4, g.state), (8, g.tableAddr), (4, vocab), (40, 0)])

/-- An entry of the stop table (R342). -/
def stopBytes (ids : List Nat) : List Nat := (packBytes ((4, ids.length) :: ids.map fun t => (4, t)) ++ List.replicate 60 0).take 64

/-- The body of ADMIT_DATA: the latched sampling block, the grammar record or zeros, the stop table (Table 17.3). -/
def admitBody (e : Entry) (r : ReqSt) (vocab : Nat) : List Nat :=
  r.samp.bytes ++ (if e.a.constrained then r.grammar.bytes vocab else List.replicate 64 0) ++ r.samp.stops.flatMap stopBytes

/-- Records of a whole request: ADMIT_DATA, TOKENS, ENTRY (R494). -/
def State.sendRequest (s : State) (i : Nat) (e : Entry) (r : ReqSt) : State :=
  let h := e.a.gen * 2 ^ 14 + i
  let vocab := ((s.wpkg.versions.find? fun v => v.id == e.b.version).map (·.vocab)).getD 0
  let s := s.sendTwin "ADMIT_DATA" true h e.a.ctx (admitBody e r vocab) true
  (s.sendTokens h e.a.ctx 0 r.tokens).sendEntry h e

/-! ### Logbook (R563, R566) -/

/-- Kinds that the rate cap does not touch: BOOT, ALARM, PAIR, FINAL, ORDER (R566). -/
def logUncapped (k : Nat) : Bool := k == 1 || k == 4 || k == 7 || k == 8 || k == 9

/-- Calendar seconds (R564): 0 while the clock is not valid. -/
def State.calendar (s : State) : Nat :=
  match s.log.calBase with
  | none => 0
  | some _ => s.now / 1000000000 - s.board.utcOffset

/-- Hand a record to the Keel (R562, R566): capped kinds past 64 in a second, and any record finding 512 buffered, are counted and
not written. -/
def State.logRec (s : State) (kind : Nat) (body : List Nat) : State :=
  let sec := s.now / 1000000000
  let accepted := if sec = s.log.second then s.log.accepted else 0
  if (!logUncapped kind && decide (accepted ≥ 64)) || decide (s.log.buffered.length ≥ 512) then
    let s := s.bump .LOG_SUPPRESSED_COUNT
    { s with log := { s.log with suppressed := SMap.modify 0 s.log.suppressed kind (· + 1) } }
  else
    let r : LogRec := { seq := s.log.nextSeq, powerOn := s.getF .LOG_POWER_ON_S_S, calendar := s.calendar,
                        calValid := s.log.calBase.isSome, deferred := false, kind := kind, body := body }
    { s with log := { s.log with
        buffered := s.log.buffered ++ [r]
        nextSeq := s.log.nextSeq + 1
        second := sec
        accepted := if logUncapped kind then accepted else accepted + 1 } }

/-! ### Signals (Table 20.6) and monitoring events (R593) -/

/-- Drive MOD_FAULT_N; SIDEBAND shows its level. -/
def State.faultPin (s : State) (level : Bool) : State := (s.setBit .SIDEBAND_LEVELS 6 level).emit (.pin "MOD_FAULT_N" level)

/-- A PlatformEventMessage to the I3C bus owner: 0 an alarm's state, 1 READY, 2 the pair state, and the new value (R593). -/
def State.pldmEvent (s : State) (what v : Nat) : State := s.emit (.message "PLDM_EVENT" 0 [what, v])

/-- Set or clear HOSTVI_DEV_STATUS.READY. -/
def State.setReady (s : State) (b : Bool) : State :=
  if s.flag .HOSTVI_DEV_STATUS_READY == b then s else (s.setF .HOSTVI_DEV_STATUS_READY (bit b)).pldmEvent 1 (bit b)

/-- The body of a PAIR record (Table 19.9a): old and new state, peer, entries rebuilt. -/
def pairBody (old new peer n : Nat) : List Nat := packBytes [(1, old), (1, new), (2, peer), (2, n)]

/-! ### Rings and completion records (R438-R443, R453) -/

/-- The key part of ring `r`'s frame (Table 15.3). -/
def ringOff (r : Nat) : Nat := r * 0x200
/-- A ring's STATE: 0 DISABLED, 1 ACTIVE, 2 HALTED. -/
def State.ringState (s : State) (r : Nat) : Nat := s.getF .RING_STATUS_STATE (ringOff r)
/-- A ring's slots. -/
def State.ringSlots (s : State) (r : Nat) : Nat := 2 ^ s.getF .RING_CFG_LOG2 (ringOff r)
/-- Records or commands held between head and tail. -/
def State.ringHeld (s : State) (r : Nat) : Nat :=
  (s.getF .RING_IDX_TAIL (ringOff r) + s.ringSlots r - s.getF .RING_IDX_HEAD (ringOff r)) % s.ringSlots r
/-- Room left: one slot always stays empty (R438). -/
def State.ringFree (s : State) (r : Nat) : Nat := s.ringSlots r - 1 - s.ringHeld r

/-- The virtual interface that owns a ring (R436): the enabled one whose range holds it. -/
def State.ownerVi (s : State) (r : Nat) : Option Nat :=
  (List.range 256).find? fun n =>
    let v := s.vi n
    v.enabled && decide (v.ringFirst ≤ r) && decide (r < v.ringFirst + v.ringCount)

/-- Raise a ring's MSI-X vector (R440). -/
def State.ringIrq (s : State) (r : Nat) : State :=
  let s := s.emit (.msix ((s.ownerVi r).getD 0) (s.getF .RING_CFG_VECTOR (ringOff r)))
  s.setRing r { s.ring r with lastIrq := s.now, newSince := false }

/-- After records are written: the tail to the shadow, then the vector when ITR_US is 0 (R440). -/
def State.ringWritten (s : State) (r n : Nat) : State :=
  let t := (s.getF .RING_IDX_TAIL (ringOff r) + n) % s.ringSlots r
  let s := s.setF .RING_IDX_TAIL t (ringOff r)
  let s := s.emit (.shadow r (s.getF .RING_SHADOW_ADDR (ringOff r)) t)
  let s := s.setRing r { s.ring r with newSince := true }
  if s.getF .RING_CFG_ITR_US (ringOff r) = 0 then s.ringIrq r else s

/-- A record no command or request reserved a slot for: a notice of a teardown or a takeover (R443, R453). -/
def ComplRec.isNotice (r : ComplRec) : Bool := decide (3 ≤ r.kind)

/-- Kept records that still own the reservation they were kept with (R443). -/
def State.keptReserved (s : State) (cq : Nat) : Nat := ((s.ring cq).kept.filter fun r => !r.isNotice).length

/-- Unreserved records of a CQ; one more stays reserved for CONTEXT_END notices (R443). -/
def State.cqRoom (s : State) (cq : Nat) : Nat := s.ringFree cq - (s.ring cq).reserved - s.keptReserved cq - 1

/-- An ACTIVE CQ has a slot for the record: a notice takes none that a command or a request reserved (R443). -/
def State.recordFits (s : State) (cq : Nat) (r : ComplRec) : Bool :=
  s.ringState cq == 1 && decide ((if r.isNotice then (s.ring cq).reserved + s.keptReserved cq else 0) < s.ringFree cq)

/-- Write a record, with the submitting ring's fetch head as it stands (Table 15.11a). -/
def State.writeRecord (s : State) (cq : Nat) (r : ComplRec) : State :=
  (s.emit (.record cq (if r.kind = 1 then { r with sqHead := (s.ring r.sq).fetchHead } else r))).ringWritten cq 1

/-- Write a completion record to a CQ, or keep it while the CQ is not ACTIVE or has no room (R443); a notice that waits holds up no reserved record. -/
def State.postRecord (s : State) (cq : Nat) (r : ComplRec) : State :=
  if s.fenced then s
  else if s.recordFits cq r && (s.ring cq).kept.all fun k => k.isNotice && !r.isNotice then s.writeRecord cq r
  else s.setRing cq { s.ring cq with kept := (s.ring cq).kept ++ [r] }

/-- Write kept records of an ACTIVE CQ, in their order, while there is room (R443). -/
def State.flushKept (s : State) (cq : Nat) : State :=
  let kept := (s.ring cq).kept
  kept.foldl (fun (s : State) (r : ComplRec) =>
    let s := s.setRing cq { s.ring cq with kept := (s.ring cq).kept.drop 1 }
    if s.recordFits cq r then s.writeRecord cq r else s.setRing cq { s.ring cq with kept := (s.ring cq).kept ++ [r] }) s

/-- Opcodes whose header CTX is ignored (Table 15.5). -/
def noCtxOpcode (op : Nat) : Bool :=
  op == 0x00 || op == 0x10 || op == 0x13 || op == 0x70 || op == 0x41 || op == 0x42

/-- The context a completion record concerns (Tables 15.5, 15.11a, R456): the one CTX_CREATE created, the one CTX_ATTACH names, none for the
opcodes that concern none, the header's for the rest (log 33). -/
def Cmd.recordCtx (c : Cmd) (status value : Nat) : Nat :=
  if c.opcode == 0x10 then (if status == 0 then value else 0)
  else if c.opcode == 0x13 then natBits (packBits (c.desc.map fun w => (64, w.toNat))) 256 8
  else if noCtxOpcode c.opcode then 0 else c.ctx

/-- The job a completion record carries: ADMIT ignores the header's JOB (Tables 15.5, 15.11a; log 33). -/
def Cmd.recordJob (c : Cmd) : Nat := if c.opcode == 0x50 then 0 else c.job

/-- Free a reservation on a CQ. -/
def State.unreserve (s : State) (cq : Nat) : State :=
  s.setRing cq { s.ring cq with reserved := (s.ring cq).reserved - 1 }

/-- Statuses of completed sequences that a mark or AFTER_PREV may still ask for (R447, R448). -/
def RingSt.remembers (g : RingSt) (fetched q : Nat) : Bool :=
  q / 2 ^ 48 == g.session && (decide (fetched < q % 2 ^ 48 + 4096) || g.waiting.any fun x => x.seq == q + 1)

/-- Complete a fetched command: its status is kept for marks (R448), its record goes to the CQ that holds its reservation (R453); IRQ_NOW raises the
vector whatever ITR_US says. -/
def State.complete (s : State) (c : Cmd) (status value handle : Nat) : State :=
  let g := s.ring c.ring
  let cq := c.cq
  let n := s.getF .RING_SEQ_FETCHED (ringOff c.ring)
  let s := s.setRing c.ring { g with
    waiting := g.waiting.filter (fun x => x.seq != c.seq)
    outstanding := g.outstanding.filter (fun x => x.seq != c.seq)
    completed := ((c.seq, status) :: g.completed).filter fun p => g.remembers n p.1 }
  let s := s.unreserve cq
  let s := s.postRecord cq
    { kind := 1, status := status, sq := c.ring, sqHead := g.fetchHead, opcode := c.opcode, tag := c.tag,
      handle := handle, endCode := 0, ctx := c.recordCtx status value, job := c.recordJob, value := value }
  if natBit c.flags 0 ∧ s.ringState cq = 1 then s.ringIrq cq else s

/-- Status ABORTED (Table 15.9). -/
def stAborted : Nat := 0xE6

/-- A rig run that ends without launching leaves the engines: nothing more is fetched ahead for it, and what is staged is discarded (R240, R241). -/
def State.dropRun (s : State) (c : Cmd) : State :=
  let ids := (s.streams.cmds.filter fun k => k.cmd == some (c.ring, c.seq) && !k.launched).map (·.id)
  { s with streams := { s.streams with
      cmds := s.streams.cmds.filter fun k => !ids.contains k.id
      insts := (s.streams.insts.map fun (x : StreamInst) => if ids.contains x.cmd then { x with void := true } else x).filter fun x =>
        !x.void || x.reqs.any fun r => !r.landed } }

/-- Complete commands ABORTED. -/
def State.abortCmds (s : State) (cs : List Cmd) : State := cs.foldl (fun s c => (s.dropRun c).complete c stAborted 0 0) s

/-- Halt a ring (R444): fetched commands not yet launched complete ABORTED. -/
def State.haltRing (s : State) (r code : Nat) : State :=
  let s := s.abortCmds (s.ring r).waiting
  (s.setF .RING_STATUS_STATE 2 (ringOff r)).setF .RING_STATUS_HALT_CODE code (ringOff r)

/-! ### Requests (R318, R328, R453) -/

/-- A request's handle (R19): index and generation. -/
def handleOf (i gen : Nat) : Nat := gen * 2 ^ 14 + i

/-- Handling of a scope ends (R546). -/
def State.endHandling (s : State) (sc : Scope) : State :=
  { s with err := { s.err with handling := s.err.handling.filter (fun p => p.1 != sc) } }

/-- Post REQUEST_END (R453), once; the request's handling window ends (R546). -/
def State.postEnd (s : State) (i : Nat) : State :=
  let e := s.entry i
  let r := s.req i
  if r.endPosted then s
  else
    let s := s.setReq i { r with endPosted := true, endDue := false, unposted := [] }
    -- a rebuilt request reserves its end record with its takeover notice (log 112)
    let s := if r.takeoverNotice then s else s.unreserve e.b.complRing
    let s := s.postRecord e.b.complRing
      { kind := 2, status := 0, sq := 0, sqHead := 0, opcode := 0, tag := e.b.hostTag,
        handle := handleOf i e.a.gen, endCode := e.b.endCode, ctx := e.a.ctx, job := 0, value := e.a.curLen }
    s.endHandling (.request (handleOf i e.a.gen))

/-- A request enters a final state, once (R318): counters and END_CODE; its end record is due. -/
def State.setEnd (s : State) (i : Nat) (st : ReqState) (code : Nat) : State :=
  let e := s.entry i
  if e.a.state = .free ∨ e.a.state.final = true then s
  else
    let s := s.setEntry i { a := { e.a with state := st, held := false, cancelPend := false, pausePend := false },
                            b := { e.b with endCode := code } }
    let s := s.setReq i { s.req i with endDue := true, sampled := none, inStep := false }
    match st with
    | .done => s.bump .SL_DONE_COUNT
    | .cancelled => s.bump .SL_CANCELLED_COUNT
    | _ => s.bump .SL_FAILED_COUNT

/-- The entries that are not FREE, by index. -/
def State.liveEntries (s : State) : List Nat := (s.entries.filter fun p => p.2.a.state != .free).map (·.1)

/-- The entry a handle names, when its generation matches and it is not FREE (R313). -/
def State.findHandle (s : State) (h : Nat) : Option Nat :=
  let i := h % 2 ^ 14
  let e := s.entry i
  if e.a.state ≠ .free ∧ e.a.gen = h / 2 ^ 14 then some i else none

/-! ### Contexts -/

/-- Streams of a context are voided (R243, R244): no request is issued for them; those in flight complete into voided buffers. -/
def State.voidStreams (s : State) (c : Nat) : State :=
  { s with streams := { s.streams with
      cmds := s.streams.cmds.filter (fun x => x.ctx != c)
      insts := (s.streams.insts.map (fun x => if x.ctx = c then { x with void := true } else x)).filter
        (fun x => !x.void || x.reqs.any (fun r => !r.landed))
      rings := s.streams.rings.filter (fun g => g.ctx != c) } }

/-- Clear a slot-table entry (R135), by register key; DOWN stays. -/
def State.clearSlot (s : State) (key : Nat) : State :=
  s.regPut key (BitVec.ofNat 64 ((s.regAt key).toNat &&& 0x4000))

/-- What a unit holds once the entries in flight of some planes (by key) are gone: their engines are free, their pass and its result buffer too. -/
def UnitSt.without (x : UnitSt) (u : Nat) (mine : List Nat) : UnitSt :=
  let gone := fun (p : Nat) => mine.contains (planeKey u p)
  { x with
    inflight := x.inflight.filter fun f => !gone f.plane
    pass := x.pass.filter fun a => !gone a.plane
    resBuf := x.resBuf.filter fun i => !(x.inflight.any fun f => f.id == i && gone f.plane) }

/-- Every plane of the context is invalidated by an epoch bump, its entries in flight go; its waves end and its circuits are released (Table 6.12). -/
def State.dropPlanes (s : State) (c : Nat) : State :=
  let mine := (s.planes.filter fun p => p.2.valid && p.2.ctx == c).map (·.1)
  let s := { s with
    units := s.units.map fun (p : Nat × UnitSt) => (p.1, p.2.without p.1 mine)
    inPorts := s.inPorts.filter fun q => !mine.contains (q.1 / 16)
    outPorts := s.outPorts.filter fun q => !mine.contains (q.1 / 16) }
  let s := { s with planes := s.planes.map fun (p : Nat × Plane) =>
    if p.2.valid && p.2.ctx == c then
      (p.1, { p.2 with valid := false, epoch := (p.2.epoch + 1) % 16, inRun := false, wavePend := false, eligible := false,
                       idleReady := false, idle := 0 })
    else p }
  -- groups still in the slot tables close after their source link has been quiet (R135)
  let close := fun (g : RigSt) =>
    { g with closing := true, state := 0, planes := [], circuits := [], streams := [], windows := [], folds := [], tab := [],
             groups := (g.groups.filter fun k => k.written && !k.carried).map fun (k : SlotGroup) =>
               { k with quietSince := (s.switches.get {} k.swKey).stroke } }
  { s with
    rigs := (s.rigs.map fun (p : Nat × RigSt) => if p.2.ctx == c && !p.2.closing then (p.1, close p.2) else p).filter
      fun p => !(p.2.closing && p.2.groups == [])
    fab := { s.fab with segs := s.fab.segs.filter fun x => x.ctx != c }
    waves := s.waves.filter fun w => w.ctx != c }

/-- Frames of the context go to SCRUB, table frames with them, but SHARED frames another context still maps; SHARED frames whose last mapper it was
follow (R219). Its entries, cached translations, migrations and held writes go. -/
def State.scrubFrames (s : State) (c : Nat) : State :=
  let pt := s.tiers.pt.filter fun p => p.2.ctx != c
  let mapped := fun (a : Nat) => pt.any fun p =>
    p.2.valid && p.2.leaf && p.2.addr / 2 ^ 45 == s.self && decide (p.2.addr % 2 ^ 45 ≤ a) &&
      decide (a < p.2.addr % 2 ^ 45 + (if p.2.big then 0x200000 else 0x10000))
  let goes := fun (p : Nat × FrameTag) =>
    if p.2.shared && p.2.kind == 1 then !mapped (p.1 * 65536) else p.2.ctx == c && (p.2.kind == 1 || p.2.kind == 2)
  { s with tiers := { s.tiers with
      frames := s.tiers.frames.map fun p => if goes p then (p.1, { p.2 with kind := 4 }) else p
      pt := pt
      migs := s.tiers.migs.filter fun m => m.ctx != c
      held := s.tiers.held.filter fun w => w.ctx != c
      walks := s.tiers.walks.filter fun t => t.ctx != c
      tlb := s.tiers.tlb.filter fun t => t.ctx != c } }

/-- A context has a frame in SCRUB (R219). -/
def State.inScrub (s : State) (c : Nat) : Bool := s.tiers.frames.any fun p => p.2.kind == 4 && p.2.ctx == c

/-- A context's roots are invalidated, a swap of them is dropped and its usage returned (Table 15.12a step 5). -/
def State.dropRoots (s : State) (c : Nat) : State :=
  let s := { s with tiers := { s.tiers with swapOld := s.tiers.swapOld.filter fun p => p.1 != c
                                            rootWait := s.tiers.rootWait.filter fun p => p.1 != c
                                            offers := s.tiers.offers.filter fun o => o.1 != c } }
  let s := s.setF .TIERS_CTX_CTRL_VALID 0 (inst c)
  let s := s.setF .TIERS_CTX_CTRL_SWAP_PEND 0 (inst c)
  let s := s.setF .TIERS_CTX_CTRL_SCRUBBING (bit (s.inScrub c)) (inst c)
  let s := s.setF .TIERS_CTX_USE_TS_UNITS 0 (inst c)
  let s := s.setF .TIERS_CTX_USE_SS_UNITS 0 (inst c)
  let s := s.setF .TIERS_CTX_USE_BR_UNITS 0 (inst c)
  let s := s.setF .TIERS_CTX_ROOT0_ROOT 0 (inst c)
  s.setF .TIERS_CTX_ROOT1_ROOT 0 (inst c)

/-- The context's versions pass to FREEING at once, its loads go (Table 16.8); the version table flips. -/
def State.dropVersions (s : State) (c : Nat) : State :=
  if s.wpkg.versions.any (fun (v : Version) => v.ctx == c) then
    let frames := fun (v : Version) => (s.tiers.pt.filter fun p =>
        p.2.valid && p.2.leaf && p.2.ctx == c && v.pages.contains p.2.va && p.2.addr / 2 ^ 45 == s.self).flatMap fun p =>
      (List.range (if p.2.big then 32 else 1)).map fun i => p.2.addr % 2 ^ 45 / 65536 + i
    let free := fun (v : Version) => if v.ctx == c then { v with state := if v.state == 1 || frames v == [] then 0 else 4, frames := frames v, pages := [] } else v
    let vs := (s.wpkg.versions.map free).filter fun (v : Version) => v.state != 0
    let s := { s with wpkg := { s.wpkg with
        versions := vs
        live := s.wpkg.live.filter fun (p : Nat × Nat) => vs.any fun (v : Version) => v.id == p.2
        loads := s.wpkg.loads.filter fun (l : LoadSt) => vs.any fun (v : Version) => v.id == l.ver } }
    let s := s.setF .WPKG_STATUS_GEN ((s.getF .WPKG_STATUS_GEN + 1) % 2)
    let s := s.setF .WPKG_STATUS_LOADS s.wpkg.loads.length
    s.setF .WPKG_STATUS_RESIDENT (s.wpkg.versions.filter fun (v : Version) => v.state == 2 || v.state == 3).length
  else s

/-- Keys, instances and frames of a context go with it (R407, Table 14.6). -/
def State.dropColl (s : State) (c : Nat) : State :=
  { s with coll := {
      keys := s.coll.keys.filter fun (k : CollKey) => k.ctx != c
      insts := s.coll.insts.filter fun (x : CollInst) => x.ctx != c
      frames := s.coll.frames.filter fun (h : CollHdr) => h.ctx != c
      joins := s.coll.joins.filter fun (j : Nat × Nat × Nat × Nat) => j.1 != c
      recent := s.coll.recent.filter fun (r : Nat × Nat) => r.1 != c
      waits := s.coll.waits.filter fun (w : CollWait) => w.ctx != c
      subst := s.coll.subst.filter fun (p : Nat × CollDesc) => p.1 != c } }

/-- A round of the context is open here (R301). -/
def State.roundOpen (s : State) (c : Nat) : Bool := s.scat.rounds.any fun (r : Round) => r.ctx == c && r.isOpen

/-- A context's expert map, its rounds and queues go with its memory (Table 10.11). -/
def State.dropScat (s : State) (c : Nat) : State :=
  let x := s.scat
  let s := { s with scat := { x with
      rounds := x.rounds.filter fun (r : Round) => r.ctx != c
      layers := x.layers.filter fun (l : LayerSt) => l.ctx != c
      next := x.next.filter fun (p : Nat × Nat) => p.1 != c
      queues := x.queues.filter fun (q : QueueSt) => q.ctx != c
      gathers := x.gathers.filter fun (g : Gather) => g.ctx != c
      swaps := x.swaps.filter fun (p : Nat × Nat) => p.1 != c } }
  let s := { s with fab := { s.fab with writes := s.fab.writes.filter fun (w : RemoteWrite) => w.ctx != c } }
  let s := s.regPut (Reg.EXPMAP_CTRL + inst c) 0
  let s := s.setF .EXPMAP_BASE0_ADDR 0 (inst c)
  let s := s.setF .EXPMAP_BASE1_ADDR 0 (inst c)
  s.setF .EXPMAP_LAYERS_LAYERS 0 (inst c)

/-- Requests of the context that still live. -/
def State.ctxRequests (s : State) (c : Nat) : List Nat :=
  (s.entries.filter fun p => p.2.a.state != .free && p.2.a.ctx == c).map (·.1)

/-- Rings bound to the context. -/
def State.boundRings (s : State) (c : Nat) : List Nat :=
  s.rings.keys.filter fun r =>
    s.flag .RING_CFG_CTX_BOUND (ringOff r) && s.getF .RING_CFG_CTX (ringOff r) == c && s.ringState r == 1

/-- Teardown of a context on this module (Table 15.12a steps 1 to 6), one event (log 14). `status` is the CONTEXT_END status;
`keep` is the CTX_DESTROY that asked, which completes at step 6; `tell` sends the slice's other modules their notice (step 7). -/
def State.teardown (s : State) (c status : Nat) (keep : Option Cmd) (tell : Bool) : State :=
  let x := s.ctx c
  if !x.valid then s
  else
    let isKeep := fun (k : Cmd) => match keep with
      | some d => d.ring == k.ring && d.seq == k.seq
      | none => false
    let s := s.setCtx c { x with tearing := true }
    let s := s.rings.keys.foldl (fun s r => s.abortCmds ((s.ring r).waiting.filter fun k => k.ctx == c && !noCtxOpcode k.opcode)) s
    let s := s.voidStreams c
    let s := s.dropPlanes c
    let s := s.rings.keys.foldl (fun s r =>
      s.abortCmds ((s.ring r).outstanding.filter fun k => k.ctx == c && !noCtxOpcode k.opcode && !isKeep k)) s
    let s := (s.ctxRequests c).foldl (fun s i => ((s.setEnd i .failed 0x08).mirrorEntry i).postEnd i) s
    let s := s.dropVersions c
    let s := (s.dropScat c).dropColl c
    let s := s.scrubFrames c
    let s := s.dropRoots c
    let bound := s.boundRings c
    let s := if !x.held then s else s.postRecord x.noticeCq
      { kind := 3, status := status, sq := 0, sqHead := 0, opcode := 0, tag := 0, handle := 0, endCode := 0, ctx := c, job := 0, value := 0 }
    let s := bound.foldl (fun s r => s.haltRing r 4) s
    let s := match keep with
      | some d => s.complete d 0 0 0
      | none => s
    let s := if x.held then s.bump .VICTX_CTX_TEARDOWNS_COUNT 1 (inst x.vi) else s
    let s := s.setCtx c { s.ctx c with valid := false, tearing := false, scrubbing := s.inScrub c, currentRig := none, incomingRig := none,
                                       staged := [], stagedFrames := [], shareK := [], held := x.held && s.inScrub c }
    let s := s.endHandling (.context c)
    if tell && x.span then
      (s.sliceOf x.slice).foldl (fun s m => if m = s.self then s else s.emit (.message "SLICE_TEARDOWN" m [c, status])) s
    else s

/-! ### The fence (R501) -/

/-- Set a TWIN_ERR bit, its first-fault register latched while the flags were all zero (R512, R513). -/
def State.twinBit (s : State) (b : Nat) : State :=
  let s := if s.getF .TWIN_ERR_FLAGS == 0 then
      (s.setF .TWIN_ERR_INFO_MODULE (s.getF .TWIN_ID_PEER)).setF .TWIN_ERR_INFO_BIT b
    else s
  s.setBit .TWIN_ERR_FLAGS b true

/-- Requests mirrored for the twin end MODULE_LOST on the ring numbers a takeover would use (R503, R554, Table 17.8); the mirrors go. -/
def State.loseMirrors (s : State) : State :=
  let s := if s.getF .HOSTVI_LINK_WIDTH = 0 then s
    else s.twin.mirrors.foldl (fun (s : State) (m : Nat × Mirror) =>
      let e := m.2.entry
      if e.a.state == .free then s
      else s.postRecord e.b.complRing
        { kind := 2, status := 0, sq := 0, sqHead := 0, opcode := 0, tag := e.b.hostTag, handle := handleOf m.1 e.a.gen,
          endCode := if e.a.state.final then e.b.endCode else 0x09, ctx := e.a.ctx, job := 0, value := e.a.curLen }) s
  { s with twin := { s.twin with mirrors := [] } }

/-- Every request ends MODULE_LOST where the host link works (R5, Table 17.8). -/
def State.endAll (s : State) : State :=
  if s.getF .HOSTVI_LINK_WIDTH = 0 then s else s.liveEntries.foldl (fun s i => (s.setEnd i .failed 0x09).postEnd i) s

/-- A survivor that holds rebuilt or mirrored requests: its fence loses the pair (Table 17.8). -/
def State.lastOfPair (s : State) : Bool :=
  s.pairState == 4 && (s.twin.mirrors != [] || s.liveEntries.any fun i => (s.entry i).a.takenOver)

/-- FENCE or LEAVING to the twin of a paired module; the argument's bit 0 is PAIR_LOST (R501, R554). -/
def State.tellFence (s : State) (word : String) (lost : Bool) : State :=
  if s.flag .TWIN_ID_PAIR_EN then s.sendTwin word false 0 0 (controlBody (if word = "LEAVING" then 3 else 2) (bit lost)) else s

/-- A module fences (R501): fetched commands complete ABORTED, units halt, READY clears, FENCE (or LEAVING) is sent. An unpaired or
SPLIT module, or the last of a pair, then ends its requests MODULE_LOST, where its host link works (R5, Table 17.8). `word` is the notice
sent; its argument bit 0 is PAIR_LOST (R554). -/
def State.fence (s : State) (word : String) (lost : Bool) : State :=
  let word := if s.twin.leaving then "LEAVING" else word
  if s.fenced then
    if lost then
      let s := (s.twinBit 8).tellFence word true
      { s with twin := { s.twin with pairLost := true } }
    else s
  else
    let old := s.pairState
    let alone := s.unpaired
    let last := s.lastOfPair
    let lost := lost || last
    let s := s.rings.keys.foldl (fun s r => (s.abortCmds (s.ring r).waiting).abortCmds (s.ring r).outstanding) s
    let s := if alone then s.endAll else s
    let s := if last then s.loseMirrors else s
    let s := (if lost then s.twinBit 8 else s).twinBit 6
    let s := (s.setReady false).faultPin false
    let s := (s.setF .TWIN_STATUS_STATE 6).pldmEvent 2 6
    let s := s.setF .TWIN_STATUS_SUSPECT 0
    let s := s.bump .LOG_PAIR_FENCES
    let s := { s with err := { s.err with fenceAt := some s.now, handling := [(.module, 4)] },
                      twin := { s.twin with pairLost := lost, suspectAt := none, awaiting := [] } }
    let s := s.logRec 7 (pairBody old 6 (s.getF .TWIN_ID_PEER) 0)
    s.tellFence word lost

end Sys2Proof.Machine
end

