-- ==== Sys2Proof/Machine/Flags.lean ====
section
/-! DEFINITION. Faults: the flag and first-fault registers of every block, the error ring (R549), the nesting procedure (R551-R553),
the actions of Table 19.1, and the latch of the photo finish, which an S4 starts (R557-R559). -/

namespace Sys2Proof.Machine

/-! ### The photo finish's latch (R558, R559) -/

/-- Snapshot registers (R558): the counters the chapters say the trigger latches, and the registers R558 names, but for
SL_STATES, which slStates gives. -/
def snapRegs : List Nat :=
  [Reg.PWRCLK_INPUT, Reg.PWRCLK_CAP, Reg.PWRCLK_THERM, Reg.PWRCLK_WAKE_LOST, Reg.PWRCLK_SEAT_SLEEPS, Reg.PWRCLK_WAKES, Reg.MGMT_RX, Reg.MGMT_REJECTS]
  ++ [Reg.ERR_DROPPED, Reg.ERR_ESCALATED, Reg.ERR_ABSORBED, Reg.ERR_RAISED_S, Reg.SNAP_TAKEN, Reg.SNAP_SKIPPED, Reg.SNAP_MERGED, Reg.PMC]
  ++ [Reg.LOG_HBM_CE, Reg.LOG_SUPPRESSED, Reg.FAB_TIME_STAT, Reg.FAB_TX_FLITS, Reg.FAB_RX_FLITS, Reg.FAB_TRANSIT_FLITS, Reg.FAB_DROPS, Reg.FAB_HELD]
  ++ [Reg.FAB_SWAPS, Reg.TIERS_WALKS, Reg.TIERS_MIGRATIONS, Reg.TIERS_MIG_BYTES, Reg.TIERS_CE, Reg.TIERS_UE, Reg.TWIN_STATUS, Reg.TWIN_RECORDS]
  ++ [Reg.TWIN_CKPT_BYTES, Reg.TWIN_TAKEOVERS, Reg.TWIN_RECOMPUTED, Reg.TWIN_RING_WAITS, Reg.SL_ADMITS, Reg.SL_REFUSED, Reg.SL_DONE, Reg.SL_CANCELLED]
  ++ [Reg.SL_FAILED, Reg.SL_PREEMPTS, Reg.SL_HELD_STEPS, Reg.SL_LATE_TOKENS, Reg.SL_EXPIRED, Reg.SL_RESENDS, Reg.WPKG_LOADS, Reg.WPKG_TILES_VERIFIED]
  ++ [Reg.WPKG_TILE_RETRIES, Reg.WPKG_SWITCHES, Reg.SAMP_ROWS, Reg.SAMP_GREEDY, Reg.SAMP_NAN_ROWS, Reg.SAMP_NO_CHOICE, Reg.SAMP_STOPS, Reg.SAMP_RING_WAITS]
  ++ [Reg.SAMP_COUNT_REBUILDS, Reg.EXPMAP_INSTALLS, Reg.SEL_CALLS, Reg.SEL_SCORES, Reg.SEL_FORCED, Reg.SEL_NAN, Reg.SED_LOOKUPS, Reg.SED_HIT_PAGES]
  ++ [Reg.SED_MISS_PAGES, Reg.SED_TOKEN_MISMATCH, Reg.SED_DEPOSITS, Reg.SED_EVICTIONS, Reg.SED_LATE, Reg.SED_COPY_FAIL, Reg.NET_STROKES, Reg.NET_LINK_CE]
  ++ [Reg.NET_LINK_UE, Reg.NET_ORPHAN, Reg.NET_BRIDGE_RETRY, Reg.NET_CREDIT_STALLS, Reg.NET_JOIN_STALLS, Reg.NET_SPILL_BEATS, Reg.RIG_LOADS, Reg.RIG_REJECTS]
  ++ [Reg.RIG_WAVES, Reg.STREAM_CTX_BYTES, Reg.STREAM_CTX_WASTE, Reg.STREAM_CTX_REFETCH, Reg.STREAM_REQS, Reg.STREAM_MERGED, Reg.STREAM_POISON_LINES, Reg.STREAM_AHEAD_STOPS]
  ++ [Reg.STREAM_FLOOR_GRANTS, Reg.SCAT_DISPATCHED, Reg.SCAT_DROPS, Reg.SCAT_ZERO_COUNTS, Reg.SCAT_RETURNS, Reg.SCAT_COMBINED, Reg.SCAT_COUNT_HOLDS, Reg.SCAT_REPLAYS]
  ++ [Reg.COLL_DONE, Reg.COLL_TX_BYTES, Reg.COLL_RX_BYTES, Reg.COLL_ZERO_FRAMES, Reg.COLL_LOST, Reg.COLL_ORDER_WAITS, Reg.UNIT_STRETCH, Reg.UNIT_CATCHES]
  ++ [Reg.UNIT_NULL_CATCHES, Reg.UNIT_STALL_INPUT, Reg.UNIT_STALL_CREDIT, Reg.UNIT_STALL_SHAPE, Reg.UNIT_STALE_DROP, Reg.UNIT_EARLY_HOLD, Reg.UNIT_ABANDONED, Reg.UNIT_NUMCTL]
  ++ [Reg.UNIT_NUM_FLAGS, Reg.UNIT_ACC_OVF, Reg.UNIT_SFN_FTZ, Reg.UNIT_SFN_INFO, Reg.UNIT_STAT_CLAMP]

/-- A register array member's first offset, in the canonical window. -/
def canonReg (off : Nat) : Nat :=
  match descOf off with
  | some d => d.off
  | none => off

/-- Entries in a state (Table 11.8). -/
def State.countState (s : State) (st : ReqState) : Nat :=
  if st = .free then 16384 - s.liveEntries.length
  else (s.entries.filter fun p => p.2.a.state == st).length

/-- SL_STATES_0 to SL_STATES_2 (Table 11.8), from the entries. -/
def State.slStates (s : State) (k : Nat) : Word :=
  let f := fun (l : List Nat) => BitVec.ofNat 64 (l.foldr (fun n acc => n + acc * 2 ^ 15) 0)
  match k with
  | 0 => f [s.countState .free, s.countState .admitted, s.countState .prefill, s.countState .shipping]
  | 1 => f [s.countState .decode, s.countState .paused, s.countState .resuming, s.countState .done]
  | _ => f [s.countState .cancelled, s.countState .failed,
            (s.entries.filter fun p => p.2.a.state == .decode && p.2.a.held).length]

/-- The seat a key lies in, when it lies in one. -/
def seatOfKey (key : Nat) : Option Nat :=
  let off := key % instStride
  if off < seatBase then none else some ((off - seatBase) / seatStride)

/-- A seat asleep or on its way (R526, R559). -/
def State.asleep (s : State) (n : Nat) : Bool := (s.seat n).phase != .awake

/-- Registers a seat saves (Table 18.3). -/
def savedSeatReg (off : Nat) : Bool :=
  let c := canonReg off
  [Reg.UNIT_CTRL, Reg.SEQ_MODE, Reg.SEQ_SHAPE_WAIT, Reg.NET_CTRL, Reg.STREAM_MODE, Reg.STREAM_MERGE, Reg.SCAT_CTRL, Reg.COLL_CTRL,
    Reg.STREAM_CTX_BYTES, Reg.STREAM_CTX_WASTE, Reg.STREAM_CTX_REFETCH].contains c ||
    (snapRegs.contains c && decide (c < seatBase + 0x60000) && decide (seatBase ≤ c))

/-- Whether a key is one that its seat saves. -/
def savedKey (key : Nat) : Bool := savedSeatReg (canonOff (key % instStride))

/-- A sleeping seat's newest save. -/
def State.seatSave (s : State) (k : Nat) : List (Nat × Word) :=
  let x := s.seat k
  match x.copyA, x.copyB with
  | some a, some b => if a.count < b.count then b.regs else a.regs
  | some a, none => a.regs
  | none, some b => b.regs
  | none, none => []

/-- What a read of a sleeping seat's register gives (R526): the saved value, zero where the register is not saved. -/
def State.asleepWord (s : State) (k key : Nat) : Word := if savedKey key then SMap.get (resetWord key) (s.seatSave k) key else 0

/-- Seats in M2. -/
def State.sleepers (s : State) : List Nat := (List.range 8).filter fun k => (s.seat k).phase == .asleep

/-- The values the strobe copies (R558): every listed snapshot register, a sleeping seat's as saved. -/
def State.strobe (s : State) : List (Nat × Word) :=
  ((s.regs ++ s.sleepers.flatMap s.seatSave).filter fun p => snapRegs.contains (canonReg (canonOff (p.1 % instStride)))) ++
    [(Reg.SL_STATES_0, s.slStates 0), (Reg.SL_STATES_1, s.slStates 1), (Reg.SL_STATES_2, s.slStates 2)]

/-- Registers of the Keel and the always-on domain: IDENT, KEEL, PWRCLK, BOARD and the logbook's. -/
def retainedReg (key : Nat) : Bool :=
  let o := key % instStride
  decide (o < 0x00220000) || (decide (0x00400300 ≤ o) && decide (o < 0x004003C0))

/-- Seats asleep as a mask. -/
def State.asleepMask (s : State) : Nat :=
  (List.range 8).foldl (fun m n => if s.asleep n then m + 2 ^ n else m) 0

/-! ### The error ring (R549) -/

/-- Records held. -/
def State.errHeld (s : State) : Nat :=
  (s.getF .ERR_RING_PROD_PROD + 2 ^ 32 - s.getF .ERR_RING_CONS_CONS) % 2 ^ 32

/-- Put a record into the ring; a placement at or above MIN_SEV interrupts (R550). -/
def State.ringPlace (s : State) (r : ErrRec) : State :=
  let p := s.getF .ERR_RING_PROD_PROD
  let s := { s with err := { s.err with slots := SMap.put s.err.slots (p % 1024) r } }
  let s := s.setF .ERR_RING_PROD_PROD (p + 1)
  if s.flag .ERR_IRQ_EN && decide (s.getF .ERR_IRQ_MIN_SEV ≤ r.sev) then s.emit (.msix 0 (s.getF .ERR_IRQ_VECTOR)) else s

/-- Number a record (R547). -/
def State.numbered (s : State) (r : ErrRec) : ErrRec × State :=
  ({ r with seq := s.err.seq }, { s with err := { s.err with seq := (s.err.seq + 1) % 65536 } })

/-- Place a notice or corrected record: only below 960 held and with no backlog, else it is dropped and its SEQ left as a gap. -/
def State.placeLow (s : State) (r : ErrRec) : State :=
  if s.errHeld < 960 ∧ s.err.backlog = [] then s.ringPlace r else s.bump .ERR_DROPPED_COUNT

/-- The fence window (R554): 2 us from the fence, in which a second module-fatal fault still counts. -/
def State.inFenceWindow (s : State) : Bool :=
  match s.err.fenceAt with
  | some t => decide (s.now ≤ t + 2000)
  | none => false

/-- A fault of this severity is one that the fence itself provokes (R553): any of a fenced module but, within the fence window, a notice or a
corrected fault, which is recorded, and a module-fatal one, which widens to the pair (R555; log 46). -/
def State.afterFence (s : State) (sev : Nat) : Bool := s.fenced && !(s.inFenceWindow && (decide (sev ≤ 1) || decide (4 ≤ sev)))

/-- A fault of ERROBS itself (Table 19.9): flag, count, record. -/
def State.errobs (s : State) (b sev : Nat) : State :=
  if s.afterFence sev then s
  else
  let s := s.setBit .ERR_FAULT_FLAGS b true
  let s := s.bump .ERR_RAISED_S_COUNT 1 (8 * sev)
  let (r, s) := s.numbered { time := s.now, sev := sev, raw := sev, block := 0x10, fault := b }
  let s := s.placeLow r
  if s.getF .KEEL_LOG_POLICY_MIN_SEV ≤ sev then s.logRec 3 (errBytes r s.self (s.getF .TWIN_ID_PAIR)) else s

/-- Backlog records at which the module stalls (R550). -/
def stallAt : Nat := 32768

/-- The module is stalled (R550). -/
def State.stalled (s : State) : Bool := decide (s.err.backlog.length ≥ stallAt)

/-- Place a record of S2 or above: in the ring, or in the backlog while the ring is full or records wait (R549). -/
def State.placeHigh (s : State) (r : ErrRec) : State :=
  if s.errHeld < 1024 ∧ s.err.backlog = [] then s.ringPlace r
  else
    let was := s.err.backlog.length
    let s := { s with err := { s.err with backlog := s.err.backlog ++ [r] } }
    let s := if was = 0 then s.errobs 0 1 else s
    if was + 1 = stallAt then s.errobs 1 1 else s

/-- Place a record by its severity (R549), and hand it to the logbook from MIN_SEV up (Table 19.9a). -/
def State.place (s : State) (r : ErrRec) : State :=
  let (r, s) := s.numbered r
  let s := if r.sev ≤ 1 then s.placeLow r else s.placeHigh r
  if s.getF .KEEL_LOG_POLICY_MIN_SEV ≤ r.sev then s.logRec 3 (errBytes r s.self (s.getF .TWIN_ID_PAIR)) else s

/-! ### Nesting (R551-R553) -/

/-- The severity a scope is being handled at. -/
def State.handlingSev (s : State) (sc : Scope) : Option Nat := (s.err.handling.find? (fun p => p.1 == sc)).map (·.2)

/-- The next scope outward of a fault of severity `sev` (Table 19.1): on an unpaired module a pair is the module (R551). -/
def State.outer (s : State) (r : Report) : Scope :=
  match r.scope with
  | .none => .none
  | .request _ => .context (r.ctx.getD 0)
  | .context _ => .module
  | .ring _ => .module
  | .module => if s.unpaired then .module else .pair
  | .pair => .pair

/-- One round of the loop of R551. -/
def State.escalateOnce (s : State) (r : Report) (esc : Bool) : Report × Bool :=
  match s.handlingSev r.scope with
  | none => (r, esc)
  | some h =>
    if h ≤ r.sev then ({ r with sev := min (max r.sev h + 1) 5, scope := s.outer r }, true) else (r, esc)

/-- The loop of R551: a fault in a scope handled at its severity or lower widens, four times at most. -/
def State.escalate (s : State) : Nat → Report → Bool → Report × Bool
  | 0, r, e => (r, e)
  | n + 1, r, e =>
    let (r', e') := s.escalateOnce r e
    if r' = r then (r, e') else s.escalate n r' e'

/-- The scopes that enclose a report's scope. -/
def enclosers (r : Report) : List Scope :=
  match r.scope with
  | .none => []
  | .request _ => (match r.ctx with | some c => [.context c] | none => []) ++ [.module, .pair]
  | .context _ => [.module, .pair]
  | .ring _ => [.module, .pair]
  | .module => [.pair]
  | .pair => []

/-- An enclosing scope is handled at the fault's severity or higher (R552). -/
def State.absorbedBy (s : State) (r : Report) : Bool :=
  (enclosers r).any fun sc => match s.handlingSev sc with
    | some h => decide (r.sev ≤ h)
    | none => false

/-- A fault that earlier handling provoked is not raised (R553). -/
def State.consequence (s : State) (r : Report) : Bool := s.afterFence r.sev

/-- Handling of a scope begins; that of every scope it encloses ends (R546). -/
def State.beginHandling (s : State) (sc : Scope) (sev : Nat) : State :=
  let inside := fun (x : Scope) => match sc, x with
    | .context c, .request h => match s.findHandle h with
      | some i => (s.entry i).a.ctx == c
      | none => false
    | .module, .request _ => true
    | .module, .context _ => true
    | .module, .ring _ => true
    | .pair, _ => true
    | _, _ => false
  { s with err := { s.err with handling := (sc, sev) :: s.err.handling.filter (fun p => !(inside p.1) && p.1 != sc) } }

/-- Copy every snapshot register to a free shadow set. -/
def State.latchNew (s : State) (t : Trigger) : State :=
  let s := if t.late then s.errobs 3 0 else s
  let standby := s.getF .PWRCLK_STATE_MSTATE == 3
  let sh : Shadow := { trig := t, time := s.now, regs := if standby then s.strobe.filter fun p => retainedReg p.1 else s.strobe,
                       asleep := s.asleepMask, standby := standby, merged := 0, skipped := s.snap.skipped }
  let s := { s with snap := { s.snap with shadows := s.snap.shadows ++ [sh], skipped := 0, last := some (min s.now t.target, s.now) } }
  let s := (s.setF .SNAP_LAST_ID_ID t.id).setF .SNAP_LAST_T_T s.now
  s.bump .SNAP_TAKEN_COUNT

/-- A target falls within 1 us after the latest latch; one that came due at the same strobe shares it too (R559). -/
def State.sharesLatch (s : State) (target : Nat) : Bool := s.snap.last.any fun p => decide (p.1 ≤ target) && decide (target ≤ p.2 + 1000)

/-- Latch a trigger (R558, R559): within 1 us after a latch it shares that latch, whose header counts it while it awaits packing; with both sets in
use it is skipped; a module that is fenced or in M4 latches nothing, one in M3 its always-on blocks. -/
def State.latch (s : State) (t : Trigger) : State :=
  if s.fenced || s.pwr.off then s
  else if s.sharesLatch (if t.late then s.now else t.target) then
    let shadows := match s.snap.shadows.getLast? with
      | some sh => s.snap.shadows.dropLast ++ [{ sh with merged := sh.merged + 1 }]
      | none => []
    { s.bump .SNAP_MERGED_COUNT with snap := { s.snap with shadows := shadows } }
  else if 2 ≤ s.snap.shadows.length then
    let s := s.bump .SNAP_SKIPPED_COUNT
    { s with snap := { s.snap with skipped := s.snap.skipped + 1 } }.errobs 2 0
  else s.latchNew t

/-- Number a trigger of this module (R557). -/
def State.newTrigger (s : State) (target scope slice source : Nat) : Trigger × State :=
  let n := (s.snap.count + 1) % 65536
  ({ id := s.self * 65536 + n, target := target, scope := scope, slice := slice, source := source, late := false },
   { s with snap := { s.snap with count := n } })

/-- Schedule a trigger; one whose target is less than 20 us ahead is latched at once, LATE. -/
def State.schedule (s : State) (t : Trigger) : State :=
  if t.target < s.now + 20000 then s.latch { t with late := true }
  else { s with snap := { s.snap with scheduled := s.snap.scheduled ++ [t] } }

/-- An S4 starts a photo finish before units halt, with a target of now (R557). -/
def State.latchS4 (s : State) : State :=
  let (t, s) := s.newTrigger s.now 0 0 1
  s.schedule t

/-- The action of a severity (Table 19.1). A request-fatal fault makes the entry FAILED when reported, with its effects at the next
boundary (Table 11.3). -/
def State.act (s : State) (r : Report) : State :=
  match r.scope with
  | .none => s
  | .request h =>
    match s.findHandle h with
    | some i => (s.beginHandling r.scope r.sev).setEnd i .failed r.endCode
    | none => s
  | .context c => ((s.beginHandling r.scope r.sev).teardown c 1 none true).endHandling (.context c)
  | .ring k => ((s.beginHandling r.scope r.sev).haltRing k r.haltCode).endHandling (.ring k)
  | .module => (s.latchS4).fence "FENCE" false
  | .pair => ((s.latchS4).fence "FENCE" true).beginHandling .pair 5

/-- Raise a fault (R551). -/
def State.raise (s : State) (r : Report) : State :=
  if s.consequence r then s
  else
    let raw := r.sev
    let (r, esc) := s.escalate 4 r false
    let absorbed := s.absorbedBy r
    let s := if esc then s.bump .ERR_ESCALATED_COUNT else s
    let s := if absorbed then s.bump .ERR_ABSORBED_COUNT else s
    let s := s.bump .ERR_RAISED_S_COUNT 1 (8 * r.sev)
    let s := s.place
      { time := s.now, sev := r.sev, raw := raw, esc := esc, absorbed := absorbed, block := r.block, fault := r.fault,
        scope := r.scope, ctx := r.ctx, whereKind := r.whereKind, whereIs := r.whereIs, info := r.info }
    if absorbed then s else s.act r

/-! ### Fault registers -/

/-- A block's fault flags and first-fault information register (R61 and its like). -/
structure FaultRegs where
  block : Nat
  flags : Fld
  info : Nat
deriving DecidableEq, Repr

/-- Set a block's fault bit, latch the first-fault register while the flags were all zero, and raise the fault; `d` is the seat or
unit part of the key. -/
def State.fault (s : State) (f : FaultRegs) (r : Report) (d : Nat := 0) : State :=
  let r := { r with block := f.block }
  if s.consequence r then s
  else
    let first := s.getF f.flags d == 0
    let s := s.setBit f.flags r.fault true d
    let s := if first then s.regPut (f.info + d) (BitVec.ofNat 64 r.info) else s
    s.raise r

/-- A board fault (Table 20.15); `rail` is the rail of RAIL_FAULT. -/
def State.boardFault (s : State) (b sev rail : Nat) : State :=
  s.fault ⟨0x11, .BOARD_ERR_FLAGS, Reg.BOARD_ERR_INFO⟩
    { block := 0x11, fault := b, sev := sev, scope := if sev = 4 then .module else .none, info := packBits [(4, b), (5, rail)] }

/-- A fault of power or the Keel (Table 18.14), which has no first-fault register. -/
def State.pwrFault (s : State) (b sev : Nat) : State :=
  let r : Report := { block := 0x0F, fault := b, sev := sev, scope := if sev = 4 then .module else .none }
  if s.consequence r then s else (s.setBit .PWRCLK_ERR_FLAGS b true).raise r

/-- A common notice (Table 19.4), S0. -/
def State.notice (s : State) (block fault info : Nat) : State :=
  s.raise { block := block, fault := fault, sev := 0, scope := .none, info := info }

/-- ACCESS_SIZE, ACCESS_HOLE, ACCESS_DENIED, ACCESS_STATE, REFUSED, STALE_WRITE (Table 19.4). -/
def nAccessSize : Nat := 0x80
def nAccessHole : Nat := 0x81
def nAccessDenied : Nat := 0x82
def nAccessState : Nat := 0x83
def nRefused : Nat := 0x84
def nStaleWrite : Nat := 0x85

/-- A memory access of a master reaches the module: a VF's only while VF Enable is set and its interface is enabled (R435); otherwise it has no
effect, returns no data and records nothing. -/
def State.reached (s : State) (m : Master) : Bool :=
  match m with
  | .vf n => s.board.vfEnable && (s.vi n).enabled
  | _ => true

/-- A host's access to a register of a block that only firmware writes: denied in the PF window (R16, R59), a hole in a VF window, which does not
hold the block (Table 15.2; an offset in no listed block carries block 0, R548). -/
def State.hostRefused (s : State) (m : Master) (block off : Nat) : State :=
  match m with
  | .vf _ => if s.reached m then s.notice 0 nAccessHole off else s
  | _ => s.notice block nAccessDenied off

/-- Record a corruption at its origin (R556): the latest poison origin and its time. -/
def State.poisonOrigin (s : State) (addr : Nat) : State :=
  (s.setF .ERR_POISON_ADDR_ADDR addr).setF .ERR_POISON_T_T s.now

end Sys2Proof.Machine
end

