-- ==== Sys2Proof/Machine/Seal.lean ====
section
/-! DEFINITION. The canonical form of a state's sparse stores, and the one way a meaning answers a next state. -/

namespace Sys2Proof.Machine

/-- The state with its stores in canonical form; what each reads is unchanged, so equal contents are equal data. -/
def State.canon (s : State) : State :=
  { s with
    regs := SMap.norm resetWord s.regs
    sel := SMap.norm (fun _ => 0) s.sel
    mem := SMap.norm (fun _ => 0) s.mem
    memPoison := SMap.norm (fun _ => false) s.memPoison
    memTag := SMap.norm (fun _ => 0) s.memTag
    ops := SMap.norm (fun _ => {}) s.ops }

/-- A meaning's answer: the next state, canonical. -/
def done (s : State) : Host.Outcome State Fault Refusal := .next s.canon

end Sys2Proof.Machine
end

