-- ==== Sys2Proof/Machine/PowerState.lean ====
section
/-! DEFINITION. Power states (Tables 18.1, 18.2): entering M1 and leaving it at a step boundary, alarms as the logbook and monitoring see them,
the island's clock (R515), refusals (Table 18.4). -/

namespace Sys2Proof.Machine

/-! ### M0 and M1 (R518, R519) -/

/-- The module's power state. -/
def State.mstate (s : State) : Nat := s.getF .PWRCLK_STATE_MSTATE

/-- Take the state that waits for the boundary. -/
def State.applyM (s : State) : State :=
  match s.pwr.want with
  | none => s
  | some (t, alarm) =>
    let s := { s with pwr := { s.pwr with want := none } }
    if s.mstate ≤ 1 then (s.setF .PWRCLK_STATE_MSTATE t).setF .PWRCLK_STATE_BY_ALARM (bit (t == 1 && alarm)) else s

/-- Ask for M0 or M1: taken at the next step boundary, at once where no step runs (Table 18.2). -/
def State.wantM (s : State) (t : Nat) (alarm : Bool) : State :=
  let s := { s with pwr := { s.pwr with want := some (t, alarm) } }
  if s.step.phase = 0 then s.applyM else s

/-- A refused request (R518): PWRCLK_REFUSE records the code and the seat. -/
def State.refuseM (s : State) (code seat : Nat) : State := (s.setF .PWRCLK_REFUSE_CODE code).setF .PWRCLK_REFUSE_SEAT seat

/-! ### Islands (R515) -/

/-- The emergency throttle is in force (R539). -/
def State.emergency (s : State) : Bool := s.flag .KEEL_STATUS_EMERG_ACTIVE

/-- An island's frequency in MHz: the lowest of its four ceilings; the module ceiling is 600 MHz in M1 (R519). -/
def State.islandMHz (s : State) (u : Nat) : Nat :=
  let x := s.unit u
  let ceiling := if s.mstate = 1 then 600 else s.getF .PWRCLK_CAP_CEIL_MHZ
  min (min x.demandMHz x.thermalMHz) (min ceiling (if s.emergency then 600 else 1500))

/-- UNIT_CLK: frequency, target, voltage from the island's calibrated table, stretching. -/
def State.unitClk (s : State) (u : Nat) : Word :=
  let f := s.islandMHz u
  BitVec.ofNat 64 (packBits [(12, f), (12, f), (12, (Config.islandMv u f).toNat), (1, bit (s.getF .PWRCLK_CAP_STRETCH != 0))])

/-! ### Junctions (R517, R539) -/

/-- The hottest junction of a seat. -/
def State.seatTj (s : State) (k : Nat) : Nat := s.units.foldl (fun m p => if seatOf p.1 = k then max m p.2.tj else m) 0

/-- The hottest junction of the module. -/
def State.maxTj (s : State) : Nat := s.units.foldl (fun m p => max m p.2.tj) s.pwr.coxTj

/-- TJ_MAX of each seat. -/
def State.tjMax (s : State) : Word := BitVec.ofNat 64 (packBits ((List.range 8).map fun k => (8, s.seatTj k)))

/-! ### Alarms (R532, R543) -/

/-- An alarm asserts or clears: KEEL_STATUS.ALARMS follows, an ALARM record is written whatever MIN_SEV says (R543), the bus owner is told
(R593). Bits: VIN_LOW, PWR_ALERT, FLOW_ALERT, INLET_HOT, TRIP. -/
def State.alarm (s : State) (b : Nat) (on : Bool) : State :=
  if natBit (s.getF .KEEL_STATUS_ALARMS) b == on then s
  else
    let s := s.setBit .KEEL_STATUS_ALARMS b on
    let s := s.logRec 4 (packBytes [(1, s.getF .KEEL_STATUS_ALARMS), (2, s.getF .PWRCLK_INPUT_VIN_MV), (2, s.getF .PWRCLK_INPUT_PIN_W), (1, s.maxTj)])
    s.pldmEvent 0 (s.getF .KEEL_STATUS_ALARMS)

/-- Set the stretch level broadcast (R516). -/
def State.setStretch (s : State) (n : Nat) : State :=
  { s.setF .PWRCLK_CAP_STRETCH n with pwr := { s.pwr with stretchAt := s.now } }

/-- The emergency throttle follows its causes (R539): entering it forces stretch level 3 and logs EMERG. -/
def State.emergUpdate (s : State) : State :=
  let on := s.pwr.emergTherm || s.flag .KEEL_EMERG_FORCE
  if on == s.emergency then s
  else
    let s := s.setF .KEEL_STATUS_EMERG_ACTIVE (bit on)
    if on then (s.setStretch 3).pwrFault 8 1 else s

end Sys2Proof.Machine
end

