-- ==== Sys2Proof/Machine/Numeric.lean ====
section
/-! DEFINITION. Number formats and exact arithmetic (chapter 03, R63-R89). A number is taken apart into an exact
dyadic value, computed on without error, and rounded once where the manual says so. -/

namespace Sys2Proof.Machine

/-- A decoded number: NaN, an infinity, or (-1)^neg x m x 2^e (m = 0: a signed zero). -/
inductive Val where
  | nan
  | inf (neg : Bool)
  | fin (neg : Bool) (m : Nat) (e : Int)
deriving DecidableEq, Repr

/-- What infinities and NaNs a format has (Table 3.2). -/
inductive Special where
  | ieee      -- top exponent: infinity and NaN (FP32, BF16, E5M2)
  | nanOnly   -- only all ones is NaN (E4M3)
  | none      -- no infinity, no NaN (E3M2, E2M3, E2M1)
deriving DecidableEq, Repr

/-- An element encoding of Table 3.2: exponent bits, mantissa bits, bias, specials. -/
structure Fmt where
  eb : Nat
  mb : Nat
  bias : Nat
  sp : Special
deriving DecidableEq, Repr

def fp32 : Fmt := ⟨8, 23, 127, .ieee⟩
def bf16 : Fmt := ⟨8, 7, 127, .ieee⟩
def e4m3 : Fmt := ⟨4, 3, 7, .nanOnly⟩
def e5m2 : Fmt := ⟨5, 2, 15, .ieee⟩
def e3m2 : Fmt := ⟨3, 2, 3, .none⟩
def e2m3 : Fmt := ⟨2, 3, 1, .none⟩
def e2m1 : Fmt := ⟨2, 1, 1, .none⟩

/-- Bits of an element. -/
def Fmt.width (f : Fmt) : Nat := 1 + f.eb + f.mb

/-- The scalar format of a code of Table 3.1 (0x0-0x3). -/
def scalarFmt : Nat → Option Fmt
  | 0 => some fp32
  | 1 => some bf16
  | 2 => some e4m3
  | 3 => some e5m2
  | _ => none

/-- The element format of an MX code of Table 3.1 (0x4-0x8). -/
def mxFmt : Nat → Option Fmt
  | 4 => some e4m3
  | 5 => some e5m2
  | 6 => some e3m2
  | 7 => some e2m3
  | 8 => some e2m1
  | _ => none

/-- The exponent of an element format's largest normal value, emax of R75. -/
def emaxOf : Nat → Int
  | 8 => 2
  | 7 => 2
  | 6 => 4
  | 4 => 8
  | 5 => 15
  | _ => 0

/-- The value an element's bits encode (R64). -/
def Fmt.decode (f : Fmt) (b : Nat) : Val :=
  let neg := natBit b (f.eb + f.mb)
  let ex := natBits b f.mb f.eb
  let man := natBits b 0 f.mb
  let top := ex == 2 ^ f.eb - 1
  match f.sp with
  | .ieee =>
    if top then (if man == 0 then .inf neg else .nan)
    else if ex == 0 then .fin neg man (1 - (f.bias : Int) - f.mb)
    else .fin neg (2 ^ f.mb + man) ((ex : Int) - f.bias - f.mb)
  | .nanOnly =>
    if top && man == 2 ^ f.mb - 1 then .nan
    else if ex == 0 then .fin neg man (1 - (f.bias : Int) - f.mb)
    else .fin neg (2 ^ f.mb + man) ((ex : Int) - f.bias - f.mb)
  | .none =>
    if ex == 0 then .fin neg man (1 - (f.bias : Int) - f.mb)
    else .fin neg (2 ^ f.mb + man) ((ex : Int) - f.bias - f.mb)

/-- The canonical NaN of a format (R65). -/
def Fmt.nanBits (f : Fmt) : Nat :=
  match f.sp with
  | .ieee => (2 ^ f.eb - 1) * 2 ^ f.mb + 2 ^ (f.mb - 1)
  | .nanOnly => 2 ^ (f.eb + f.mb) - 1
  | .none => 0

/-- The bits of an infinity, where the format has one. -/
def Fmt.infBits (f : Fmt) (neg : Bool) : Nat := bit neg * 2 ^ (f.eb + f.mb) + (2 ^ f.eb - 1) * 2 ^ f.mb

/-- The bits of the largest finite value (Table 3.2). -/
def Fmt.maxBits (f : Fmt) (neg : Bool) : Nat :=
  bit neg * 2 ^ (f.eb + f.mb) +
    match f.sp with
    | .ieee => (2 ^ f.eb - 1) * 2 ^ f.mb - 1
    | .nanOnly => 2 ^ (f.eb + f.mb) - 2
    | .none => 2 ^ (f.eb + f.mb) - 1

/-- Bits of a signed zero. -/
def Fmt.zeroBits (f : Fmt) (neg : Bool) : Nat := bit neg * 2 ^ (f.eb + f.mb)

/-- `m x 2^sh` as an integer, rounded: to nearest with ties to even, or (rtz) toward zero. -/
def roundShift (rtz : Bool) (m : Nat) (sh : Int) : Nat :=
  if 0 ≤ sh then m * 2 ^ sh.toNat
  else
    let k := (-sh).toNat
    let q := m / 2 ^ k
    let r := m % 2 ^ k
    let half := 2 ^ k / 2
    if rtz then q
    else if r > half || (r == half && q % 2 == 1) then q + 1 else q

/-- A finite nonzero magnitude rounded to a format: the magnitude bits (sign aside), or none beyond the largest
finite value. -/
def Fmt.roundMag (f : Fmt) (rtz : Bool) (m : Nat) (e : Int) : Option Nat :=
  let emin : Int := 1 - (f.bias : Int)
  let lead : Int := (Nat.log2 m : Int) + e
  let q : Int := (if lead < emin then emin else lead) - f.mb
  let r := roundShift rtz m (e - q)
  -- r counts quanta 2^q; a carry out of the significand moves up one binade
  let ex : Int := q + f.mb + f.bias
  let mag : Nat :=
    if r < 2 ^ f.mb then r
    else (ex.toNat - 1) * 2 ^ f.mb + r
  let lim := f.maxBits false
  if mag ≤ lim then some mag else none

/-- A result and the numeric flags it raised (Table 3.8's bits as a mask). -/
structure NR where
  bits : Nat
  fl : Nat
deriving DecidableEq, Repr

def flAccOvf : Nat := 1
def flNarrowSat : Nat := 2
def flNarrowInf : Nat := 4
def flNanGen : Nat := 8
def flScaleNan : Nat := 16
def flUnderflow : Nat := 32
def flStatClamp : Nat := 64

/-- A value rounded once to a format by RNE, gradual underflow, overflow to infinity (R76, R82). `gen`: NaN here
comes from no NaN input. -/
def Fmt.rne (f : Fmt) (v : Val) (gen : Bool := false) : NR :=
  match v with
  | .nan => ⟨f.nanBits, if gen then flNanGen else 0⟩
  | .inf s => ⟨f.infBits s, 0⟩
  | .fin s m e =>
    if m == 0 then ⟨f.zeroBits s, 0⟩
    else match f.roundMag false m e with
      | none => ⟨f.infBits s, 0⟩
      | some 0 => ⟨f.zeroBits s, flUnderflow⟩
      | some b => ⟨f.zeroBits s + b, 0⟩

/-! ### Exact arithmetic on values -/

def Val.isNan : Val → Bool
  | .nan => true
  | _ => false

def Val.neg : Val → Val
  | .nan => .nan
  | .inf s => .inf (!s)
  | .fin s m e => .fin (!s) m e

/-- The signed integer of a finite value's significand. -/
def sInt (s : Bool) (m : Nat) : Int := if s then -(m : Int) else m

/-- Exact product (IEEE 754 rules for the special cases). -/
def Val.mul : Val → Val → Val
  | .nan, _ => .nan
  | _, .nan => .nan
  | .inf s, .inf t => .inf (s != t)
  | .inf s, .fin t m _ => if m == 0 then .nan else .inf (s != t)
  | .fin s m _, .inf t => if m == 0 then .nan else .inf (s != t)
  | .fin s m e, .fin t n g => .fin (s != t) (m * n) (e + g)

/-- Exact sum; an exact zero sum is +0 unless both operands are -0 (IEEE 754, RNE). -/
def Val.add : Val → Val → Val
  | .nan, _ => .nan
  | _, .nan => .nan
  | .inf s, .inf t => if s == t then .inf s else .nan
  | .inf s, _ => .inf s
  | _, .inf t => .inf t
  | .fin s m e, .fin t n g =>
    if m == 0 && n == 0 then .fin (s && t) 0 0
    else
      let lo := if e ≤ g then e else g
      let x : Int := sInt s m * 2 ^ (e - lo).toNat + sInt t n * 2 ^ (g - lo).toNat
      if x == 0 then .fin false 0 0 else .fin (decide (x < 0)) x.natAbs lo

/-- Quotient, exact enough to round once: 64 bits beyond the divisor and a sticky bit. -/
def Val.div : Val → Val → Val
  | .nan, _ => .nan
  | _, .nan => .nan
  | .inf _, .inf _ => .nan
  | .inf s, .fin t _ _ => .inf (s != t)
  | .fin s _ _, .inf t => .fin (s != t) 0 0
  | .fin s m e, .fin t n g =>
    if n == 0 then (if m == 0 then .nan else .inf (s != t))
    else if m == 0 then .fin (s != t) 0 0
    else
      let k := 64 + Nat.log2 n
      let q := m * 2 ^ k / n
      let st := if m * 2 ^ k % n == 0 then 0 else 1
      .fin (s != t) (2 * q + st) (e - g - k - 1)

/-- a < b on values; false with a NaN. -/
def Val.lt : Val → Val → Bool
  | .nan, _ => false
  | _, .nan => false
  | .inf s, .inf t => s && !t
  | .inf s, _ => s
  | _, .inf t => !t
  | .fin s m e, .fin t n g =>
    let lo := if e ≤ g then e else g
    decide (sInt s m * 2 ^ (e - lo).toNat < sInt t n * 2 ^ (g - lo).toNat)

/-- a = b on values; false with a NaN; -0 = +0. -/
def Val.eq : Val → Val → Bool
  | .nan, _ => false
  | _, .nan => false
  | .inf s, .inf t => s == t
  | .inf _, _ => false
  | _, .inf _ => false
  | .fin s m e, .fin t n g =>
    let lo := if e ≤ g then e else g
    decide (sInt s m * 2 ^ (e - lo).toNat = sInt t n * 2 ^ (g - lo).toNat)

/-! ### binary32 operations on bits (R76) -/

def f32 (b : Nat) : Val := fp32.decode b

/-- Whether a NaN result comes from no NaN input (UNIT_NUM_FLAGS.NAN_GEN). -/
def genNan (ins : List Val) : Bool := !ins.any Val.isNan

def f32Add (a b : Nat) : NR := fp32.rne ((f32 a).add (f32 b)) (genNan [f32 a, f32 b])
def f32Sub (a b : Nat) : NR := fp32.rne ((f32 a).add (f32 b).neg) (genNan [f32 a, f32 b])
def f32Mul (a b : Nat) : NR := fp32.rne ((f32 a).mul (f32 b)) (genNan [f32 a, f32 b])
def f32Div (a b : Nat) : NR := fp32.rne ((f32 a).div (f32 b)) (genNan [f32 a, f32 b])
/-- a x b + c with one rounding (R76). -/
def f32Fma (a b c : Nat) : NR := fp32.rne (((f32 a).mul (f32 b)).add (f32 c)) (genNan [f32 a, f32 b, f32 c])

/-- Sign of a decoded number. -/
def Val.sign : Val → Bool
  | .nan => false
  | .inf s => s
  | .fin s _ _ => s

/-- IEEE maximum: NaN propagates, -0 is below +0 (R76). A tie keeps `a` (R77). -/
def f32Max (a b : Nat) : NR :=
  let x := f32 a
  let y := f32 b
  if x.isNan || y.isNan then ⟨fp32.nanBits, 0⟩
  else if x.lt y then ⟨b, 0⟩
  else if y.lt x then ⟨a, 0⟩
  else if x.sign && !y.sign then ⟨b, 0⟩ else ⟨a, 0⟩

/-- IEEE minimum (R76). -/
def f32Min (a b : Nat) : NR :=
  let x := f32 a
  let y := f32 b
  if x.isNan || y.isNan then ⟨fp32.nanBits, 0⟩
  else if x.lt y then ⟨a, 0⟩
  else if y.lt x then ⟨b, 0⟩
  else if y.sign && !x.sign then ⟨b, 0⟩ else ⟨a, 0⟩

/-- FP32 one and zero, the results of a comparison (R76). -/
def f32One : Nat := 0x3F800000

def f32CmpLt (a b : Nat) : NR := ⟨if (f32 a).lt (f32 b) then f32One else 0, 0⟩
def f32CmpEq (a b : Nat) : NR := ⟨if (f32 a).eq (f32 b) then f32One else 0, 0⟩

/-- a x 2^n, n read from b as a signed integer and clamped to ±512 (R76). -/
def f32ScaleExp (a b : Nat) : NR :=
  let n := signed 32 b
  let n := if n < -512 then -512 else if 512 < n then 512 else n
  match f32 a with
  | .fin s m e => fp32.rne (.fin s m (e + n))
  | v => fp32.rne v

/-- An unsigned integer as FP32 by RNE (R112). -/
def f32OfNat (n : Nat) : Nat := (fp32.rne (.fin false n 0)).bits

/-! ### Conversions (R73-R75) -/

/-- Widen a scalar element to FP32, exactly (R73). -/
def widen (code b : Nat) : Nat :=
  match scalarFmt code with
  | some f => (fp32.rne (f.decode b)).bits
  | none => 0

/-- Narrow a value to a scalar format under Table 3.4. An E4M3 NaN made of a finite or infinite value sets NAN_GEN beside NARROW_INF
(Table 3.8). -/
def narrowScalar (f : Fmt) (rtz infMode : Bool) (v : Val) : NR :=
  let beyond (s : Bool) (rtzOver : Bool) : NR :=
    if infMode && !rtzOver then
      match f.sp with
      | .ieee => ⟨f.infBits s, flNarrowInf⟩
      | _ => ⟨f.nanBits, flNarrowInf ||| flNanGen⟩
    else ⟨f.maxBits s, flNarrowSat⟩
  match v with
  | .nan => ⟨f.nanBits, 0⟩
  | .inf s => beyond s false
  | .fin s m e =>
    if m == 0 then ⟨f.zeroBits s, 0⟩
    else if rtz && (f.decode (f.maxBits false)).lt (.fin false m e) then beyond s true
    else match f.roundMag rtz m e with
      | none => beyond s rtz
      | some 0 => ⟨f.zeroBits s, flUnderflow⟩
      | some b => ⟨f.zeroBits s + b, 0⟩

/-- Narrow FP32 bits to the scalar format of a code under a plane's NUMCTL (R72, R74); FP32 to FP32 narrows nothing. -/
def narrowTo (code numctl x : Nat) : NR :=
  match scalarFmt code with
  | some f => if code == 0 then ⟨if (f32 x).isNan then fp32.nanBits else x, 0⟩ else narrowScalar f (natBit numctl 0) (natBit numctl 1) (f32 x)
  | none => ⟨0, 0⟩

/-- The E8M0 exponent of a scale byte; none for NaN (R67). -/
def scaleExp (c : Nat) : Option Int := if c == 0xFF then none else some ((c : Int) - 127)

/-- The exact value of an MX element under its scale (R67). -/
def mxVal (code scale b : Nat) : Val :=
  match mxFmt code, scaleExp scale with
  | some f, some x =>
    match f.decode b with
    | .fin s m e => .fin s m (e + x)
    | v => v
  | _, _ => .nan

/-- A conversion that widens (R73), keeping every value: to FP32, to the same format, FP8 to BF16. -/
def widens (src dst : Nat) : Bool := dst == 0 || src == dst || (dst == 1 && (src == 2 || src == 3))

/-- CVT of one scalar element (R73, R74): a widening is exact, anything else narrows under NUMCTL. -/
def cvtScalar (src dst numctl b : Nat) : NR :=
  match scalarFmt src, scalarFmt dst with
  | some f, some g =>
    if widens src dst then ⟨(g.rne (f.decode b)).bits, 0⟩
    else narrowScalar g (natBit numctl 0) (natBit numctl 1) (f.decode b)
  | _, _ => ⟨0, 0⟩

/-- CVT of one MX element to a scalar format: to FP32 infinities and NaN are kept (R73), a finite value beyond the target narrows
under R74. -/
def cvtMx (dst numctl : Nat) (v : Val) : NR :=
  match scalarFmt dst with
  | some g =>
    match dst, v with
    | 0, .inf s => ⟨g.infBits s, 0⟩
    | _, _ => narrowScalar g (natBit numctl 0) (natBit numctl 1) v
  | none => ⟨0, 0⟩

/-- Exponent of a value's leading bit. -/
def leadExp : Val → Option Int
  | .fin _ m e => if m == 0 then none else some ((Nat.log2 m : Int) + e)
  | _ => none

/-- Whether a value is an infinity. -/
def Val.isInf : Val → Bool
  | .inf _ => true
  | _ => false

/-- One MX block from 32 exact values: the scale byte, the elements, the flags (R75). A group with an infinity and no NaN becomes a NaN block,
which is a NaN from non-NaN inputs (NAN_GEN). An element beyond the largest magnitude of its format saturates and sets NARROW_SAT under either
rounding, as Table 3.4 has it for a scalar; that truncation to the largest magnitude counts as a saturation is the model's choice (log 106). -/
def narrowBlock (code numctl : Nat) (vs : List Val) : Nat × List Nat × Nat :=
  match mxFmt code with
  | none => (0, vs.map (fun _ => 0), 0)
  | some f =>
    if vs.any Val.isNan then (0xFF, vs.map (fun _ => 0), 0)
    else if vs.any Val.isInf then (0xFF, vs.map (fun _ => 0), flNanGen)
    else
      let lead : Option Int := vs.foldl (fun a v => match a, leadExp v with
        | none, l => l
        | some x, some y => some (if x < y then y else x)
        | some x, none => some x) none
      let x : Int := match lead with
        | none => -127
        | some l =>
          let y := l - emaxOf code
          if y < -127 then -127 else if 127 < y then 127 else y
      let one (v : Val) : NR :=
        match v with
        | .fin s m e =>
          if m == 0 then ⟨f.zeroBits s, 0⟩
          else if natBit numctl 0 && (f.decode (f.maxBits false)).lt (.fin false m (e - x)) then ⟨f.maxBits s, flNarrowSat⟩
          else match f.roundMag (natBit numctl 0) m (e - x) with
            | none => ⟨f.maxBits s, flNarrowSat⟩
            | some 0 => ⟨f.zeroBits s, flUnderflow⟩
            | some b => ⟨f.zeroBits s + b, 0⟩
        | _ => ⟨0, 0⟩
      let rs := vs.map one
      ((x + 127).toNat, rs.map (·.bits), rs.foldl (fun a r => a ||| r.fl) 0)

/-! ### Anchored accumulation (R78-R85) -/

/-- An accumulator: the exact sum of the truncated contributions, the anchor, and the three conditions of R80. -/
structure Acc where
  sum : Int := 0
  anchor : Option Int := none
  nan : Bool := false
  pinf : Bool := false
  ninf : Bool := false
  gen : Bool := false
deriving DecidableEq, Repr, Inhabited

/-- x x 2^k truncated toward zero. -/
def truncShift (x k : Int) : Int :=
  if 0 ≤ k then x * 2 ^ k.toNat else x.tdiv (2 ^ (-k).toNat)

/-- The exact sum of 32 products of a block, as an integer on the grid 2^-64, with the conditions it raised: every
element product of Table 3.2 is a multiple of 2^-64. -/
def blockSum (fa fb : Fmt) (as bs : List Nat) : Acc :=
  (as.zip bs).foldl (fun a p =>
    let x := fa.decode p.1
    let y := fb.decode p.2
    match x.mul y with
    | .nan => { a with nan := true, gen := a.gen || (!x.isNan && !y.isNan) }
    | .inf false => { a with pinf := true }
    | .inf true => { a with ninf := true }
    | .fin s m e => { a with sum := a.sum + sInt s m * 2 ^ (e + 64).toNat }) {}

/-- One block of one output: the two scale exponents (none: NaN) and the 32 pairs of elements. -/
structure Block where
  ea : Option Int
  eb : Option Int
  as : List Nat
  bs : List Nat
deriving DecidableEq, Repr

/-- The anchor of an output: the largest scale sum over blocks with no NaN scale (R78). -/
def anchorOf (bl : List Block) : Option Int :=
  bl.foldl (fun a b => match b.ea, b.eb with
    | some x, some y => (match a with
      | none => some (x + y)
      | some z => some (if z < x + y then x + y else z))
    | _, _ => a) none

/-- The accumulator of one output after all its blocks (R79, R80). -/
def accumulate (fa fb : Fmt) (bl : List Block) : Acc :=
  match anchorOf bl with
  | none => { nan := true }
  | some a =>
    bl.foldl (fun acc b => match b.ea, b.eb with
      | some x, some y =>
        let p := blockSum fa fb b.as b.bs
        { acc with sum := acc.sum + truncShift p.sum (x + y + 120 - a - 64), nan := acc.nan || p.nan,
                   pinf := acc.pinf || p.pinf, ninf := acc.ninf || p.ninf, gen := acc.gen || p.gen }
      | _, _ => { acc with nan := true }) { anchor := some a }

/-- An accumulator's output value before rounding (R80, R81), and whether it overflowed. -/
def Acc.value (c : Acc) : Val × Bool :=
  match c.anchor with
  | none => (.nan, false)
  | some a =>
    if c.nan || (c.pinf && c.ninf) then (.nan, false)
    else if c.pinf then (.inf false, false)
    else if c.ninf then (.inf true, false)
    else if 2 ^ 159 ≤ c.sum.natAbs then (.inf (decide (c.sum < 0)), true)
    else (.fin (decide (c.sum < 0)) c.sum.natAbs (a - 120), false)

/-- Whether a NaN output arose from no NaN input (R80). An infinity times zero sets it beside a NaN element or scale as well, being a NaN made of
inputs that are none, while infinities that cancel beside one do not: the manual does not say, and both are the model's choice (log 106). -/
def Acc.nanGen (c : Acc) : Bool := !(c.nan && !c.gen) && ((c.pinf && c.ninf) || c.gen)

/-- The FP32 result of an anchored output (R82): RNE, zero is +0. -/
def Acc.toF32 (c : Acc) : NR :=
  let (v, o) := c.value
  let r := fp32.rne v c.nanGen
  ⟨r.bits, r.fl ||| (if o then flAccOvf else 0)⟩

/-- A wide partial (Table 3.6) as its 160 bits. -/
def packWide (v anchor : Int) (special : Nat) : Nat :=
  (v % 2 ^ 148).toNat + (anchor % 2 ^ 10).toNat * 2 ^ 148 + special * 2 ^ 158

/-- The wide partial of an anchored output (R85). -/
def Acc.toWide (c : Acc) : NR :=
  let (v, o) := c.value
  let fl := (if o then flAccOvf else 0) ||| (if c.nanGen then flNanGen else 0)
  match v, c.anchor with
  | .nan, _ => ⟨packWide 0 0 3, fl⟩
  | .inf s, _ => ⟨packWide 0 0 (if s then 2 else 1), fl⟩
  | .fin _ _ _, some a => ⟨packWide (c.sum.tdiv (2 ^ 12)) a 0, fl⟩
  | .fin _ _ _, none => ⟨packWide 0 0 0, fl⟩

/-- The fields of a wide partial: V, ANCHOR, SPECIAL (Table 3.6). -/
def wideV (w : Nat) : Int := signed 148 (natBits w 0 148)
def wideAnchor (w : Nat) : Int := signed 10 (natBits w 148 10)
def wideSpecial (w : Nat) : Nat := natBits w 158 2

/-- DST + A on wide partials (R86). -/
def wideAdd (d a : Nat) : NR :=
  let sd := wideSpecial d
  let sa := wideSpecial a
  if sd == 0 && sa == 0 then
    let m := if wideAnchor d < wideAnchor a then wideAnchor a else wideAnchor d
    let s := truncShift (wideV d) (wideAnchor d - m) + truncShift (wideV a) (wideAnchor a - m)
    if 2 ^ 147 ≤ s.natAbs then ⟨packWide 0 0 (if s < 0 then 2 else 1), flAccOvf⟩
    else ⟨packWide s m 0, 0⟩
  else if sd == 3 || sa == 3 then ⟨packWide 0 0 3, 0⟩
  else if sd != 0 && sa != 0 && sd != sa then ⟨packWide 0 0 3, flNanGen⟩
  else ⟨packWide 0 0 (if sd != 0 then sd else sa), 0⟩

/-- A wide partial rounded to FP32 (R87). -/
def wideToF32 (w : Nat) : NR :=
  match wideSpecial w with
  | 0 => fp32.rne (.fin (decide (wideV w < 0)) (wideV w).natAbs (wideAnchor w - 108))
  | 1 => ⟨fp32.infBits false, 0⟩
  | 2 => ⟨fp32.infBits true, 0⟩
  | _ => ⟨fp32.nanBits, 0⟩

/-- A BF16 pass's chain: acc := RNE(acc + a x b) in ascending K from +0 (R89). -/
def bf16Chain (as bs : List Nat) : NR :=
  (as.zip bs).foldl (fun r p =>
    let x := bf16.decode p.1
    let y := bf16.decode p.2
    let n := fp32.rne ((f32 r.bits).add (x.mul y)) (genNan [f32 r.bits, x, y])
    ⟨n.bits, r.fl ||| n.fl⟩) ⟨0, 0⟩

/-- The 64-lane tree of R77: lane i with lane i + 32, then i + 16, down to lane 0. -/
def treeReduce (f : Nat → Nat → NR) (lanes : List Nat) : NR :=
  let level (h : Nat) (s : List Nat × Nat) : List Nat × Nat :=
    let rs := (s.1.take h).zipWith f ((s.1.drop h).take h)
    (rs.map (·.bits), rs.foldl (fun a r => a ||| r.fl) s.2)
  let r := level 1 (level 2 (level 4 (level 8 (level 16 (level 32 (lanes, 0))))))
  ⟨r.1.headD 0, r.2⟩

end Sys2Proof.Machine
end

