-- ==== Sys2Proof/Machine/Sfn.lean ====
section
/-! DEFINITION. The special-function block (chapter 04): special inputs and range limits exactly (R96, R604), in-range
results as the exact mathematical value plus a free line error inside the ROM's stated line error (R97), rounded once
and flushed (R94, R95); micro-programs (R99-R102). The exact value is formed to 60 bits or more by fixed-point
series; the free error is Config.sfnLineError (log 10). -/

namespace Sys2Proof.Machine

/-- A signed dyadic m x 2^e. -/
structure Dy where
  m : Int
  e : Int
deriving DecidableEq, Repr

def Dy.add (a b : Dy) : Dy :=
  let lo := if a.e ≤ b.e then a.e else b.e
  ⟨a.m * 2 ^ (a.e - lo).toNat + b.m * 2 ^ (b.e - lo).toNat, lo⟩

def Dy.mul (a b : Dy) : Dy := ⟨a.m * b.m, a.e + b.e⟩

def Dy.neg (a : Dy) : Dy := ⟨-a.m, a.e⟩

def Dy.lt (a b : Dy) : Bool :=
  let lo := if a.e ≤ b.e then a.e else b.e
  decide (a.m * 2 ^ (a.e - lo).toNat < b.m * 2 ^ (b.e - lo).toNat)

def Dy.le (a b : Dy) : Bool := !(b.lt a)

def Dy.ofInt (n : Int) : Dy := ⟨n, 0⟩

def Dy.abs (a : Dy) : Dy := ⟨a.m.natAbs, a.e⟩

/-- ⌊a x 2^k⌋. -/
def Dy.floorAt (a : Dy) (k : Int) : Int :=
  let s := a.e + k
  if 0 ≤ s then a.m * 2 ^ s.toNat else a.m / (2 ^ (-s).toNat : Nat)

/-- The dyadic of a finite value. -/
def Val.dy : Val → Dy
  | .fin s m e => ⟨sInt s m, e⟩
  | _ => ⟨0, 0⟩

/-- The value of a dyadic, zero positive. -/
def Dy.val (a : Dy) : Val := .fin (decide (a.m < 0)) a.m.natAbs a.e

/-- Rounded by RNE to `p` significand bits, unbounded exponent (R604). -/
def Dy.roundSig (p : Nat) (a : Dy) : Dy :=
  let n := a.m.natAbs
  if n == 0 then ⟨0, 0⟩
  else
    let sh : Int := (p : Int) - 1 - Nat.log2 n
    let r := roundShift false n sh
    ⟨if a.m < 0 then -(r : Int) else r, a.e - sh⟩

/-- ln 2 x 2^96, log2 e x 2^96, and log2 e rounded to 48 significand bits x 2^47. -/
def ln2Fx : Nat := 54916777467707473351141471128
def log2eFx : Nat := 114302077158074026402637675936
def log2e48 : Nat := 203041276517400

/-- 2^F for a fraction F x 2^-96 in [0, 1): the series of e^(F ln 2), scaled by 2^96. -/
def exp2Frac (f : Nat) : Nat :=
  let y := f * ln2Fx / 2 ^ 96
  let step (s : Nat × Nat) (k : Nat) : Nat × Nat :=
    let t := s.2 * y / 2 ^ 96 / (k + 1)
    (s.1 + t, t)
  ((List.range 30).foldl step (2 ^ 96, 2 ^ 96)).1

/-- 2^x for a dyadic x, to 90 bits; below 2^-1024 it is that, which any product with an FP32 value flushes alike. -/
def exp2Ref (x : Dy) : Dy :=
  if x.lt (.ofInt (-1024)) then ⟨1, -1024⟩
  else
  let fx := x.floorAt 96
  let n := fx / (2 ^ 96 : Nat)
  ⟨exp2Frac (fx - n * 2 ^ 96).toNat, n - 96⟩

/-- e^x. -/
def expRef (x : Dy) : Dy := exp2Ref (x.mul ⟨log2eFx, -96⟩)

/-- a / b to 96 bits beyond the point of the larger, for a positive b. -/
def Dy.div (a b : Dy) : Dy :=
  let k := 128 + Nat.log2 b.m.natAbs
  ⟨(a.m * 2 ^ k).tdiv b.m, a.e - b.e - k⟩

/-- log2 m for m in [1, 2): 2 atanh((m - 1)/(m + 1)) / ln 2. -/
def log2Mant (m : Dy) : Dy :=
  let t := ((m.add (.ofInt (-1))).div (m.add (.ofInt 1))).floorAt 96
  let t2 := t * t / (2 ^ 96 : Nat)
  let step (s : Int × Int) (k : Nat) : Int × Int := (s.1 + s.2 / ((2 * k + 1 : Nat) : Int), s.2 * t2 / (2 ^ 96 : Nat))
  let l := ((List.range 36).foldl step (0, t)).1
  (Dy.mk (2 * l) (-96)).div ⟨ln2Fx, -96⟩

/-- log2 x for x > 0. -/
def log2Ref (x : Dy) : Dy :=
  let ex : Int := Nat.log2 x.m.natAbs
  (Dy.ofInt (ex + x.e)).add (log2Mant ⟨x.m, -ex⟩)

/-- sqrt x for x > 0, to 90 bits. -/
def sqrtRef (x : Dy) : Dy :=
  let k : Nat := 200 + (if x.e % 2 == 0 then 0 else 1)
  ⟨Nat.sqrt (x.m.natAbs * 2 ^ k), (x.e - k) / 2⟩

/-- tanh x = 1 - 2/(e^2x + 1). -/
def tanhRef (x : Dy) : Dy :=
  (Dy.ofInt 1).add (((Dy.ofInt 2).div ((expRef (x.mul (.ofInt 2))).add (.ofInt 1))).neg)

/-- sigmoid x = 1/(1 + e^-x). -/
def sigmoidRef (x : Dy) : Dy := (Dy.ofInt 1).div ((Dy.ofInt 1).add (expRef x.neg))

/-- The free error of a lookup of `x` in the table of a built-in function: `tol` times a fraction in [-1, 1], one for each table and argument,
whichever function looks it up (R97, R98, R604). -/
def lineErr (table : Nat) (x tol : Dy) : Dy :=
  let k := x.roundSig 40
  let d := Config.sfnLineError table k.m k.e
  let d := if d < -(2 ^ 24) then -(2 ^ 24) else if 2 ^ 24 < d then 2 ^ 24 else d
  tol.mul ⟨d, -24⟩

/-- A decimal tolerance n x 10^-k, as a dyadic rounded down. -/
def dec (n k : Nat) : Dy := ⟨n * 2 ^ 80 / 10 ^ k, -80⟩

/-- The result before rounding: a special value, an exact value (with the sign a zero takes), or an in-range one. -/
inductive SfnOut where
  | special (bits : Nat)
  | real (v : Dy) (zneg : Bool)
deriving DecidableEq, Repr

/-- Line errors of Table 4.2, relative or absolute. -/
def tolExp2 : Dy := dec 92 8
def tolLog2 : Dy := dec 138 8
def tolRcp : Dy := dec 24 8
def tolRsqrt : Dy := dec 25 8
def tolSqrt : Dy := dec 6 8
def tolTanhLow : Dy := dec 40 8
def tolTanhBinade : Dy := dec 184 9
def tolTanhHigh : Dy := dec 153 9
def tolSig : Dy := dec 367 9

def pInf : Nat := 0x7F800000
def nInf : Nat := 0xFF800000
def nZero : Nat := 0x80000000

/-- The lesser of two positive dyadics. -/
def Dy.min (a b : Dy) : Dy := if b.lt a then b else a

/-- e^x from EXP's table, with no range limit (R604). -/
def expInner (x : Dy) : Dy :=
  let r := expRef x
  r.add (lineErr 1 x (tolExp2.mul r))

/-- TANH of a value from TANH's table with its cut-offs (Table 4.3), unrounded. Below 1 the line error is at most 4.0 x 10^-7 relative and
1.84 x 10^-7 absolute (Table 4.2). -/
def tanhInner (x : Dy) : Dy :=
  if x.abs.lt ⟨1, -12⟩ then x
  else if (Dy.ofInt 10).le x.abs then .ofInt (if x.m < 0 then -1 else 1)
  else
    let r := tanhRef x.abs
    let r := r.add (lineErr 6 x.abs (if x.abs.lt (.ofInt 1) then (tolTanhLow.mul r).min tolTanhBinade else tolTanhHigh))
    if x.m < 0 then r.neg else r

/-- SIGMOID with its cut-offs, unrounded and unflushed: EXP(x) below -16 (Table 4.2, R604). -/
def sigmoidInner (x : Dy) : Dy :=
  if (Dy.ofInt 18).le x then .ofInt 1
  else if x.lt (.ofInt (-16)) then expInner x
  else (sigmoidRef x).add (lineErr 7 x tolSig)

/-- 0.797884561 and 0.044715 rounded to 40 significand bits (R604). -/
def geluA : Dy := ((Dy.ofInt 797884561).div (.ofInt (10 ^ 9))).roundSig 40
def geluB : Dy := ((Dy.ofInt 44715).div (.ofInt (10 ^ 6))).roundSig 40

/-- The inner argument of GELU (R604). -/
def geluArg (x : Dy) : Dy := (geluA.mul (x.add (geluB.mul (x.mul (x.mul x))))).roundSig 40

/-- A built-in function of Table 4.2 on a finite nonzero input of at least the flush threshold (R96, R97). -/
def sfnFinite (code xb : Nat) (x : Dy) : SfnOut :=
  match code with
  | 0 =>
    if (Dy.ofInt 128).le x then .special pInf
    else if x.lt (.ofInt (-126)) then .real ⟨1, -1024⟩ false
    else let r := exp2Ref x; .real (r.add (lineErr 0 x (tolExp2.mul r))) false
  | 1 =>
    if (Dy.ofInt 128).le (x.mul ⟨log2e48, -47⟩) then .special pInf
    else if (x.mul ⟨log2e48, -47⟩).lt (.ofInt (-126)) then .real ⟨1, -1024⟩ false
    else .real (expInner x) false
  | 2 =>
    if x.m < 0 then .special fp32.nanBits
    else .real ((log2Ref x).add (lineErr 2 x tolLog2)) false
  | 3 =>
    let r := (Dy.ofInt 1).div x.abs
    let r := r.add (lineErr 3 x.abs (tolRcp.mul r))
    .real (if x.m < 0 then r.neg else r) (decide (x.m < 0))
  | 4 =>
    if x.m < 0 then .special fp32.nanBits
    else let r := (Dy.ofInt 1).div (sqrtRef x); .real (r.add (lineErr 4 x (tolRsqrt.mul r))) false
  | 5 =>
    if x.m < 0 then .special fp32.nanBits
    else let r := sqrtRef x; .real (r.add (lineErr 5 x (tolSqrt.mul r))) false
  | 6 => .real (tanhInner x) (decide (x.m < 0))
  | 7 => .real (sigmoidInner x) false
  | 8 => if (Dy.ofInt 18).le x then .special xb else .real (x.mul (sigmoidInner x)) (decide (x.m < 0))
  | 9 =>
    if (Dy.ofInt 8).le x then .special xb
    else if x.le (.ofInt (-8)) then .special nZero
    else
      let u := geluArg x
      if u.le (.ofInt (-10)) then .special nZero
      else .real ((x.mul ⟨1, -1⟩).mul ((Dy.ofInt 1).add (tanhInner u))) (decide (x.m < 0))
  | _ => .special fp32.nanBits

/-- Results for infinities (Table 4.3). -/
def sfnInf (code : Nat) (neg : Bool) : Nat :=
  match code, neg with
  | 0, false => pInf
  | 0, true => 0
  | 1, false => pInf
  | 1, true => 0
  | 2, false => pInf
  | 3, false => 0
  | 3, true => nZero
  | 4, false => 0
  | 5, false => pInf
  | 6, false => f32One
  | 6, true => f32One + nZero
  | 7, false => f32One
  | 7, true => 0
  | 8, false => pInf
  | 8, true => nZero
  | 9, false => pInf
  | 9, true => nZero
  | _, _ => fp32.nanBits

/-- Results for a zero of either sign (Table 4.3). -/
def sfnZero (code : Nat) (neg : Bool) : Nat :=
  let z := if neg then nZero else 0
  match code with
  | 0 => f32One
  | 1 => f32One
  | 2 => nInf
  | 3 => pInf + z
  | 4 => pInf + z
  | 7 => 0x3F000000
  | _ => z

/-- The input flush of R95: a magnitude below 2^-126 is a zero of its own sign. -/
def flushIn (b : Nat) : Nat := if natBits b 23 8 == 0 then natBits b 31 1 * 2 ^ 31 else b

/-- A rounded FP32 result of the block, its flags, and whether the output flush acted (UNIT_SFN_FTZ, R95). -/
structure SR where
  bits : Nat
  fl : Nat
  ftz : Nat
deriving DecidableEq, Repr

/-- Round once to FP32 and apply the output flush, the zero taking the sign of the true result (R94, R95). -/
def roundFlush (v : Val) (zneg gen : Bool) : SR :=
  match v with
  | .fin s m e =>
    if m == 0 then ⟨fp32.zeroBits zneg, 0, 0⟩
    else
      let r := fp32.rne (.fin s m e)
      if natBits r.bits 23 8 == 0 then ⟨fp32.zeroBits s, flUnderflow, 1⟩ else ⟨r.bits, 0, 0⟩
  | v => ⟨(fp32.rne v gen).bits, (fp32.rne v gen).fl, 0⟩

/-- A built-in function on FP32 bits, steps 2 to 4 of R94. -/
def sfnBuiltin (code x : Nat) : SR :=
  let xf := flushIn x
  match f32 xf with
  | .nan => ⟨fp32.nanBits, 0, 0⟩
  | .inf s => let b := sfnInf code s; ⟨b, if b == fp32.nanBits then flNanGen else 0, 0⟩
  | .fin s m e =>
    if m == 0 then ⟨sfnZero code s, 0, 0⟩
    else match sfnFinite code xf ⟨sInt s m, e⟩ with
      | .special b => ⟨b, if b == fp32.nanBits then flNanGen else 0, 0⟩
      | .real v z => roundFlush v.val z false

/-! ### Micro-programs (R99-R102) -/

/-- A slot's constants and step words: 64 bytes as a number (Table 4.4). -/
abbrev MpSlot := Nat

def mpConst (sl : MpSlot) (k : Nat) : Nat := natBits sl (32 * k) 32
def mpStep (sl : MpSlot) (k : Nat) : Nat := natBits sl (128 + 32 * k) 32
/-- A slot whose step words are all zero is empty (R99). -/
def mpEmpty (sl : MpSlot) : Bool := natBits sl 128 256 == 0

/-- Number of operands an OP of Table 4.5 reads. -/
def mpArity : Nat → Nat
  | 0 => 1
  | 3 => 3
  | 6 => 1
  | 7 => 1
  | _ => 2

/-- The operand codes a step reads. -/
def mpReads (w : Nat) : List Nat :=
  ([natBits w 8 3, natBits w 11 3, natBits w 14 3]).take (mpArity (natBits w 0 4))

/-- A step word with no reserved OP, no FUNC that is no built-in, no reserved bit (R102). -/
def mpWordOk (w : Nat) : Bool :=
  decide (natBits w 0 4 < 8) && (natBits w 0 4 != 0 || decide (natBits w 4 4 < 10)) && natBits w 20 12 == 0

/-- The checks of R102 on the steps that run, S0 to LAST; `seen` are the temporaries written so far. -/
def mpCheck (sl : MpSlot) : Nat → Nat → List Nat → Bool
  | 0, _, _ => false
  | fuel + 1, k, seen =>
    let w := mpStep sl k
    let ok := (mpReads w).all (fun o => o == 0 || decide (4 ≤ o) || seen.contains o)
    let dst := natBits w 17 2
    if natBit w 19 then ok && dst == 3
    else ok && mpCheck sl fuel (k + 1) (if dst < 3 then (dst + 1) :: seen else seen)

/-- Reserved bytes 48 to 63 of a slot are zero (Table 4.4). -/
def mpSpare (sl : MpSlot) : Bool := natBits sl 384 128 == 0

/-- A slot that may run: not empty, reserved bytes zero, every step word good, the steps that run in order (R102). -/
def mpValid (sl : MpSlot) : Bool :=
  !mpEmpty sl && mpSpare sl && (List.range 8).all (fun k => mpWordOk (mpStep sl k)) && mpCheck sl 8 0 []

/-- The block's arithmetic steps: one RNE rounding and the output flush (R101). -/
def flushResult (r : NR) : SR :=
  if natBits r.bits 23 8 == 0 && natBits r.bits 0 23 != 0 then ⟨natBits r.bits 31 1 * 2 ^ 31, r.fl ||| flUnderflow, 1⟩
  else ⟨r.bits, r.fl, if r.fl &&& flUnderflow == 0 then 0 else 1⟩

/-- One step's result. -/
def mpOp (w : Nat) (a b c : Nat) : SR :=
  match natBits w 0 4 with
  | 0 => sfnBuiltin (natBits w 4 4) a
  | 1 => flushResult (f32Add a b)
  | 2 => flushResult (f32Mul a b)
  | 3 => flushResult (f32Fma a b c)
  | 4 => flushResult (f32Max a b)
  | 5 => flushResult (f32Min a b)
  | 6 => if (f32 a).isNan then ⟨fp32.nanBits, 0, 0⟩ else ⟨natBits a 0 31, 0, 0⟩
  | _ => if (f32 a).isNan then ⟨fp32.nanBits, 0, 0⟩ else ⟨(natBits a 31 1 + 1) % 2 * 2 ^ 31 + natBits a 0 31, 0, 0⟩

/-- Steps in order to the one with LAST (R101): X, the temporaries T0-T2, flags and flushes so far. -/
def mpRun (sl : MpSlot) (x : Nat) : Nat → Nat → List Nat → Nat → Nat → SR
  | 0, _, _, fl, ftz => ⟨fp32.nanBits, fl, ftz⟩
  | fuel + 1, k, t, fl, ftz =>
    let w := mpStep sl k
    let rd (o : Nat) : Nat :=
      if o == 0 then x else if o < 4 then t.getD (o - 1) 0 else flushIn (mpConst sl (o - 4))
    let r := mpOp w (rd (natBits w 8 3)) (rd (natBits w 11 3)) (rd (natBits w 14 3))
    if natBit w 19 then ⟨r.bits, fl ||| r.fl, ftz + r.ftz⟩
    else mpRun sl x fuel (k + 1) (t.set (natBits w 17 2) r.bits) (fl ||| r.fl) (ftz + r.ftz)

/-- A function code of R93 on FP32 bits: a built-in, or a micro-program slot of the plane. -/
def sfnEval (slots : Nat → MpSlot) (code x : Nat) : SR :=
  if code < 10 then sfnBuiltin code x else mpRun (slots (code - 10)) (flushIn x) 8 0 [0, 0, 0] 0 0

/-- A function code that may run (R93): a built-in, or a valid micro-program. -/
def sfnCodeOk (slots : Nat → MpSlot) (code : Nat) : Bool := decide (code < 10) || mpValid (slots (code - 10))

/-- One element of an SFN entry (R94): widen, evaluate, narrow. -/
def sfnElem (slots : Nat → MpSlot) (code src dst numctl b : Nat) : SR :=
  let r := sfnEval slots code (widen src b)
  let n := narrowTo dst numctl r.bits
  ⟨n.bits, r.fl ||| n.fl, r.ftz⟩

/-! ### Fused epilogue (R104-R106) -/

/-- One output through the epilogue: z = fma(x, s, b), y = act(z), narrowed. -/
def epilogue (slots : Nat → MpSlot) (numctl : Nat) (scale bias : Option Nat) (act : Option Nat) (fmt x : Nat) : SR :=
  let z : NR := match scale, bias with
    | none, none => ⟨x, 0⟩
    | s, b => f32Fma x (s.getD f32One) (b.getD 0)
  let y : SR := match act with
    | none => ⟨z.bits, 0, 0⟩
    | some c => sfnEval slots c z.bits
  let n := narrowTo fmt numctl y.bits
  ⟨n.bits, z.fl ||| y.fl ||| n.fl, y.ftz⟩

/-! ### Row statistics (R110-R117) -/

/-- A statistics record (Table 4.9). -/
structure StatRec where
  count : Nat := 0
  mean : Nat := 0
  m2 : Nat := 0
  rms : Bool := false
  reserved : Nat := 0
deriving DecidableEq, Repr, Inhabited

def StatRec.ofBits (b : Nat) : StatRec := ⟨natBits b 0 32, natBits b 32 32, natBits b 64 32, natBit b 96, natBits b 97 31⟩
def StatRec.toBits (r : StatRec) : Nat := r.count + r.mean * 2 ^ 32 + r.m2 * 2 ^ 64 + bit r.rms * 2 ^ 96 + r.reserved * 2 ^ 97

/-- The clamp of R115, with the number of clamps it made. -/
def clampM2 (m2 : Nat) : Nat × Nat :=
  match f32 m2 with
  | .nan => (m2, 0)
  | .inf true => (0, 1)
  | .inf false => (m2, 0)
  | .fin s m _ => if m == 0 then (0, 0) else if s then (0, 1) else (m2, 0)

/-- A merge's outcome: the record, the flags, the clamps. -/
structure MR where
  r : StatRec
  fl : Nat
  cl : Nat
deriving DecidableEq, Repr

/-- Whether FP32 bits are a NaN or an infinity. -/
def f32NonFinite (b : Nat) : Bool := natBits b 23 8 == 0xFF

/-- Whether a record holds a NaN. -/
def StatRec.hasNan (r : StatRec) : Bool := (f32 r.mean).isNan || (f32 r.m2).isNan

/-- Merge of two records, both with elements, `a` first (R112, R117), the M2 it produces clamped (R115). COUNT of a record merged from two KINDs is
their sum, at most 2^32 - 1, which R117 does not state: the model's choice (log 106). -/
def statJoin (a b : StatRec) : MR :=
    let nanMean (k : Bool) : Nat := if k then 0 else fp32.nanBits
    let gen := if a.hasNan || b.hasNan then 0 else flNanGen
    if a.rms != b.rms then ⟨⟨min (a.count + b.count) (2 ^ 32 - 1), nanMean a.rms, fp32.nanBits, a.rms, 0⟩, gen, 0⟩
    else if 2 ^ 32 ≤ a.count + b.count then ⟨⟨2 ^ 32 - 1, nanMean a.rms, fp32.nanBits, a.rms, 0⟩, gen, 0⟩
    else
      let n := a.count + b.count
      if a.rms then
        let s := f32Add a.m2 b.m2
        let c := clampM2 s.bits
        ⟨⟨n, 0, c.1, true, 0⟩, s.fl ||| (if c.2 == 0 then 0 else flStatClamp), c.2⟩
      else
        let w := f32Div (f32OfNat b.count) (f32OfNat n)
        let d := f32Sub b.mean a.mean
        let mean := f32Fma d.bits w.bits a.mean
        let t := f32Mul d.bits w.bits
        let u := f32Mul t.bits (f32OfNat a.count)
        let s := f32Add a.m2 b.m2
        let p := f32Mul u.bits d.bits
        let q := f32Add s.bits p.bits
        let c := clampM2 q.bits
        ⟨⟨n, mean.bits, c.1, false, 0⟩,
          w.fl ||| d.fl ||| mean.fl ||| t.fl ||| u.fl ||| s.fl ||| p.fl ||| q.fl ||| (if c.2 == 0 then 0 else flStatClamp), c.2⟩

/-- Merge of two records, `a` first (R112): the count tests, the merge. -/
def statMerge (a b : StatRec) : MR :=
  if b.count == 0 then ⟨a, 0, 0⟩
  else if a.count == 0 then ⟨b, 0, 0⟩
  else statJoin a b

/-- A merge of two records that a MERGE reads: each M2 read is clamped first (R115). A record returned whole beside one of COUNT 0 is copied bit for
bit (R112) and neither clamped nor flagged: the two rules differ there, and this is the model's choice (log 106). -/
def statMergeRead (a b : StatRec) : MR :=
  if b.count == 0 then ⟨a, 0, 0⟩
  else if a.count == 0 then ⟨b, 0, 0⟩
  else
    let ca := clampM2 a.m2
    let cb := clampM2 b.m2
    let m := statJoin { a with m2 := ca.1 } { b with m2 := cb.1 }
    ⟨m.r, m.fl ||| (if ca.2 + cb.2 == 0 then 0 else flStatClamp), m.cl + ca.2 + cb.2⟩

/-- NAN_GEN where an element is infinite: its record is NaN (R117). -/
def infGen (x : Nat) : Nat := if (f32 x).isNan || !f32NonFinite x then 0 else flNanGen

/-- The record of one element (R112, R117). -/
def statElem (x : Nat) : StatRec :=
  if f32NonFinite x then ⟨1, fp32.nanBits, fp32.nanBits, false, 0⟩ else ⟨1, x, 0, false, 0⟩

/-- One element into a lane of ACC. -/
def accLane (r : MR) (x : Nat) : MR :=
  let m := statMerge r.r (statElem x)
  ⟨m.r, r.fl ||| m.fl ||| infGen x, r.cl + m.cl⟩

/-- One element into a lane of RMS_ACC: m2 = fma(x, x, m2) (R113, R117). -/
def rmsLane (r : MR) (x : Nat) : MR :=
  if f32NonFinite x then ⟨⟨r.r.count + 1, 0, fp32.nanBits, true, 0⟩, r.fl ||| infGen x, r.cl⟩
  else
    let f := f32Fma x x r.r.m2
    ⟨⟨r.r.count + 1, 0, f.bits, true, 0⟩, r.fl ||| f.fl, r.cl⟩

/-- The tree of R77 over 64 lane records. -/
def statTree (lanes : List MR) : MR :=
  let mg (a b : MR) : MR :=
    let m := statMerge a.r b.r
    ⟨m.r, a.fl ||| b.fl ||| m.fl, a.cl + b.cl + m.cl⟩
  let level (h : Nat) (s : List MR) : List MR := (s.take h).zipWith mg ((s.drop h).take h)
  (level 1 (level 2 (level 4 (level 8 (level 16 (level 32 lanes)))))).headD ⟨{}, 0, 0⟩

/-- FINISH of one record (R115, R116): MEAN, VAR, RSTD, COUNT; flags; clamps; flushes. -/
def statFinish (r : StatRec) (eps : Nat) : List Nat × Nat × Nat × Nat :=
  let c := clampM2 r.m2
  let var : NR := if r.count == 0 then ⟨0, 0⟩ else f32Div c.1 (f32OfNat r.count)
  let ve : NR := if r.count == 0 then ⟨eps, 0⟩ else f32Add var.bits eps
  let rs := sfnBuiltin 4 ve.bits
  let mean := if r.count == 0 || r.rms then 0 else if (f32 r.mean).isNan then fp32.nanBits else r.mean
  ([mean, var.bits, rs.bits, f32OfNat r.count],
    var.fl ||| ve.fl ||| rs.fl ||| (if c.2 == 0 then 0 else flStatClamp), c.2, rs.ftz)

end Sys2Proof.Machine
end

