-- ==== Sys2Proof/Machine/Operands.lean ====
section
/-! DEFINITION. A compute unit's operand forms: the fields of a plane record and of a sequencer entry (Tables 2.2, 2.4, 6.4, 6.5),
operand-store lines and windows (R39, R68, R70), Topsoil addresses (R38), ports and beats (R34), counters (R41, R42). -/

namespace Sys2Proof.Machine

/-! ### Plane records (Tables 6.4, 6.5, 6.6) -/

def recEntry (cfg i : Nat) : Nat := natBits cfg (0x2000 + 256 * i) 256
def recCtr (cfg i : Nat) : Nat := natBits cfg (0xA00 + 128 * i) 128
def recEpi (cfg i : Nat) : Nat := natBits cfg (0x1200 + 128 * i) 128
def recMp (cfg i : Nat) : MpSlot := natBits cfg (0x1400 + 512 * i) 512
def recIn (cfg n : Nat) : Nat := natBits cfg (0x200 + 128 * n) 128
def recOut (cfg n : Nat) : Nat := natBits cfg (0x600 + 128 * n) 128
def recUid (cfg : Nat) : Nat := natBits cfg 0 14
def recLplane (cfg : Nat) : Nat := natBits cfg 14 3
def recEntries (cfg : Nat) : Nat := natBits cfg 24 7
def recJoin (cfg : Nat) : Nat := natBits cfg 32 16
def recNumctl (cfg : Nat) : Nat := natBits cfg 64 64
def recSpillBase (cfg : Nat) : Nat := natBits cfg 128 22
def recSpillLines (cfg : Nat) : Nat := natBits cfg 150 13
def recOpsBase (cfg : Nat) : Nat := natBits cfg 176 12
def recOpsLines (cfg : Nat) : Nat := natBits cfg 188 13
def recTsVbase (cfg : Nat) : Nat := natBits cfg 256 56
def recTsGranules (cfg : Nat) : Nat := natBits cfg 312 7

def bindBound (b : Nat) : Bool := natBit b 0
def bindLive (b : Nat) : Bool := natBit b 1
def bindCarry (b : Nat) : Bool := natBit b 2
def bindXmod (b : Nat) : Bool := natBit b 3
def bindSeat (b : Nat) : Nat := natBits b 4 3
def bindGroup (b : Nat) : Nat := natBits b 8 16
def bindMember (b : Nat) : Nat := natBits b 24 3
def bindBuf (b : Nat) : Nat := natBits b 32 6
def bindWd (b : Nat) : Nat := natBits b 48 16

/-! ### Sequencer entries (Table 2.2) -/

def enInReq (e : Nat) : Nat := natBits e 0 8
def enInPop (e : Nat) : Nat := natBits e 8 8
def enOutMask (e : Nat) : Nat := natBits e 16 8
def enDueCtr (e : Nat) : Nat := natBits e 24 4
def enDueOp (e : Nat) : Nat := natBits e 28 2
def enAdvCtr (e : Nat) : Nat := natBits e 32 4
def enAdvEn (e : Nat) : Bool := natBit e 36
def enLoopEn (e : Nat) : Bool := natBit e 37
def enLoopCtr (e : Nat) : Nat := natBits e 38 4
def enLoopTo (e : Nat) : Nat := natBits e 42 6
def enPredEn (e : Nat) : Bool := natBit e 48
def enPredSrc (e : Nat) : Nat := natBits e 49 4
def enPredNeg (e : Nat) : Bool := natBit e 53
def enEnd (e : Nat) : Bool := natBit e 54
def enSkipTo (e : Nat) : Nat := natBits e 55 6
def enSkipEn (e : Nat) : Bool := natBit e 61
def enClass (e : Nat) : Nat := natBits e 64 4
def enFormat (e : Nat) : Nat := natBits e 68 4
def enSrcA (e : Nat) : Nat := natBits e 72 12
def enSrcB (e : Nat) : Nat := natBits e 84 12
def enDst (e : Nat) : Nat := natBits e 96 12
/-- LEN, 0 standing for 4,096. -/
def enLen (e : Nat) : Nat := if natBits e 108 12 = 0 then 4096 else natBits e 108 12
def enFlags (e : Nat) : Nat := natBits e 120 8
def enTsBase (e : Nat) : Nat := natBits e 128 22
def enTsCtrA (e : Nat) : Nat := natBits e 150 4
def enTsCtrB (e : Nat) : Nat := natBits e 154 4
def enTsStrideA (e : Nat) : Nat := natBits e 160 16
def enTsStrideB (e : Nat) : Nat := natBits e 176 16
def enPsetDst (e : Nat) : Nat := natBits e 192 4
def enPsetEn (e : Nat) : Bool := natBit e 196
def enPsetOp (e : Nat) : Nat := natBits e 197 3
def enPsetPort (e : Nat) : Nat := natBits e 200 3
def enPsetCa (e : Nat) : Nat := natBits e 203 4
def enPsetCb (e : Nat) : Nat := natBits e 207 4
/-- Formats of an MPASS's operands: FORMAT [5:4] and [7:6] of word 1 (Table 2.3). -/
def enFmtA (e : Nat) : Nat := natBits e 68 2
def enFmtB (e : Nat) : Nat := natBits e 70 2
/-- WIDE and TO_PORT of an MPASS (Table 2.3); EPI_EN and EPI_SEL (R104). -/
def enWide (e : Nat) : Bool := natBit (enFlags e) 0
def enToPort (e : Nat) : Bool := natBit (enFlags e) 1
def enEpiEn (e : Nat) : Bool := natBit (enFlags e) 2
def enEpiSel (e : Nat) : Nat := natBits (enFlags e) 3 2
/-- Source and target formats of VEC and SFN: FLAGS[7:4], FLAGS[3:0] (R76, R93). -/
def enSrcFmt (e : Nat) : Nat := natBits (enFlags e) 4 4
def enDstFmt (e : Nat) : Nat := natBits (enFlags e) 0 4

/-- The ports of a mask, in ascending number. -/
def maskPorts (m : Nat) : List Nat := (List.range 8).filter fun n => natBit m n

/-! ### Epilogue descriptors (Table 4.7) -/

def epBiasLine (d : Nat) : Nat := natBits d 0 12
def epBiasEn (d : Nat) : Bool := natBit d 12
def epScaleLine (d : Nat) : Nat := natBits d 13 12
def epScaleMode (d : Nat) : Nat := natBits d 25 2
def epAct (d : Nat) : Nat := natBits d 27 4
def epActEn (d : Nat) : Bool := natBit d 31
def epOutFmt (d : Nat) : Nat := natBits d 32 4

/-! ### Widths and ranges -/

/-- Bits of an element of a format code (Table 3.1). -/
def codeBits (c : Nat) : Nat :=
  if c = 0 then 32 else if c = 1 then 16 else if c ≤ 5 then 8 else if c ≤ 7 then 6 else if c = 8 then 4 else 160

/-- Lines that `n` vectors of 64 elements of a format fill. -/
def vecLines (c n : Nat) : Nat := (n * codeBits c + 7) / 8

/-- Two ranges of operand-store lines, counted mod 4,096, share a line. -/
def linesMeet (x y : Nat × Nat) : Bool :=
  decide (0 < x.2) && decide (0 < y.2) &&
    (decide ((y.1 + 4096 - x.1 % 4096) % 4096 < x.2) || decide ((x.1 + 4096 - y.1 % 4096) % 4096 < y.2))

/-- A range lies in a plane's operand-store window (R39). -/
def inOpsWindow (cfg : Nat) (r : Nat × Nat) : Bool :=
  decide ((r.1 + 4096 - recOpsBase cfg) % 4096 + r.2 ≤ recOpsLines cfg)

/-- Bytes of one block of a row of an MX element format (R70). -/
def mxBlockBytes (tag : Nat) : Nat := codeBits tag * 4

/-- Lines of an MPASS operand of `n` blocks: format code of Table 2.3, tag of its first line (R70). -/
def passLines (fmt tag n : Nat) : Nat :=
  if fmt = 2 then (n + 1) / 2 + n * mxBlockBytes tag / 2 else if fmt = 3 then n * 32 else n * 16

/-- A tag that names an MX element format (R69). -/
def mxTag (t : Nat) : Bool := decide (4 ≤ t) && decide (t ≤ 8)

/-- Tag of a unit's operand-store line. -/
def State.opTag (s : State) (u line : Nat) : Nat := (s.opLine u (line % 4096)).tag

/-- Output format code of an MPASS's results: 9 WIDE, the epilogue's OUT_FMT, else FP32. -/
def passOut (cfg e : Nat) : Nat :=
  if enWide e then 9 else if enEpiEn e then epOutFmt (recEpi cfg (enEpiSel e)) else 0

/-- Lines that a pass's 1,024 results fill. -/
def passOutLines (cfg e : Nat) : Nat := vecLines (passOut cfg e) 16

/-- Operations of a VEC entry that read B (Table 2.3). -/
def vecReadsB (op : Nat) : Bool := decide (op ≤ 7) || op == 11

/-- The operand-store ranges an entry reads and writes (R39): those of SRC_A, SRC_B and DST with their lengths, the epilogue's lines. -/
def State.entryRanges (s : State) (u cfg e : Nat) : List (Nat × Nat) × List (Nat × Nat) :=
  let n := enLen e
  let a := enSrcA e
  let b := enSrcB e
  let d := enDst e
  match enClass e with
  | 1 =>
    let ep := recEpi cfg (enEpiSel e)
    ([(a, passLines (enFmtA e) (s.opTag u a) n), (b, passLines (enFmtB e) (s.opTag u b) n)]
      ++ (if enEpiEn e && epBiasEn ep then [(epBiasLine ep, 2)] else [])
      ++ (if enEpiEn e && epScaleMode ep != 0 then [(epScaleLine ep, 2)] else []),
      if enToPort e then [] else [(d, passOutLines cfg e)])
  | 2 =>
    let op := enFormat e
    let sf := enSrcFmt e
    let df := enDstFmt e
    if op = 8 then
      ([(a, vecLines sf n)] ++ (if mxTag sf then [(b, (2 * n + 63) / 64)] else []),
        [(d, vecLines df n)] ++ (if mxTag df then [(b, (2 * n + 63) / 64)] else []))
    else if op = 0 ∧ df = 9 then ([(a, vecLines sf n), (d, vecLines 9 n)], [(d, vecLines 9 n)])
    else
      ([(a, vecLines sf n)] ++ (if vecReadsB op then [(b, vecLines (if op = 11 then 0 else sf) n)] else [])
        ++ (if op = 3 then [(d, vecLines 0 n)] else []), [(d, vecLines 0 n)])
  | 3 => ([(a, vecLines (enSrcFmt e) n)], [(d, vecLines (enDstFmt e) n)])
  | 4 => ([], [(d, n)])
  | 5 => ([(a, n)], [])
  | 8 => ([(a, n)], [])
  | 9 => ([], [(d, n)])
  | 10 =>
    -- a ROUTE's payload lines depend on its descriptor and are checked as it is read
    if enFormat e = 3 then ([(b, n)], []) else ([], [])
  | 11 =>
    match enFormat e with
    | 0 => ([(a, vecLines (enDstFmt e) n), (d, 1)], [(d, 1)])
    | 1 => ([(a, vecLines (enDstFmt e) n), (d, 1)], [(d, 1)])
    | 2 => ([(a, 16 * n), (d, 16 * n)], [(d, 16 * n)])
    | _ => ([(a, 16 * n), (b, 1)], [(d, 16 * n)])
  | _ => ([], [])

/-! ### Operand-store contents -/

/-- `w` bits at bit `pos` counted from a line, with the poison of the lines they lie in. -/
def State.opBits (s : State) (u line pos w : Nat) : Nat × Bool :=
  let l := pos / 512
  let a := s.opLine u ((line + l) % 4096)
  let o := pos % 512
  if o + w ≤ 512 then (natBits a.data.toNat o w, a.poison)
  else
    let b := s.opLine u ((line + l + 1) % 4096)
    (natBits (a.data.toNat + b.data.toNat * 2 ^ 512) o w, a.poison || b.poison)

/-- Element `k` of a packed operand of a format code. -/
def State.opElem (s : State) (u line code k : Nat) : Nat × Bool := s.opBits u line (k * codeBits code) (codeBits code)

/-- Lines that packed values of `w` bits fill, the last padded with zeros; a line is poisoned by any value it holds part of. -/
def packLines (w : Nat) (rs : List (Nat × Bool)) : List (Line × Bool) :=
  let total := w * rs.length
  let whole := rs.foldr (fun r acc => r.1 % 2 ^ w + acc * 2 ^ w) 0
  (List.range ((total + 511) / 512)).map fun j =>
    (BitVec.ofNat 512 (natBits whole (512 * j) 512),
      ((rs.drop (512 * j / w)).take ((512 * (j + 1) + w - 1) / w - 512 * j / w)).any (·.2))

/-- Write lines with a tag from a line on, mod 4,096. -/
def State.putOps (s : State) (u line tag : Nat) (ls : List (Line × Bool)) : State :=
  (ls.zipIdx).foldl (fun s p => s.setOpLine u ((line + p.2) % 4096) { data := p.1.1, tag := tag, poison := p.1.2 }) s

/-- A line of free bits: what the manual leaves undefined where the machine goes on (log 2). -/
def State.takeFreeLine (s : State) : Line × State :=
  (BitVec.ofNat 512 ((List.range 8).foldl (fun a i => a + (Config.freeWord (s.fresh + i)).toNat * 2 ^ (64 * i)) 0),
    { s with fresh := s.fresh + 8 })

/-! ### Topsoil (R38, R157) -/

/-- A unit's Topsoil slice as a module offset (Table 1.2). -/
def sliceBase (u : Nat) : Nat := seatOf u * 2 ^ 32 + u % 1024 * 2 ^ 22

/-- The Topsoil byte offset of beat 0 of a TS_LOAD or TS_STORE (R38). -/
def tsStart (ctrs : List Nat) (e : Nat) : Nat :=
  enTsBase e + 64 * (ctrs.getD (enTsCtrA e) 0 * enTsStrideA e + ctrs.getD (enTsCtrB e) 0 * enTsStrideB e)

/-- A Topsoil offset lies in the plane's window and the slice. -/
def inTsWindow (pl : Plane) (o : Nat) : Bool :=
  decide (pl.tsBase ≤ o) && decide (o < pl.tsBase + recTsGranules pl.cfg * 65536) && decide (o < 0x400000)

/-! ### Counters (R41, R42) -/

def ctrConst (c : Nat) : Nat := natBits c 0 32
def ctrShape (c : Nat) : Bool := natBit c 32
def ctrLoadOn (c : Nat) : Bool := natBit c 33
def ctrShift (c : Nat) : Nat := natBits c 34 4
def ctrIdx (c : Nat) : Nat := natBits c 38 4
def ctrIdxEn (c : Nat) : Bool := natBit c 42
def ctrAddr (c : Nat) : Nat := natBits c 64 56

/-- The address of a counter's shape word while the counters stand as they do: that of the read that is due now (R41, R44). -/
def shapeAddr (cfg : Nat) (ctrs : List Nat) (k : Nat) : Nat :=
  ctrAddr (recCtr cfg k) + (if ctrIdxEn (recCtr cfg k) then 8 * ctrs.getD (ctrIdx (recCtr cfg k)) 0 else 0)

/-- The word asked for counter `k`: since when it is waited for, and its address, formed when its read fell due (R44, R51). -/
def Plane.asked (pl : Plane) (k : Nat) : Option (Nat × Nat) := (pl.shapeSince.find? fun x => x.1 == k).map (·.2)

/-- A program run begins at E0 (R44, R53, R54, R56): counters and predicates zero, constant limits in force, shape words asked for unless
static-rate mode is active. -/
def Plane.startRun (pl : Plane) (static : Bool) (now : Nat) : Plane :=
  let cs := (List.range 16).map (recCtr pl.cfg)
  { pl with
    pc := 0, inRun := true, committed := false, static := static, preds := 0
    ctrs := cs.map fun _ => 0
    limits := cs.map fun c => if ctrShape c && !static then none else some (ctrConst c)
    nextLimits := cs.map fun _ => none
    shapeSince := (cs.zipIdx.filter fun p => ctrShape p.1 && !static).map fun p => (p.2, now, shapeAddr pl.cfg [] p.2)
    shapeTried := [] }

/-- An advance (R42): at the limit the counter wraps to zero; a LOAD_ON 1 shape counter then takes the limit read ahead, or waits. -/
def Plane.advance (pl : Plane) (k now : Nat) : Plane :=
  let c := pl.ctrs.getD k 0
  let cfg := recCtr pl.cfg k
  let again := ctrShape cfg && ctrLoadOn cfg && !pl.static
  match pl.limits.getD k none with
  | none => pl
  | some l =>
    let wrap := decide (l ≤ c + 1)
    let c' := if wrap then 0 else c + 1
    let pl := { pl with ctrs := pl.ctrs.set k c' }
    let pl := if wrap && again then
        { pl with limits := pl.limits.set k (pl.nextLimits.getD k none), nextLimits := pl.nextLimits.set k none }
      else pl
    -- the next limit is read one iteration ahead of the wrap that will use it (R44)
    let due := match pl.limits.getD k none with
      | none => true
      | some l' => decide (l' ≤ c' + 1)
    if again && due && (pl.nextLimits.getD k none).isNone && !pl.shapeSince.any (fun p => p.1 == k) then
      { pl with shapeSince := pl.shapeSince ++ [(k, now, shapeAddr pl.cfg pl.ctrs k)] }
    else pl

/-- Counters whose limit or value an entry uses (R44). A field that is not in use names none: DUE_CTR with DUE_OP 0, ADV_CTR without ADV_EN, LOOP_CTR
without LOOP_EN, the Topsoil counters outside TS_LOAD and TS_STORE, PSET_CA and PSET_CB outside PSET_OP 3; the manual does not say, and this is the
model's choice (log 104). -/
def namedCtrs (e : Nat) : List Nat :=
  (if enDueOp e != 0 then [enDueCtr e] else []) ++ (if enAdvEn e then [enAdvCtr e] else [])
    ++ (if enLoopEn e then [enLoopCtr e] else [])
    ++ (if enClass e == 4 || enClass e == 5 then [enTsCtrA e, enTsCtrB e] else [])
    ++ (if enPsetEn e && enPsetOp e == 3 then [enPsetCa e, enPsetCb e] else [])

/-- Every shape load the entry depends on has completed (R44, R48). -/
def Plane.shapesReady (pl : Plane) (e : Nat) : Bool := (namedCtrs e).all fun k => (pl.limits.getD k none).isSome

/-- DUE_OP (Table 2.2). -/
def Plane.due (pl : Plane) (e : Nat) : Bool :=
  let c := pl.ctrs.getD (enDueCtr e) 0
  match enDueOp e with
  | 0 => true
  | 1 => match pl.limits.getD (enDueCtr e) none with
    | some l => decide (c < l)
    | none => false
  | 2 => c == 0
  | _ => c != 0

/-! ### Ports -/

/-- An early beat: of the rig that comes next (R34). -/
def earlyBeat (ep : Nat) (b : Beat) : Bool := !b.mark && b.epoch == (ep + 1) % 16

/-- The place of a port's head beat: early beats are held aside until the plane switches (R34, R176). -/
def State.headIdx (s : State) (u p n : Nat) : Nat :=
  ((s.inPort u p n).queue.findIdx? fun b => !earlyBeat (s.plane u p).epoch b).getD (s.inPort u p n).queue.length

/-- A port's head beat when it is accepted: not a marker, of the plane's epoch (R34, R174). -/
def State.headBeat (s : State) (u p n : Nat) : Option Beat :=
  match (s.inPort u p n).queue[s.headIdx u p n]? with
  | none => none
  | some b => if !b.mark && b.epoch == (s.plane u p).epoch then some b else none

/-- A port holds a marker at its head (R174). -/
def State.headMark (s : State) (u p n : Nat) : Bool :=
  ((s.inPort u p n).queue[s.headIdx u p n]?).any fun b => b.mark

/-- Every port of a mask holds an accepted head beat. -/
def State.headsReady (s : State) (u p mask : Nat) : Bool := (maskPorts mask).all fun n => (s.headBeat u p n).isSome

/-- Every port of a mask holds a credit. -/
def State.creditsReady (s : State) (u p mask : Nat) : Bool := (maskPorts mask).all fun n => decide (0 < (s.outPort u p n).credits)

/-- The schedule in force (R160, R168): none for a unit with one plane. -/
def State.foldPos (s : State) (u : Nat) : Nat := s.getF .UNIT_FOLD_CTRL_CUR (unitOff u)

/-- The plane a unit issues from: the current schedule entry's, or a unit's only valid plane. -/
def State.curPlane (s : State) (u : Nat) : Nat :=
  match (s.unit u).folds with
  | [] => ((List.range 8).find? fun p => (s.plane u p).valid).getD 0
  | f :: _ => ((s.unit u).folds.getD (s.foldPos u) f).1

/-- Nothing fires while the unit is halted, offline or retired, its seat asleep, or the module fenced (Table 2.10, R501, R526). -/
def State.unitHalted (s : State) (u : Nat) : Bool :=
  s.flag .UNIT_CTRL_HALT (unitOff u) || s.flag .UNIT_CTRL_OFFLINE (unitOff u) || (s.unit u).retired || s.fenced || s.asleep (seatOf u)

/-- The sequencer may treat an entry of the plane. -/
def State.mayIssue (s : State) (u p : Nat) : Bool :=
  let pl := s.plane u p
  !s.unitHalted u && pl.valid && pl.eligible && pl.inRun

end Sys2Proof.Machine
end

