-- ==== Sys2Proof/Machine/Snap.lean ====
section
/-! DEFINITION. Snapshot records (R560, Table 19.6): which registers a latch's records hold, in which order, and a record's bytes. The order of
records is the model's (log 80): the module's registers by offset, then each seat's, then each unit's; a register shown through a view selector has
one record for each instance, in the order of instances. -/

namespace Sys2Proof.Machine

/-- The block of Table 19.4 whose chapter defines the registers of the region holding an offset of the PF window; 0 for IDENT or no
listed block (R548). -/
def blockCode (off : Nat) : Nat :=
  if off < 0x00100000 then 0
  else if off < 0x00210000 then 0x0F
  else if off < 0x00220000 then 0x11
  else if off < 0x00400000 then 0x0F
  else if off < 0x00800000 then 0x10
  else if off < 0x01000000 then 0x0C
  else if off < 0x01800000 then 0x0A
  else if off < 0x02000000 then 0x04
  else if off < 0x04000000 then 0x0E
  else if off < 0x04B00000 then 0x08
  else if off < 0x04C00000 then 0x0D
  else if off < 0x04D00000 then 0x09
  else if off < 0x04E00000 then 0x07
  else if off < 0x08000000 then 0x06
  else if 0x10000000 ≤ off then 0
  else
    let r := (off - seatBase) % seatStride
    if r < 0x10000 then 0
    else if r < 0x20000 then 0x02
    else if r < 0x30000 then 0x03
    else if r < 0x40000 then 0x05
    else if r < 0x50000 then 0x07
    else if r < 0x60000 then 0x0B
    else if r < 0x400000 then 0
    else if r < 0x800000 then 0x01
    else 0

/-- Every snapshot register of the canonical window, members of arrays apart, offsets rising. -/
def snapOffsets : List Nat :=
  let all := (snapRegs ++ [Reg.SL_STATES_0, Reg.SL_STATES_1, Reg.SL_STATES_2]).flatMap fun r =>
    match descOf r with
    | some d => (List.range d.count).map fun i => d.off + d.stride * i
    | none => []
  all.foldr insertNat []
where
  /-- Insert an offset in order. -/
  insertNat (n : Nat) : List Nat → List Nat
    | [] => [n]
    | m :: r => if n < m then n :: m :: r else if n = m then m :: r else m :: insertNat n r

/-- Whether a view selector chooses the instance a register shows. -/
def viewed (off : Nat) : Bool := (descOf off).any fun d => d.sel != 0

/-- Runs of consecutive registers, at most six to a record: the first offset and the number. -/
def snapRuns : List Nat → List (Nat × Nat)
  | [] => []
  | o :: r => match snapRuns r with
    | (p, n) :: t => if p = o + 8 ∧ n < 6 then (o, n + 1) :: t else (o, 1) :: (p, n) :: t
    | [] => [(o, 1)]

/-- A record: which part holds it, the first offset, the number of registers. -/
structure SnapRun where
  unit : Bool
  seat : Bool
  insts : Nat
  first : Nat
  count : Nat
deriving DecidableEq, Repr

/-- The runs of the window, in order: module, seat, unit. -/
def snapLayout : List SnapRun :=
  (snapRuns (snapOffsets.filter fun o => !viewed o) ++ snapRuns (snapOffsets.filter viewed)).map fun p =>
    { unit := decide (seatBase + 0x400000 ≤ p.1), seat := decide (seatBase ≤ p.1) && decide (p.1 < seatBase + 0x400000),
      insts := if viewed p.1 then 256 else 1, first := p.1, count := p.2 }

/-- Pick the `n`-th record of runs repeated over their instances: the run and the instance. -/
def nthRun : List SnapRun → Nat → Option (SnapRun × Nat)
  | [], _ => none
  | r :: t, n => if n < r.insts then some (r, n) else nthRun t (n - r.insts)

/-- Records that a list of runs takes. -/
def runTotal (l : List SnapRun) : Nat := l.foldl (fun a r => a + r.insts) 0

/-- The runs of a shadow: module, seat, unit; in M3 the always-on blocks' alone. -/
def Shadow.runs (sh : Shadow) : List SnapRun × List SnapRun × List SnapRun :=
  let l := snapLayout
  let m := l.filter fun r => !r.unit && !r.seat
  if sh.standby then (m.filter fun r => retainedReg r.first, [], [])
  else (m, l.filter (·.seat), l.filter (·.unit))

/-- The number of records, the header among them. -/
def Shadow.records (sh : Shadow) : Nat :=
  let (m, st, u) := sh.runs
  1 + runTotal m + 8 * runTotal st + 8192 * runTotal u

/-- A latched value: a sleeping seat's register that is not saved reads zero. -/
def Shadow.value (sh : Shadow) (seat : Option Nat) (key : Nat) : Word :=
  if seat.any (natBit sh.asleep) && !savedKey key then 0 else (sh.regs.find? fun p => p.1 == key).elim (resetWord key) (·.2)

/-- The bytes of record `n` (Table 19.6). -/
def Snapshot.record (x : Snapshot) (n self : Nat) : List Nat :=
  let sh := x.shadow
  let late := 2 * bit sh.trig.late
  let regs := fun (r : SnapRun) (k id d : Nat) (seat : Option Nat) =>
    let key := fun (i : Nat) => r.first + d + 8 * i + inst k
    snapBytes sh.trig.id 1 (blockCode (r.first + d)) id (r.first + d) r.count (bit (seat.any (natBit sh.asleep)) + late + 4 * bit x.trunc)
      ((List.range r.count).flatMap fun i => packBytes [(8, (sh.value seat (key i)).toNat)])
  let (m, st, u) := sh.runs
  if n = 0 then
    snapBytes sh.trig.id 0 0 0 0 0 (late + 4 * bit x.trunc)
      (packBytes [(8, sh.trig.target), (8, sh.time), (2, self), (1, sh.trig.source), (1, sh.trig.scope), (4, sh.records), (2, sh.merged), (2, sh.skipped)])
  else
    let n := n - 1
    let nm := runTotal m
    let ns := runTotal st
    let nu := runTotal u
    if n < nm then (nthRun m n).elim [] fun p => regs p.1 p.2 0 0 none
    else
      let n := n - nm
      if n < 8 * ns then (nthRun st (n % ns)).elim [] fun p => regs p.1 p.2 (n / ns) (seatOff (n / ns)) (some (n / ns))
      else
        let n := n - 8 * ns
        let j := n / nu
        let uid := j / 1024 * 2048 + j % 1024
        if j < 8192 then (nthRun u (n % nu)).elim [] fun p => regs p.1 p.2 uid (unitOff uid) (some (j / 1024)) else []

/-- Word `w` of record `n` of a snapshot slot; zero beyond the slot's records (Table 19.10). -/
def State.snapWord (s : State) (slot n w : Nat) : Word :=
  match s.snap.slots.find? (fun p => p.1 == slot) with
  | some p => wordOf (p.2.record n s.self) w
  | none => 0

end Sys2Proof.Machine
end

