-- ==== Sys2Proof/Machine/Views.lean ====
section
/-! DEFINITION. Registers that show state kept elsewhere: what a read of each returns. Every other register reads as stored. -/

namespace Sys2Proof.Machine

/-- The unit whose frame an offset lies in (Table 2.7). -/
def uidOf (off : Nat) : Nat := (off - seatBase) / seatStride * 2048 + ((off - seatBase) % seatStride - 0x400000) / 0x1000

/-- Planes of a unit that hold a valid configuration, as PLANE_VALID shows them. -/
def State.planeValid (s : State) (u : Nat) : Nat := packBits ((List.range 8).map fun p => (1, bit (s.plane u p).valid))

/-- Engines busy: matrix, vector, special-function (Table 2.9). -/
def State.engBusy (s : State) (u : Nat) : Nat :=
  let busy := fun (e : Engine) => (s.unit u).inflight.any fun x => x.engines.contains e
  packBits [(1, bit (busy .matrix)), (1, bit (busy .vector)), (1, bit (busy .sfn))]

/-- UNIT_STATUS.STATE (Table 2.9): what the entry at the current plane's position waits for. -/
def State.unitState (s : State) (u : Nat) : Nat :=
  let d := unitOff u
  let p := s.curPlane u
  let pl := s.plane u p
  let e := recEntry pl.cfg pl.pc
  if s.flag .UNIT_CTRL_OFFLINE d || (s.unit u).retired then 6
  else if (s.flag .UNIT_CTRL_HALT d || s.fenced) && s.engBusy u == 0 then 5
  else if s.planeValid u = 0 then 0
  else if !s.mayIssue u p then 1
  else if !pl.shapesReady e then 4
  else if !pl.due e then 1
  else if !s.headsReady u p (enInReq e) then 2
  else if !s.creditsReady u p (enOutMask e) then 3
  else 1

/-- Context usage and limits of a virtual interface. -/
def State.ctxUsed (s : State) (vi : Nat) : Nat := (s.ctxs.filter fun p => p.2.held && p.2.vi == vi && p.2.valid).length
/-- Live entries a virtual interface admitted. -/
def State.slLive (s : State) (vi : Nat) : Nat := (s.entries.filter fun p => p.2.a.state != .free && p.2.a.vi == vi).length
/-- Reference count of a version (R335). -/
def State.refs (s : State) (v : Nat) : Nat := (s.entries.filter fun p => p.2.a.state != .free && p.2.b.version == v).length

/-- VICTX_ID, VICTX_RINGS and VICTX_LIMITS of an interface (Table 15.11). -/
def State.viId (s : State) (n : Nat) : Nat :=
  packBits [(8, n), (1, bit (s.vi n).enabled), (12, (s.vi n).slice), (16, (s.vi n).domain)]
def State.viRings (s : State) (n : Nat) : Nat := packBits [(13, (s.vi n).ringFirst), (15, (s.vi n).ringCount)]
def State.viLimits (s : State) (n : Nat) : Nat :=
  packBits [(9, (s.vi n).ctxMax), (9, s.ctxUsed n), (3, (s.vi n).prioMax), (15, s.getF .SL_VI_QUOTA_ENTRIES (inst n)), (15, s.slLive n)]

/-- A counter summed over the seats. -/
def State.sumSeats (s : State) (f : Fld) (c : Nat) : Nat := (List.range 8).foldl (fun a k => a + s.getF f (seatOff k + inst c)) 0

/-- VICTX registers for interface `vi` and context `c` (Table 15.11): a context the interface does not hold shows zero. -/
def State.victx (s : State) (vi reg c : Nat) : Option Word :=
  let x := s.ctx c
  let held := x.held && x.vi == vi && (x.valid || x.scrubbing)
  let w := fun (n : Nat) => some (BitVec.ofNat 64 (if held then n else 0))
  if reg = Reg.VICTX_ID then some (BitVec.ofNat 64 (s.viId vi))
  else if reg = Reg.VICTX_RINGS then some (BitVec.ofNat 64 (s.viRings vi))
  else if reg = Reg.VICTX_LIMITS then some (BitVec.ofNat 64 (s.viLimits vi))
  else if reg = Reg.VICTX_CTX_STATE then
    w (packBits [(1, bit x.valid), (1, bit x.tearing), (1, bit x.scrubbing), (1, bit x.span), (3, x.priority), (16, x.weight),
      (13, x.noticeCq), (15, x.master)])
  else if reg = Reg.VICTX_CTX_QUOTA_TS then w (s.getF .TIERS_CTX_QUOTA_TS_UNITS (inst c))
  else if reg = Reg.VICTX_CTX_QUOTA_SS then w (s.getF .TIERS_CTX_QUOTA_SS_UNITS (inst c))
  else if reg = Reg.VICTX_CTX_QUOTA_BR then w (s.getF .TIERS_CTX_QUOTA_BR_UNITS (inst c))
  else if reg = Reg.VICTX_CTX_USE_TS then w (s.getF .TIERS_CTX_USE_TS_UNITS (inst c))
  else if reg = Reg.VICTX_CTX_USE_SS then w (s.getF .TIERS_CTX_USE_SS_UNITS (inst c))
  else if reg = Reg.VICTX_CTX_USE_BR then w (s.getF .TIERS_CTX_USE_BR_UNITS (inst c))
  else if reg = Reg.VICTX_CTX_NS then w x.ns
  else if reg = Reg.VICTX_CTX_BYTES then w (s.sumSeats .STREAM_CTX_BYTES_COUNT c)
  else if reg = Reg.VICTX_CTX_WASTE then w (s.sumSeats .STREAM_CTX_WASTE_COUNT c)
  else if reg = Reg.VICTX_CTX_REFETCH then w (s.sumSeats .STREAM_CTX_REFETCH_COUNT c)
  else if reg = Reg.VICTX_CTX_REQS then w (s.ctxRequests c).length
  else if reg = Reg.VICTX_CTX_TEARDOWNS then some (s.regAt (Reg.VICTX_CTX_TEARDOWNS + inst vi))
  else none

/-- Registers of a unit's frame that show the sequencer (Tables 2.9, 2.11, 2.12, R60), plane `p` viewed. -/
def State.unitView (s : State) (reg off p : Nat) : Option Word :=
  let u := uidOf off
  let d := unitOff u
  let cur := s.curPlane u
  let pl := s.plane u p
  if reg = Reg.UNIT_ID then some (BitVec.ofNat 64 u)
  else if reg = Reg.UNIT_STATUS then
    some (BitVec.ofNat 64 (packBits [(3, s.unitState u), (3, cur), (4, (s.plane u cur).epoch), (1, bit (s.plane u cur).static),
      (3, s.engBusy u), (10, 0), (8, s.planeValid u)]))
  else if reg = Reg.SEQ_MODE then
    let fs := s.getF .SEQ_MODE_FORCE_STATIC d
    let st := bit (s.plane u cur).static
    -- a run start has taken the mode asked for on every valid plane; on a unit with none, none has since the last run (R56)
    let waits := ((List.range 8).any fun q => (s.plane u q).valid && bit (s.plane u q).static != fs) || (s.planeValid u == 0 && st != fs)
    some (BitVec.ofNat 64 (packBits [(1, fs), (1, st), (1, bit waits)]))
  else if reg = Reg.UNIT_PLANE_MAP then
    some (BitVec.ofNat 64 (packBits ((List.range 8).map fun q => (8, (s.plane u q).ctx))))
  else if reg = Reg.SEQ_PC then some (BitVec.ofNat 64 (packBits [(6, pl.pc), (1, bit pl.inRun), (25, 0), (32, pl.runs)]))
  else if reg = Reg.SEQ_PRED then some (BitVec.ofNat 64 pl.preds)
  else if reg = Reg.UNIT_PLANE_EPOCH then
    some (BitVec.ofNat 64 (packBits ((List.range 8).map fun q => (4, (s.plane u q).epoch))))
  else if reg = Reg.UNIT_WAVE then
    let bits := fun (f : Nat → Bool) => packBits ((List.range 8).map fun q => (1, bit (f q)))
    some (BitVec.ofNat 64 (packBits [(8, bits fun q => (s.plane u q).bank == 1), (8, bits fun q => (s.plane u q).idleReady),
      (8, bits fun q => (s.plane u q).wavePend), (8, bits fun n => bindLive (recIn pl.cfg n)),
      (8, bits fun n => s.headMark u p n)]))
  else if reg = Reg.UNIT_CFG_DATA then
    let q := s.plane u (p % 8)
    let streaming := s.rigs.any fun g => !g.2.closing && g.2.planes.any fun k => k.uid == u && k.pplane == p % 8 && !k.landed
    some (BitVec.ofNat 64 (natBits (if natBit p 3 then (if streaming then 0 else q.idle) else q.cfg) (64 * (p / 16)) 64))
  else if reg = Reg.UNIT_CLK then some (s.unitClk u)
  else if reg = Reg.UNIT_NUMCTL then some (BitVec.ofNat 64 (recNumctl pl.cfg))
  else if reg = Reg.SEQ_CTR then
    let n := (off - unitOff u - Reg.SEQ_CTR) / 8
    some (BitVec.ofNat 64 (packBits [(32, pl.ctrs.getD n 0), (32, (pl.limits.getD n none).getD 0)]))
  else none

/-- A load of the rig is in steps 2 to 4 on a seat (Table 6.9): not done, a plane record yet to land, or a slot group yet to be written. -/
def RigSt.loads (g : RigSt) (seat : Nat) : Bool :=
  !g.closing && g.tab.any (fun t => t.1 == seat) && (g.state == 1 || g.planes.any (fun k => seatOf k.uid == seat && !k.landed) ||
    g.groups.any fun k => k.seat == seat && !k.written && !k.carried)

/-- A seat's rig block (Table 6.14): its status, the rig-table entry shown, and the latest wave on the seat while it runs. -/
def State.rigView (s : State) (reg seat k : Nat) (stored : Word) : Word :=
  let num := fun (n : Nat) => BitVec.ofNat 64 n
  let here := fun (g : RigSt) => g.tab.any fun t => t.1 == seat
  let onSeat := fun (w : Wave) => here (s.rig w.outRig) || (w.inRig.map s.rig).any here
  let entry := (s.rigs.find? fun p => p.2.tab.contains (seat, k)).map (·.2)
  if reg = Reg.RIG_STATUS then
    num (packBits [(1, bit (s.rigs.any fun p => p.2.loads seat)), (7, (s.waves.filter onSeat).length),
      (7, (s.rigs.filter fun p => here p.2).length)])
  else if reg = Reg.RIG_WAVE_STATE then
    match (s.waves.filter onSeat).getLast? with
    | some w => num (packBits [(32, (w.pending.filter fun p => seatOf p.1 == seat).length), (32, (s.now - w.launched) / 1000)])
    | none => stored
  else match entry with
    | none => 0
    | some g =>
      if reg = Reg.RIG_TAB_ID then num g.rigId
      else if reg = Reg.RIG_TAB_STATE then
        num (packBits [(3, g.state), (8, g.ctx), (4, g.epoch), (1, bit g.recompile), (1, bit g.drain), (5, g.rotation), (8, g.rank), (16, g.waveSeq)])
      else
        num (packBits [(14, (g.planes.filter fun p => seatOf p.uid == seat).length),
          (18, (g.groups.foldl (fun a k => a + (k.entries.filter fun e => (e.1 % instStride - seatBase) / seatStride == seat).length) 0))])

/-- What the master of number `m` fetched of the logbook (R567): none yet, no such record, or a record. -/
def State.logFound (s : State) (m : Nat) : Option (Option LogRec) := (s.log.fetched.find? fun p => p.1 == m).map (·.2)

/-- Word `w` of the record that a master fetched (Table 19.10). -/
def State.logWord (s : State) (m w : Nat) : Word :=
  match s.logFound m with
  | some (some r) => wordOf (logBytes r) w
  | _ => 0

/-- LOG_STATUS as a master sees it: READY and NOT_FOUND are those of its own fetch. -/
def State.logStatus (s : State) (m : Nat) : Word :=
  let w := s.regAt Reg.LOG_STATUS
  match s.logFound m with
  | some (some _) => putBits w 1 2 1
  | some none => putBits w 1 2 2
  | none => putBits w 1 2 0

/-- The version block's registers for version `k` (Table 16.9). -/
def State.versionView (s : State) (reg k : Nat) : Nat :=
  let v := (s.wpkg.versions.find? fun (v : Version) => v.id == k).getD { id := k }
  if reg = Reg.WPKG_VER_STATE then
    packBits [(3, v.state), (16, v.model), (4, v.slot), (8, v.ctx),
      (1, bit (s.twin.twinVersions.any fun (t : Nat × Nat × Nat) => t.1 == k && t.2.1 == 2 && t.2.2 == v.root && v.state != 0)),
      (1, bit (s.wpkg.live.any fun p => p.2 == k)), (4, v.kvFmt), (15, s.refs k)]
  else if reg = Reg.WPKG_VER_TILES then packBits [(28, v.tiles), (28, v.verified)]
  else if reg = Reg.WPKG_VER_ROOT then v.root % 2 ^ 64
  else packBits [(20, v.vocab), (20, v.eos), (10, v.layers), (7, v.kvHeads), (4, v.dim32)]

/-- A model's live pointer (Table 16.9). -/
def State.liveView (s : State) (m : Nat) : Nat :=
  match s.wpkg.live.find? (fun p => p.1 == m) with
  | some p => packBits [(16, p.2), (1, 1)]
  | none => 0

/-- Retired compute units of a seat's BIST word (R590). -/
def State.bistWord (s : State) (seat w : Nat) : Nat := packBits ((List.range 64).map fun b => (1, bit (s.unit (seat * 2048 + 64 * w + b)).retired))

/-- BIST_STAT of a seat: retired compute units, retired service units, test runs. -/
def State.bistStat (s : State) (seat : Nat) : Nat :=
  packBits [(11, (s.units.filter fun p => seatOf p.1 == seat && !isService p.1 && p.2.retired).length),
    (5, (s.units.filter fun p => seatOf p.1 == seat && isService p.1 && p.2.retired).length), (16, s.board.testRuns)]

/-- What a read of a register returns before reserved bits are masked: `off` its PF offset, `k` the instance shown, `vi` the reader's
interface. -/
def State.view (s : State) (vi off k : Nat) : Word :=
  let c := canonOff off
  let reg := canonReg c
  let stored := s.regAt (off + inst k)
  let num := fun (n : Nat) => BitVec.ofNat 64 n
  if reg = Reg.NET_ID then num (packBits [(3, (off - seatBase) / seatStride), (1, (off - seatBase) / seatStride / 4)])
  else if reg = Reg.TIERS_RETIRED then num (s.tiers.frames.filter fun p => p.2.retired).length
  else if reg = Reg.ERR_STATUS then num (packBits [(1, bit s.stalled), (1, bit (s.err.backlog != []))])
  else if reg = Reg.ERR_RING_OCC then
    let high := ((List.range s.errHeld).filter fun i =>
      decide (2 ≤ (s.err.slots.find? (fun p => p.1 == (s.getF .ERR_RING_CONS_CONS + i) % 1024)).elim 0 (·.2.sev))).length
    num (packBits [(11, s.errHeld), (11, high), (17, s.err.backlog.length)])
  else if reg = Reg.ERR_HANDLING then
    let n := fun (f : Scope → Bool) => (s.err.handling.filter fun p => f p.1).length
    num (packBits [(15, n fun x => match x with | .request _ => true | _ => false),
      (9, n fun x => match x with | .context _ => true | _ => false), (1, bit (s.fenced && s.inFenceWindow))])
  else if reg = Reg.ERR_RING_ENTRY then
    let i := (off - Reg.ERR_RING_ENTRY) / 32
    match s.err.slots.find? (fun p => p.1 == i) with
    | some p => wordOf (errBytes p.2 s.self (s.getF .TWIN_ID_PAIR)) ((off - Reg.ERR_RING_ENTRY) % 32 / 8)
    | none => 0
  else if seatBase ≤ c ∧ (reg = Reg.RIG_STATUS ∨ reg = Reg.RIG_TAB_ID ∨ reg = Reg.RIG_TAB_STATE ∨ reg = Reg.RIG_TAB_COUNTS ∨ reg = Reg.RIG_WAVE_STATE) then
    s.rigView reg ((off - seatBase) / seatStride) k stored
  else if reg = Reg.SNAP_STATUS then
    num (packBits [(2, s.snap.shadows.length), (2, s.snap.newest), (1, bit (s.snap.shadows != []))])
  else if reg = Reg.SNAP_STORE_DATA then s.snapWord (k % 4) (k / 4) ((off - Reg.SNAP_STORE_DATA) / 8)
  else if reg = Reg.LOG_STATUS then s.logStatus k
  else if reg = Reg.LOG_DATA then s.logWord k ((off - Reg.LOG_DATA) / 8)
  else if reg = Reg.LOG_CALENDAR then num s.calendar
  else if reg = Reg.LOG_UTC_OFFSET then num s.board.utcOffset
  else if reg = Reg.LOG_HEAD then
    num (packBits [(32, s.log.journal.foldl (fun n (r : LogRec) => max n r.seq) 0),
      (32, s.log.journal.foldl (fun n (r : LogRec) => min n r.seq) ((s.log.journal.head?).elim 0 (·.seq)))])
  else if reg = Reg.SL_VI_USE then num (s.slLive k)
  else if reg = Reg.SL_STATES_0 then s.slStates 0
  else if reg = Reg.SL_STATES_1 then s.slStates 1
  else if reg = Reg.SL_STATES_2 then s.slStates 2
  else if reg = Reg.SL_ENTRY then wordOf (entryBytes (s.entry k)) ((off - Reg.SL_ENTRY) / 8)
  else if reg = Reg.SL_VER then putBits stored 0 15 (s.refs k)
  else if reg = Reg.WPKG_VER_STATE ∨ reg = Reg.WPKG_VER_TILES ∨ reg = Reg.WPKG_VER_ROOT ∨ reg = Reg.WPKG_VER_PARAMS then num (s.versionView reg k)
  else if reg = Reg.WPKG_MODEL_LIVE then num (s.liveView k)
  else if reg = Reg.SCAT_STATUS then
    let seat := (off - seatBase) / seatStride
    num (packBits [(10, (s.scat.rounds.filter fun (r : Round) => r.isOpen && seatOf r.uid == seat).length),
      (8, (s.scat.queues.filter fun (q : QueueSt) => q.seat == seat).length)])
  else if reg = Reg.COLL_STATUS then
    let seat := (off - seatBase) / seatStride
    num (packBits [(5, (s.coll.insts.filter fun (x : CollInst) => x.desc.seat == seat).length),
      (11, (s.coll.keys.filter fun (k : CollKey) => k.desc.seat == seat).length)])
  else if reg = Reg.FAB_TIME then num s.now
  else if reg = Reg.BIST_DATA then num (s.bistWord (k % 8) (k / 8 % 16))
  else if reg = Reg.BIST_STAT then num (s.bistStat (k % 8))
  else if reg = Reg.RAIL_STAT then (if 24 < k % 32 then 0 else s.regAt (off + inst (k % 32)))
  else if reg = Reg.FAB_SLICE then (if k = 0 then putBits stored 0 1 1 else stored)
  else if reg = Reg.FAB_RT_DATA then (if 575 < k % 1024 then 0 else stored)
  else if reg = Reg.HOSTVI_VI_CFG then num (s.viId k % 2 ^ 32 + s.viRings k * 2 ^ 32)
  else if reg = Reg.HOSTVI_VI_LIM then num (s.viLimits k)
  else if Reg.VICTX_ID ≤ c ∧ c < 0x00A00000 then (s.victx vi reg k).getD stored
  else if seatBase ≤ c ∧ 0x400000 ≤ c - seatBase then (s.unitView reg off k).getD stored
  else stored

end Sys2Proof.Machine
end

