-- ==== Sys2Proof/Machine/Access.lean ====
section
/-! DEFINITION. Register accesses (R13-R17, R59, R605): windows, rights, access codes, view selectors, notices. -/

namespace Sys2Proof.Machine

/-- The MSI-X table and pending bits of the function (Table 15.3): plain words, each function its own. -/
def msixRegion (off : Nat) : Bool := decide (0x00A00000 ≤ off) && decide (off < 0x00A02000)

/-- The offset of the PF window that a master's window offset shows (Table 15.2): none where the window holds nothing. Ring
frames not owned by the interface, and the registers a VF does not see, are holes (Table 15.3). -/
def State.window (s : State) (m : Master) (off : Nat) : Option Nat :=
  let ownRing := fun (o : Nat) => s.ownerVi ((o - Reg.RING_BASE) / 0x200) == some m.vi
  match m with
  | .vf _ =>
    if off < 0x20 then some off
    else if 0x100000 ≤ off ∧ off < 0x200000 then some (off + 0x800000)
    else if off = Reg.HOSTVI_DEV_STATUS ∨ off = Reg.HOSTVI_LINK then some off
    else if Reg.RING_BASE ≤ off ∧ off < 0x01000000 then (if ownRing off then some off else none)
    else if msixRegion off then some off
    else none
  | .pf =>
    if Reg.RING_BASE ≤ off ∧ off < 0x01000000 then (if ownRing off then some off else none)
    else if off < 0x10000000 then some off
    else none
  | _ => if off < 0x10000000 then some off else none

/-- Where a master's copy of a view selector is kept (R605). -/
def selKey (m : Master) (off : Nat) : Nat := m.code * 2 ^ 32 + off

/-- The instance that a master's copy of a register's selector chooses (R605); LOG_STATUS and LOG_DATA show each master the record that it
fetched, under its own number. -/
def State.instOf (s : State) (m : Master) (d : RegDesc) (off : Nat) : Nat :=
  if d.off = Reg.LOG_STATUS ∨ d.off = Reg.LOG_DATA then m.code
  else if d.sel = 0 then 0 else s.sel.get 0 (selKey m (d.sel + (off - canonOff off)))

/-- The bits of a register that its fields cover; the rest are reserved and read as zero (R17). -/
def RegDesc.mask (d : RegDesc) : Nat := d.fields.foldl (fun a f => a ||| ((2 ^ f.fld.len - 1) <<< f.fld.lo)) 0

/-- Until READY, host reads of HOSTVI and VICTX return reset values and writes are discarded (R433). -/
def State.notReady (s : State) (m : Master) (off : Nat) : Bool :=
  m.host && s.getF .HOSTVI_DEV_STATUS_READY == 0 && decide (0x00800000 ≤ off) && decide (off < 0x01000000)

/-- Registers answered in M3 (R526): IDENT, KEEL, PWRCLK, HOSTVI_DEV_STATUS. -/
def alwaysOn (off : Nat) : Bool := decide (off < 0x00210000) || off == Reg.HOSTVI_DEV_STATUS

/-- The 64-bit value a read returns: the register's view for the reader, its reserved bits zero; 0 in a hole (R14, R17). -/
def State.peek (s : State) (m : Master) (off : Nat) : Word :=
  match descOf off with
  | none => if msixRegion off then s.regAt (off + inst m.vi) else 0
  | some d =>
    let k := s.instOf m d off
    let w :=
      if s.notReady m off then resetWord (off + inst k)
      else if d.isSel then BitVec.ofNat 64 (s.sel.get 0 (selKey m off))
      else match seatOfKey off with
        | some n => if (s.seat n).phase == .asleep then s.asleepWord n (off + inst k) else s.view m.vi off k
        | none => if s.getF .PWRCLK_STATE_MSTATE == 3 && !alwaysOn off then 0 else s.view m.vi off k
    BitVec.ofNat 64 (w.toNat &&& d.mask)

/-- Aligned 32-bit and 64-bit accesses are accepted (R13). -/
def sizeOk (off size : Nat) : Bool := (size == 4 || size == 8) && off % size == 0

/-- The bits of the 64-bit register that an access covers: a 32-bit access its own half (R13). -/
def accessMask (off size : Nat) : Nat := if size = 8 then 2 ^ 64 - 1 else if off % 8 = 0 then 2 ^ 32 - 1 else 2 ^ 64 - 2 ^ 32

/-- A field inside the half an access covers: side effects act on such fields only (R13). -/
def FldDesc.inMask (f : FldDesc) (mask : Nat) : Nat := ((2 ^ f.fld.len - 1) <<< f.fld.lo) &&& mask

/-- One field under a write of `v` (Table 0.7): bits outside the access keep their value; a field with a command of its own is that
command's (log 15); a WK field acts for the Keel cores alone. -/
def FldDesc.write (f : FldDesc) (keel : Bool) (mask old v : Nat) : Nat :=
  let m := f.inMask mask
  if f.own then old
  else match f.acc with
    | .ro | .rc | .wo => old
    | .rw => (old &&& (2 ^ 64 - 1 - m)) ||| (v &&& m)
    | .w1c => old &&& (2 ^ 64 - 1 - (v &&& m))
    | .w1s => old ||| (v &&& m)
    | .wk => if keel then (old &&& (2 ^ 64 - 1 - m)) ||| (v &&& m) else old

/-- Address fields whose low bits are taken as zero (Tables 7.9, 15.4). -/
def alignWrite (off : Nat) (w : Word) : Word :=
  let c := canonReg (canonOff off)
  if c = Reg.RING_BASE then BitVec.ofNat 64 (w.toNat / 4096 * 4096)
  else if c = Reg.TIERS_CTX_ROOT0 ∨ c = Reg.TIERS_CTX_ROOT1 then BitVec.ofNat 64 (w.toNat / 32768 * 32768)
  else w

/-- A register of IDENT, HOSTVI, VICTX or a ring frame whose fields are all read-only: a write has no effect and is not refused (R6, R16, R462,
R463); the other blocks' chapters discard a host's write with a notice. -/
def silentRo (d : RegDesc) : Bool :=
  (decide (d.off < 0x00100000) || (decide (0x00800000 ≤ d.off) && decide (d.off < 0x01000000))) && d.fields.all fun f => f.acc == .ro

/-- Whether a master may write a register: the host drivers what Table 15.4 and the chapters open to them, cox firmware and stroke
cores every block but the Keel's fields, the Keel cores everything (R16, R59). -/
def mayWrite (m : Master) (d : RegDesc) : Bool :=
  match m with
  | .pf => d.hostW || silentRo d
  | .vf _ => d.hostW || silentRo d
  | _ => true

/-- A write discarded for its register's state: a ring's base, configuration or shadow while it is not DISABLED (R439); a routing entry of a
copy being injected under or not yet reclaimed (R403); `k` is the instance shown. -/
def State.wrongState (s : State) (off k : Nat) : Bool :=
  let c := canonReg (canonOff off)
  (c == Reg.FAB_RT_DATA && (k / 2 ^ 14 % 2 == s.getF .FAB_STATUS_INJ_COPY || s.fab.oldUntil.isSome)) ||
  (c == Reg.RING_BASE || c == Reg.RING_CFG || c == Reg.RING_SHADOW) && s.ringState ((off - Reg.RING_BASE) / 0x200) != 0

/-- A write met only WK fields, from a master that is not the Keel (R16). -/
def wkDenied (m : Master) (d : RegDesc) : Bool := m != .keel && d.fields.any (fun f => f.acc == .wk)

/-- The block of a common notice on an access (R548): that of the region of the master's window that holds the offset (Table 15.2). -/
def noticeBlock (m : Master) (off : Nat) : Nat :=
  match m with
  | .vf _ =>
    if 0x00100000 ≤ off ∧ off < 0x00200000 then 0x0C
    else if 0x00800000 ≤ off ∧ off < 0x01000000 then 0x0C
    else if 0x02000000 ≤ off ∧ off < 0x02200000 then 0x08
    else 0
  | _ => blockCode off

/-- An offset of the Start List view in a VF window, which is read-only (Table 15.2). -/
def inListView (m : Master) (off : Nat) : Bool :=
  match m with
  | .vf _ => decide (0x02000000 ≤ off) && decide (off < 0x02200000)
  | _ => false

/-- A register write (R13-R17, R59, R435). -/
def State.writeReg (s : State) (m : Master) (off size v : Nat) : State :=
  if !s.reached m then s
  else if !sizeOk off size then s.notice (noticeBlock m off) nAccessSize off
  else
    let base := off / 8 * 8
    let v := if size = 8 then v else if off % 8 = 0 then v % 2 ^ 32 else v % 2 ^ 32 * 2 ^ 32
    match s.window m base with
    | none => s.notice (noticeBlock m off) (if inListView m off then nAccessDenied else nAccessHole) off
    | some o =>
      match descOf o with
      | none =>
        if msixRegion o then
          let mask := accessMask off size
          s.regPut (o + inst m.vi) (BitVec.ofNat 64 (((s.regAt (o + inst m.vi)).toNat &&& (2 ^ 64 - 1 - mask)) ||| (v &&& mask)))
        else s.notice (blockCode o) nAccessHole off
      | some d =>
        if s.notReady m o then s.notice (blockCode o) nAccessState off
        else if d.isSel then s
        else if !mayWrite m d then s.notice (blockCode o) nAccessDenied off
        else if wkDenied m d then s.notice (blockCode o) nAccessDenied off
        else if s.wrongState o (s.instOf m d o) then s.notice (blockCode o) nAccessState off
        else
          let key := o + inst (s.instOf m d o)
          let old := (s.regAt key).toNat
          let new := d.fields.foldl (fun w f => f.write (m == .keel) (accessMask off size) w v) old
          let late := canonReg (canonOff o) == Reg.FAB_LPORT && s.getF .HOSTVI_DEV_STATUS_READY == 1 && new % 2 ^ 35 != old % 2 ^ 35
          let new := if late then new / 2 ^ 35 * 2 ^ 35 + old % 2 ^ 35 else new
          let s := s.regPut key (alignWrite o (BitVec.ofNat 64 new))
          let s := if canonReg (canonOff o) == Reg.FAB_RT_DATA then s.setF .FAB_STATUS_SWAP_PEND 1 else s
          -- MEMBERS and ROLE of a logical port are accepted only before device-ready (R403)
          if late then s.notice (blockCode o) nAccessState off else s

/-- A master begins to fetch a logbook record: what it selected last is fetched no more (R567, R605). -/
def State.logFetch (s : State) (m : Master) (q : Nat) : State :=
  { s with log := { s.log with
      fetch := (s.log.fetch.filter fun p => p.1 != m.code) ++ [(m.code, q % 2 ^ 32)]
      fetched := s.log.fetched.filter fun p => p.1 != m.code } }

/-- A write to a view selector sets the writer's own copy and logs nothing (R605), before READY too (log 102); reserved bits are ignored (R17).
A VF's driver has a copy of VICTX_CTX_SEL only. One to LOG_SEL starts a fetch besides (R567). -/
def State.writeSel (s : State) (m : Master) (off size v : Nat) : State :=
  if !s.reached m then s
  else if !sizeOk off size then s.notice (noticeBlock m off) nAccessSize off
  else
    let base := off / 8 * 8
    match s.window m base with
    | none => s.notice (noticeBlock m off) (if inListView m off then nAccessDenied else nAccessHole) off
    | some o =>
      match descOf o with
      | none => s.notice (blockCode o) nAccessHole off
      | some d =>
        if !d.isSel then s
        else
          let k := selKey m o
          let old := s.sel.get 0 k
          let v := if size = 8 then v else if off % 8 = 0 then v % 2 ^ 32 else v % 2 ^ 32 * 2 ^ 32
          let mask := accessMask off size
          let new := ((old &&& (2 ^ 64 - 1 - mask)) ||| (v &&& mask)) &&& d.mask
          let s := { s with sel := s.sel.set 0 k new }
          if o = Reg.LOG_SEL && mask % 2 == 1 then s.logFetch m new else s

/-- A VF's view of the Start List at 0x0200_0000 (Table 15.2): entry i at 128 x i, zero when another interface admitted it. -/
def State.listView (s : State) (m : Master) (off size : Nat) : Word :=
  match m with
  | .vf n =>
    if 0x02000000 ≤ off ∧ off < 0x02200000 then
      let e := s.entry ((off - 0x02000000) / 128)
      if e.a.state ≠ .free ∧ e.a.vi = n then
        BitVec.ofNat 64 (natOfBytes (((entryBytes e).drop (off % 128)).take size))
      else 0
    else 0
  | _ => 0

/-- A register read: the value answered, with RC fields in the half read cleared (R13, R15, R16). -/
def State.readReg (s : State) (m : Master) (off size : Nat) : State :=
  let ones := BitVec.ofNat 64 (if size = 4 then 2 ^ 32 - 1 else 2 ^ 64 - 1)
  if !s.reached m then s
  else if !sizeOk off size then (s.notice (noticeBlock m off) nAccessSize off).emit (.read off ones)
  else
    let base := off / 8 * 8
    match s.window m base with
    | none => s.emit (.read off (s.listView m off size))
    | some o =>
      let w := s.peek m o
      let shown := if size = 8 then w else if off % 8 = 0 then BitVec.ofNat 64 (w.toNat % 2 ^ 32) else BitVec.ofNat 64 (w.toNat / 2 ^ 32)
      let s := s.emit (.read off shown)
      match descOf o with
      | none => s
      | some d =>
        let mask := accessMask off size
        let clear := d.fields.foldl (fun a f => if f.acc = .rc then a ||| f.inMask mask else a) 0
        if clear = 0 then s
        else
          let key := o + inst (s.instOf m d o)
          s.regPut key (BitVec.ofNat 64 ((s.regAt key).toNat &&& (2 ^ 64 - 1 - clear)))

end Sys2Proof.Machine
end

