-- ==== Sys2Proof/Machine/RegCmds.lean ====
section
/-! DEFINITION. The commands that read and write registers with no command of their own (R16, R605). -/

namespace Sys2Proof.Machine

/-- A changed EVENT zeroes its counter (R561). -/
def State.pmcAfter (s t : State) : State :=
  (List.range 16).foldl (fun t k =>
    let d := 16 * k
    if t.getF .PMC_SEL_EVENT d != s.getF .PMC_SEL_EVENT d then t.setF .PMC_COUNT 0 d else t) t


/-- READ_CLEAR: a read; its RC fields clear (R16). -/
def execReadClear (m : Master) (off size : Nat) (s : State) := done (s.readReg m off size)

/-- VIEW_SELECTOR_WRITE (R605). -/
def execViewSelectorWrite (m : Master) (off size v : Nat) (s : State) := done (s.writeSel m off size v)

end Sys2Proof.Machine
end

