-- ==== Sys2Proof/Machine/Tiers.lean ====
section
/-! DEFINITION. The memory tiers (chapter 07): address ranges, page tables and walks, frame tags, allocation, shootdowns,
migration, the Tiller, HBM stacks, Bedrock ports, scrubbing. -/

namespace Sys2Proof.Machine

/-! ### Ranges and frames -/

/-- The tier whose range of Table 1.2 holds an offset. -/
def tierRange (off : Nat) : Option Nat :=
  if off < 0x000800000000 then some 0
  else if 0x010000000000 ≤ off ∧ off < 0x022000000000 then some 1
  else if 0x100000000000 ≤ off ∧ off < 0x180000000000 then some 2
  else none

/-- The Bedrock port of an offset in Bedrock's range, and the offset on it (R194). -/
def portOf (off : Nat) : Nat := (off - 0x100000000000) / 0x20000000000
def portAddr (off : Nat) : Nat := (off - 0x100000000000) % 0x20000000000

/-- The tier a module offset lies in (Table 1.2, R22): none outside, or beyond the capacity a Bedrock port uses. -/
def State.tierOf (s : State) (off : Nat) : Option Nat :=
  match tierRange off with
  | some 2 => if portAddr off < s.getF .TIERS_BR_STAT_CAP_GIB (8 * portOf off) * 2 ^ 30 then some 2 else none
  | t => t

/-- An offset on a Bedrock port that has failed (R215): reads return poisoned beats, writes are lost. -/
def State.portDead (s : State) (off : Nat) : Bool := tierRange off == some 2 && s.getF .TIERS_BR_STAT_STATE (8 * portOf off) == 5

/-- The seat whose Topsoil or Subsoil holds a module offset (Table 1.2, R192). -/
def seatOfOff (off : Nat) : Option Nat :=
  match tierRange off with
  | some 0 => some (off / 2 ^ 32)
  | some 1 => some ((off - 0x010000000000) / 0x2400000000)
  | _ => none

/-- Where a Subsoil offset lies (R192): its stack, and the byte address within it. -/
def stackAddr (off : Nat) : Nat × Nat :=
  let seat := (off - 0x010000000000) / 0x2400000000
  let r := (off - 0x010000000000) % 0x2400000000
  let g := r / 4096
  (3 * seat + g % 3, g / 3 * 4096 + r % 4096)

/-- The stack that holds a Subsoil offset. -/
def stackOf (off : Nat) : Nat := (stackAddr off).1

/-- Frames of kind SYS: the first 32 MiB of each seat's Subsoil region and the top 1/8,192 of each Bedrock port (R194, R195). -/
def State.sysFrame (s : State) (f : Nat) : Bool :=
  let off := f * 65536
  if 0x010000000000 ≤ off ∧ off < 0x022000000000 then decide ((off - 0x010000000000) % 0x2400000000 < 0x2000000)
  else if 0x100000000000 ≤ off ∧ off < 0x180000000000 then
    let p := (off - 0x100000000000) / 0x20000000000
    let cap := s.getF .TIERS_BR_STAT_CAP_GIB (8 * p) * 2 ^ 30
    decide (cap - cap / 8192 ≤ (off - 0x100000000000) % 0x20000000000)
  else false

/-- A frame's tag (R196). -/
def State.tag (s : State) (f : Nat) : FrameTag :=
  if s.sysFrame f then { kind := 3 } else SMap.get {} s.tiers.frames f

/-- Store a frame's tag. -/
def State.setTag (s : State) (f : Nat) (t : FrameTag) : State :=
  { s with tiers := { s.tiers with frames := SMap.set {} s.tiers.frames f t } }

/-- A frame that can be allocated. -/
def State.frameFree (s : State) (f : Nat) : Bool :=
  let t := s.tag f
  t.kind == 0 && !t.retired && !t.retiring

/-- Frames of a page: one, or 32 for a 2 MiB page (R196). -/
def pageFrames (big : Bool) : Nat := if big then 32 else 1
/-- Bytes of a page. -/
def pageBytes (big : Bool) : Nat := if big then 0x200000 else 0x10000

/-- The frame ranges of a tier that hold pages of contexts (R192, R194, R195), lowest first: of Bedrock, ports online. -/
def State.tierRanges (s : State) (tier : Nat) : List (Nat × Nat) :=
  match tier with
  | 0 => [(0, 0x80000)]
  | 1 => (List.range 8).map fun k =>
      ((0x010000000000 + k * 0x2400000000 + 0x2000000) / 65536, (0x010000000000 + (k + 1) * 0x2400000000) / 65536)
  | 2 => ((List.range 4).filter fun p => s.getF .TIERS_BR_STAT_STATE (8 * p) == 2).map fun p =>
      let cap := s.getF .TIERS_BR_STAT_CAP_GIB (8 * p) * 2 ^ 30
      let base := 0x100000000000 + p * 0x20000000000
      (base / 65536, (base + cap - cap / 8192) / 65536)
  | _ => []

/-- The lowest run of `n` free frames, aligned to `n`, from `f` up to `hi`. -/
def State.findRun (s : State) (n hi : Nat) : Nat → Nat → Option Nat
  | 0, _ => none
  | k + 1, f =>
    if hi < f + n then none
    else if (List.range n).all (fun i => s.frameFree (f + i)) then some f
    else s.findRun n hi k (f + n)

/-- The lowest free page frame of some frame ranges (log 18: which free frame is taken is the model's choice). -/
def State.findIn (s : State) (big : Bool) (ranges : List (Nat × Nat)) : Option Nat :=
  let n := pageFrames big
  ranges.findSome? fun r => s.findRun n r.2 (s.tiers.frames.length + 1) ((r.1 + n - 1) / n * n)

/-- The lowest free page frame of a tier; 2 MiB pages never live in Topsoil (R191). -/
def State.findFrame (s : State) (tier : Nat) (big : Bool) : Option Nat :=
  if tier = 0 ∧ big then none else s.findIn big (s.tierRanges tier)

/-- The lowest free frames of one seat's Subsoil region. -/
def State.findInSeat (s : State) (k : Nat) (big : Bool) : Option Nat := s.findIn big ((s.tierRanges 1)[k]?.toList)

/-- The ranges of a tier that a move may go to (R204): a Topsoil page to the granules of the seat named, none in a seat in M2. -/
def State.moveRanges (s : State) (tier seat : Nat) : List (Nat × Nat) :=
  let awake := fun (k : Nat) => (s.seat k).phase == .awake
  match tier with
  | 0 => if awake seat then [(seat * 0x10000, (seat + 1) * 0x10000)] else []
  | 1 => ((s.tierRanges 1).zipIdx.filter fun p => awake p.2).map (·.1)
  | t => s.tierRanges t

/-- Tag every frame of a page. -/
def State.tagPage (s : State) (f : Nat) (big : Bool) (t : FrameTag) : State :=
  (List.range (pageFrames big)).foldl (fun s i => s.setTag (f + i) t) s

/-- Quota and usage of a context in a tier, in 64 KiB units (R209). -/
def State.quota (s : State) (c tier : Nat) : Nat :=
  match tier with
  | 0 => s.getF .TIERS_CTX_QUOTA_TS_UNITS (inst c)
  | 1 => s.getF .TIERS_CTX_QUOTA_SS_UNITS (inst c)
  | _ => s.getF .TIERS_CTX_QUOTA_BR_UNITS (inst c)
def State.usage (s : State) (c tier : Nat) : Nat :=
  match tier with
  | 0 => s.getF .TIERS_CTX_USE_TS_UNITS (inst c)
  | 1 => s.getF .TIERS_CTX_USE_SS_UNITS (inst c)
  | _ => s.getF .TIERS_CTX_USE_BR_UNITS (inst c)
def State.setUsage (s : State) (c tier n : Nat) : State :=
  match tier with
  | 0 => s.setF .TIERS_CTX_USE_TS_UNITS n (inst c)
  | 1 => s.setF .TIERS_CTX_USE_SS_UNITS n (inst c)
  | _ => s.setF .TIERS_CTX_USE_BR_UNITS n (inst c)

/-- Why an allocation failed (R209). -/
inductive NoFrame where
  | quota
  | physical
deriving DecidableEq, Repr

/-- Give a context a page's frame found for it: quota first, then the frame, charged, tagged DATA and zeroed (R209, R219). -/
def State.allocAt (s : State) (c tier : Nat) (big : Bool) (gen : Nat) (found : Option Nat) : Except NoFrame (Nat × State) :=
  let n := pageFrames big
  if s.quota c tier < s.usage c tier + n then .error .quota
  else match found with
    | none => .error .physical
    | some f =>
      let s := s.tagPage f big { ctx := c, gen := gen, kind := 1 }
      let s := s.zeroRange (f * 65536) (pageBytes big)
      .ok (f * 65536, s.setUsage c tier (s.usage c tier + n))

/-- Allocate a page's frame in a tier to a context. -/
def State.allocPage (s : State) (c tier : Nat) (big : Bool) (gen : Nat) : Except NoFrame (Nat × State) :=
  s.allocAt c tier big gen (s.findFrame tier big)

/-- Put frames into SCRUB (R219). -/
def State.toScrub (s : State) (fs : List Nat) : State := fs.foldl (fun s f => s.setTag f { s.tag f with kind := 4 }) s

/-- Put a page's frames into SCRUB and return their charge (R219). -/
def State.scrubPage (s : State) (c off : Nat) (big : Bool) : State :=
  let tier := (tierRange off).getD 1
  let s := s.toScrub ((List.range (pageFrames big)).map fun i => off / 65536 + i)
  s.setUsage c tier (s.usage c tier - pageFrames big)

/-! ### Faults (Table 7.11) -/

/-- The TIERS fault registers. -/
def tiersRegs : FaultRegs := ⟨0x04, .TIERS_ERR_FLAGS, Reg.TIERS_ERR_INFO⟩

/-- A TIERS fault: first-fault address and information, severity and scope of Table 7.11. -/
def State.tiersFault (s : State) (b sev : Nat) (ctx : Option Nat) (addr gen : Nat) (wk w : Nat := 0) : State :=
  let info := packBits [(8, ctx.getD 0), (4, gen), (4, b)]
  let s := if s.getF .TIERS_ERR_FLAGS = 0 ∧ !s.fenced then s.setF .TIERS_ERR_ADDR_ADDR addr else s
  let sc := match sev, ctx with
    | 3, some c => Scope.context c
    | 4, _ => Scope.module
    | _, _ => Scope.none
  s.fault tiersRegs { block := 0x04, fault := b, sev := sev, scope := sc, ctx := ctx, whereKind := wk, whereIs := w, info := info }

/-- A full Dwezin address of this module. -/
def State.dwezin (s : State) (off : Nat) : Nat := s.self * 2 ^ 45 + off

/-- An uncorrectable line: poisoned, UE_LINE at its origin (R212, R216, R556). -/
def State.ueLine (s : State) (off : Nat) : State :=
  let s := s.putLine off (s.lineAt off) true
  let s := s.bump .TIERS_UE_COUNT
  let s := s.poisonOrigin (s.dwezin off)
  s.tiersFault 2 0 none (s.dwezin off) 0

/-! ### Page tables (R186-R190) -/

/-- Levels of the walk (Table 7.1): lowest address bit, index bits, table size. -/
def ptLevels : List (Nat × Nat × Nat) := [(45, 11, 32768), (33, 12, 65536), (21, 12, 65536), (16, 5, 512)]

/-- An entry's 16 bytes as one number, word 0 least significant (Table 7.2). -/
def Pte.bits (p : Pte) : Nat :=
  packBits [(1, bit p.valid), (1, bit p.leaf), (1, bit p.read), (1, bit p.write), (1, bit p.migrating), (1, bit p.shared), (2, 0), (56, p.addr / 16),
    (4, p.gen), (2, p.tier), (2, p.place), (8, p.ctx), (1, bit p.xfer), (47, 0)]

/-- The entry that a number holds (Table 7.2). -/
def pteOf (n : Nat) : Pte :=
  { valid := natBit n 0, leaf := natBit n 1, read := natBit n 2, write := natBit n 3, migrating := natBit n 4, shared := natBit n 5,
    addr := 16 * natBits n 8 56, gen := natBits n 64 4, tier := natBits n 68 2, place := natBits n 70 2, ctx := natBits n 72 8, xfer := natBit n 80 }

/-- A tag's 8 bytes as one number (Table 7.3). -/
def FrameTag.bits (t : FrameTag) : Nat :=
  packBits [(8, t.ctx), (4, t.gen), (3, t.kind), (1, bit t.shared), (8, t.heatR), (8, t.heatW), (3, t.topSeat), (15, t.topModule), (12, t.idle),
    (1, bit t.retired), (1, 0)]

/-- The entry at a table address. -/
def State.pteAt (s : State) (a : Nat) : Pte := SMap.get {} s.tiers.pt a
/-- Store an entry. -/
def State.setPte (s : State) (a : Nat) (p : Pte) : State := { s with tiers := { s.tiers with pt := SMap.set {} s.tiers.pt a p } }

/-- The result of a walk: the leaf with its table address, or the fault bit of Table 7.11. -/
inductive Walk where
  | leaf (p : Pte) (at_ : Nat) (big : Bool)
  | bad (b : Nat)
deriving DecidableEq, Repr

/-- A root of a context. -/
def State.rootOf (s : State) (c sel : Nat) : Nat :=
  if sel = 0 then s.getF .TIERS_CTX_ROOT0_ROOT (inst c) else s.getF .TIERS_CTX_ROOT1_ROOT (inst c)
/-- The root the context selects. -/
def State.rootSel (s : State) (c : Nat) : Nat := s.getF .TIERS_CTX_CTRL_ROOT_SEL (inst c)

/-- A leaf's own checks (R188): address alignment, tier against the range of Table 1.2 that its offset lies in, no 2 MiB page in Topsoil,
its context. -/
def leafOk (c : Nat) (p : Pte) (big : Bool) : Bool :=
  p.addr % pageBytes big == 0 && p.ctx == c && !(big && p.tier == 0) && tierRange (p.addr % 2 ^ 45) == some p.tier

/-- An access that a leaf's READ or WRITE forbids. -/
def Pte.forbids (p : Pte) (write : Bool) : Bool := if write then !p.write else !p.read

/-- The walk (R188): each entry's checks in turn; an entry on a poisoned line reads as poisoned. -/
def State.walkFrom (s : State) (c va : Nat) (write : Bool) : Nat → Nat → List (Nat × Nat × Nat) → Walk
  | _, _, [] => .bad 4
  | lvl, table, (sh, bits, size) :: rest =>
    if table % size ≠ 0 then .bad 4
    else
      let a := table % 2 ^ 45 + 16 * natBits va sh bits
      let p := s.pteAt a
      if s.poisonAt a then .bad 5
      else if !p.valid then .bad 3
      else if p.leaf then
        if lvl < 2 then .bad 4
        else
          let big := lvl == 2
          if !leafOk c p big then .bad 4
          else if p.forbids write then .bad 3
          else .leaf p a big
      else if lvl = 3 then .bad 4
      else s.walkFrom c va write (lvl + 1) p.addr rest

/-- A walk in the tree the context selects (R190). -/
def State.walk (s : State) (c va : Nat) (write : Bool) : Walk :=
  if s.getF .TIERS_CTX_CTRL_VALID (inst c) = 0 then .bad 3
  else s.walkFrom c va write 0 (s.rootOf c (s.rootSel c)) ptLevels

/-- The Dwezin address a virtual address translates to, with the leaf, when it is mapped with the access. -/
def State.translate (s : State) (c va : Nat) (write : Bool) : Option (Nat × Pte) :=
  match s.walk c va write with
  | .leaf p _ big => some (p.addr + va % pageBytes big, p)
  | .bad _ => none

/-- A virtual address whose page lies in another module. -/
def State.farVa (s : State) (c va : Nat) : Bool := (s.translate c va false).any fun p => p.1 / 2 ^ 45 != s.self

/-- A tier's answer to a line access (R22, R197): none when it serves it, else the fault bit. -/
def State.tagCheck (s : State) (c off gen : Nat) (write : Bool) : Option Nat :=
  match s.tierOf off with
  | none => some 8
  | some _ =>
    let t := s.tag (off / 65536)
    if t.kind = 1 ∧ t.ctx = c ∧ t.gen = gen ∧ !t.retired then none
    else if !write ∧ t.kind = 1 ∧ t.shared then none
    else if t.kind = 1 ∧ t.ctx = c ∧ t.gen ≠ gen then some 7
    else some 6

/-- The tier controller that serves an offset: one to a seat's Topsoil, a stack, a Bedrock port (log 19). -/
def ctrlOf (off : Nat) : Nat :=
  match tierRange off with
  | some 0 => off / 2 ^ 32
  | some 1 => 8 + stackOf off
  | _ => 32 + portOf off

/-- The performance counters' bytes of a line access (Table 19.7): Subsoil read, Subsoil written, Bedrock moved, charged to the context whose frame it is
(log 112). -/
def State.countBytes (s : State) (off : Nat) (write : Bool) : State :=
  let t := s.tag (off / 65536)
  let c := if t.kind = 1 then some t.ctx else none
  match tierRange off with
  | some 1 => s.pmc (if write then 0x09 else 0x08) 64 c
  | some 2 => s.pmc 0x0A 64 c
  | _ => s

/-- The sampling of R203: of every controller's accesses one in sixteen advances heat and names the latest accessor: the seat of one from this
module, none where cox firmware or the cox die accesses, and the module (log 19: which one in sixteen). -/
def State.sampleHeat (s : State) (off : Nat) (seat : Option Nat) (module : Nat) (write : Bool) : State :=
  let s := s.countBytes off write
  let k := ctrlOf off
  let n := (SMap.get 0 s.tiers.samples k + 1) % 16
  let s := { s with tiers := { s.tiers with samples := SMap.set 0 s.tiers.samples k n } }
  if n ≠ 0 then s
  else
    let f := off / 65536
    let t := s.tag f
    if t.kind ≠ 1 then s
    else s.setTag f { t with
      heatR := if write then t.heatR else min 255 (t.heatR + 1)
      heatW := if write then min 255 (t.heatW + 1) else t.heatW
      topSeat := seat.getD t.topSeat
      topModule := module
      topHeld := if module = t.topModule then t.topHeld else 0
      idle := 0 }

/-- The samples of every line of a range that another module reads or writes. -/
def State.sampleLines (s : State) (off n module : Nat) (write : Bool) : State :=
  (List.range ((off % 64 + n + 63) / 64)).foldl (fun s i => s.sampleHeat (off + 64 * i) none module write) s

/-- A byte at a Dwezin address: this module's memory, or another's through the fabric (log 17). -/
def State.byteAny (s : State) (a : Nat) : Byte :=
  if a / 2 ^ 45 = s.self then s.byteAt (a % 2 ^ 45) else Config.remoteByte a s.now

/-- Every page of a range mapped with the access, as the addresses of its 64-byte lines with the leaf each translates under: none when some
part is not. -/
def State.lineAddrs (s : State) (c va n : Nat) (write : Bool) : Option (List (Nat × Pte)) :=
  let first := va / 64
  let count := (va + n + 63) / 64 - first
  (List.range count).mapM fun i => s.translate c ((first + i) * 64) write

/-- Whether a range is mapped with the access, page by page. -/
def State.mapped (s : State) (c va n : Nat) (write : Bool) : Bool :=
  let first := va / 65536
  let count := (va + n + 65535) / 65536 - first
  (List.range count).all fun i => (s.translate c ((first + i) * 65536) write).isSome

/-- A line that reads as poisoned: its poison, a failed port, or a frame that does not admit the read (R197); what another module answers is its own. -/
def State.badLine (s : State) (c a gen : Nat) : Bool :=
  let off := a % 2 ^ 45
  a / 2 ^ 45 == s.self && (s.poisonAt off || s.portDead off || (s.tagCheck c off gen false).isSome)

/-- Bytes read at an address by the master that wrote them, with its writes that still wait for a migration (R205, R207). -/
def State.overHeld (s : State) (c va : Nat) (bs : List Byte) : List Byte :=
  s.tiers.held.foldl (fun bs w => if w.ctx = c then bs.mapIdx fun i b => if w.va ≤ va + i then w.data.getD (va + i - w.va) b else b else bs) bs

/-- Bytes at a virtual address, with whether any line they lie in is poisoned; none where a line is not mapped readable. -/
def State.readVa (s : State) (c va n : Nat) : Option (List Byte × Bool) :=
  match s.lineAddrs c va n false with
  | none => none
  | some ls =>
    let bs := ls.flatMap fun l => (List.range 64).map fun i => s.byteAny (l.1 + i)
    let bad := ls.any fun l => s.badLine c l.1 l.2.gen
    some (s.overHeld c va ((bs.drop (va % 64)).take n), bad)

/-- A write at a module offset as its tier takes it (R22, R197, R203): refused it does nothing and faults its context; to a failed port it is lost
(R215). -/
def State.tierWrite (s : State) (c off gen : Nat) (seat : Option Nat) (put : State → State) : State :=
  if s.portDead off then s
  else match s.tagCheck c off gen true with
  | some b => s.tiersFault b 3 (some c) (s.dwezin off) gen
  | none => put (s.sampleHeat off seat s.self true)

/-- Bytes of a write at an offset: a whole line with its poison, and in Topsoil its tag where a stream gives one; part of a line under R603. -/
def State.putPend (s : State) (off : Nat) (w : PendWrite) : State :=
  if w.data.length = 64 then
    let d := BitVec.ofNat 512 (leNat w.data)
    match w.tag with
    | some k => if tierRange off = some 0 then s.putTagged off d w.poison k else s.putLine off d w.poison
    | none => s.putLine off d w.poison
  else
    let s := s.putBytes off w.data
    if w.poison then s.putLine off (s.lineAt off) true else s

/-- A line's write by the leaf it translates under: held while the page migrates (R207), sent to the module that holds the frame, or made here. -/
def State.leafWrite (s : State) (seat : Option Nat) (w : PendWrite) (p : Pte) (big : Bool) : State :=
  let a := p.addr + w.va % pageBytes big
  if p.migrating then { s with tiers := { s.tiers with held := s.tiers.held ++ [w] } }
  else if a / 2 ^ 45 ≠ s.self then s.sendWrite a w.ctx w.va w.poison (w.data.map (·.toNat)) p.gen
  else s.tierWrite w.ctx (a % 2 ^ 45) p.gen seat fun s => s.putPend (a % 2 ^ 45) w

/-- A line's write by the table: one that does not translate performs nothing and faults a context that stands (R188). -/
def State.lineWrite (s : State) (w : PendWrite) : State :=
  match s.walk w.ctx w.va true with
  | .leaf p _ big => s.leafWrite none w p big
  | .bad b => if (s.ctx w.ctx).valid then s.tiersFault b 3 (some w.ctx) (w.va % 2 ^ 60) 0 else s

/-- Write bytes at a virtual address, line by line. -/
def State.writeVa (s : State) (c va : Nat) (bs : List Byte) : State :=
  (List.range ((va % 64 + bs.length + 63) / 64)).foldl (fun s i =>
    let lo := if i = 0 then 0 else i * 64 - va % 64
    let hi := (i + 1) * 64 - va % 64
    s.lineWrite { ctx := c, va := va + lo, data := (bs.take hi).drop lo, poison := false, tag := none }) s

/-- The writes held for a page translate again and are made, in their order (R207). -/
def State.releaseWrites (s : State) (c va : Nat) (big : Bool) : State :=
  let mine := fun (w : PendWrite) => w.ctx == c && w.va / pageBytes big == va / pageBytes big
  let ws := s.tiers.held.filter mine
  let s := { s with tiers := { s.tiers with held := s.tiers.held.filter fun w => !mine w } }
  ws.foldl State.lineWrite s

/-- Poison the lines of a range (R454: host data that failed). -/
def State.poisonVa (s : State) (c va n : Nat) : State :=
  (List.range ((va + n + 63) / 64 - va / 64)).foldl (fun s i =>
    s.lineWrite { ctx := c, va := (va / 64 + i) * 64, data := List.replicate 64 0, poison := true, tag := none }) s

/-- A table's frame for a level of a context's tree: kind PT in Subsoil (R189; log 18). -/
def State.newTable (s : State) (c : Nat) : Option (Nat × State) :=
  match s.findFrame 1 false with
  | none => none
  | some f => some (s.self * 2 ^ 45 + f * 65536, (s.setTag f { ctx := c, kind := 2 }).zeroRange (f * 65536) 65536)

/-- Put a leaf at a virtual address in the tree under `table`, allocating tables on the way; none when no frame is free. -/
def State.putLeaf (s : State) (c va : Nat) (leaf : Pte) (big : Bool) : Nat → Nat → List (Nat × Nat × Nat) → Option State
  | _, _, [] => none
  | lvl, table, (sh, bits, _) :: rest =>
    let a := table % 2 ^ 45 + 16 * natBits va sh bits
    if lvl = (if big then 2 else 3) then some (s.setPte a leaf)
    else
      let p := s.pteAt a
      if p.valid then (if p.leaf then none else s.putLeaf c va leaf big (lvl + 1) p.addr rest)
      else match s.newTable c with
        | none => none
        | some (t, s) => (s.setPte a { valid := true, addr := t, ctx := c }).putLeaf c va leaf big (lvl + 1) t rest

/-- The context's selected root, made if there is none. -/
def State.ensureRoot (s : State) (c : Nat) : Option (Nat × State) :=
  let r := s.rootOf c (s.rootSel c)
  if r ≠ 0 then some (r, s)
  else match s.newTable c with
    | none => none
    | some (t, s) =>
      some (t, if s.rootSel c = 0 then s.setF .TIERS_CTX_ROOT0_ROOT t (inst c) else s.setF .TIERS_CTX_ROOT1_ROOT t (inst c))

/-- Tell the slice's replicas of a change to the table (R198): the table master tells every other module, any other module the master, which
relays it (log 116). -/
def State.tellReplicas (s : State) (c : Nat) (args : List Nat) : State :=
  let x := s.ctx c
  if !x.span then s
  else if x.master == s.self then
    (s.sliceOf x.slice).foldl (fun s m => if m = s.self then s else s.emit (.message "REPLICA_UPDATE" m (c :: args))) s
  else s.emit (.message "REPLICA_UPDATE" x.master (c :: args))

/-- Tell them a page's whole leaf. -/
def State.tellLeaf (s : State) (p : Pte) : State := s.tellReplicas p.ctx [1, p.va, bit p.big, p.bits]

/-- Install a leaf for a page in the context's tree and its replicas. -/
def State.installLeaf (s : State) (c va : Nat) (leaf : Pte) (big : Bool) : Option State :=
  match s.ensureRoot c with
  | none => none
  | some (r, s) =>
    let leaf := { leaf with va := va, big := big }
    match s.putLeaf c va leaf big 0 r ptLevels with
    | none => none
    | some s => some (s.tellLeaf leaf)

/-- Allocate and map one page of zeroed memory: MAP, KV extents and firmware structures (R454, R219). -/
def State.mapPage (s : State) (c va tier place : Nat) (read write big : Bool) : Except NoFrame State :=
  match s.allocPage c tier big 0 with
  | .error e => .error e
  | .ok (off, s) =>
    let leaf : Pte := { valid := true, leaf := true, read := read, write := write, addr := s.dwezin off, tier := tier,
                        place := place, ctx := c }
    match s.installLeaf c va leaf big with
    | none => .error .physical
    | some s => .ok s

/-- Map several pages, all or none. -/
def State.mapPages (s : State) (c tier place : Nat) (read write big : Bool) : List Nat → Except NoFrame State
  | [] => .ok s
  | va :: rest =>
    match s.mapPage c va tier place read write big with
    | .error e => .error e
    | .ok s => s.mapPages c tier place read write big rest

/-- The place of a page's leaf, whatever its permissions: its table address and entry. -/
def State.findLeaf (s : State) (c va : Nat) : Option (Nat × Pte) :=
  let rec go : Nat → Nat → List (Nat × Nat × Nat) → Option (Nat × Pte)
    | _, _, [] => none
    | lvl, table, (sh, bits, _) :: rest =>
      let a := table % 2 ^ 45 + 16 * natBits va sh bits
      let p := s.pteAt a
      if !p.valid then none else if p.leaf then some (a, p) else if lvl = 3 then none else go (lvl + 1) p.addr rest
  if s.getF .TIERS_CTX_CTRL_VALID (inst c) = 0 then none
  else
    let r := s.rootOf c (s.rootSel c)
    if r = 0 then none else go 0 r ptLevels

/-- A frame of this module that a leaf of a context other than those given maps (R219). -/
def State.mappedElse (s : State) (but : List Nat) (frame : Nat) : Bool :=
  s.tiers.pt.any fun p => p.2.valid && p.2.leaf && !but.contains p.2.ctx && p.2.addr / 2 ^ 45 == s.self &&
    decide (p.2.addr % 2 ^ 45 / 65536 ≤ frame) && decide (frame < p.2.addr % 2 ^ 45 / 65536 + pageFrames p.2.big)

/-! ### Shootdowns (R202) -/

/-- A shootdown begins: one of a slice is sent to its other modules (R202). -/
def State.startShoot (s : State) (x : Shootdown) : State :=
  if x.slice then
    (s.sliceOf (s.ctx x.ctx).slice).foldl (fun s m => if m = s.self then s else s.emit (.message "SHOOTDOWN" m [x.ctx, x.scope, x.vpage])) s
  else s

/-- Queue a shootdown, which begins once those before it are over; TIERS_INVAL_STAT.BUSY reads 1 (Table 7.9). -/
def State.shootdown (s : State) (x : Shootdown) : State :=
  let s := if s.tiers.shoot = [] then s.startShoot x else s
  let s := { s with tiers := { s.tiers with shoot := s.tiers.shoot ++ [x] } }
  s.setF .TIERS_INVAL_STAT_BUSY 1

/-- The cached leaves a shootdown invalidates. -/
def hitByShoot (x : Shootdown) (t : TlbEntry) : Bool :=
  match x.scope with
  | 0 => t.ctx == x.ctx && (t.vpage == x.vpage || (t.big && t.vpage == x.vpage / 32 * 32))
  | 1 => t.ctx == x.ctx
  | _ => true

/-- The walk-cache entries it invalidates: for a page those on its way. -/
def walkByShoot (x : Shootdown) (t : WalkEntry) : Bool :=
  match x.scope with
  | 0 => t.ctx == x.ctx && t.key == x.vpage * 65536 / 2 ^ (if t.lvl = 0 then 45 else 33)
  | 1 => t.ctx == x.ctx
  | _ => true

/-- Drop what a shootdown invalidates from every cache of the module. -/
def State.dropCached (s : State) (x : Shootdown) : State :=
  { s with tiers := { s.tiers with tlb := s.tiers.tlb.filter fun t => !hitByShoot x t
                                   walks := s.tiers.walks.filter fun t => !walkByShoot x t } }

/-- A shootdown of one page of a context. -/
def pageShoot (c va : Nat) (slice : Bool) (why arg : Nat) : Shootdown :=
  { ctx := c, scope := 0, vpage := va / 65536, slice := slice, why := why, arg := arg, frames := [], cmd := none, doneAt := none }

/-- SHOOTDOWN: a write of TIERS_INVAL_CMD by cox firmware (Table 7.9): eight queue, and the writer of a ninth stalls, its command waiting behind
them (R222); SCOPE 3 is discarded. -/
def State.shootCmd (s : State) (m : Master) (v : Nat) : State :=
  if m.host then s.hostRefused m 0x04 Reg.TIERS_INVAL_CMD
  else
    let scope := natBits v 8 2
    if scope = 3 then s
    else s.shootdown { ctx := natBits v 0 8, scope := scope, vpage := s.getF .TIERS_INVAL_VA_VPAGE, slice := natBit v 10,
                       why := 0, arg := 0, frames := [], cmd := none, doneAt := none }

/-- SHOOTDOWN_COMPLETE: every unit concerned, of a slice's on every module, has acknowledged the oldest shootdown (R202). -/
def State.shootComplete (s : State) : State :=
  match s.tiers.shoot with
  | [] => s
  | x :: rest =>
    if x.doneAt.isSome then s
    else
      let s := s.dropCached x
      let s := { s with tiers := { s.tiers with shoot := { x with doneAt := some s.now } :: rest } }
      s.bump .TIERS_INVAL_STAT_DONE

/-- What the end of a drain releases: an UNMAP's frames and completion (R454). -/
def State.drained (s : State) (x : Shootdown) : State :=
  let s := s.toScrub (x.frames.filter fun f => !s.mappedElse [] f)
  match x.cmd with
  | some (r, q) =>
    match (s.ring r).outstanding.find? (fun c => c.seq == q) with
    | some c => s.complete c 0 0 0
    | none => s
  | none => s

/-- SHOOTDOWN_DRAIN_END: 4 us after completion every access translated before it has completed (R202). -/
def State.shootDrain (s : State) : State :=
  match s.tiers.shoot with
  | [] => s
  | x :: rest =>
    match x.doneAt with
    | none => s
    | some t =>
      if s.now < t + 4000 then s
      else
        let s := { s with tiers := { s.tiers with shoot := rest } }
        let s := match rest with
          | [] => s.setF .TIERS_INVAL_STAT_BUSY 0
          | y :: _ => s.startShoot y
        s.drained x

/-- A shootdown with a purpose is still under way. -/
def State.shootPending (s : State) (why arg : Nat) : Bool := s.tiers.shoot.any fun x => x.why == why && x.arg == arg

/-! ### Walks and accesses -/

/-- The page number that a cached leaf stands for. -/
def cachePage (big : Bool) (va : Nat) : Nat := if big then va / 65536 / 32 * 32 else va / 65536

/-- The leaf that a cache holds for an address, under the root the context selects (R200). -/
def State.cached (s : State) (u c va : Nat) : Option TlbEntry :=
  s.tiers.tlb.find? fun t => t.tu == u && t.ctx == c && t.root == s.rootSel c && t.vpage == cachePage t.big va

/-- Put a leaf into a cache of `cap` entries; the oldest makes room. -/
def State.fillCache (s : State) (cap : Nat) (t : TlbEntry) : State :=
  let mine := s.tiers.tlb.filter fun x => x.tu == t.tu
  let kept := if mine.length < cap then s.tiers.tlb else (s.tiers.tlb.filter fun x => x.tu != t.tu) ++ mine.drop 1
  { s with tiers := { s.tiers with tlb := kept ++ [t] } }

/-- The table that the walk cache of a unit holds for a level of an address. -/
def State.walkCached (s : State) (u c va lvl : Nat) : Option Nat :=
  (s.tiers.walks.find? fun t => t.tu == u && t.ctx == c && t.root == s.rootSel c && t.lvl == lvl && t.key == va / 2 ^ (if lvl = 0 then 45 else 33)).map (·.table)

/-- Where a unit's walk begins: below the lowest entry it has cached, else at the root. -/
def State.walkStart (s : State) (u c va : Nat) : Nat × Nat :=
  match s.walkCached u c va 1, s.walkCached u c va 0 with
  | some t, _ => (2, t)
  | none, some t => (1, t)
  | none, none => (0, s.rootOf c (s.rootSel c))

/-- The tables that the L0 and L1 entries of a walk point to, with their levels. -/
def State.walkTables (s : State) (va : Nat) : Nat → Nat → List (Nat × Nat × Nat) → List (Nat × Nat)
  | _, _, [] => []
  | lvl, table, (sh, bits, _) :: rest =>
    let p := s.pteAt (table % 2 ^ 45 + 16 * natBits va sh bits)
    if lvl < 2 && p.valid && !p.leaf then (lvl, p.addr) :: s.walkTables va (lvl + 1) p.addr rest else []

/-- Put the entries a walk read into its unit's walk cache, 512 in all. -/
def State.fillWalks (s : State) (u c va : Nat) (ts : List (Nat × Nat)) : State :=
  ts.foldl (fun s p =>
    let e : WalkEntry := { tu := u, ctx := c, root := s.rootSel c, lvl := p.1, key := va / 2 ^ (if p.1 = 0 then 45 else 33), table := p.2 }
    let mine := s.tiers.walks.filter fun x => x.tu == u
    let kept := if mine.length < 512 then s.tiers.walks else (s.tiers.walks.filter fun x => x.tu != u) ++ mine.drop 1
    { s with tiers := { s.tiers with walks := kept ++ [e] } }) s

/-- A translation by a unit (R188, R200): the leaf it holds, its permissions checked, else a walk, counted and cached. -/
def State.unitTranslate (s : State) (u c va : Nat) (write : Bool) : Walk × State :=
  match s.cached u c va with
  | some t => (if t.pte.forbids write then .bad 3 else .leaf t.pte 0 t.big, s)
  | none =>
    let s := s.bump .TIERS_WALKS_COUNT
    if s.getF .TIERS_CTX_CTRL_VALID (inst c) = 0 then (.bad 3, s)
    else
      let (lvl, table) := s.walkStart u c va
      let w := s.walkFrom c va write lvl table (ptLevels.drop lvl)
      let s := s.fillWalks u c va (s.walkTables va lvl table (ptLevels.drop lvl))
      match w with
      | .leaf p _ big => (w, s.fillCache 4096 { tu := u, ctx := c, root := s.rootSel c, vpage := cachePage big va, big := big, pte := p })
      | .bad _ => (w, s)

/-- The number of a stream engine's micro-cache. -/
def microCache (seat engine : Nat) : Nat := 16 + 8 * seat + engine

/-- A stream engine's translation (R200): its micro-cache of 64 leaves, filled from its seat's unit. -/
def State.engineTranslate (s : State) (seat engine c va : Nat) (write : Bool) : Walk × State :=
  match s.cached (microCache seat engine) c va with
  | some t => (if t.pte.forbids write then .bad 3 else .leaf t.pte 0 t.big, s)
  | none =>
    let (w, s) := s.unitTranslate seat c va write
    match w with
    | .leaf p _ big =>
      (w, s.fillCache 64 { tu := microCache seat engine, ctx := c, root := s.rootSel c, vpage := cachePage big va, big := big, pte := p })
    | .bad _ => (w, s)

/-- TRANSLATION_WALK: a translation unit translates for a context's access, or raises the fault (R188, R200). -/
def State.translationWalk (s : State) (tu c va : Nat) (write : Bool) : State :=
  match s.unitTranslate tu c va write with
  | (.leaf _ _ _, s) => s
  | (.bad b, s) => s.tiersFault b 3 (some c) (va % 2 ^ 60) 0

/-- TIER_ACCESS: a line access at a module offset, with the context and generation it was translated under. A write carries bytes for
`mask`ed positions; a whole line clears poison, a part keeps it (R603). A refused read answers a poisoned beat, a refused write
does nothing (R22, R197); on a port that has failed reads answer poisoned beats and writes are lost (R215). -/
def State.tierAccess (s : State) (c off gen seat module : Nat) (write : Bool) (first : Nat) (bs : List Byte) : State :=
  let refuse := fun (s : State) => if write then s else s.emit (.message "LINE" module [off / 64, 1])
  if s.portDead off then refuse s
  else match s.tagCheck c off gen write with
  | some b => (refuse s).tiersFault b 3 (some c) (s.dwezin off) gen
  | none =>
    let s := s.sampleHeat off (if module = s.self then some seat else none) module write
    if write then s.putBytes (off / 64 * 64 + first) (bs.take (64 - first))
    else s.emit (.message "LINE" module [off / 64, bit (s.poisonAt off), (if s.poisonAt off then 0 else (s.lineAt off).toNat)])

/-! ### Root swaps (R190) -/

/-- Do the swap: the other root, its shootdown, the old tree to reclaim. -/
def State.swapRoot (s : State) (c v : Nat) : State :=
  let old := s.rootOf c (s.rootSel c)
  let s := s.setF .TIERS_CTX_CTRL_ROOT_SEL v (inst c)
  let s := s.setF .TIERS_CTX_CTRL_SWAP_PEND 1 (inst c)
  let s := { s with tiers := { s.tiers with swapOld := SMap.put s.tiers.swapOld c old } }
  s.shootdown { ctx := c, scope := 1, vpage := 0, slice := (s.ctx c).span, why := 2, arg := c, frames := [], cmd := none, doneAt := none }

/-- ROOT_SEL: a write by cox firmware. While the old tree drains it is discarded; a migration in progress is waited for. -/
def State.rootSelWrite (s : State) (m : Master) (c v : Nat) : State :=
  if m.host then s.hostRefused m 0x04 Reg.TIERS_CTX_CTRL
  else if s.flag .TIERS_CTX_CTRL_SWAP_PEND (inst c) then s.notice 0x04 nAccessState Reg.TIERS_CTX_CTRL
  else if v % 2 = s.rootSel c then s
  else if s.tiers.migs.any (fun g => g.ctx == c) then
    { s with tiers := { s.tiers with rootWait := SMap.put s.tiers.rootWait c (v % 2) } }
  else s.swapRoot c (v % 2)

/-- The table addresses reachable from a table, three levels down. -/
def State.tablesUnder (s : State) : Nat → Nat → List Nat
  | 0, t => [t]
  | n + 1, t => t :: (s.tiers.pt.filter (fun p => decide (t % 2 ^ 45 ≤ p.1) && decide (p.1 < t % 2 ^ 45 + 65536) && p.2.valid && !p.2.leaf)).flatMap
      fun p => s.tablesUnder n p.2.addr

/-- ROOT_SWAP_DRAIN: the old tree's own tables go to SCRUB, SWAP_PEND clears. -/
def State.rootDrain (s : State) (c : Nat) : State :=
  match s.tiers.swapOld.find? (fun p => p.1 == c) with
  | none => s
  | some (_, old) =>
    if s.shootPending 2 c then s
    else
      let keep := s.tablesUnder 3 (s.rootOf c (s.rootSel c))
      let gone := if old = 0 then [] else (s.tablesUnder 3 old).filter fun t => !keep.contains t
      let s := gone.foldl (fun s t =>
        let f := t % 2 ^ 45 / 65536
        let s := s.setTag f { s.tag f with kind := 4 }
        { s with tiers := { s.tiers with pt := s.tiers.pt.filter fun p => !(decide (f * 65536 ≤ p.1) && decide (p.1 < (f + 1) * 65536)) } }) s
      let s := { s with tiers := { s.tiers with swapOld := SMap.drop s.tiers.swapOld c } }
      s.setF .TIERS_CTX_CTRL_SWAP_PEND 0 (inst c)

/-! ### Firmware streams (R224) -/

/-- Bytes of an element of a firmware copy of `n` bytes: whole frames by frames, what fits a frame at once, else lines (log 117). -/
def copyElem (n : Nat) : Nat := if n % 65536 = 0 then 65536 else if n < 65536 then n else 64

/-- A stream of cox firmware: untranslated copies between Dwezin addresses, each of whole lines, on an engine of a seat, for a context and a
job; `need` is NEED_NS, `purpose` and `arg` say what it serves: 1 a migration, 2 a pause copy, 3 a return copy, 5 a sediment copy, 6 a deposit, 7 a
checkpoint, 8 a holder's copy to its twin (4 is a rig's run). Engine 7 is the model's choice (log 117). -/
def State.firmwareStream (s : State) (seat c job purpose arg need : Nat) (parts : List (Nat × Nat × Nat)) : State :=
  let id := s.streams.nextId
  let offset := fun (a : Nat) => (((a : Int) - (s.dwezin 0 : Int)) % (2 ^ 56 : Nat)).toNat
  let k : SeatCmd := { id := id, seat := seat, ctx := c, job := job, launched := true, cmd := none, purpose := purpose, arg := arg }
  let is := parts.mapIdx fun i p => ({ id := id + 1 + i, seat := seat, slot := 0, ctx := c, job := job, step := 0, record := 65535, cmd := id,
                                       launched := true, launchedAt := s.now,
                                       desc := { phys := true, engine := 7, elemLines := copyElem p.2.2 / 64, src := offset p.1, dst := offset p.2.1, needNs := need,
                                                 dims := [(p.2.2 / copyElem p.2.2, copyElem p.2.2, copyElem p.2.2), (1, 0, 0), (1, 0, 0), (1, 0, 0)] } } : StreamInst)
  { s with streams := { s.streams with cmds := s.streams.cmds ++ [k], insts := s.streams.insts ++ is, nextId := id + 1 + parts.length } }

/-- A firmware stream of a purpose is still under way. -/
def State.firmwareBusy (s : State) (purpose arg : Nat) : Bool := s.streams.cmds.any fun k => k.purpose == purpose && k.arg == arg

/-- A firmware stream is given up: what is in flight completes into voided buffers. -/
def State.dropFirmware (s : State) (purpose arg : Nat) : State :=
  let ids := (s.streams.cmds.filter fun k => k.purpose == purpose && k.arg == arg).map (·.id)
  { s with streams := { s.streams with
      cmds := s.streams.cmds.filter fun k => !ids.contains k.id
      insts := (s.streams.insts.map fun (x : StreamInst) => if ids.contains x.cmd then { x with void := true } else x).filter fun x =>
        !x.void || x.reqs.any fun r => !r.landed } }

/-- The seat whose engines copy between two addresses: that of the source, else of the destination, else seat 0 (log 117). -/
def State.copySeat (s : State) (src dst : Nat) : Nat :=
  let seat := fun (a : Nat) => if a / 2 ^ 45 = s.self then seatOfOff (a % 2 ^ 45) else none
  ((seat src).orElse fun _ => seat dst).getD 0

/-! ### Migration (Table 7.5) -/

/-- Change a page's entry in the tree and its replicas (R198). -/
def State.editLeaf (s : State) (c va : Nat) (f : Pte → Pte) : State :=
  match s.findLeaf c va with
  | some (a, p) => (s.setPte a (f p)).tellLeaf (f p)
  | none => s

/-- M1 once the destination frame is allocated: MIGRATING is set, the shootdown issued. -/
def State.beginMig (s : State) (p : Pte) (tier newAddr : Nat) : State :=
  let id := s.tiers.nextMig
  let g : Migration := { id := id, ctx := p.ctx, va := p.va, big := p.big, oldAddr := p.addr, newAddr := newAddr, newTier := tier,
                         phase := 1, since := s.now, bad := [] }
  let s := s.editLeaf p.ctx p.va fun q => { q with migrating := true }
  let s := { s with tiers := { s.tiers with migs := s.tiers.migs ++ [g], nextMig := id + 1 } }
  s.shootdown (pageShoot p.ctx p.va (s.ctx p.ctx).span 3 id)

/-- M1 within the module: the destination allocated in a tier, tagged with the next generation; none where there is no frame. -/
def State.startMig (s : State) (p : Pte) (seat tier : Nat) : Option State :=
  let found := if tier = 0 ∧ p.big then none else s.findIn p.big (s.moveRanges tier seat)
  match s.allocAt p.ctx tier p.big ((p.gen + 1) % 16) found with
  | .error _ => none
  | .ok (off, s) => some (s.beginMig p tier (s.dwezin off))

/-- Change a migration in progress. -/
def State.setMig (s : State) (id : Nat) (f : Migration → Migration) : State :=
  { s with tiers := { s.tiers with migs := s.tiers.migs.map fun g => if g.id = id then f g else g } }

/-- MIGRATION_WRITE_DRAIN: with the drain of M1 over (M2) an engine copies the page (M3), an unkeyed stream of its context (R237). -/
def State.migWriteDrain (s : State) (id : Nat) : State :=
  match s.tiers.migs.find? (fun g => g.id == id) with
  | some g =>
    if g.phase = 1 ∧ !s.shootPending 3 id then
      (s.setMig id fun g => { g with phase := 3, since := s.now }).firmwareStream (s.copySeat g.oldAddr g.newAddr) g.ctx 0 1 id 0
        [(g.oldAddr, g.newAddr, pageBytes g.big)]
    else s
  | none => s

/-- Copy bytes within the module line by line with poison flags. -/
def State.copyPage (s : State) (src dst n : Nat) : State :=
  (List.range (n / 64)).foldl (fun s i =>
    let d := s.lineAt (src + 64 * i)
    let p := s.poisonAt (src + 64 * i) || s.portDead (src + 64 * i)
    if d = 0 ∧ !p then s else (s.putLine (dst + 64 * i) d p)) s

/-- The entries that read a SHARED page beside its owner's, at `key`, move with it, since what an access reads never changes (R197, log 25). -/
def State.moveSharers (s : State) (g : Migration) (key : Nat) : State :=
  let old := g.oldAddr % 2 ^ 45 / 65536
  let new := g.newAddr % 2 ^ 45 / 65536
  if !(s.tag old).shared then s
  else
    let mine := fun (p : Nat × Pte) => p.1 != key && p.2.valid && p.2.leaf && p.2.addr == g.oldAddr
    let them := (s.tiers.pt.filter mine).map fun p => (p.1, { p.2 with addr := g.newAddr, gen := (p.2.gen + 1) % 16, tier := g.newTier })
    let s := them.foldl (fun (s : State) (p : Nat × Pte) => (s.setPte p.1 p.2).tellLeaf p.2) s
    if g.newAddr / 2 ^ 45 ≠ s.self then s
    else (List.range (pageFrames g.big)).foldl (fun (s : State) (i : Nat) => s.setTag (new + i) { s.tag (new + i) with shared := true }) s

/-- A source line that M3 finds uncorrectable (Table 7.6): poisoned at both frames, logged. -/
def State.migUe (s : State) (g : Migration) (a : Nat) : State :=
  let o := a % pageBytes g.big / 64 * 64
  let s := s.ueLine (g.oldAddr % 2 ^ 45 + o)
  if g.newAddr / 2 ^ 45 = s.self then s.putLine (g.newAddr % 2 ^ 45 + o) 0 true
  else s.sendWrite (g.newAddr + o) g.ctx (g.va + o) true (List.replicate 64 0)

/-- MIGRATION_COPY_DONE: the copy has landed, the entry switches to the new frame (M4), the writes held are made (R207). `ue` names the lines found
uncorrectable, as offsets in the page. -/
def State.migCopyDone (s : State) (id : Nat) (ue : List Nat) : State :=
  match s.tiers.migs.find? (fun g => g.id == id) with
  | none => s
  | some g =>
    if g.phase ≠ 3 || s.firmwareBusy 1 id then s
    else
      let s := ue.foldl (fun s a => s.migUe g a) s
      let all := (s.tag (g.oldAddr % 2 ^ 45 / 65536)).shared
      let s := s.editLeaf g.ctx g.va fun p => { p with addr := g.newAddr, gen := (p.gen + 1) % 16, tier := g.newTier, migrating := false }
      let s := s.moveSharers g (((s.findLeaf g.ctx g.va).map (·.1)).getD 0)
      let s := s.bump .TIERS_MIG_BYTES_COUNT (pageBytes g.big)
      let s := s.setMig id fun g => { g with phase := 4, since := s.now, bad := (ue.map fun a => a % pageBytes g.big / 65536).eraseDups }
      let s := s.releaseWrites g.ctx g.va g.big
      s.shootdown { pageShoot g.ctx g.va (s.ctx g.ctx).span 4 id with scope := if all then 2 else 0 }

/-- Retire a frame (R218): withdrawn, logged, recorded. -/
def State.retireFrame (s : State) (f cause : Nat) : State :=
  let t := s.tag f
  if t.retired then s
  else
    let s := s.setTag f { t with retired := true, retiring := false, kind := if t.kind = 1 then 4 else t.kind }
    let s := s.bump .LOG_PAIR_RETIRED
    let s := s.logRec 5 (packBytes [(8, s.dwezin (f * 65536)), (1, (tierRange (f * 65536)).getD 0), (1, cause)])
    s.tiersFault 11 1 none (s.dwezin (f * 65536)) 0

/-- A frame due for retirement: one in use is evacuated first (R204 step 1) or retires with its scrub, a free one goes at once. -/
def State.dueRetire (s : State) (f cause : Nat) : State :=
  let t := s.tag f
  if t.kind ≠ 0 ∧ !s.sysFrame f then (if t.retired then s else s.setTag f { t with retiring := true }) else s.retireFrame f cause

/-- MIGRATION_READ_DRAIN: the old frame goes to SCRUB, or is retired if due (M5, M6); a root swap that waited goes on. -/
def State.migReadDrain (s : State) (id : Nat) : State :=
  match s.tiers.migs.find? (fun g => g.id == id) with
  | none => s
  | some g =>
    if g.phase = 4 ∧ !s.shootPending 4 id then
      let f := g.oldAddr % 2 ^ 45 / 65536
      let due := (List.range (pageFrames g.big)).filter fun i => (s.tag (f + i)).retiring || g.bad.contains i
      let s := s.scrubPage g.ctx (g.oldAddr % 2 ^ 45) g.big
      let s := due.foldl (fun s i => s.retireFrame (f + i) 1) s
      let s := { s with tiers := { s.tiers with migs := s.tiers.migs.filter fun x => x.id != id } }
      let s := s.bump .TIERS_MIGRATIONS_COUNT
      let s := s.pmc 0x11 1 (some g.ctx)
      match s.tiers.rootWait.find? (fun p => p.1 == g.ctx) with
      | some (_, v) =>
        if s.tiers.migs.any (fun x => x.ctx == g.ctx) then s
        else
          let s := { s with tiers := { s.tiers with rootWait := SMap.drop s.tiers.rootWait g.ctx } }
          s.swapRoot g.ctx v
      | none => s
    else s

/-- Abort a migration before M4: the entry is unchanged, MIG_ABORT (Table 7.6); the writes held go to the old frame. -/
def State.abortMig (s : State) (g : Migration) : State :=
  let s := s.dropFirmware 1 g.id
  let s := s.editLeaf g.ctx g.va fun p => { p with migrating := false }
  let s := if g.newAddr / 2 ^ 45 = s.self then s.scrubPage g.ctx (g.newAddr % 2 ^ 45) g.big
    else s.emit (.message "REPLICA_UPDATE" (g.newAddr / 2 ^ 45) [g.ctx, 4, g.newAddr, bit g.big])
  let s := { s with tiers := { s.tiers with migs := s.tiers.migs.filter fun x => x.id != g.id } }
  let s := s.releaseWrites g.ctx g.va g.big
  s.tiersFault 10 0 (some g.ctx) g.oldAddr 0

/-! ### The Tiller (R203, R204) -/

/-- Free units of a tier, in 64 KiB frames. -/
def State.freeUnits (s : State) (tier : Nat) : Nat :=
  let total := (s.tierRanges tier).foldl (fun a r => a + (r.2 - r.1)) 0
  let used := (s.tiers.frames.filter fun p =>
    (p.2.kind != 0 || p.2.retired) && (s.tierRanges tier).any (fun r => decide (r.1 ≤ p.1) && decide (p.1 < r.2))).length
  total - used

/-- Units of a tier, of one context or of all, that migrations in flight give back at M6. -/
def State.leavingUnits (s : State) (tier : Nat) (ctx : Option Nat) : Nat :=
  (s.tiers.migs.filter fun g => tierRange (g.oldAddr % 2 ^ 45) == some tier && (match ctx with
    | some c => g.ctx == c
    | none => true)).foldl (fun a g => a + pageFrames g.big) 0

/-- Free Subsoil in per mille of the whole, what is already leaving counted as free or not. -/
def State.subFree (s : State) (leaving : Bool) : Nat :=
  (s.freeUnits 1 + (if leaving then s.leavingUnits 1 none else 0)) * 1000 / (1152 * 16384)

/-- Leaf entries of pages whose frames this module holds, lower Dwezin address first. -/
def State.pages (s : State) : List Pte :=
  let all := (s.tiers.pt.filter fun p => p.2.valid && p.2.leaf && p.2.addr / 2 ^ 45 == s.self).map (·.2)
  orderBy all fun a b => decide (a.addr ≤ b.addr)

/-- Candidates for a move (R204): DATA, not RETIRED, no migration under way, not FIXED, no XFER; quiet writes but for evacuation; no migration of a
context whose old tree drains or whose swap waits (R190). -/
def State.movable (s : State) (p : Pte) (quiet : Bool) : Bool :=
  let t := s.tag (p.addr % 2 ^ 45 / 65536)
  t.kind == 1 && !t.retired && !p.migrating && !(s.tiers.migs.any fun g => g.ctx == p.ctx && g.va == p.va) && p.place != 2 && !p.xfer &&
    (!quiet || decide (t.quietW ≥ 2)) && !s.flag .TIERS_CTX_CTRL_SWAP_PEND (inst p.ctx) && !(s.tiers.rootWait.any fun q => q.1 == p.ctx)

/-- A frame to be evacuated: a retiring one, or one on a Bedrock port going offline. -/
def State.frameLeaves (s : State) (f : Nat) : Bool :=
  (s.tag f).retiring || (tierRange (f * 65536) == some 2 && s.getF .TIERS_BR_STAT_STATE (8 * portOf (f * 65536)) == 3)

/-- Whether a page is to be evacuated. -/
def State.evacuate (s : State) (p : Pte) : Bool :=
  (List.range (pageFrames p.big)).any fun i => s.frameLeaves (p.addr % 2 ^ 45 / 65536 + i)

/-- Room under MAX_MIG. -/
def State.migRoom (s : State) : Bool := decide (s.tiers.migs.length < clamp 1 64 (s.getF .TIERS_TILLER_CTRL_MAX_MIG))

/-- Heat at the end of a period (R203): halved; IDLE advances where both are zero. TOP_MODULE holds on while the heat stays at `pt` (R204). -/
def ageTag (pt : Nat) (t : FrameTag) : FrameTag :=
  { t with
    idle := if t.heatR = 0 ∧ t.heatW = 0 then min 4095 (t.idle + 1) else t.idle
    quietW := if t.heatW = 0 then min 3 (t.quietW + 1) else 0
    topHeld := if pt ≤ t.heatR then t.topHeld + 1 else 0
    heatR := t.heatR / 2
    heatW := t.heatW / 2 }

/-- Start a page's migration into the first of some tiers with a frame for it; one that finds none is skipped. -/
def State.tryMove (s : State) (p : Pte) (seat : Nat) : List Nat → State
  | [] => s
  | t :: rest => match s.startMig p seat t with
    | some s => s
    | none => s.tryMove p seat rest

/-- One pass over candidates: the tiers each may go to, none for a page that stays. -/
def State.movePass (s : State) (ps : List Pte) (to_ : State → Pte → List Nat) : State :=
  ps.foldl (fun s p => if s.migRoom then s.tryMove p (s.tag (p.addr % 2 ^ 45 / 65536)).topSeat (to_ s p) else s) s

/-- The context number of the frames of stored extents and held pages: they are of kind SYS, whose CTX names no context (log 42). -/
def sedCtx : Nat := 0

/-- A run of frames for a stored extent of a size, Subsoil before Bedrock (log 42); the frames are zeroed and kept by firmware. -/
def State.storeExtent (s : State) (size : Nat) : Option (Nat × State) :=
  let n := size / 65536
  let g := if size % 0x200000 = 0 then 32 else 1
  let try_ := fun (tier : Nat) => (s.tierRanges tier).findSome? fun r =>
    (List.range (s.tiers.frames.length + 2)).findSome? fun k =>
      let f := (r.1 + g - 1) / g * g + k * g
      if f + n ≤ r.2 ∧ (List.range n).all (fun i => s.frameFree (f + i)) = true then some f else none
  match try_ 1 <|> try_ 2 with
  | none => none
  | some f =>
    let s := (List.range n).foldl (fun s i => s.setTag (f + i) { ctx := sedCtx, kind := 3 }) s
    some (f * 65536, s.zeroRange (f * 65536) size)

/-- Move one stored extent (R215, R218): copied whole, its entry renamed, its old frames to SCRUB. -/
def State.moveStored (s : State) (e : SedEnt) : State :=
  match s.storeExtent e.extent with
  | none => s
  | some (off, s) =>
    let old := e.addr % 2 ^ 45
    let s := s.copyPage old off e.extent
    let s := { s with sed := { s.sed with entries := s.sed.entries.map fun (x : SedEnt) => if x.hash = e.hash then { x with addr := s.dwezin off } else x } }
    s.toScrub ((List.range (e.extent / 65536)).map fun i => old / 65536 + i)

/-- Move what stands on frames that leave, of some frames of paused conversations, to other Bedrock; the frames as they are then (R215). -/
def State.moveFrames (s : State) : List Nat → List Nat × State
  | [] => ([], s)
  | f :: rest =>
    let (g, s) := if !s.frameLeaves f then (f, s)
      else match s.findFrame 2 false with
        | none => (f, s)
        | some g => (g, ((s.setTag g { ctx := sedCtx, kind := 3 }).copyPage (f * 65536) (g * 65536) 65536).toScrub [f])
    let (l, s) := s.moveFrames rest
    (g :: l, s)

/-- The frames of holds move, but those that a claim pins or that are extents of this module's own contexts. -/
def State.moveHolds (s : State) : List Hold → List Hold × State
  | [] => ([], s)
  | h :: rest =>
    let (ps, s) := if h.owner = s.self || h.claimed then (h.pages, s) else s.moveFrames h.pages
    let (l, s) := s.moveHolds rest
    ({ h with pages := ps } :: l, s)

/-- Move one extent of a mirror to a free one; the twin is told where it stands now (Table 17.3). -/
def State.moveMirror (s : State) (i j a size handle ctx : Nat) : State :=
  let n := max 1 (size / 65536)
  match (s.tierRanges 2).findSome? fun r => s.findRun n r.2 (s.tiers.frames.length + 1) ((r.1 + 31) / 32 * 32) with
  | none => s
  | some f =>
    let s := (List.range n).foldl (fun s k => s.setTag (f + k) { ctx := sedCtx, kind := 3 }) s
    let s := s.copyPage a (f * 65536) size
    let s := { s with twin := { s.twin with mirrors := s.twin.mirrors.map fun (m : Nat × Mirror) =>
      if m.1 = i then (i, { m.2 with extents := m.2.extents.set j (f * 65536) }) else m } }
    let s := s.toScrub ((List.range n).map fun k => a / 65536 + k)
    s.sendTwin "MIRROR_MAP" false handle ctx (packBytes [(4, j), (4, 1), (8, s.dwezin (f * 65536))])

/-- Step 1's evacuation of what cox firmware keeps for others: stored extents without pins, held pages that no claim pins, mirrors' extents
(R26, R331, R496). -/
def State.moveKept (s : State) : State :=
  let leaves := fun (s : State) (e : SedEnt) => (List.range (e.extent / 65536)).any fun i => s.frameLeaves (e.addr % 2 ^ 45 / 65536 + i)
  let s := s.sed.entries.foldl (fun s e => if e.state == 2 && e.pins == 0 && leaves s e then s.moveStored e else s) s
  let (hs, s) := s.moveHolds s.twin.holds
  let (ms, s) := s.moveHolds s.twin.mirrorHolds
  let s := { s with twin := { s.twin with holds := hs, mirrorHolds := ms } }
  s.twin.mirrors.foldl (fun s m => m.2.extents.zipIdx.foldl (fun s p =>
    if (List.range (m.2.size / 65536)).any fun k => s.frameLeaves (p.1 / 65536 + k) then
      s.moveMirror m.1 p.2 p.1 m.2.size (handleOf m.1 m.2.entry.a.gen) m.2.entry.a.ctx
    else s) s) s

/-- Pass 5 for one page (R204): a page of a context mastered elsewhere is submitted to its master; the master asks TOP_MODULE for a frame (M1), and
begins the migration once it is offered one (log 118). -/
def State.crossMove (s : State) (offers : List (Nat × Nat × Nat)) (p : Pte) (module : Nat) : State :=
  let x := s.ctx p.ctx
  if x.master ≠ s.self then s.emit (.message "MOVE" x.master [p.ctx, p.va, module])
  else match offers.find? fun o => o.1 == p.ctx && o.2.1 == p.va && o.2.2 / 2 ^ 45 == module with
    | some o => s.beginMig p ((tierRange (o.2.2 % 2 ^ 45)).getD 1) o.2.2
    | none => s.emit (.message "REPLICA_UPDATE" module [p.ctx, 3, p.va, bit p.big, (p.gen + 1) % 16])

/-- TILLER_PERIOD: the passes of R204 start what MAX_MIG allows, then heat is aged. BW_PCT bounds rate, which is not modelled (log 4). A frame
that another module offered and no move took is given back. -/
def State.tillerPeriod (s : State) : State :=
  if !s.flag .TIERS_TILLER_CTRL_EN then s
  else
    let pt := s.getF .TIERS_TILLER_CTRL_PROMOTE_T
    let low := s.getF .TIERS_TILLER_LEVELS_SUB_LOW
    let high := max low (s.getF .TIERS_TILLER_LEVELS_SUB_HIGH)
    let dem := atLeast1 (s.getF .TIERS_TILLER_LEVELS_DEMOTE_PERIODS)
    let offers := s.tiers.offers
    let s := { s with tiers := { s.tiers with offers := [] } }
    let ps := s.pages
    let tg := fun (s : State) (p : Pte) => s.tag (p.addr % 2 ^ 45 / 65536)
    let byIdle := orderBy ps fun a b => decide ((tg s b).idle ≤ (tg s a).idle)
    let byHeat := orderBy ps fun a b => decide ((tg s b).heatR ≤ (tg s a).heatR)
    let start := s.subFree false
    let s := s.movePass ps fun s p =>
      if s.evacuate p && s.movable p false then (match p.tier with
        | 0 => [0, 1, 2]
        | 1 => [1, 2]
        | _ => [2, 1]) else []
    let s := s.moveKept
    let s := if start < low then
        s.movePass byIdle fun s p =>
          if decide (s.subFree true < high) && p.tier == 1 && s.movable p true && decide (dem ≤ (tg s p).idle) then [2] else []
      else s
    let s := s.movePass (byIdle.filter fun p => p.tier != 2) fun s p =>
      if decide (s.quota p.ctx p.tier + s.leavingUnits p.tier (some p.ctx) < s.usage p.ctx p.tier) && s.movable p true then
        (if p.tier = 0 then [1, 2] else [2]) else []
    let s := s.movePass byHeat fun s p =>
      if decide (high < s.subFree false) && p.tier == 2 && s.movable p true && decide (pt ≤ (tg s p).heatR) then [1] else []
    let s := s.movePass byHeat fun s p => if p.tier == 1 && !p.big && s.movable p true && decide (pt ≤ (tg s p).heatR) then [0] else []
    let had := s.tiers.nextMig
    let s := ps.foldl (fun s p =>
      let t := tg s p
      if s.migRoom && p.place == 0 && s.movable p true && decide (8 ≤ t.topHeld) && decide (pt ≤ t.heatR) && t.topModule != s.self &&
          (s.ctx p.ctx).span && (s.sliceOf (s.ctx p.ctx).slice).contains t.topModule then s.crossMove offers p t.topModule
      else s) s
    let s := offers.foldl (fun s o =>
      if s.tiers.migs.any fun g => decide (had ≤ g.id) && g.newAddr == o.2.2 then s
      else s.emit (.message "REPLICA_UPDATE" (o.2.2 / 2 ^ 45) [o.1, 4, o.2.2, bit (((s.findLeaf o.1 o.2.1).map fun l => l.2.big).getD false)])) s
    let s := { s with tiers := { s.tiers with frames := s.tiers.frames.map fun p => (p.1, ageTag pt p.2) } }
    if s.board.poolRole == 3 then s.emit (.message "FREE_BEDROCK" s.self [s.freeUnits 2]) else s

/-- A frame asked for by another module's table master for a page coming here (M1): allocated while Subsoil stands above SUB_HIGH (R204), tagged and
offered. -/
def State.offerFrame (s : State) (c va : Nat) (big : Bool) (gen : Nat) : State :=
  let high := max (s.getF .TIERS_TILLER_LEVELS_SUB_LOW) (s.getF .TIERS_TILLER_LEVELS_SUB_HIGH)
  if s.subFree false ≤ high then s
  else match s.allocAt c 1 big gen (s.findIn big (s.moveRanges 1 0)) with
    | .error _ => s
    | .ok (off, s) => s.emit (.message "REPLICA_UPDATE" (s.ctx c).master [c, 5, va, s.dwezin off])

/-- A frame offered that its page did not come to goes back (Table 7.6). -/
def State.takeBack (s : State) (c addr : Nat) (big : Bool) : State :=
  let off := addr % 2 ^ 45
  let t := s.tag (off / 65536)
  if addr / 2 ^ 45 = s.self ∧ t.kind = 1 ∧ t.ctx = c ∧ !s.mappedElse [] (off / 65536) then s.scrubPage c off big else s

/-! ### Scrubbing (R219) and retirement -/

/-- With no frame of a context in SCRUB its identifier is free again (R219). -/
def State.settleScrub (s : State) (c : Nat) : State :=
  if s.inScrub c then s
  else (s.setCtx c { s.ctx c with scrubbing := false, held := (s.ctx c).held && (s.ctx c).valid }).setF .TIERS_CTX_CTRL_SCRUBBING 0 (inst c)

/-- FRAME_SCRUB_DONE: the frame is zero and FREE, or withdrawn if its retirement was due (R218); when the context's last frame leaves SCRUB its identifier
is free again. -/
def State.frameScrubDone (s : State) (f : Nat) : State :=
  let t := s.tag f
  if t.kind ≠ 4 then s
  else
    let s := s.zeroRange (f * 65536) 65536
    let s := { s with tiers := { s.tiers with pt := s.tiers.pt.filter fun p => !(decide (f * 65536 ≤ p.1) && decide (p.1 < (f + 1) * 65536)) } }
    let s := s.setTag f { retired := t.retired, corrected := t.corrected }
    let s := if t.retiring then s.retireFrame f 1 else s
    s.settleScrub t.ctx

/-! ### HBM stacks (R210, R211) and patrol (R216, R217) -/

/-- The key part of a stack's register. -/
def stackOff (k : Nat) : Nat := inst k

/-- HBM_TEMP_CHANGE (R211): above 85 C refresh doubles; at 95 C and above the commands are throttled, which changes no value. -/
def State.hbmTemp (s : State) (k temp : Nat) : State :=
  if k ≥ 24 then s
  else
    let s := s.setF .TIERS_HBM_STAT_TEMP_C temp (stackOff k)
    s.setF .TIERS_HBM_STAT_REFRESH_2X (if 85 < temp then 1 else 0) (stackOff k)

/-- The rate of a stack that is trained: 10 Gb/s, or 8 with HBM_RATE_DOWN, or none (R210). At run time the loss of a stack is
module-fatal. `outcome` is 0 at 10 Gb/s, 1 at 8, 2 down. -/
def State.hbmTrained (s : State) (k outcome : Nat) : State :=
  match outcome with
  | 0 => (s.setF .TIERS_HBM_STAT_STATE 2 (stackOff k)).setF .TIERS_HBM_STAT_RATE 10 (stackOff k)
  | 1 =>
    let s := (s.setF .TIERS_HBM_STAT_STATE 2 (stackOff k)).setF .TIERS_HBM_STAT_RATE 8 (stackOff k)
    s.tiersFault 12 1 none 0 0 4 k
  | _ =>
    let s := s.setF .TIERS_HBM_STAT_STATE 3 (stackOff k)
    let s := s.setF .TIERS_CAP_STACKS_UP (s.getF .TIERS_CAP_STACKS_UP - 1)
    s.tiersFault 13 4 none 0 0 4 k

/-- HBM_RETRAIN (R211): a stack retrains when its temperature has moved 8 C since its last training or its corrected errors exceed 16
a second: its 32 channels one after the other (R210); RETRAINS, of channels, saturates, and the logbook records it (Table 19.9a). -/
def State.hbmRetrain (s : State) (k rate outcome : Nat) : State :=
  let temp := s.getF .TIERS_HBM_STAT_TEMP_C (stackOff k)
  let last := SMap.get 0 s.tiers.hbmTrainTemp k
  let moved := decide (last + 8 ≤ temp) || decide (temp + 8 ≤ last)
  if k ≥ 24 || s.getF .TIERS_HBM_STAT_STATE (stackOff k) != 2 || !(moved || decide (16 < rate)) then s
  else
    let n := s.getF .TIERS_HBM_STAT_RETRAINS (stackOff k)
    let s := s.setF .TIERS_HBM_STAT_RETRAINS (min 65535 (n + 32)) (stackOff k)
    let s := { s with tiers := { s.tiers with hbmTrainTemp := SMap.put s.tiers.hbmTrainTemp k temp } }
    let s := s.bump .LOG_CYCLES_RETRAINS
    let s := s.logRec 6 (packBytes [(1, k), (1, if moved then 1 else 2), (2, rate)])
    s.hbmTrained k outcome

/-- A corrected or uncorrectable error of a stack (R565, Table 19.9a). -/
def State.hbmError (s : State) (off : Nat) (ue : Bool) : State :=
  if ue then { s.bump .LOG_HBM_UE_COUNT with log := { (s.bump .LOG_HBM_UE_COUNT).log with stackUe := SMap.modify 0 s.log.stackUe (stackOf off) (· + 1) } }
  else { s.bump .LOG_HBM_CE_COUNT with log := { (s.bump .LOG_HBM_CE_COUNT).log with stackCe := SMap.modify 0 s.log.stackCe (stackOf off) (· + 1) } }

/-- 24 h in ns (R218). -/
def dayNs : Nat := 86400000000000

/-- A corrected line in a tier: counted, and the sixteenth within 24 h retires the frame (R216, R218). -/
def State.corrected (s : State) (off : Nat) : State :=
  let s := s.bump .TIERS_CE_COUNT
  let tier := (s.tierOf off).getD 1
  let s := s.tiersFault (if tier = 0 then 0 else 1) 1 none (s.dwezin off) 0
  let s := if tier = 1 then s.hbmError off false else s
  let f := off / 65536
  let t := s.tag f
  let times := s.now :: t.corrected.filter fun x => decide (s.now < x + dayNs)
  let s := s.setTag f { t with corrected := times }
  if 16 ≤ times.length then s.dueRetire f 2 else s

/-- PATROL_SCRUB (R217): `outcome` 0 clean, 1 corrected, 2 uncorrectable. -/
def State.patrol (s : State) (off outcome : Nat) : State :=
  match s.tierOf off with
  | none => s
  | some tier =>
    match outcome with
    | 0 => s
    | 1 => s.corrected off
    | _ =>
      if s.poisonAt off then s
      else
        let s := s.ueLine off
        let s := if tier = 1 then s.hbmError off true else s
        s.dueRetire (off / 65536) 1

/-! ### Bedrock (R213-R215) -/

/-- A port's base offset. -/
def portBase (p : Nat) : Nat := 0x100000000000 + p * 0x20000000000
/-- Whether a frame lies on a port. -/
def onPort (p f : Nat) : Bool := decide (portBase p ≤ f * 65536) && decide (f * 65536 < portBase p + 0x20000000000)

/-- PORTS_UP follows the ports online. -/
def State.portsUp (s : State) : State :=
  s.setF .TIERS_CAP_PORTS_UP (packBits ((List.range 4).map fun p => (1, bit (s.getF .TIERS_BR_STAT_STATE (8 * p) == 2))))

/-- CXL_EVENT_POLL (R214): each record is logged; an uncorrectable one's frame is retired. -/
def State.cxlPoll (s : State) (p : Nat) (recs : List (Nat × Bool)) : State :=
  recs.foldl (fun s r =>
    let s := s.tiersFault 15 1 none (s.dwezin (portBase p + r.1)) 0 5 p
    if r.2 then s.dueRetire ((portBase p + r.1) / 65536) 1 else s) s

/-- BEDROCK_OFFLINE (R215): evacuation starts. -/
def State.brOffline (s : State) (m : Master) (p : Nat) : State :=
  if m.host then s.hostRefused m 0x04 (Reg.TIERS_BR_CTRL + 8 * p)
  else if p < 4 ∧ s.getF .TIERS_BR_STAT_STATE (8 * p) = 2 then
    let s := s.setF .TIERS_BR_STAT_STATE 3 (8 * p)
    let s := s.setF .TIERS_BR_CTRL_OFFLINE 1 (8 * p)
    (s.setF .TIERS_BR_CTRL_EVAC_BUSY 1 (8 * p)).portsUp
  else s

/-- EVACUATION_DONE (R215): the port holds nothing and is taken down. -/
def State.evacDone (s : State) (p : Nat) : State :=
  if p < 4 ∧ s.getF .TIERS_BR_STAT_STATE (8 * p) = 3 ∧
      !(s.tiers.frames.any fun q => onPort p q.1 && q.2.kind != 0) then
    let s := s.setF .TIERS_BR_STAT_STATE 4 (8 * p)
    let s := s.setF .TIERS_BR_CTRL_OFFLINE 0 (8 * p)
    (s.setF .TIERS_BR_CTRL_EVAC_BUSY 0 (8 * p)).portsUp
  else s

/-- BEDROCK_ONLINE (R215): a trained port's capacity joins the free pool. -/
def State.brOnline (s : State) (m : Master) (p : Nat) : State :=
  if m.host then s.hostRefused m 0x04 (Reg.TIERS_BR_CTRL + 8 * p)
  else if p < 4 ∧ s.getF .TIERS_BR_STAT_STATE (8 * p) = 4 then (s.setF .TIERS_BR_STAT_STATE 2 (8 * p)).portsUp
  else s

/-- What cox firmware kept for others on a port is gone with it: stored extents with their entries, and holds, whose owners are told (R215, R330). -/
def State.loseKept (s : State) (p : Nat) : State :=
  let there := fun (a n : Nat) => (List.range (n / 65536)).any fun i => onPort p (a % 2 ^ 45 / 65536 + i)
  let s := { s with sed := { s.sed with entries := s.sed.entries.filter fun (e : SedEnt) => !there e.addr e.extent } }
  let gone := s.twin.holds.filter fun (h : Hold) => h.owner != s.self && h.pages.any (onPort p)
  let s := { s with twin := { s.twin with holds := s.twin.holds.filter fun (h : Hold) => !(gone.any fun g => g.handle == h.handle) } }
  gone.foldl (fun s h => (s.toScrub (h.pages.filter fun f => !onPort p f)).emit (.message "HOLDER_LOST" h.owner [h.handle])) s

/-- BEDROCK_SURPRISE_REMOVAL (R215): FAILED at once; reads return poisoned beats and writes are lost from then on (portDead); contexts with a frame
there are torn down; moves to it abort; what was kept there for others is lost (R330). -/
def State.brRemoved (s : State) (p : Nat) : State :=
  if p ≥ 4 || s.getF .TIERS_BR_STAT_STATE (8 * p) == 0 then s
  else
    let s := ((s.setF .TIERS_BR_STAT_STATE 5 (8 * p)).setF .TIERS_BR_CTRL_EVAC_BUSY 0 (8 * p)).portsUp
    let s := (s.tiers.migs.filter fun g => onPort p (g.newAddr % 2 ^ 45 / 65536) && decide (g.phase < 4)).foldl State.abortMig s
    let s := s.loseKept p
    let cs := ((s.tiers.frames.filter fun q => onPort p q.1 && q.2.kind == 1).map fun q => q.2.ctx).eraseDups
    let scrubs := ((s.tiers.frames.filter fun q => onPort p q.1 && q.2.kind == 4).map fun q => q.2.ctx).eraseDups
    let s := if cs = [] then s.tiersFault 14 1 none (s.dwezin (portBase p)) 0 5 p else s
    let s := cs.foldl (fun s c => s.tiersFault 14 3 (some c) (s.dwezin (portBase p)) 0 5 p) s
    let s := { s with tiers := { s.tiers with frames := s.tiers.frames.filter fun q => !onPort p q.1 } }
    scrubs.foldl State.settleScrub s

/-- BEDROCK_HOT_ADD (R213, R215): a device that trains in an accepted mode waits offline with the first 2 TiB of its capacity; any other
leaves the port UNSUPPORTED. -/
def State.brHotAdd (s : State) (p width gts : Nat) (flit256 lopt single : Bool) (gib : Nat) : State :=
  if p ≥ 4 || s.getF .TIERS_BR_STAT_STATE (8 * p) == 2 || s.getF .TIERS_BR_STAT_STATE (8 * p) == 3 then s
  else
    let d := 8 * p
    let good := flit256 && single && ((width == 16 && gts == 64) || ((width == 16 || width == 8) && gts == 32))
    let s := s.setF .TIERS_BR_STAT_WIDTH width d
    let s := s.setF .TIERS_BR_STAT_RATE_GT (if gts < 64 then gts else (Config.rateGtCode gts).toNat) d
    let s := s.setF .TIERS_BR_STAT_FLIT_LOPT (bit lopt) d
    let s := s.setF .TIERS_BR_STAT_CAP_GIB (if good then min 2048 gib else 0) d
    let s := s.setF .TIERS_BR_STAT_OVER_CAP (bit (decide (2048 < gib))) d
    s.setF .TIERS_BR_STAT_STATE (if good then 4 else 6) d

/-! ### Meanings -/

def execShootdown (m : Master) (v : Nat) (s : State) := done (s.shootCmd m v)
def execShootdownComplete (s : State) := done s.shootComplete
def execShootdownDrainEnd (s : State) := done s.shootDrain
def execTranslationWalk (tu c va : Nat) (write : Bool) (s : State) := done (s.translationWalk tu c va write)
def execRootSel (m : Master) (c v : Nat) (s : State) := done (s.rootSelWrite m c v)
def execRootSwapDrain (c : Nat) (s : State) := done (s.rootDrain c)
def execTillerPeriod (s : State) := done s.tillerPeriod
def execMigrationWriteDrain (id : Nat) (s : State) := done (s.migWriteDrain id)
def execMigrationCopyDone (id : Nat) (ue : List Nat) (s : State) := done (s.migCopyDone id ue)
def execMigrationReadDrain (id : Nat) (s : State) := done (s.migReadDrain id)
def execHbmTempChange (k temp : Nat) (s : State) := done (s.hbmTemp k temp)
def execHbmRetrain (k rate outcome : Nat) (s : State) := done (s.hbmRetrain k rate outcome)
def execCxlEventPoll (p : Nat) (recs : List (Nat × Bool)) (s : State) := done (s.cxlPoll p recs)
def execBedrockOffline (m : Master) (p : Nat) (s : State) := done (s.brOffline m p)
def execEvacuationDone (p : Nat) (s : State) := done (s.evacDone p)
def execBedrockOnline (m : Master) (p : Nat) (s : State) := done (s.brOnline m p)
def execBedrockSurpriseRemoval (p : Nat) (s : State) := done (s.brRemoved p)
def execBedrockHotAdd (p width gts : Nat) (flit256 lopt single : Bool) (gib : Nat) (s : State) :=
  done (s.brHotAdd p width gts flit256 lopt single gib)

end Sys2Proof.Machine
end

