-- ==== Sys2Proof/Machine/Streams.lean ====
section
/-! DEFINITION. Stream engines (chapter 08): instances and their order, run-dry arbitration, merging, feed rings, fetching ahead,
voids, poison. -/

namespace Sys2Proof.Machine

/-! ### Access to instances and rings -/

/-- Change an instance. -/
def State.setInst (s : State) (id : Nat) (f : StreamInst → StreamInst) : State :=
  { s with streams := { s.streams with insts := s.streams.insts.map fun x => if x.id = id then f x else x } }
/-- An instance by number. -/
def State.streamInst (s : State) (id : Nat) : Option StreamInst := s.streams.insts.find? (fun x => x.id == id)
/-- Two rings, or a ring and the one an instance names, are the same: unit, context and base. -/
def FeedRing.is (g : FeedRing) (uid ctx vbase : Nat) : Bool := g.uid == uid && g.ctx == ctx && g.vbase == vbase
/-- The feed ring of an instance: its unit's, its context's, at the base its descriptor names. -/
def State.feedRing (s : State) (uid ctx vbase : Nat) : Option FeedRing := s.streams.rings.find? fun g => g.is uid ctx vbase
def State.ringFor (s : State) (x : StreamInst) : Option FeedRing := s.feedRing x.desc.unit x.ctx x.desc.dst
/-- Change a feed ring. -/
def State.setRingOf (s : State) (uid ctx vbase : Nat) (f : FeedRing → FeedRing) : State :=
  { s with streams := { s.streams with rings := s.streams.rings.map fun g => if g.is uid ctx vbase then f g else g } }
/-- Change one slot of a ring. -/
def FeedRing.setSlot (g : FeedRing) (k : Nat) (f : FeedSlot → FeedSlot) : FeedRing :=
  { g with slots := g.slots.mapIdx fun i x => if i = k then f x else x }

/-- The stream fault registers of a seat. -/
def streamRegs : FaultRegs := ⟨0x05, .STREAM_FAULT_FLAGS, Reg.STREAM_FAULT_INFO⟩
/-- A stream fault (Table 8.5). -/
def State.streamFault (s : State) (b sev : Nat) (x : StreamInst) (value : Nat) : State :=
  let info := packBits [(3, x.desc.engine), (5, x.slot), (8, x.ctx), (16, x.record), (32, value)]
  s.fault streamRegs
    { block := 0x05, fault := b, sev := sev, scope := if sev = 3 then .context x.ctx else .none, ctx := some x.ctx,
      whereKind := 2, whereIs := x.seat, info := info } (seatOff x.seat)

/-! ### Order of movement (R227) -/

/-- Iterations of dimension `k` of an instance: the counts resolved when it was reached. -/
def StreamInst.count (x : StreamInst) (k : Nat) : Nat := x.counts.getD k 1
/-- Elements in all. -/
def StreamInst.elems (x : StreamInst) : Nat := x.count 0 * x.count 1 * x.count 2 * x.count 3
/-- Requests an element takes: at most 4 KiB each (R223). -/
def StreamInst.perElem (x : StreamInst) : Nat := (x.desc.elemLines + 63) / 64
/-- Requests in all. -/
def StreamInst.total (x : StreamInst) : Nat := x.elems * x.perElem
/-- The four indices of an element, dimension 1 fastest. -/
def StreamInst.idx (x : StreamInst) (e k : Nat) : Nat :=
  match k with
  | 0 => e % x.count 0
  | 1 => e / x.count 0 % x.count 1
  | 2 => e / (x.count 0 * x.count 1) % x.count 2
  | _ => e / (x.count 0 * x.count 1 * x.count 2)
/-- A strided displacement over dimensions `from_` to 4. -/
def StreamInst.disp (x : StreamInst) (e : Nat) (dst : Bool) (from_ : Nat) : Int :=
  (List.range 4).foldl (fun a k =>
    let d := x.desc.dims.getD k (1, 0, 0)
    if k < from_ then a else a + (x.idx e k : Int) * (if dst then d.2.1 else d.2.2)) 0
/-- An address modulo the 56-bit space. -/
def wrap56 (i : Int) : Nat := (i % (2 ^ 56 : Nat)).toNat

/-- Source address of an element (R227), and whether the list entry that names it is poisoned (log 119): under GATHER the list gives dimension 1's base;
a list that cannot be read gives none. -/
def State.elemSrc (s : State) (x : StreamInst) (e : Nat) : Option (Nat × Bool) :=
  if x.desc.gather then
    match s.readVa x.ctx (x.desc.list + 8 * x.idx e 0) 8 with
    | some (bs, bad) => some (wrap56 (((leNat bs % 2 ^ 56 : Nat) : Int) + x.disp e false 1), bad)
    | none => none
  else some (wrap56 ((x.desc.src : Int) + x.disp e false 0), false)
/-- Destination address of an element of a COPY. -/
def StreamInst.elemDst (x : StreamInst) (e : Nat) : Nat := wrap56 ((x.desc.dst : Int) + x.disp e true 0)

/-- The Dwezin address of a PHYS address (R226): an offset of 56 bits, signed, from this module's own base (DEDUCED, log 117). -/
def State.physAddr (s : State) (v : Nat) : Nat :=
  let o : Int := if v < 2 ^ 55 then (v : Int) else (v : Int) - (2 ^ 56 : Nat)
  (((s.dwezin 0 : Int) + o) % (2 ^ 60 : Nat)).toNat

/-- An engine's translation of a stream address (R200, R226): the Dwezin address and the leaf, or the fault. -/
def State.streamAddr (s : State) (x : StreamInst) (va : Nat) (write : Bool) : Except Nat (Nat × Pte × Bool) × State :=
  if x.desc.phys then (.ok (s.physAddr va, {}, false), s)
  else match s.engineTranslate x.seat x.desc.engine x.ctx va write with
    | (.leaf p _ big, s) => (.ok (p.addr + va % pageBytes big, p, big), s)
    | (.bad b, s) => (.error b, s)

/-- Where a request's source lines lie, translated one by one: Dwezin address and generation of each, or the fault with its address. -/
def State.sourceAddrs (s : State) (x : StreamInst) : Nat → Nat → Except (Nat × Nat) (List (Nat × Nat)) × State
  | 0, _ => (.ok [], s)
  | n + 1, va => match s.streamAddr x va false with
    | (.error b, s) => (.error (b, va), s)
    | (.ok (a, p, _), s) => match s.sourceAddrs x n (va + 64) with
      | (.ok l, s) => (.ok ((a, p.gen) :: l), s)
      | (.error e, s) => (.error e, s)

/-! ### Paths and keys (R223, R235, R236) -/

/-- The bridges of a seat that lead towards another (Table 5.2): 0 and 1 along its row to the lower and the higher column, 2 across to the other row
(log 117: any of them carries a request). -/
def bridgesTo (seat t : Nat) : List Nat :=
  (if t % 4 < seat % 4 then [0] else if seat % 4 < t % 4 then [1] else []) ++ (if t / 4 ≠ seat / 4 then [2] else [])

/-- The paths a source can be reached over: a stack of the engine's seat 0-23, a bridge's share 100-102, the cox bridge 200, any of the seat's four
gateways 300-303, the seat's own Topsoil 400. -/
def State.pathsOf (s : State) (seat a : Nat) : List Nat :=
  if a / 2 ^ 45 ≠ s.self then [300, 301, 302, 303]
  else
    let off := a % 2 ^ 45
    match seatOfOff off with
    | some k => if k ≠ seat then (bridgesTo seat k).map (100 + ·) else if tierRange off = some 0 then [400] else [stackOf off]
    | none => [200]

/-- Lines in FULL slots of a ring. -/
def FeedRing.fullLines (g : FeedRing) : Nat := (g.slots.filter fun f => f.state == 2).length * g.elemLines

/-- The run-dry key of a feed ring (R235), in ns: now when the consumer is stalled; else now plus the full lines at the consumption rate,
RATE_HINT until four slots have been released. -/
def State.feedKey (s : State) (g : FeedRing) : Nat :=
  if g.stalled.isSome then s.now
  else if g.releases.length < 4 then s.now + g.fullLines * 1000 / max 1 g.rateHint
  else
    let span := g.releases.getD 0 0 - g.releases.getD 3 0
    s.now + g.fullLines * span / max 1 (4 * g.elemLines)

/-- An instance's key: none when it is unkeyed. One not launched yet counts its NEED_NS from now (log 119). -/
def State.runDryKey (s : State) (x : StreamInst) : Option Nat :=
  if x.desc.kind = 1 then (s.ringFor x).map s.feedKey
  else if x.desc.needNs = 0 then none
  else some ((if x.launched then x.launchedAt else s.now) + x.desc.needNs)

/-- NEED_NS of a work-item transfer due at a fabric time (R235). -/
def needNs (due launch : Nat) : Nat := if due ≤ launch then 1 else min 0xFFFFFFFF (due - launch)

/-- Staging bytes an engine holds for instances not yet launched (R241). -/
def State.staged (s : State) (seat e : Nat) : Nat :=
  (s.streams.insts.filter fun y => y.seat == seat && y.desc.engine == e && !y.launched && y.desc.kind == 0).foldl
    (fun a y => a + 64 * y.reqs.foldl (fun a r => a + r.lines) 0) 0

/-- Requests an engine has outstanding: merged parts are one (R239). -/
def State.outstandingReqs (s : State) (seat e : Nat) : Nat :=
  ((s.streams.insts.filter fun y => y.seat == seat && y.desc.engine == e).flatMap fun y => (y.reqs.filter fun r => !r.landed).map (·.tag)).eraseDups.length

/-- Lines and first line of an instance's next request. -/
def StreamInst.nextReq (x : StreamInst) : Nat × Nat × Nat :=
  let e := x.next / x.perElem
  let f := x.next % x.perElem * 64
  (e, f, min 64 (x.desc.elemLines - f))

/-- An earlier instance of the same descriptor's ring that has not issued all of its requests: slots are filled in ring order (R231). -/
def State.ringBehind (s : State) (x : StreamInst) : Bool :=
  s.streams.insts.any fun y => decide (y.id < x.id) && y.desc.kind == 1 && y.desc.unit == x.desc.unit && y.ctx == x.ctx && y.desc.dst == x.desc.dst && !y.void &&
    (!y.resolved || decide (y.next < y.total))

/-- Whether an instance can issue its next request: a FEED needs its slot EMPTY or already FILLING for this element (R231, R234), a COPY
not yet launched needs staging (R241). -/
def State.canIssue (s : State) (x : StreamInst) : Bool :=
  x.reached && x.resolved && !x.void && decide (x.next < x.total) && decide (s.outstandingReqs x.seat x.desc.engine < 512) &&
    (if x.desc.kind = 1 then
      !s.ringBehind x && (match s.ringFor x with
      | some g =>
        let f := g.slots.getD g.wr {}
        (f.state == 0 && x.nextReq.2.1 == 0) || (f.state == 1 && f.inst == x.id && f.elem == x.nextReq.1)
      | none => false)
    else x.launched || decide (s.staged x.seat x.desc.engine + 64 * x.nextReq.2.2 ≤ 524288))

/-- The paths of an instance's next request; where the source does not translate the request is eligible on every path, and faults when granted. -/
def State.nextPaths (s : State) (x : StreamInst) : Option (List Nat) :=
  match s.elemSrc x x.nextReq.1 with
  | some (a, false) => match (s.streamAddr x (a + 64 * x.nextReq.2.1) false).1 with
    | .ok (a, _) => some (s.pathsOf x.seat a)
    | .error _ => none
  | _ => none

/-- The order of R236 between keyed instances: key in units of 64 ns, context priority, launch, engine, slot. One not launched comes after those that
are. -/
def State.before (s : State) (x y : StreamInst) : Bool :=
  let k := fun (z : StreamInst) => (s.runDryKey z).getD 0 / 64
  let pr := fun (z : StreamInst) => (s.ctx z.ctx).priority
  if k x ≠ k y then decide (k x < k y)
  else if pr x ≠ pr y then decide (pr y < pr x)
  else if x.launched ≠ y.launched then x.launched
  else if x.launched ∧ x.launchedAt ≠ y.launchedAt then decide (x.launchedAt < y.launchedAt)
  else if x.desc.engine ≠ y.desc.engine then decide (x.desc.engine < y.desc.engine)
  else decide (x.slot < y.slot)

/-- The first of a list under an order. -/
def pickBest {α : Type} (lt : α → α → Bool) : List α → Option α
  | [] => none
  | a :: r => match pickBest lt r with
    | none => some a
    | some b => if lt b a then some b else some a

/-- The request a path grants (R236, R237): the keyed one with the smallest key; unkeyed ones only when no keyed request waits, or as one
in 32, round-robin by context. -/
def State.grant (s : State) (seat path : Nat) : Option (StreamInst × Bool) :=
  let el := s.streams.insts.filter fun x => x.seat == seat && s.canIssue x && (match s.nextPaths x with
    | some ps => ps.contains path
    | none => true)
  let keyed := el.filter fun x => (s.runDryKey x).isSome
  let unkeyed := el.filter fun x => (s.runDryKey x).isNone
  let pathKey := seat * 1000 + path
  let last := SMap.get 0 s.streams.lastCtx pathKey
  let nextUnkeyed := pickBest (fun a b =>
    let d := fun (z : StreamInst) => (z.ctx + 256 - (last + 1) % 256) % 256
    if d a ≠ d b then decide (d a < d b) else decide (a.id < b.id)) unkeyed
  let run := SMap.get 0 s.streams.floor pathKey
  match pickBest s.before keyed with
  | none => nextUnkeyed.map fun x => (x, false)
  | some k => match nextUnkeyed with
    | some u => if run ≥ 31 then some (u, true) else some (k, false)
    | none => some (k, false)

/-- Issue an instance's next request under a tag: the slot becomes FILLING, the request is outstanding. -/
def State.issue (s : State) (x : StreamInst) (tag : Nat) (src : List (Nat × Nat)) : State :=
  let (e, f, n) := x.nextReq
  let s := if x.desc.kind = 1 then
      s.setRingOf x.desc.unit x.ctx x.desc.dst fun g =>
        let g := g.setSlot g.wr fun k => if k.state = 0 then { state := 1, ctx := x.ctx, job := x.job, inst := x.id, elem := e } else k
        if f + n = x.desc.elemLines then { g with wr := (g.wr + 1) % max 1 g.slots.length } else g
    else s
  s.setInst x.id fun y => { y with next := y.next + 1, pendingAt := s.now,
                                   reqs := y.reqs ++ [{ elem := e, first := f, lines := n, issued := s.now, tag := tag, src := src }] }

/-- Source and destination of an instance's next request, as addresses of the stream, and its lines. -/
def State.nextSpan (s : State) (x : StreamInst) : Option (Nat × Nat × Nat) :=
  let (e, f, n) := x.nextReq
  match s.elemSrc x e with
  | some (a, false) =>
    let d := if x.desc.kind = 1 then (match s.ringFor x with
        | some g => g.base + 64 * (g.wr * g.elemLines + f)
        | none => 0)
      else x.elemDst e + 64 * f
    some (a + 64 * f, d, n)
  | _ => none

/-- Whether a pending request joins the lines that a granted one carries (R238), before or after them: one context, mergeable, smaller than 4 KiB,
contiguous at both ends within one 4 KiB granule, or one ring, at the destination, and pending within the window of it. -/
def State.mergesWith (s : State) (x : StreamInst) (src dst n : Nat) (seat : Nat) (y : StreamInst) : Bool :=
  match s.nextSpan y with
  | none => false
  | some (a, d, m) =>
    let after := a == src + 64 * n && d == dst + 64 * n
    let ahead := src == a + 64 * m && dst == d + 64 * m
    let lo := if after then src else a
    let dlo := if after then dst else d
    y.seat == seat && y.ctx == x.ctx && y.desc.engine == x.desc.engine && y.desc.phys == x.desc.phys && !x.desc.noMerge && !y.desc.noMerge && s.canIssue y &&
      decide (m < 64) && decide (n < 64) && (after || ahead) && x.desc.kind == y.desc.kind && lo / 4096 == (lo + 64 * (n + m) - 1) / 4096 &&
      (if x.desc.kind = 1 then x.desc.unit == y.desc.unit && x.desc.dst == y.desc.dst else dlo / 4096 == (dlo + 64 * (n + m) - 1) / 4096) &&
      decide (y.pendingAt ≤ x.pendingAt + s.getF .STREAM_MERGE_WINDOW_NS (seatOff seat)) &&
      decide (x.pendingAt ≤ y.pendingAt + s.getF .STREAM_MERGE_WINDOW_NS (seatOff seat))

/-- Issue what merges with a granted request, under its tag (R239). A part that does not translate stays for its own grant. -/
def State.mergeMore (s : State) (x : StreamInst) (tag seat : Nat) : Nat → Nat → Nat → Nat → State
  | 0, _, _, _ => s
  | k + 1, src, dst, n =>
    match s.streams.insts.find? (s.mergesWith x src dst n seat) with
    | none => s
    | some y =>
      match s.nextSpan y with
      | none => s
      | some (a, d, m) => match s.sourceAddrs y m a with
        | (.error _, _) => s
        | (.ok ls, s) => ((s.issue y tag ls).bump .STREAM_MERGED_COUNT 1 (seatOff seat)).mergeMore x tag seat k (min a src) (min d dst) (n + m)

/-- The parts of a request: every instance with a part of the tag that has not landed, in source order. -/
def State.partsOf (s : State) (tag : Nat) : List (Nat × StreamReq) :=
  let ps := s.streams.insts.flatMap fun (x : StreamInst) => (x.reqs.filter fun r => r.tag == tag && !r.landed).map fun r => (x.id, r)
  orderBy ps fun a b => decide ((a.2.src.headD (0, 0)).1 ≤ (b.2.src.headD (0, 0)).1)

/-- The runs of contiguous lines of one module and generation among some lines: first address, generation, lines. -/
def lineRuns : List (Nat × Nat) → List (Nat × Nat × Nat)
  | [] => []
  | (a, g) :: rest => match lineRuns rest with
    | (b, h, n) :: r => if b = a + 64 ∧ g = h ∧ a / 2 ^ 45 = b / 2 ^ 45 then (a, g, n + 1) :: r else (a, g, 1) :: (b, h, n) :: r
    | [] => [(a, g, 1)]

/-- Read requests for the lines of a request that lie in other modules (R223, R368): address, tag, context, generation, bytes. -/
def State.askRemote (s : State) (c tag : Nat) : State :=
  (lineRuns ((s.partsOf tag).flatMap fun p => p.2.src)).foldl (fun s r =>
    if r.1 / 2 ^ 45 = s.self then s else s.emit (.message "RD_REQ" (r.1 / 2 ^ 45) [r.1, tag, c, r.2.1, 64 * r.2.2])) s

/-- A stream issues no further request (R247). -/
def State.stopInst (s : State) (id : Nat) : State := s.setInst id fun y => { y with void := true }

/-- STREAM_REQUEST_ISSUE (R236): a path grants a request. A source that does not translate faults its context (R241, R247). -/
def State.streamIssue (s : State) (seat path : Nat) : State :=
  match s.grant seat path with
  | none => s
  | some (x, byFloor) =>
    let pathKey := seat * 1000 + path
    let isKeyed := (s.runDryKey x).isSome
    let s := if byFloor then s.bump .STREAM_FLOOR_GRANTS_COUNT 1 (seatOff seat) else s
    let s := { s with streams := { s.streams with
        floor := SMap.set 0 s.streams.floor pathKey (if isKeyed then SMap.get 0 s.streams.floor pathKey + 1 else 0)
        lastCtx := if isKeyed then s.streams.lastCtx else SMap.set 0 s.streams.lastCtx pathKey x.ctx } }
    let tag := s.fab.nextTag
    let granted := fun (s : State) => ({ s with fab := { s.fab with nextTag := (tag + 1) % 65536 } }).bump .STREAM_REQS_COUNT 1 (seatOff seat)
    match s.elemSrc x x.nextReq.1 with
    | none =>
      let va := x.desc.list + 8 * x.idx x.nextReq.1 0
      (match s.walk x.ctx va false with
       | .bad b => s.tiersFault b 3 (some x.ctx) va 0
       | .leaf _ _ _ => s).stopInst x.id
    | some (_, true) => (granted s).issue x tag []
    | some (a, false) =>
      let src := a + 64 * x.nextReq.2.1
      let n := x.nextReq.2.2
      match s.sourceAddrs x n src with
      | (.error (b, va), s) => (s.tiersFault b 3 (some x.ctx) va 0).stopInst x.id
      | (.ok ls, s) =>
        let dst := ((s.nextSpan x).map (·.2.1)).getD 0
        let s := (granted s).issue x tag ls
        let s := if s.flag .STREAM_MERGE_EN (seatOff seat) && s.getF .STREAM_MERGE_WINDOW_NS (seatOff seat) != 0 then
            s.mergeMore x tag seat 64 src dst n
          else s
        s.askRemote x.ctx tag

/-! ### Landing (R231, R241, R246) -/

/-- The request whose pages an instance of cox firmware copies (R29): none for a rig's and for a migration's. -/
def State.instHandle (s : State) (x : StreamInst) : Nat :=
  match s.streams.cmds.find? (fun k => k.id == x.cmd) with
  | some k => if [2, 3, 5, 7, 8].contains k.purpose then k.arg % 2 ^ 32 else 0
  | none => 0

/-- Write one line of a COPY (R197, R207, R247): untranslated, or translated now, refused or held as its leaf and frame say. -/
def State.landLine (s : State) (x : StreamInst) (va : Nat) (d : Line) (poison : Bool) : State :=
  let w : PendWrite := { ctx := x.ctx, va := va, data := leBytes 64 d.toNat, poison := poison, tag := some x.desc.dstTag }
  match s.streamAddr x va true with
  | (.error b, s) => s.tiersFault b 3 (some x.ctx) va 0
  | (.ok (a, p, big), s) =>
    if !x.desc.phys then s.leafWrite (some x.seat) w p big
    else if a / 2 ^ 45 ≠ s.self then s.sendWrite a x.ctx va poison (w.data.map (·.toNat)) 0 x.job (s.instHandle x)
    else if s.portDead (a % 2 ^ 45) then s
    else s.putPend (a % 2 ^ 45) w

/-- Write a request's lines to their destination: a FEED's slot, or a launched COPY's addresses. -/
def State.landReq (s : State) (x : StreamInst) (r : StreamReq) (ls : List (Line × Bool)) : State :=
  if x.desc.kind = 1 then
    match (s.ringFor x).bind fun g => (g.slots.findIdx? fun f => f.inst == x.id && f.elem == r.elem && f.state == 1).map fun k =>
        g.base + 64 * (k * g.elemLines + r.first) with
    | none => s
    | some o => (ls.take r.lines).zipIdx.foldl (fun s p => s.putTagged (o + 64 * p.2) p.1.1 p.1.2 x.desc.dstTag) s
  else (ls.take r.lines).zipIdx.foldl (fun s p => s.landLine x (x.elemDst r.elem + 64 * (r.first + p.2)) p.1.1 p.1.2) s

/-- Remove instances that are complete, those that move nothing at once (R229); a command whose instances are all complete completes, on every seat
it ran (R224). -/
def State.sweepStreams (s : State) : State :=
  let finished := fun (x : StreamInst) => x.resolved && decide (x.total ≤ x.next) && (x.launched || x.total == 0) && x.reqs.all (fun r => r.landed)
  let s := { s with streams := { s.streams with insts := s.streams.insts.filter fun x => !finished x && !(x.void && x.reqs.all fun r => r.landed) } }
  let doneCmds := s.streams.cmds.filter fun k => k.launched && !(s.streams.insts.any fun x => x.cmd == k.id)
  let s := { s with streams := { s.streams with cmds := s.streams.cmds.filter fun k => !(doneCmds.any fun d => d.id == k.id) } }
  doneCmds.foldl (fun s k => match k.cmd with
    | some (r, q) =>
      if s.streams.cmds.any (fun y => y.cmd == some (r, q)) then s
      else match (s.ring r).outstanding.find? (fun c => c.seq == q) with
        | some c => s.complete c 0 0 0
        | none => s
    | none => s) s

/-- The lines a request reads: this module's memory under the tag check, or what the fabric brought; with the first refusal. A refused read, one of a
failed port, and one whose list entry was poisoned land poisoned. -/
def State.sourceLines (s : State) (x : StreamInst) (r : StreamReq) (remote : List (Line × Bool)) : List (Line × Bool) × Option (Nat × Nat × Nat) :=
  (List.range r.lines).foldl (fun acc i =>
    match r.src[i]? with
    | none => (acc.1 ++ [(0, true)], acc.2)
    | some (a, g) =>
      let off := a % 2 ^ 45
      if a / 2 ^ 45 ≠ s.self then (acc.1 ++ [remote.getD i (0, true)], acc.2)
      else if s.portDead off then (acc.1 ++ [(0, true)], acc.2)
      else match (if x.desc.phys then none else s.tagCheck x.ctx off g false) with
        | some b => (acc.1 ++ [(0, true)], acc.2 <|> some (b, a, g))
        | none => (acc.1 ++ [(if s.poisonAt off then 0 else s.lineAt off, s.poisonAt off)], acc.2)) ([], none)

/-- The samples of a request's lines in this module (R203). -/
def State.sampleSource (s : State) (x : StreamInst) (r : StreamReq) : State :=
  r.src.foldl (fun s p => if p.1 / 2 ^ 45 = s.self then s.sampleHeat (p.1 % 2 ^ 45) (some x.seat) s.self false else s) s

/-- Lines landed poisoned (R246, R556): counted and recorded, the first one's source the origin of the poison. -/
def State.poisonLines (s : State) (x : StreamInst) (r : StreamReq) (ls : List (Line × Bool)) : State :=
  let n := (ls.filter fun l => l.2).length
  let src := match ls.findIdx? (fun l => l.2) with
    | some i => (r.src.getD i (0, 0)).1
    | none => 0
  ((s.bump .STREAM_POISON_LINES_COUNT n (seatOff x.seat)).streamFault 5 0 x 0).poisonOrigin src

/-- Bytes that a stream landed for its context (R224, R249, Table 19.7). -/
def State.chargeBytes (s : State) (seat c n : Nat) : State :=
  (s.bump .STREAM_CTX_BYTES_COUNT n (seatOff seat + inst c)).pmc 0x06 n (some c)

/-- A part's lines land: a voided one counts as waste and writes nothing (R244). -/
def State.landPart (s : State) (id : Nat) (r : StreamReq) (remote : List (Line × Bool)) : State :=
  match s.streamInst id with
  | none => s
  | some x =>
    let (ls, bad) := s.sourceLines x r remote
    let s := s.setInst id fun y => { y with reqs := y.reqs.map fun q =>
      if q.elem = r.elem ∧ q.first = r.first then { q with landed := true, data := if y.launched || y.desc.kind == 1 || y.void then [] else ls } else q }
    let s := s.sampleSource x r
    if x.void then
      (s.bump .STREAM_CTX_WASTE_COUNT (64 * r.lines) (seatOff x.seat + inst x.ctx)).pmc 0x07 (64 * r.lines) (some x.ctx)
    else
      let s := if x.launched || x.desc.kind == 1 then s.landReq x r ls else s
      let s := s.chargeBytes x.seat x.ctx (64 * r.lines)
      let s := if (ls.filter fun l => l.2).length = 0 then s else s.poisonLines x r ls
      let s := if x.desc.kind = 1 then
          s.setRingOf x.desc.unit x.ctx x.desc.dst fun g =>
            { g with slots := g.slots.map fun f =>
                if f.inst = x.id ∧ f.elem = r.elem ∧ f.state = 1 then
                  let n := f.landed + r.lines
                  if n ≥ x.desc.elemLines then { f with state := 2, landed := n } else { f with landed := n }
                else f }
        else s
      match bad with
      | some (b, a, g) => (s.tiersFault b 3 (some x.ctx) a g).stopInst id
      | none => s

/-- The parts of a request land, in source order: `remote` holds the lines that the fabric brought for all of them. -/
def State.landParts (s : State) : List (Nat × StreamReq) → List (Line × Bool) → State
  | [], _ => s
  | p :: rest, remote => (s.landPart p.1 p.2 remote).landParts rest (remote.drop p.2.lines)

/-- STREAM_REQUEST_COMPLETE: a request's lines arrive, with those of every part merged into it (R231, R239, R241, R246). -/
def State.streamComplete (s : State) (id elem first : Nat) (remote : List (Line × Bool)) : State :=
  match s.streamInst id with
  | none => s
  | some x =>
    match x.reqs.find? (fun r => r.elem == elem && r.first == first && !r.landed) with
    | none => s
    | some r => (s.landParts (s.partsOf r.tag) remote).sweepStreams

/-- ACCESS_TIMEOUT (R201): an access did not complete within its 4 µs; a stream's request that read the line then lands poisoned, and a write is lost.
`a` is the full address. -/
def State.accessTimeout (s : State) (c a gen : Nat) : State :=
  let late := fun (r : StreamReq) => !r.landed && decide (r.issued + 4000 ≤ s.now) && r.src.any fun p => p.1 / 64 == a / 64
  let hit := s.streams.insts.flatMap fun (x : StreamInst) => if x.ctx == c then (x.reqs.filter late).map fun r => (x.id, r) else []
  let lost := fun (x : StreamInst) => if hit.any fun p => p.1 == x.id then
      { x with reqs := x.reqs.map fun r => if late r then { r with src := [] } else r } else x
  let s := { s with streams := { s.streams with insts := s.streams.insts.map lost } }
  let s := s.tiersFault 9 3 (some c) (a % 2 ^ 60) gen
  ((s.landParts (hit.map fun p => (p.1, { p.2 with src := [] })) []).sweepStreams)

/-! ### Reach, shape words, launch (R224, R229, R230, R240) -/

/-- A descriptor that is invalid when it reaches an engine (R228). -/
def StreamDesc.invalid (d : StreamDesc) (seat : Nat) (firmware : Bool) : Bool :=
  d.bad || decide (d.kind > 1) || (decide (10 ≤ d.dstTag) && decide (d.dstTag ≤ 14)) || (d.phys && !firmware) || d.src % 64 != 0 || d.dst % 64 != 0 ||
    d.dims.any (fun x => x.1 == 0 || x.2.1 % 64 != 0 || x.2.2 % 64 != 0) || (d.gather && (d.dims.getD 0 (1, 0, 0)).2.2 != 0) ||
    (d.shapeEn && d.shapeDim == 0) || d.list % 8 != 0 || d.shapeAddr % 8 != 0 ||
    (d.kind == 1 && (seatOf d.unit != seat || isService d.unit || d.rateHint == 0 || d.reads == 0 || decide (d.ringSlots < 2) || decide (64 < d.ringSlots)))

/-- Counts of an instance that reads no shape word. -/
def StreamDesc.fixedCounts (d : StreamDesc) : List Nat := (List.range 4).map fun k => (d.dims.getD k (1, 0, 0)).1

/-- A FEED whose ring does not lie in the Topsoil window of its unit (R157, R228). -/
def State.ringOutside (s : State) (x : StreamInst) : Bool :=
  x.desc.kind == 1 && !(s.rigs.any fun g => g.2.ctx == x.ctx && !g.2.closing && g.2.windows.any fun w =>
    w.uid == x.desc.unit && decide (w.tsVbase ≤ x.desc.dst) &&
      decide (x.desc.dst + 64 * x.desc.elemLines * x.desc.ringSlots ≤ w.tsVbase + 65536 * w.granules))

/-- A mark's standing (R448): 0 met, 1 waits, 2 failed; it names a sequence of the ring's present enabling. -/
def State.markState (s : State) (k : DepMark) : Nat :=
  let n := s.getF .RING_SEQ_FETCHED (ringOff k.ring)
  let q := (s.ring k.ring).session * 2 ^ 48 + k.seq
  if k.seq ≥ n then 1
  else if k.seq + 4096 ≤ n then 0
  else match (s.ring k.ring).completed.find? (fun p => p.1 == q) with
    | some p => if p.2 = 0 then 0 else 2
    | none => 1

/-- AFTER_PREV's standing (R447). -/
def State.prevState (s : State) (c : Cmd) : Nat :=
  if !natBit c.flags 1 || c.seq % 2 ^ 48 == 0 then 0
  else match (s.ring c.ring).completed.find? (fun p => p.1 + 1 == c.seq) with
    | some p => if p.2 = 0 then 0 else 2
    | none => 1

/-- A queued command carries a mark that names work not yet complete (R240); it launches no earlier. -/
def State.cmdMarked (s : State) (k : SeatCmd) : Bool :=
  match k.cmd with
  | none => false
  | some (r, q) => !k.launched && (match (s.ring r).waiting.find? (fun c => c.seq == q) with
    | some c => (c.marks.any fun m => s.markState m != 0) || s.prevState c != 0
    | none => false)

/-- A command that runs a rig, which counts in a seat's launch order; the firmware's copies do not (R224, R240). -/
def SeatCmd.isRun (k : SeatCmd) : Bool := k.cmd.isSome || k.purpose == 4

/-- The runs queued on a seat, oldest first. -/
def State.seatRuns (s : State) (seat : Nat) : List SeatCmd := s.streams.cmds.filter fun y => y.seat == seat && y.isRun

/-- Position of a command among its seat's queued runs. -/
def State.seatPos (s : State) (k : SeatCmd) : Nat := ((s.seatRuns k.seat).findIdx? fun y => y.id == k.id).getD 0

/-- A command before and with this one on the seat has an unmet mark (R240). -/
def State.aheadBlocked (s : State) (k : SeatCmd) : Bool := ((s.seatRuns k.seat).take (s.seatPos k + 1)).any s.cmdMarked

/-- STREAM_REACH: an engine reaches a queued command's instances; one that stops at a mark counts the stop, once. A firmware copy is reached when it is
issued. Slots of an engine number 32. -/
def State.streamReach (s : State) (id : Nat) : State :=
  match s.streams.cmds.find? (fun k => k.id == id) with
  | none => s
  | some k =>
    let d := seatOff k.seat
    if k.isRun && decide (min 8 (s.getF .STREAM_MODE_FETCH_AHEAD d) < s.seatPos k) then s
    else if k.isRun && s.aheadBlocked k then
      if s.streams.stopped.contains id then s
      else
        let s := { s with streams := { s.streams with stopped := id :: s.streams.stopped } }
        s.bump .STREAM_AHEAD_STOPS_COUNT 1 d
    else
      let static := s.flag .STREAM_MODE_FORCE_STATIC d
      let s := s.setF .STREAM_MODE_STATIC_ACTIVE (bit static) d
      let mine := s.streams.insts.filter fun x => x.cmd == id && !x.reached && !x.void
      let s := mine.foldl (fun (s : State) x =>
        let used := (s.streams.insts.filter fun y => y.seat == x.seat && y.desc.engine == x.desc.engine && y.reached).map (·.slot)
        if used.length ≥ 32 then s
        else if x.desc.invalid x.seat (x.record == 65535) || s.ringOutside x then
          (s.setInst x.id fun y => { y with void := true }).streamFault 0 3 x 0
        else
          let slot := ((List.range 32).find? fun n => !used.contains n).getD 0
          let fixed := static || !x.desc.shapeEn
          s.setInst x.id fun y => { y with reached := true, slot := slot, counts := if fixed then x.desc.fixedCounts else [], resolved := fixed,
                                           shapeSince := if fixed then none else some s.now, pendingAt := s.now }) s
      s.sweepStreams

/-- STREAM_SHAPE_READ (R229): a reached instance's shape word is read at SHAPE_ADDR, at first and then every 1 us; an address that does not translate
faults (R188). A word in another module's memory is what its answer brings: `w`, `poison` (log 8). -/
def State.streamShape (s : State) (id w : Nat) (poison : Bool) : State :=
  match s.streamInst id with
  | none => s
  | some x =>
    let early := match x.shapeRead with
      | some t => decide (s.now < t + 1000)
      | none => false
    if !x.reached || x.resolved || x.void || early then s
    else
      let s := s.setInst id fun y => { y with shapeRead := some s.now }
      match (if s.farVa x.ctx x.desc.shapeAddr then some (leBytes 8 w, poison) else s.readVa x.ctx x.desc.shapeAddr 8) with
      | none => (match s.walk x.ctx x.desc.shapeAddr false with
        | .bad b => s.tiersFault b 3 (some x.ctx) x.desc.shapeAddr 0
        | .leaf _ _ _ => s).stopInst id
      | some (_, true) => s.streamFault 3 3 x 0
      | some (bs, false) =>
        let w := leNat bs
        if !natBit w 63 then s
        else
          let v := natBits w 0 32
          let c := (v + 2 ^ x.desc.shapeShift - 1) / 2 ^ x.desc.shapeShift
          let k := x.desc.shapeDim - 1
          if (x.desc.dims.getD k (1, 0, 0)).1 < c then s.streamFault 1 3 x v
          else
            (s.setInst id fun y => { y with resolved := true, shapeSince := none, pendingAt := s.now,
                                            counts := x.desc.fixedCounts.mapIdx fun i n => if i = k then c else n }).sweepStreams

/-- The wait bound of shape words and rings in ns (Table 8.4). -/
def State.waitNs (s : State) (seat : Nat) : Nat := clamp 1 100000 (s.getF .STREAM_MODE_WAIT_US (seatOff seat)) * 1000

/-- STREAM_SHAPE_TIMEOUT (R229). -/
def State.streamShapeTimeout (s : State) (id : Nat) : State :=
  match s.streamInst id with
  | none => s
  | some x => match x.shapeSince with
    | some t => if t + s.waitNs x.seat ≤ s.now && !x.void then s.streamFault 2 3 x 0 else s
    | none => s

/-- FEED_TIMEOUT (R232): a TS_LOAD stalled on a ring for WAIT_US, of whichever context has a ring there. -/
def State.feedTimeout (s : State) (uid vbase : Nat) : State :=
  (s.streams.rings.filter fun g => g.uid == uid && g.vbase == vbase).foldl (fun s g =>
    match g.stalled with
    | none => s
    | some t =>
      if t + s.waitNs (seatOf uid) ≤ s.now then
        let x := s.streams.insts.find? fun y => y.desc.unit == uid && y.desc.dst == vbase && y.desc.kind == 1 && y.ctx == g.ctx
        s.streamFault 4 3 (x.getD { id := 0, seat := seatOf uid, slot := 0, desc := {}, ctx := g.ctx, job := 0, step := 0, record := 65535, cmd := 0 }) 0
      else s) s

/-- Queue a run's commands on the seats of a mask, with one instance of each descriptor of the rig's sections, in section order
(R224, R240). -/
def State.queueRun (s : State) (r : RigSt) (mask step job : Nat) (cmd : Option (Nat × Nat)) (purpose arg : Nat) : State :=
  (List.range 8).foldl (fun s k =>
    if !natBit mask k then s
    else
      let id := s.streams.nextId
      let c : SeatCmd := { id := id, seat := k, ctx := r.ctx, job := job, launched := false, cmd := cmd, purpose := purpose, arg := arg }
      let ds := r.streams.filter fun d => d.1 == k
      let is := ds.mapIdx fun i d => ({ id := id + 1 + i, seat := k, slot := 0, desc := d.2.2, ctx := r.ctx, job := job, step := step,
                                        record := d.2.1, cmd := id } : StreamInst)
      { s with streams := { s.streams with cmds := s.streams.cmds ++ [c], insts := s.streams.insts ++ is, nextId := id + 1 + ds.length } }) s

/-- Queued commands launch: copies staged ahead are written (R241). -/
def State.launchCmds (s : State) (is : SeatCmd → Bool) : State :=
  let ids := (s.streams.cmds.filter fun k => is k && !k.launched).map (·.id)
  let s := { s with streams := { s.streams with cmds := s.streams.cmds.map fun (k : SeatCmd) => if ids.contains k.id then { k with launched := true } else k } }
  let mine := s.streams.insts.filter fun (x : StreamInst) => ids.contains x.cmd && !x.void
  let s := mine.foldl (fun s x =>
    let s := s.setInst x.id fun y => { y with launched := true, launchedAt := s.now, reqs := y.reqs.map fun r => { r with data := [] } }
    x.reqs.foldl (fun s r => if r.landed && x.desc.kind == 0 then s.landReq { x with launched := true } r r.data else s) s) s
  s.sweepStreams

/-- Launch a run's queued commands. -/
def State.launchRun (s : State) (cmd : Nat × Nat) : State := s.launchCmds fun k => k.cmd == some cmd

/-- A command of cox firmware that runs a rig for a step of the batch (R224, R336): launched at once on every seat; one without streams has
nothing to do. -/
def State.firmwareRun (s : State) (r : RigSt) : State :=
  (s.queueRun r 255 (s.getF .SL_STEP_STEPS % 65536) 0 none 4 r.ctx).launchCmds fun k => k.purpose == 4 && k.arg == r.ctx

/-- A rig run that waits for its rig: the wave that brings it in makes the streams (R336, R482). -/
def State.awaitRun (s : State) (c : Nat) : State :=
  let id := s.streams.nextId
  { s with streams := { s.streams with
      cmds := s.streams.cmds ++ [({ id := id, seat := 0, ctx := c, job := 0, launched := false, cmd := none, purpose := 4, arg := c } : SeatCmd)]
      nextId := id + 1 } }

/-! ### Voids (R243, R244) -/

/-- Void the feed slots of a voided job, and those filled ahead after them, which are fetched again (R244). -/
def State.voidRing (s : State) (seat : Nat) (bad : FeedSlot → Bool) (g : FeedRing) : State :=
  let n := max 1 g.slots.length
  let order := (List.range g.slots.length).map fun i => (g.rd + i) % n
  match order.find? (fun k => let f := g.slots.getD k {}; f.state != 0 && bad f) with
  | none => s
  | some k0 =>
    let from_ := order.dropWhile (fun k => k != k0)
    let others := from_.filterMap fun k => let f := g.slots.getD k {}; if f.state != 0 && !bad f then some f else none
    let s := s.setRingOf g.uid g.ctx g.vbase fun g => { (from_.foldl (fun g k => g.setSlot k fun _ => {}) g) with wr := k0 }
    others.foldl (fun s f =>
      let s := s.bump .STREAM_CTX_REFETCH_COUNT (64 * f.landed) (seatOff seat + inst f.ctx)
      s.setInst f.inst fun y => { y with next := min y.next (f.elem * y.perElem), reqs := y.reqs.filter fun r => decide (r.elem < f.elem) }) s

/-- A job of a context, or all of them, is void on every engine of the module (R243). Commands launched latched their jobs' validity and run on
(R245). -/
def State.voidTag (s : State) (c job : Nat) (all : Bool) : State :=
  let hit := fun (c' j : Nat) => c' == c && (all || j == job)
  let s := { s with streams := { s.streams with
      insts := s.streams.insts.map fun (x : StreamInst) => if hit x.ctx x.job && !x.launched then { x with void := true } else x
      voided := if s.streams.voided.contains (c, job) then s.streams.voided else (c, job) :: s.streams.voided } }
  let live := (s.streams.insts.filter fun (x : StreamInst) => hit x.ctx x.job && !x.void).map (·.id)
  let s := s.streams.rings.foldl (fun s g => s.voidRing (seatOf g.uid) (fun f => hit f.ctx f.job && !live.contains f.inst) g) s
  s.sweepStreams

/-- STREAM_JOB_VOID: the register's write by cox firmware. -/
def State.jobVoid (s : State) (m : Master) (seat v : Nat) : State :=
  if m.host then s.hostRefused m 0x05 (Reg.STREAM_JOB_VOID + seatOff seat)
  else s.voidTag (natBits v 0 8) (natBits v 8 16) (natBit v 24)

/-! ### Meanings -/

/-- ACCESS_TIMEOUT names the full address of the access. -/
def execAccessTimeout (c addr gen : Nat) (s : State) := done (s.accessTimeout c addr gen)
def execStreamReach (id : Nat) (s : State) := done (s.streamReach id)
def execStreamShapeRead (id w : Nat) (poison : Bool) (s : State) := done (s.streamShape id w poison)
def execStreamShapeTimeout (id : Nat) (s : State) := done (s.streamShapeTimeout id)
def execStreamRequestIssue (seat path : Nat) (s : State) := done (s.streamIssue seat path)
def execStreamRequestComplete (id elem first : Nat) (remote : List (Line × Bool)) (s : State) := done (s.streamComplete id elem first remote)
def execFeedTimeout (uid vbase : Nat) (s : State) := done (s.feedTimeout uid vbase)

end Sys2Proof.Machine
end

