-- ==== Sys2Proof/Machine/HostIf.lean ====
section
/-! DEFINITION. The host interface (chapter 15): doorbells and rings, command fetch, checks and launch, contexts, virtual
interfaces, memory commands, the host link. -/

namespace Sys2Proof.Machine

/-! ### Commands -/

/-- The whole descriptor as a number, byte 0 lowest (R18, R445). -/
def Cmd.num (c : Cmd) : Nat := packBits (c.desc.map fun w => (64, w.toNat))
/-- A field of a descriptor: bits `lo` up of the bytes from `byte` on. -/
def Cmd.fld (c : Cmd) (byte lo len : Nat) : Nat := natBits c.num (8 * byte + lo) len

/-- The launched command of a ring and sequence with an opcode. -/
def State.launched (s : State) (r q op : Nat) : Option Cmd := (s.ring r).outstanding.find? fun c => c.seq == q && c.opcode == op

/-- The host-interface fault registers. -/
def hostRegs : FaultRegs := ⟨0x0C, .HOSTVI_ERR_FLAGS, Reg.HOSTVI_ERR_INFO⟩

/-- The first-fault image of a ring's fault (Table 15.12). -/
def State.hostInfo (s : State) (r b : Nat) : Nat :=
  packBits [(13, r), (8, (s.ownerVi r).getD 0), (8, if s.flag .RING_CFG_CTX_BOUND (ringOff r) then s.getF .RING_CFG_CTX (ringOff r) else 0),
    (3, b), (16, s.getF .RING_SEQ_FETCHED (ringOff r) % 65536)]

/-- A fault of a ring (R444): the ring halts; a bound ring's context is torn down, an unbound ring halts alone. -/
def State.ringFault (s : State) (r b code : Nat) : State :=
  let bound := s.flag .RING_CFG_CTX_BOUND (ringOff r)
  let c := s.getF .RING_CFG_CTX (ringOff r)
  let info := s.hostInfo r b
  let s := if bound then s.haltRing r code else s
  s.fault hostRegs
    { block := 0x0C, fault := b, sev := 3, scope := if bound then .context c else .ring r, ctx := if bound then some c else none,
      whereKind := 6, whereIs := r, info := info, haltCode := code }

/-! ### Doorbells and rings (R439-R441) -/

/-- A ring frame's owner writes it; anyone else's access lies in a hole (Table 15.3, R463). -/
def State.ownsRing (s : State) (m : Master) (r : Nat) : Bool := m.host && s.ownerVi r == some m.vi

/-- A doorbell on a submission ring (R441). -/
def State.sqDoorbell (s : State) (m : Master) (r v : Nat) : State :=
  let d := ringOff r
  let off := Reg.RING_DB + d
  if !s.reached m then s
  else if !s.ownsRing m r then s.notice 0x0C nAccessHole off
  else if s.ringState r ≠ 1 || s.getF .HOSTVI_DEV_STATUS_READY == 0 then s.notice 0x0C nAccessState off
  else
    let n := s.ringSlots r
    let head := s.getF .RING_IDX_HEAD d
    let tail := s.getF .RING_IDX_TAIL d
    if v = tail then s
    else if v ≥ n then s.ringFault r 1 2
    else if (v + n - head) % n < (tail + n - head) % n then s.ringFault r 1 2
    else s.setF .RING_IDX_TAIL v d

/-- A doorbell on a completion or token ring (R441): frees records; a head that passes the tail halts the ring. -/
def State.cqDoorbell (s : State) (m : Master) (r v : Nat) : State :=
  let d := ringOff r
  let off := Reg.RING_DB + d
  if !s.reached m then s
  else if !s.ownsRing m r then s.notice 0x0C nAccessHole off
  else if s.ringState r ≠ 1 || s.getF .HOSTVI_DEV_STATUS_READY == 0 then s.notice 0x0C nAccessState off
  else
    let n := s.ringSlots r
    let head := s.getF .RING_IDX_HEAD d
    if v = head then s
    else if v ≥ n then s.ringFault r 1 2
    else if (v + n - head) % n > s.ringHeld r then s.ringFault r 1 2
    else (s.setF .RING_IDX_HEAD v d).flushKept r

/-- A live context of the interface. -/
def State.ctxOf (s : State) (c vi : Nat) : Bool := (s.ctx c).valid && !(s.ctx c).tearing && (s.ctx c).held && (s.ctx c).vi == vi

/-- The checks of ENABLE (R439). -/
def State.ringCfgOk (s : State) (r vi : Nat) : Bool :=
  let d := ringOff r
  let ty := s.getF .RING_CFG_TYPE d
  let lg := s.getF .RING_CFG_LOG2 d
  let cq := s.getF .RING_CFG_CQ d
  decide (ty < 3) && decide (6 ≤ lg) && decide (lg ≤ 15) &&
    (if ty = 0 then s.ringState cq == 1 && s.getF .RING_CFG_TYPE (ringOff cq) == 1 && s.ownerVi cq == some vi
     else decide (s.getF .RING_CFG_VECTOR d < (if vi = 0 then 256 else 64)) && s.getF .RING_SHADOW_ADDR d != 0) &&
    (!s.flag .RING_CFG_CTX_BOUND d || s.ctxOf (s.getF .RING_CFG_CTX d) vi)

/-- RING_ENABLE: both indices and RING_SEQ become 0, records kept for a CQ appear (R439, R443). Launched commands of before run on. -/
def State.ringEnable (s : State) (m : Master) (r : Nat) : State :=
  let d := ringOff r
  if !s.reached m then s
  else if !s.ownsRing m r then s.notice 0x0C nAccessHole (Reg.RING_CTRL + d)
  else if s.getF .HOSTVI_DEV_STATUS_READY = 0 then s.notice 0x0C nAccessState (Reg.RING_CTRL + d)
  else if s.ringState r ≠ 0 then s
  else if !s.ringCfgOk r m.vi then s.setF .RING_STATUS_HALT_CODE 5 d
  else
    let s := s.setF .RING_CTRL_ENABLE 1 d
    let s := s.setF .RING_STATUS_STATE 1 d
    let s := s.setF .RING_STATUS_HALT_CODE 0 d
    let s := s.setF .RING_IDX_HEAD 0 d
    let s := s.setF .RING_IDX_TAIL 0 d
    let s := s.setF .RING_SEQ_FETCHED 0 d
    let g := s.ring r
    let s := s.setRing r { g with waiting := [], completed := [], fetchHead := 0, newSince := false, lastIrq := 0, enabledOnce := true
                                  session := if g.enabledOnce then g.session + 1 else 0 }
    s.flushKept r

/-- What keeps an ACTIVE ring from being disabled (R439); an SQ is enabled while it is not DISABLED (log 112). -/
def State.ringNamed (s : State) (r : Nat) : Bool :=
  let ty := s.getF .RING_CFG_TYPE (ringOff r)
  if ty = 1 then
    (s.rings.keys.any fun q => q != r && s.ringState q != 0 && s.getF .RING_CFG_TYPE (ringOff q) == 0 && s.getF .RING_CFG_CQ (ringOff q) == r) ||
      (s.entries.any fun p => p.2.a.state != .free && p.2.b.complRing == r) ||
      (s.ctxs.any fun p => p.2.valid && p.2.held && p.2.noticeCq == r)
  else if ty = 2 then s.entries.any fun p => p.2.a.state != .free && p.2.b.tokenRing == r
  else false

/-- RING_DISABLE (R439): always accepted on a HALTED ring; an SQ's unlaunched commands complete ABORTED, its launched ones run on. -/
def State.ringDisable (s : State) (m : Master) (r : Nat) : State :=
  let d := ringOff r
  if !s.reached m then s
  else if !s.ownsRing m r then s.notice 0x0C nAccessHole (Reg.RING_CTRL + d)
  else if s.getF .HOSTVI_DEV_STATUS_READY = 0 then s.notice 0x0C nAccessState (Reg.RING_CTRL + d)
  else if s.ringState r = 0 then s.setF .RING_CTRL_ENABLE 0 d
  else if s.ringState r = 1 && s.ringNamed r then s.notice 0x0C nAccessState (Reg.RING_CTRL + d)
  else
    let s := s.abortCmds (s.ring r).waiting
    let s := s.setF .RING_CTRL_ENABLE 0 d
    s.setF .RING_STATUS_STATE 0 d

/-! ### Fetch and header checks (R442-R449) -/

/-- The opcodes of Table 15.7. -/
def knownOpcode (op : Nat) : Bool :=
  [0x00, 0x01, 0x10, 0x11, 0x12, 0x13, 0x14, 0x15, 0x16, 0x20, 0x21, 0x22, 0x23, 0x30, 0x31, 0x40, 0x41, 0x42, 0x50, 0x51, 0x52, 0x53,
   0x54, 0x70].contains op

/-- The bits of bytes 16 to 63 an opcode's payload uses (Tables 15.5, 15.7, 15.8), as (byte, bit, length); the rest are reserved. -/
def payloadFields (op : Nat) : List (Nat × Nat × Nat) :=
  match op with
  | 0x01 => [(32, 0, 64), (40, 0, 56), (40, 63, 1), (48, 0, 32)]
  | 0x10 => [(32, 0, 16), (34, 0, 3), (35, 0, 1), (36, 0, 12), (38, 0, 13), (40, 0, 20), (44, 0, 25), (48, 0, 28)]
  | 0x12 => [(32, 0, 5), (34, 0, 3), (40, 0, 20), (44, 0, 25), (48, 0, 28), (52, 0, 16)]
  | 0x13 => [(32, 0, 8), (34, 0, 15), (36, 0, 13)]
  | 0x14 => [(32, 0, 56), (40, 0, 32), (44, 0, 7)]
  | 0x15 => [(32, 0, 56), (40, 0, 32), (44, 0, 1)]
  | 0x16 => [(32, 0, 56), (40, 0, 56), (48, 0, 32), (52, 0, 8), (53, 0, 1)]
  | 0x20 => [(32, 0, 56), (40, 0, 64), (48, 0, 56), (56, 0, 2)]
  | 0x21 => [(32, 0, 1)]
  | 0x22 => [(40, 0, 64)]
  | 0x23 => [(32, 0, 8), (34, 0, 16)]
  | 0x30 => [(32, 0, 56)]
  | 0x31 => [(32, 0, 56)]
  | 0x40 => [(32, 0, 56), (40, 0, 16), (42, 0, 16)]
  | 0x41 => [(40, 0, 16), (42, 0, 16)]
  | 0x42 => [(42, 0, 16)]
  | 0x50 => [(16, 0, 64), (24, 0, 56), (32, 0, 56), (40, 0, 29), (48, 0, 64), (56, 0, 25), (60, 0, 25)]
  | 0x51 => [(32, 0, 32)]
  | 0x52 => [(32, 0, 32), (36, 0, 32)]
  | 0x53 => [(32, 0, 32), (36, 0, 25), (40, 0, 56), (48, 0, 64), (56, 0, 25)]
  | 0x54 => [(32, 0, 32), (36, 0, 16)]
  | 0x70 => [(32, 0, 8), (33, 0, 1), (34, 0, 13), (36, 0, 14), (39, 0, 3), (40, 0, 15), (42, 0, 12), (44, 0, 9), (48, 0, 32), (52, 0, 32), (56, 0, 32), (60, 0, 32)]
  | _ => []

/-- Reserved bits of the payload are zero. -/
def Cmd.payloadClear (c : Cmd) : Bool :=
  let start := if c.opcode = 0x50 then 16 else 32
  let used := (payloadFields c.opcode).foldl (fun a f => a ||| ((2 ^ f.2.2 - 1) <<< (8 * f.1 + f.2.1))) 0
  let all := 2 ^ 512 - 2 ^ (8 * start)
  c.num &&& (all - (used &&& all)) == 0

/-- Values within the ranges of Table 15.7. -/
def Cmd.inRange (c : Cmd) : Bool :=
  match c.opcode with
  | 0x01 => c.fld 48 0 32 != 0
  | 0x10 => c.fld 32 0 16 != 0
  | 0x12 => !natBit (c.fld 32 0 5) 0 || c.fld 52 0 16 != 0
  | 0x14 => c.fld 40 0 32 != 0 && decide (c.fld 40 0 32 ≤ 2 ^ 28) && c.fld 44 1 2 != 3 && c.fld 44 3 2 != 3 && !(c.fld 44 0 1 == 1 && c.fld 44 1 2 == 0)
  | 0x15 => c.fld 40 0 32 != 0 && decide (c.fld 40 0 32 ≤ 2 ^ 28)
  | 0x16 => c.fld 48 0 32 != 0 && decide (c.fld 48 0 32 ≤ 2 ^ 28)
  | 0x70 => decide (c.fld 36 0 14 ≤ 8192) && decide (c.fld 34 0 13 + c.fld 36 0 14 ≤ 8192) && decide (c.fld 40 0 15 ≤ 16384) && decide (c.fld 44 0 9 ≤ 256) &&
      !(c.fld 32 0 8 == 0 && c.fld 33 0 1 == 0)
  | _ => true

/-- Reserved header bits (Table 15.5): FLAGS [7:3] and LIVE outside ADMIT, DEP_N, the marks' [15:13], marks of an ADMIT, a host JOB of
cox firmware's range (R446). -/
def Cmd.headerOk (c : Cmd) : Bool :=
  decide (c.flags < 8) && (c.opcode == 0x50 || !natBit c.flags 2) && decide (c.fld 3 0 8 ≤ 2) && !(c.opcode == 0x50 && c.fld 3 0 8 != 0) &&
    (c.opcode == 0x50 || (c.fld 16 13 3 == 0 && c.fld 24 13 3 == 0)) && (c.opcode == 0x50 || decide (c.job < 0x8000))

/-- VI-0 opcodes (Table 15.7). -/
def privileged (op : Nat) : Bool := op == 0x40 || op == 0x41 || op == 0x42 || op == 0x70

/-- CONTEXT_INVALID's code by opcode (R449). -/
def ctxInvalidCode (op : Nat) : Nat := if 0x50 ≤ op ∧ op ≤ 0x54 then 0x02 else if op = 0x20 then 0x20 else 0xE3

/-- The header checks in order (R449): the first that fails gives the status. -/
def State.headerCheck (s : State) (c : Cmd) (vi : Nat) : Option Nat :=
  let d := ringOff c.ring
  if !knownOpcode c.opcode then some 0xE0
  else if !c.headerOk || !c.payloadClear || !c.inRange then some 0xE1
  else if privileged c.opcode && vi != 0 then some 0xE2
  else if s.flag .RING_CFG_CTX_BOUND d && !noCtxOpcode c.opcode && s.getF .RING_CFG_CTX d != c.ctx then some 0xE2
  else if c.marks.any (fun k => s.ownerVi k.ring != some vi) then some 0xE2
  else if !noCtxOpcode c.opcode && !s.ctxOf c.ctx vi then some (ctxInvalidCode c.opcode)
  else none

/-- The command a fetched descriptor spells (Table 15.5). -/
def mkCmd (r seq cq : Nat) (desc : Descriptor) : Cmd :=
  let c : Cmd := { ring := r, seq := seq, cq := cq, desc := desc }
  let op := c.fld 0 0 8
  let n := if op = 0x50 then 0 else min 2 (c.fld 3 0 2)
  let mark := fun (b : Nat) => ({ ring := c.fld b 0 13, seq := c.fld b 16 48 } : DepMark)
  { c with opcode := op, flags := c.fld 1 0 8, ctx := c.fld 2 0 8, job := c.fld 4 0 16, tag := c.fld 8 0 64,
           marks := (if n ≥ 1 then [mark 16] else []) ++ (if n ≥ 2 then [mark 24] else []) }

/-- Records a command reserves (R443): one, and a second for an ADMIT. -/
def reserveFor (op : Nat) : Nat := if op = 0x50 then 2 else 1

/-- The rig a context runs. -/
def State.currentRig (s : State) (c : Nat) : Option RigSt := (s.ctx c).currentRig.map s.rig

/-- Fetch one descriptor: sequence check, reservation, header checks; a RIG_RUN's streams queue at its seats (R240). -/
def State.fetchOne (s : State) (r : Nat) (desc : Descriptor) : State :=
  let d := ringOff r
  let seq := s.getF .RING_SEQ_FETCHED d
  let head := s.getF .RING_IDX_HEAD d
  let cq := s.getF .RING_CFG_CQ d
  let q := (s.ring r).session * 2 ^ 48 + seq
  let c := mkCmd r q cq desc
  if s.ringState r ≠ 1 || head == s.getF .RING_IDX_TAIL d || s.ringState cq != 1 || decide (s.cqRoom cq < reserveFor c.opcode) then s
  else if c.fld 6 0 16 ≠ seq % 65536 then s.ringFault r 0 1
  else
    let g := s.ring r
    let next := (head + 1) % s.ringSlots r
    let s := s.setF .RING_SEQ_FETCHED (seq + 1) d
    let s := s.setF .RING_IDX_HEAD next d
    let s := s.setRing r { g with waiting := g.waiting ++ [c], fetchHead := next }
    let s := s.setRing cq { s.ring cq with reserved := (s.ring cq).reserved + reserveFor c.opcode }
    match s.headerCheck c ((s.ownerVi r).getD 0) with
    | some st =>
      let s := s.complete c st 0 0
      if c.opcode = 0x50 then s.unreserve cq else s
    | none =>
      if c.opcode = 0x23 then
        match s.currentRig c.ctx with
        | some g => s.queueRun g (c.fld 32 0 8) (c.fld 34 0 16) c.job (some (r, q)) 0 0
        | none => s
      else s

/-- DESCRIPTOR_FETCH: up to 64 descriptors of a ring as host memory holds them (R442); a stalled, fenced or unready module fetches nothing
(R501, R550), nor one whose state launches no step's commands (R519). The fetch head goes to the shadow after the fetch (R440). -/
def State.descFetch (s : State) (r : Nat) (descs : List Descriptor) : State :=
  if s.fenced || s.stalled || s.ringState r != 1 || s.getF .RING_CFG_TYPE (ringOff r) != 0 || s.getF .HOSTVI_DEV_STATUS_READY == 0 then s
  else
    let before := s.getF .RING_SEQ_FETCHED (ringOff r)
    let s := (descs.take 64).foldl (fun s x => s.fetchOne r x) s
    let sh := s.getF .RING_SHADOW_ADDR (ringOff r)
    if sh ≠ 0 ∧ s.getF .RING_SEQ_FETCHED (ringOff r) ≠ before then s.emit (.shadow r sh (s.getF .RING_IDX_HEAD (ringOff r))) else s

/-- Opcodes that wait to launch in M1 (R519). -/
def waitsInM1 (op : Nat) : Bool := op == 0x20 || op == 0x21 || op == 0x23 || op == 0x31 || op == 0x40

/-- COMMAND_LAUNCH: the oldest unlaunched command of a ring (R447, R448). One that finds a mark unmet starts its wait. -/
def State.launch (s : State) (r : Nat) : State :=
  let g := s.ring r
  match g.waiting with
  | [] => s
  | c :: rest =>
    if s.fenced || (s.getF .PWRCLK_STATE_MSTATE == 1 && waitsInM1 c.opcode) then s
    else
      let st := c.marks.map s.markState
      if s.prevState c == 2 || st.any (· == 2) then
        let s := (s.dropRun c).complete c 0xE4 0 0
        if c.opcode = 0x50 then s.unreserve c.cq else s
      else if st.any (· == 1) then
        s.setRing r { g with waiting := { c with waitSince := c.waitSince <|> some s.now } :: rest }
      else if s.prevState c == 1 then s.setRing r { g with waiting := { c with waitSince := none } :: rest }
      else s.setRing r { g with waiting := rest, outstanding := g.outstanding ++ [c] }

/-- DEP_TIMEOUT (R448): the wait on marks exceeded DEP_MS and one is still unmet. -/
def State.depTimeout (s : State) (r : Nat) : State :=
  match (s.ring r).waiting with
  | [] => s
  | c :: _ => match c.waitSince with
    | some t => if t + atLeast1 (s.getF .HOSTVI_CTRL_DEP_MS) * 1000000 < s.now && c.marks.any (fun m => s.markState m == 1) then (s.dropRun c).complete c 0xE5 0 0 else s
    | none => s

/-- MSI_X_INTERRUPT (R440): records were added and ITR_US has passed. -/
def State.msix (s : State) (r : Nat) : State :=
  let g := s.ring r
  if g.newSince && s.ringState r == 1 && decide (g.lastIrq + s.getF .RING_CFG_ITR_US (ringOff r) * 1000 ≤ s.now) then s.ringIrq r else s

/-- NOP completes at launch (Table 15.7). -/
def State.cmdNop (s : State) (r q : Nat) : State :=
  match s.launched r q 0x00 with
  | some c => s.complete c 0 0 0
  | none => s

/-! ### Contexts (R455-R457) -/

/-- Totals of an interface's contexts against a limit (Table 15.10 OVER_VI_LIMIT). -/
def State.viTotal (s : State) (vi : Nat) (f : Nat → Nat) (but : Nat) : Nat :=
  (s.ctxs.filter fun p => p.2.valid && p.2.held && p.2.vi == vi && p.1 != but).foldl (fun a p => a + f p.1) 0
/-- A sum within an optional limit. -/
def within (l : Option Nat) (n : Nat) : Bool := match l with
  | some m => decide (n ≤ m)
  | none => true
/-- Quotas, weight and priority within the interface's limits. -/
def State.viAllows (s : State) (vi but weight prio qt qs qb : Nat) : Bool :=
  let v := s.vi vi
  decide (prio ≤ v.prioMax) && within v.tsMax (s.viTotal vi (fun c => s.quota c 0) but + qt) && within v.ssMax (s.viTotal vi (fun c => s.quota c 1) but + qs) &&
    within v.brMax (s.viTotal vi (fun c => s.quota c 2) but + qb) && within v.weightMax (s.viTotal vi (fun c => (s.ctx c).weight) but + weight)

/-- The NOTICE_CQ checks of CTX_CREATE and CTX_ATTACH (R455). -/
def State.noticeCheck (s : State) (vi cq : Nat) : Option Nat :=
  if s.ownerVi cq ≠ some vi then some 0xE2
  else if s.ringState cq ≠ 1 || s.getF .RING_CFG_TYPE (ringOff cq) != 1 then some 0xE1
  else none

/-- Bring a context into being on this module: its record, its TIERS registers, no table yet. -/
def State.makeCtx (s : State) (c : Nat) (x : CtxSt) (qt qs qb : Nat) : State :=
  let d := inst c
  let s := s.setCtx c x
  let s := s.setF .TIERS_CTX_CTRL_VALID 1 d
  let s := s.setF .TIERS_CTX_CTRL_ROOT_SEL 0 d
  let s := s.setF .TIERS_CTX_CTRL_MASTER x.master d
  let s := s.setF .TIERS_CTX_ROOT0_ROOT 0 d
  let s := s.setF .TIERS_CTX_ROOT1_ROOT 0 d
  let s := s.setF .TIERS_CTX_QUOTA_TS_UNITS qt d
  let s := s.setF .TIERS_CTX_QUOTA_SS_UNITS qs d
  let s := s.setF .TIERS_CTX_QUOTA_BR_UNITS qb d
  ((s.setUsage c 0 0).setUsage c 1 0).setUsage c 2 0

/-- CTX_CREATE (R455): the lowest identifier free, not in SCRUB, on every module concerned; `busy` are those taken on the slice's other
modules. -/
def State.ctxCreate (s : State) (r q : Nat) (busy : List Nat) : State :=
  match s.launched r q 0x10 with
  | none => s
  | some c =>
    let vi := (s.ownerVi r).getD 0
    let weight := c.fld 32 0 16
    let prio := c.fld 34 0 3
    let span := natBit (c.fld 35 0 8) 0
    let slice := c.fld 36 0 12
    let cq := c.fld 38 0 13
    let qt := c.fld 40 0 20
    let qs := c.fld 44 0 25
    let qb := c.fld 48 0 28
    let badSlice := (span && slice == 0) ||
      (slice != 0 && (slice != (s.vi vi).slice || !(s.sliceOf slice).contains s.self))
    match s.noticeCheck vi cq with
    | some st => s.complete c st 0 0
    | none =>
      if badSlice then s.complete c 0x04 0 0
      else if !s.viAllows vi 256 weight prio qt qs qb then s.complete c 0x05 0 0
      else
        let free := (List.range 256).find? fun k => !(s.ctx k).valid && !(s.ctx k).scrubbing && !(span && busy.contains k)
        match free with
        | none => s.complete c 0x01 0 0
        | some k =>
          if s.ctxUsed vi ≥ (s.vi vi).ctxMax then s.complete c 0x01 0 0
          else
            let x : CtxSt := { valid := true, span := span, vi := vi, held := true, priority := prio, weight := weight, noticeCq := cq,
                               master := s.self, slice := slice }
            let s := s.makeCtx k x qt qs qb
            let s := if span then (s.sliceOf slice).foldl (fun s m =>
                if m = s.self then s else s.emit (.message "REPLICA_UPDATE" m [k, 0, slice, s.self, qt, qs, qb, weight, prio])) s else s
            s.complete c 0 k 0

/-- CTX_DESTROY (R459). -/
def State.ctxDestroy (s : State) (r q : Nat) : State :=
  match s.launched r q 0x11 with
  | none => s
  | some c => if (s.ctx c.ctx).valid then s.teardown c.ctx 0 (some c) true else s.complete c 0xE3 0 0

/-- CTX_SET (R457). -/
def State.ctxSet (s : State) (r q : Nat) : State :=
  match s.launched r q 0x12 with
  | none => s
  | some c =>
    let vi := (s.ownerVi r).getD 0
    let k := c.ctx
    let x := s.ctx k
    let mask := c.fld 32 0 5
    let pick := fun (i new old : Nat) => if natBit mask i then new else old
    let weight := pick 0 (c.fld 52 0 16) x.weight
    let prio := pick 1 (c.fld 34 0 3) x.priority
    let qt := pick 2 (c.fld 40 0 20) (s.quota k 0)
    let qs := pick 3 (c.fld 44 0 25) (s.quota k 1)
    let qb := pick 4 (c.fld 48 0 28) (s.quota k 2)
    if !s.viAllows vi k weight prio qt qs qb then s.complete c 0x05 0 0
    else
      let s := s.setCtx k { x with weight := weight, priority := prio }
      let s := s.setF .TIERS_CTX_QUOTA_TS_UNITS qt (inst k)
      let s := s.setF .TIERS_CTX_QUOTA_SS_UNITS qs (inst k)
      let s := s.setF .TIERS_CTX_QUOTA_BR_UNITS qb (inst k)
      s.complete c 0 0 0

/-- CTX_ATTACH (R455): a spanning context of that master in the interface's slice that no interface here holds. -/
def State.ctxAttach (s : State) (r q : Nat) : State :=
  match s.launched r q 0x13 with
  | none => s
  | some c =>
    let vi := (s.ownerVi r).getD 0
    let k := c.fld 32 0 8
    let cq := c.fld 36 0 13
    let x := s.ctx k
    match s.noticeCheck vi cq with
    | some st => s.complete c st 0 0
    | none =>
      if !x.valid || !x.span || x.master != c.fld 34 0 15 || x.slice != (s.vi vi).slice || x.held then s.complete c 0x0B 0 0
      else if s.ctxUsed vi ≥ (s.vi vi).ctxMax then s.complete c 0x01 0 0
      else (s.setCtx k { x with held := true, vi := vi, noticeCq := cq }).complete c 0 k 0

/-- REPLICA_UPDATE (R198): a change from the table master, applied to this module's replica: 0 a context, 1 a leaf, 2 a leaf removed,
3 a frame asked for, 4 one given back, 5 one offered (log 118). -/
def State.replicaUpdate (s : State) (c kind : Nat) (a : List Nat) : State :=
  let g := fun (i : Nat) => a.getD i 0
  match kind with
  | 0 =>
    if (s.ctx c).valid || (s.ctx c).scrubbing then s
    else s.makeCtx c { valid := true, span := true, slice := g 0, master := g 1, weight := g 5, priority := g 6 } (g 2) (g 3) (g 4)
  | 1 =>
    if !(s.ctx c).valid then s
    else
      let leaf : Pte := { pteOf (g 2) with big := g 1 == 1, va := g 0 }
      match s.ensureRoot c with
      | none => s
      | some (r, s') =>
        let s := (s'.putLeaf c (g 0) leaf leaf.big 0 r ptLevels).getD s
        let s := if leaf.migrating then s else s.releaseWrites c (g 0) leaf.big
        if (s.ctx c).master = s.self then s.tellLeaf leaf else s
  | 2 => match s.findLeaf c (g 0) with
    | some (at_, _) =>
      let s := s.setPte at_ {}
      if (s.ctx c).master = s.self then s.tellReplicas c [2, g 0] else s
    | none => s
  | 3 => s.offerFrame c (g 0) (g 1 == 1) (g 2 % 16)
  | 4 => s.takeBack c (g 0) (g 1 == 1)
  | 5 => if (s.ctx c).valid ∧ (s.ctx c).master = s.self then { s with tiers := { s.tiers with offers := s.tiers.offers ++ [(c, g 0, g 1)] } } else s
  | _ => s

/-- SLICE_TEARDOWN (R459 step 7): another module of the slice tore the context down. -/
def State.sliceTeardown (s : State) (c status : Nat) : State := if (s.ctx c).span then s.teardown c status none false else s

/-! ### Memory commands (R454) -/

/-- Addresses with VA[55:52] = 0xF belong to cox firmware. -/
def firmwareRange (va : Nat) : Bool := natBits va 52 4 == 15

/-- A page's virtual addresses hold a mapping already: for a 2 MiB page any of its 64 KiB pages. -/
def State.taken (s : State) (c va : Nat) (big : Bool) : Bool :=
  (List.range (if big then 32 else 1)).any fun k => (s.findLeaf c (va + k * 65536)).isSome

/-- An address of a page in a Topsoil window of one of the context's rigs (Table 15.10 BAD_RANGE). -/
def State.inWindow (s : State) (c va : Nat) : Bool :=
  s.rigs.any fun g => g.2.ctx == c && g.2.windows.any fun w => decide (w.tsVbase ≤ va) && decide (va < w.tsVbase + 65536 * w.granules)

/-- MAP: zeroed frames at a virtual range, all or none (R209, R219). -/
def State.mapCmd (s : State) (r q : Nat) : State :=
  match s.launched r q 0x14 with
  | none => s
  | some c =>
    let va := c.fld 32 0 56
    let n := c.fld 40 0 32
    let big := c.fld 44 0 1 == 1
    let size := pageBytes big
    let vas := (List.range n).map fun i => va + i * size
    if va % size ≠ 0 || vas.any (fun v => firmwareRange v || decide (2 ^ 56 ≤ v) || s.taken c.ctx v big) then s.complete c 0x03 0 0
    else match s.mapPages c.ctx (c.fld 44 1 2) (c.fld 44 3 2) (c.fld 44 5 1 == 1) (c.fld 44 6 1 == 1) big vas with
      | .error _ => s.complete c 0x02 0 0
      | .ok s => s.complete c 0 0 0

/-- The shootdown of an UNMAP drains already. -/
def State.unmapping (s : State) (r q : Nat) : Bool := s.tiers.shoot.any fun (x : Shootdown) => x.cmd == some (r, q)

/-- UNMAP: every page mapped, with the size named, or nothing is unmapped; completes at the end of the shootdown's drain. -/
def State.unmapCmd (s : State) (r q : Nat) : State :=
  match s.launched r q 0x15 with
  | none => s
  | some c =>
    let va := c.fld 32 0 56
    let n := c.fld 40 0 32
    let big := c.fld 44 0 1 == 1
    let size := pageBytes big
    let vas := (List.range n).map fun i => va + i * size
    let leaves := vas.map fun v => s.findLeaf c.ctx v
    if s.unmapping r q then s
    else if va % size ≠ 0 || vas.any (fun v => firmwareRange v || decide (2 ^ 56 ≤ v) || s.inWindow c.ctx v) || leaves.any (fun l => match l with
        | some (_, p) => p.big != big
        | none => true) then s.complete c 0x03 0 0
    else
      let frames := leaves.flatMap fun l => match l with
        | some (_, p) => if p.addr / 2 ^ 45 = s.self then (List.range (pageFrames big)).map fun i => p.addr % 2 ^ 45 / 65536 + i else []
        | none => []
      let s := leaves.foldl (fun s l => match l with
        | some (a, p) =>
          let s := s.setPte a {}
          let s := if p.shared then s else s.setUsage c.ctx p.tier (s.usage c.ctx p.tier - pageFrames big)
          s.tellReplicas c.ctx [2, p.va]
        | none => s) s
      s.shootdown { ctx := c.ctx, scope := if n = 1 then 0 else 1, vpage := va / 65536, slice := (s.ctx c.ctx).span, why := 1, arg := 0,
                    frames := frames, cmd := some (r, q), doneAt := none }

/-- MAP_SHARED: another context's frames, read-only, marked SHARED (R197, R454). -/
def State.mapSharedCmd (s : State) (r q : Nat) : State :=
  match s.launched r q 0x16 with
  | none => s
  | some c =>
    let va := c.fld 32 0 56
    let sva := c.fld 40 0 56
    let n := c.fld 48 0 32
    let src := c.fld 52 0 8
    let big := c.fld 53 0 1 == 1
    let size := pageBytes big
    let pairs := (List.range n).map fun i => (va + i * size, s.findLeaf src (sva + i * size))
    let vi := (s.ownerVi r).getD 0
    if va % size ≠ 0 || sva % size != 0 || !s.ctxOf src vi || firmwareRange sva || decide (2 ^ 56 < sva + n * size) || pairs.any (fun p => firmwareRange p.1 || decide (2 ^ 56 ≤ p.1) || s.taken c.ctx p.1 big || (match p.2 with
        | some (_, l) => l.big != big || !l.read || s.inWindow src l.va
        | none => true)) then s.complete c 0x03 0 0
    else
      let go := pairs.foldl (fun (acc : Option State) p => match acc, p.2 with
        | some s, some (_, l) =>
          let s := if l.addr / 2 ^ 45 = s.self then (List.range (pageFrames big)).foldl (fun s i =>
              let f := l.addr % 2 ^ 45 / 65536 + i
              s.setTag f { s.tag f with shared := true }) s else s
          s.installLeaf c.ctx p.1 { l with read := true, write := false, shared := true, ctx := c.ctx, migrating := false, place := 2 } big
        | _, _ => none) (some s)
      match go with
      | some s => s.complete c 0 0 0
      | none => s.complete c 0x02 0 0

/-- The pieces of a range by lines: byte offset within the range, length. -/
def linePieces (va n : Nat) : List (Nat × Nat) :=
  let first := min n (64 - va % 64)
  (if n = 0 then [] else [(0, first)]) ++ (List.range ((n - first + 63) / 64)).map fun i => (first + 64 * i, min 64 (n - first - 64 * i))

/-- The data of a COPY to the host, line by line, with EP on what a poisoned line gave (R434). -/
def State.copyOut (s : State) (c va host n : Nat) : State :=
  (linePieces va n).foldl (fun s p => match s.readVa c (va + p.1) p.2 with
    | some (bs, bad) => s.emit (.hostData (host + p.1) bs bad)
    | none => s) s

/-- COPY at launch (R434, R454): its range is checked whole; to the host, lines go out with EP on poisoned ones and the command completes; from the
host, a read is issued and HOST_READ_COMPLETION feeds it. -/
def State.copyCmd (s : State) (r q : Nat) : State :=
  match s.launched r q 0x01 with
  | none => s
  | some c =>
    let host := c.fld 32 0 64
    let va := c.fld 40 0 56
    let out := c.fld 40 63 1 == 1
    let n := c.fld 48 0 32
    if decide (2 ^ 56 < va + n) || !s.mapped c.ctx va n (!out) then s.complete c 0x03 0 0
    else if out then
      match s.readVa c.ctx va n with
      | none => s.complete c 0x03 0 0
      | some (_, bad) =>
        (s.copyOut c.ctx va host n).complete c (if bad then 0x0A else 0) n 0
    else s.emit (.host false host n)

/-- HOST_READ_COMPLETION (R434): data of a COPY or of a ring fetch, or its failure. -/
def State.hostRead (s : State) (r q : Nat) (fetch ok : Bool) (bs : List Byte) : State :=
  if fetch then
    if ok then s.descFetch r ((List.range (bs.length / 64)).map fun i =>
      (List.range 8).map fun w => BitVec.ofNat 64 (leNat ((bs.drop (64 * i + 8 * w)).take 8)))
    else if s.ringState r = 1 then s.ringFault r 2 3 else s
  else match s.launched r q 0x01 with
    | none => s
    | some c =>
      let va := c.fld 40 0 56
      let n := c.fld 48 0 32
      if c.fld 40 63 1 == 1 then s
      else if ok then (s.writeVa c.ctx va (bs.take n)).complete c 0 n 0
      else
        let s := s.poisonVa c.ctx va n
        let s := if s.getF .HOSTVI_ERR_FLAGS = 0 then s.regPut Reg.HOSTVI_ERR_INFO (BitVec.ofNat 64 (s.hostInfo r 2)) else s
        let s := s.setBit .HOSTVI_ERR_FLAGS 2 true
        s.complete c 0x09 0 0

/-! ### Virtual interfaces (R435-R437) -/

/-- Contexts an interface holds. -/
def State.viCtxs (s : State) (n : Nat) : List Nat := (s.ctxs.filter fun p => p.2.valid && p.2.held && p.2.vi == n).map (·.1)

/-- Disable an interface (R436, R437, R443): its rings halt VI_DISABLED at once and records kept for them are discarded, then its contexts are torn
down, whose records wait for the rings (log 99). `reset` says FLR, VF Enable cleared or DL_Down, which HOST_RESET reports for each context. -/
def State.disableVi (s : State) (n : Nat) (reset : Bool) : State :=
  let v := s.vi n
  if !v.enabled then s
  else
    let mine := s.rings.keys.filter fun r => decide (v.ringFirst ≤ r) && decide (r < v.ringFirst + v.ringCount)
    let s := mine.foldl (fun s r => if s.ringState r = 0 then s
      else (s.setF .RING_STATUS_STATE 2 (ringOff r)).setF .RING_STATUS_HALT_CODE 6 (ringOff r)) s
    let s := mine.foldl (fun s r => s.abortCmds (s.ring r).waiting) s
    let s := mine.foldl (fun s r => s.setRing r { s.ring r with kept := [] }) s
    let s := (s.viCtxs n).foldl (fun s c =>
      let s := s.teardown c (if reset then 3 else 2) none true
      if reset then
        s.fault hostRegs { block := 0x0C, fault := 5, sev := 3, scope := .context c, ctx := some c, whereKind := 7, whereIs := n,
                           info := packBits [(13, 0), (8, n), (8, c), (3, 5)] }
      else s) s
    s.setVi n { s.vi n with enabled := false }

/-- Whether two ring ranges overlap. -/
def rangesMeet (a n b m : Nat) : Bool := decide (0 < n) && decide (0 < m) && decide (a < b + m) && decide (b < a + n)

/-- VI_SETUP's effect on the fields of its payload (R436): the status, and the state when it is 0. -/
def State.viSetup (s : State) (c : Cmd) : Nat × State :=
  let n := c.fld 32 0 8
  let en := c.fld 33 0 1 == 1
  let first := c.fld 34 0 13
  let count := c.fld 36 0 14
  let v := s.vi n
  let moves := (List.range 8192).any fun r =>
    let had := v.enabled && decide (v.ringFirst ≤ r) && decide (r < v.ringFirst + v.ringCount)
    let has := en && decide (first ≤ r) && decide (r < first + count)
    -- a ring halted VI_DISABLED that no interface owns keeps none from taking it (log 99)
    had != has && s.ringState r != 0 && (had || s.ringState r != 2 || s.getF .RING_STATUS_HALT_CODE (ringOff r) != 6)
  let meets := en && (List.range 256).any fun k => k != n && (s.vi k).enabled && rangesMeet first count (s.vi k).ringFirst (s.vi k).ringCount
  if moves && en then (0xE7, s)
  else if meets then (0x08, s)
  else if !en then (0, s.disableVi n false)
  else
    let s := s.setVi n { s.vi n with
      enabled := true, slice := c.fld 42 0 12, ringFirst := first, ringCount := count, ctxMax := c.fld 44 0 9, prioMax := c.fld 39 0 3,
      tsMax := some (c.fld 48 0 32), ssMax := some (c.fld 52 0 32), brMax := some (c.fld 56 0 32), weightMax := some (c.fld 60 0 32) }
    (0, s.setF .SL_VI_QUOTA_ENTRIES (c.fld 40 0 15) (inst n))

/-- VI_SETUP as a command of VI 0. -/
def State.viSetupCmd (s : State) (r q : Nat) : State :=
  match s.launched r q 0x70 with
  | none => s
  | some c => let (st, s') := s.viSetup c; s'.complete c st 0 0

/-- FLR of a VF (R437). -/
def State.vfFlr (s : State) (n : Nat) : State := if 1 ≤ n ∧ n < 256 then s.disableVi n true else s
/-- Every VF's interface (R437). -/
def State.vfsDown (s : State) : State := (List.range 255).foldl (fun s k => s.disableVi (k + 1) true) s
/-- VI 0 is enabled again at its reset limits (R436, R437); its sediment domain is the management endpoint's alone (R269). -/
def State.enableVi0 (s : State) : State :=
  (s.setVi 0 { viReset 0 with domain := (s.vi 0).domain }).setF .SL_VI_QUOTA_ENTRIES 16384 (inst 0)
/-- FLR of the PF: every interface; VI 0 is enabled again at its reset limits while the link is up. -/
def State.pfFlr (s : State) : State :=
  let s := (s.vfsDown).disableVi 0 true
  if s.board.linkUp then s.enableVi0 else s
/-- VF Enable cleared (R435, R437). -/
def State.vfClear (s : State) : State :=
  let s := s.vfsDown
  { s with board := { s.board with vfEnable := false } }
/-- Loss of the host link (R437). -/
def State.dlDown (s : State) : State :=
  let s := (s.vfsDown).disableVi 0 true
  let s := s.setF .HOSTVI_LINK_WIDTH 0
  let s := s.setF .HOSTVI_LINK_RATE 0
  { s with board := { s.board with linkUp := false } }

/-- HOST_LINK_UP (R431, R437): x16 at 128 GT/s is full rate; anything less is DEGRADED and logged. An interface held in reset by
PERST_N does not train (R583). -/
def State.linkUpEv (s : State) (rate width : Nat) (flit : Bool) : State :=
  if s.board.perst then s
  else
  let deg := !(rate == 7 && width == 16)
  let s := s.setF .HOSTVI_LINK_RATE rate
  let s := s.setF .HOSTVI_LINK_WIDTH width
  let s := s.setF .HOSTVI_LINK_FLIT (bit flit)
  let s := s.setF .HOSTVI_LINK_DEGRADED (bit deg)
  let s := { s with board := { s.board with linkUp := true } }
  let s := if (s.vi 0).enabled then s else s.enableVi0
  if deg then s.fault hostRegs { block := 0x0C, fault := 3, sev := 1, scope := .none, info := packBits [(29, 0), (3, 3)] } else s

/-- PCIE_CORRECTABLE_ERROR (R432): PCIE_CE. -/
def State.pcieCe (s : State) : State := s.fault hostRegs { block := 0x0C, fault := 4, sev := 1, scope := .none, info := packBits [(29, 0), (3, 4)] }

/-- CONFIG_REQUEST (R433, R435): answered once boot stage B3 has ended, else Configuration Request Retry Status; a VF answers while VF Enable is set.
The PF's request may set VF Enable. -/
def State.configRequest (s : State) (fn : Nat) (setVf : Bool) : State :=
  if s.board.perst || (fn ≠ 0 && !s.board.vfEnable) then s
  else if !natBit s.board.stages 3 then s.emit (.message "CFG_CRS" fn [])
  else
    let s := if fn = 0 && setVf then { s with board := { s.board with vfEnable := true } } else s
    s.emit (.message "CFG_OK" fn [])

/-! ### Meanings -/

def execSqDoorbell (m : Master) (r v : Nat) (s : State) := done (s.sqDoorbell m r v)
def execCqDoorbell (m : Master) (r v : Nat) (s : State) := done (s.cqDoorbell m r v)
def execRingEnable (m : Master) (r : Nat) (s : State) := done (s.ringEnable m r)
def execRingDisable (m : Master) (r : Nat) (s : State) := done (s.ringDisable m r)
def execDescriptorFetch (r : Nat) (descs : List Descriptor) (s : State) := done (s.descFetch r descs)
def execCommandLaunch (r : Nat) (s : State) := done (s.launch r)
def execDepTimeout (r : Nat) (s : State) := done (s.depTimeout r)
def execMsiXInterrupt (r : Nat) (s : State) := done (s.msix r)
def execCmdNop (r q : Nat) (s : State) := done (s.cmdNop r q)
def execCopy (r q : Nat) (s : State) := done (s.copyCmd r q)
def execCtxCreate (r q : Nat) (busy : List Nat) (s : State) := done (s.ctxCreate r q busy)
def execCtxDestroy (r q : Nat) (s : State) := done (s.ctxDestroy r q)
def execCtxSet (r q : Nat) (s : State) := done (s.ctxSet r q)
def execCtxAttach (r q : Nat) (s : State) := done (s.ctxAttach r q)
def execMap (r q : Nat) (s : State) := done (s.mapCmd r q)
def execUnmap (r q : Nat) (s : State) := done (s.unmapCmd r q)
def execMapShared (r q : Nat) (s : State) := done (s.mapSharedCmd r q)
def execViSetup (r q : Nat) (s : State) := done (s.viSetupCmd r q)
def execConfigRequest (fn : Nat) (setVf : Bool) (s : State) := done (s.configRequest fn setVf)
def execVfFlr (n : Nat) (s : State) := done (s.vfFlr n)
def execPfFlr (s : State) := done s.pfFlr
def execVfEnableClear (s : State) := done s.vfClear
def execDlDown (s : State) := done s.dlDown
def execHostLinkUp (rate width : Nat) (flit : Bool) (s : State) := done (s.linkUpEv rate width flit)
def execPcieCorrectableError (s : State) := done s.pcieCe
def execHostReadCompletion (r q : Nat) (fetch ok : Bool) (bs : List Byte) (s : State) := done (s.hostRead r q fetch ok bs)
def execReplicaUpdate (c kind : Nat) (a : List Nat) (s : State) := done (s.replicaUpdate c kind a)
def execSliceTeardown (c status : Nat) (s : State) := done (s.sliceTeardown c status)

end Sys2Proof.Machine
end

