-- ==== Sys2Proof/Machine/Sequencer.lean ====
section
/-! DEFINITION. The sequencer of a compute unit (chapter 02): invalid entries (R40), the catch (R48-R53), streaming and emission (R50),
completion, runs, shape loads (R43-R46), unit control. Engine work is handed to the catch as a function. -/

namespace Sys2Proof.Machine

/-! ### Faults (R61, Table 2.15) -/

def unitRegs : FaultRegs := ⟨0x01, .UNIT_FAULT_FLAGS, Reg.UNIT_FAULT_INFO⟩

/-- A unit fault, charged to a context. -/
def State.unitFault (s : State) (u b sev c plane entry ctr port value : Nat) : State :=
  s.fault unitRegs
    { block := 0x01, fault := b, sev := sev, scope := if sev = 3 then .context c else .none, ctx := some c, whereKind := 1, whereIs := u,
      info := packBits [(3, plane), (6, entry), (4, ctr), (4, port), (15, 0), (32, value)] } (unitOff u)

/-- A unit fault at the entry a plane stands at. -/
def State.entryFault (s : State) (u p b sev : Nat) : State :=
  s.unitFault u b sev (s.plane u p).ctx p (s.plane u p).pc 0 0 0

/-! ### Numeric flags (Table 3.8) -/

/-- Record conditions: flags are sticky, ACC_OVF counts outputs, SFN_FTZ flushes, STAT_CLAMP clamps. -/
def State.numFlags (s : State) (u fl ovf ftz clamps : Nat) : State :=
  let d := unitOff u
  let s := s.regPut (Reg.UNIT_NUM_FLAGS + d) (BitVec.ofNat 64 ((s.regAt (Reg.UNIT_NUM_FLAGS + d)).toNat ||| fl))
  ((s.bump .UNIT_ACC_OVF_COUNT ovf d).bump .UNIT_SFN_FTZ_COUNT ftz d).bump .UNIT_STAT_CLAMP_COUNT clamps d

/-! ### Invalid entries (R40, R63, R69, R71, R93, R102, R104, R105, R111) -/

/-- Formats a VEC operation accepts (R76). -/
def vecFmtOk (op sf df : Nat) : Bool :=
  let scalar := fun (c : Nat) => decide (c ≤ 3)
  match op with
  | 0 => (scalar sf && df == 0) || (df == 9 && (sf == 9 || scalar sf))
  | 8 => (scalar sf && decide (df ≤ 8)) || (mxTag sf && decide (df ≤ 8)) || (sf == 9 && df == 0)
  | _ => scalar sf && df == 0

/-- An epilogue descriptor that may run (R102, R104, R105). -/
def epiOk (cfg d : Nat) : Bool :=
  d != 0 && natBit d 36 && epScaleMode d != 3 && decide (epOutFmt d ≤ 3) && (!epActEn d || sfnCodeOk (recMp cfg) (epAct d))

/-- An MPASS that may run (R71, R104). -/
def passOk (cfg e : Nat) : Bool :=
  let fa := enFmtA e
  let fb := enFmtB e
  (fa == 3) == (fb == 3) && !(fa == 3 && enWide e) && natBits (enFlags e) 5 3 == 0
    && (!enEpiEn e || (!enWide e && fa != 3 && epiOk cfg (recEpi cfg (enEpiSel e))))

/-- The tags of an MPASS's MX operands' first lines, as the store holds them once nothing writes them any more, name MX formats (R69). -/
def State.tagsOk (s : State) (u e : Nat) : Bool :=
  enClass e != 1 || decide (128 < enLen e) ||
    ((enFmtA e != 2 || mxTag (s.opTag u (enSrcA e))) && (enFmtB e != 2 || mxTag (s.opTag u (enSrcB e))))

/-- A SCATTER entry that may run (R296): FORMAT 0 to 3. -/
def scatterOk (e : Nat) : Bool := decide (enFormat e ≤ 3)

/-- A STAT entry that may run (R111). -/
def statOk (e : Nat) : Bool :=
  decide (enFormat e ≤ 3) && !natBit (enFlags e) 7 && (decide (2 ≤ enFormat e) || decide (enDstFmt e ≤ 3))

/-- An entry that must not execute (R40). -/
def State.entryBad (s : State) (u p e : Nat) : Bool :=
  let cfg := (s.plane u p).cfg
  let ports := (maskPorts (enInReq e)).all (fun n => bindBound (recIn cfg n)) && (maskPorts (enOutMask e)).all (fun n => bindBound (recOut cfg n))
  let pop := (maskPorts (enInPop e)).all (fun n => natBit (enInReq e) n)
  let pset := !(enPsetEn e && (decide (4 ≤ enPsetOp e) || (enPsetOp e == 0 && !bindBound (recIn cfg (enPsetPort e)))))
  let cls := match enClass e with
    | 1 => decide (128 < enLen e) || passOk cfg e
    | 2 => decide (enFormat e ≤ 11) && vecFmtOk (enFormat e) (enSrcFmt e) (enDstFmt e)
    | 3 => decide (enSrcFmt e ≤ 3) && decide (enDstFmt e ≤ 3) && sfnCodeOk (recMp cfg) (enFormat e)
    | 6 => (maskPorts (enInPop e)).length == 2
    | 9 => (enDstFmt e ≤ 9 || enDstFmt e == 15)
    | 10 => scatterOk e
    | 11 => statOk e
    | c => decide (c ≤ 11)
  !(ports && pop && pset && cls)

/-! ### Engines and hazards (R48, R107, R142) -/

/-- The engines an entry takes: beside the three of Table 2.9, the Topsoil port, receive paths of popped ports (R142), send paths, the
scatter engine. -/
def entryEngines (cfg e : Nat) : List Engine :=
  match enClass e with
  | 1 => .matrix :: (if enEpiEn e && epActEn (recEpi cfg (enEpiSel e)) then [.sfn] else [])
  | 2 => [.vector]
  | 3 => [.sfn]
  | 4 => [.path 4]
  | 5 => [.path 4]
  | 6 => (maskPorts (enInPop e)).map fun n => .path (100 + n)
  | 7 => (maskPorts (enInPop e)).map fun n => .path (100 + n)
  | 8 => (maskPorts (enOutMask e)).map fun n => .path (200 + n)
  | 9 => (maskPorts (enInPop e)).map fun n => .path (100 + n)
  | 10 => [.path 10]
  | 11 => if enFormat e = 3 then [.vector, .sfn] else [.vector]
  | _ => []

/-- None of the engines is held by an entry in flight, of whatever plane: the ports, and with them their paths, are the unit's (Table 2.1, R142). -/
def State.enginesFree (s : State) (u : Nat) (es : List Engine) : Bool :=
  !((s.unit u).inflight.any fun x => x.engines.any fun g => es.contains g)

/-- No entry in flight is still writing a line this one reads or writes, or reading one it writes (R48). -/
def State.hazardFree (s : State) (u : Nat) (rd wr : List (Nat × Nat)) : Bool :=
  (s.unit u).inflight.all fun x =>
    x.writes.all (fun w => rd.all (fun r => !linesMeet w r) && wr.all (fun r => !linesMeet w r)) &&
      x.reads.all fun w => wr.all fun r => !linesMeet w r

/-! ### The catch (R48-R53) -/

/-- Beats an entry emits on each port of OUT_MASK in all (Table 2.3, Table 2.5, R108, R305). -/
def entryBeats (cfg e : Nat) : Nat :=
  match enClass e with
  | 1 => if enToPort e then passOutLines cfg e else 0
  | 6 => enLen e
  | 7 => enLen e
  | 8 => enLen e
  | _ => 0

/-- Rounds of input beats a streaming entry takes, the first at its catch (R50). -/
def entryRounds (e : Nat) : Nat := if enClass e = 6 ∨ enClass e = 7 ∨ enClass e = 9 then enLen e else 0

/-- Rounds of input and beats of output of an entry. -/
def entrySize (cfg e : Nat) : Nat × Nat := (entryRounds e, entryBeats cfg e)

/-- Suppressed by its predicate (R52); never in static-rate mode (R54). -/
def Plane.suppresses (pl : Plane) (e : Nat) : Bool :=
  enPredEn e && !pl.static && (natBit pl.preds (enPredSrc e) == enPredNeg e)

/-- A beat moved through a port of a plane counts for the schedule entry that makes the plane current (R161). -/
def State.countMoved (s : State) (u p : Nat) : State :=
  let x := s.unit u
  s.setUnit u { x with moved := x.moved + bit (p == s.curPlane u) }

/-- Take a port's head beat; its credit goes back (R50). While the port has beats in its plane's spill area the oldest of them is read back into
the buffer instead, and the credit that its spill line backed ends (R144; log 107). -/
def State.popBeat (s : State) (u p n : Nat) : State :=
  let q := s.inPort u p n
  match q.spillAt with
  | [] => ((s.setInPort u p n { q with queue := q.queue.eraseIdx (s.headIdx u p n) }).countMoved u p).emit (.credit u p n 1)
  | k :: rest =>
    let a := sliceBase u + recSpillBase (s.plane u p).cfg + 64 * k
    let back := q.queue.modify (q.queue.length - q.spillAt.length) fun b => { b with data := s.lineAt a, poison := b.poison || s.poisonAt a }
    (s.setInPort u p n { q with queue := back.eraseIdx (s.headIdx u p n), spillAt := rest, spilled := q.spilled - 1 }).countMoved u p

/-- Take the heads of a mask. -/
def State.popBeats (s : State) (u p mask : Nat) : State := (maskPorts mask).foldl (fun s n => s.popBeat u p n) s

/-- Offer beats on the ports of a mask, behind those already offered (R49). -/
def State.pushBeats (s : State) (u p mask id : Nat) (bs : List Beat) : State :=
  (maskPorts mask).foldl (fun s n =>
    let q := s.outPort u p n
    s.setOutPort u p n { q with pending := q.pending ++ bs.map fun b => (id, b) }) s

/-- Null beats (R52); what their payload holds is left open. -/
def nullBeats (n epoch : Nat) (pred : Bool) : List Beat :=
  List.replicate n { data := Config.nullPayload, epoch := epoch, null := true, pred := pred }

/-- A run ends and the next begins at E0 in the mode now asked for (R37, R53, R56). -/
def State.endRun (s : State) (u p : Nat) : State :=
  let pl := s.plane u p
  s.setPlane u p ({ pl with runs := (pl.runs + 1) % 2 ^ 32 }.startRun (s.flag .SEQ_MODE_FORCE_STATIC (unitOff u)) s.now)

/-- Where the sequencer goes after an entry that fired: the run ends at END; else the loop test, then the next entry (Table 2.2). -/
def State.goOn (s : State) (u p e : Nat) : State :=
  let pl := s.plane u p
  if enEnd e then s.endRun u p
  else
    let pc := if enLoopEn e && pl.ctrs.getD (enLoopCtr e) 0 != 0 then enLoopTo e else (pl.pc + 1) % 64
    s.setPlane u p { pl with pc := pc }

/-- The predicate value an entry writes (PSET_OP): the head beat's flag, any or all lanes of its compare, a counter compare. A value
its source does not give is free, the same at each use of the entry (log 2). -/
def State.psetValue (s : State) (u p e : Nat) (lanes : List Bool) : Bool :=
  let pl := s.plane u p
  match enPsetOp e with
  | 0 => match s.headBeat u p (enPsetPort e) with
    | some b => b.pred
    | none => Config.psetOpen e
  | 1 => if lanes = [] then Config.psetOpen e else lanes.any id
  | 2 => if lanes = [] then Config.psetOpen e else lanes.all id
  | _ => decide (pl.ctrs.getD (enPsetCa e) 0 < pl.ctrs.getD (enPsetCb e) 0)

/-- What engine work hands back: the state it leaves, the beats it emits at the catch, the lanes of a compare, and what is still
to come: rounds of input, beats a port owes. -/
structure Work where
  s : State
  outs : List Beat := []
  lanes : List Bool := []
  left : Nat := 0
  owes : Nat := 0
  passPending : Bool := false

/-- The entry at the current plane's position. -/
def State.curEntry (s : State) (u : Nat) : Nat := recEntry (s.plane u (s.curPlane u)).cfg (s.plane u (s.curPlane u)).pc

/-- The sequencer may treat the entry at the current plane's position: its shape loads are complete and it is due (R48). -/
def State.atEntry (s : State) (u : Nat) : Bool :=
  let pl := s.plane u (s.curPlane u)
  s.mayIssue u (s.curPlane u) && pl.shapesReady (s.curEntry u) && pl.due (s.curEntry u)

/-- Ports, credits, engines and lines the entry at the current position asks for are free (R48). -/
def State.catchFree (s : State) (u : Nat) : Bool :=
  let p := s.curPlane u
  let e := s.curEntry u
  let r := s.entryRanges u (s.plane u p).cfg e
  s.headsReady u p (enInReq e) && s.creditsReady u p (enOutMask e) && s.enginesFree u (entryEngines (s.plane u p).cfg e) &&
    s.hazardFree u r.1 r.2

/-- The lines of the entry at the current position lie in the plane's window (R39). -/
def State.linesOk (s : State) (u : Nat) : Bool :=
  let r := s.entryRanges u (s.plane u (s.curPlane u)).cfg (s.curEntry u)
  (r.1 ++ r.2).all (inOpsWindow (s.plane u (s.curPlane u)).cfg)

/-- A pass beyond 4,096 products (R32). -/
def passTooLong (e : Nat) : Bool := enClass e == 1 && decide (128 < enLen e)

/-- The entry at the current position is of the class asked for and fires: everything R48 asks for holds and it is valid. -/
def State.fires (s : State) (u : Nat) (mine : Nat → Bool) : Bool :=
  s.atEntry u && !s.entryBad u (s.curPlane u) (s.curEntry u) && mine (s.curEntry u) && s.catchFree u && s.tagsOk u (s.curEntry u) && s.linesOk u &&
    !passTooLong (s.curEntry u)

/-- A catch begins: the entry in flight takes its number, the catch is counted, a null catch too (R52). -/
def State.beginCatch (s : State) (u : Nat) : State :=
  let pl := s.plane u (s.curPlane u)
  let d := unitOff u
  let sup := pl.suppresses (s.curEntry u)
  let s := s.setUnit u { s.unit u with nextId := (s.unit u).nextId + 1, yielded := false }
  let s := (s.bump .UNIT_CATCHES_COUNT 1 d).pmc 1 1 (some pl.ctx)
  if sup then (s.bump .UNIT_NULL_CATCHES_COUNT 1 d).pmc 2 1 (some pl.ctx) else s

/-- What a suppressed entry holds: of its engines the paths of the ports it streams on, whose beats it takes and emits like a live one (R52). -/
def portPaths (es : List Engine) : List Engine := es.filter fun g => match g with
  | .path k => decide (100 ≤ k)
  | _ => false

/-- The entry in flight that a catch makes: numbered, with its engines and lines (its ports' paths alone when suppressed), what is still to take
and owed, the predicate a SELECT chooses by. -/
def flightOf (pl : Plane) (p id e : Nat) (sup : Bool) (r : List (Nat × Nat) × List (Nat × Nat)) (w : Work) (owed : Nat) (pv : Bool) : InFlight :=
  { id := id, plane := p, entry := pl.pc, opclass := enClass e, engines := if sup then portPaths (entryEngines pl.cfg e) else entryEngines pl.cfg e,
    reads := if sup then [] else r.1, writes := if sup then [] else r.2, suppressed := sup, inPorts := maskPorts (enInPop e), inLeft := w.left,
    taken := 1, outLeft := (maskPorts (enOutMask e)).map fun k => (k, owed), passPending := w.passPending, ts := tsStart pl.ctrs e, pred := pv, sel := natBit pl.preds (enPredSrc e) }

/-- Each null head beat of a mask's ports is logged NULL_CONSUMED against an entry (R36). -/
def State.nullLog (s : State) (u p entry mask : Nat) : State :=
  (maskPorts mask).foldl (fun s n =>
    if (s.headBeat u p n).any fun b => b.null then s.unitFault u 10 0 (s.plane u p).ctx p entry 0 0 0 else s) s

/-- The null head beats that an entry pops as values are logged (R36). A suppressed entry computes nothing from the beats it takes, so it logs none:
the manual does not say, and this is the model's choice (log 104). -/
def State.nullHeads (s : State) (u p e : Nat) (sup : Bool) : State :=
  if sup || enClass e == 6 || enClass e == 7 then s else s.nullLog u p (s.plane u p).pc (enInPop e)

/-- The plane after a catch: its run has committed if the entry moved a beat or stored, the predicate written (PSET), the counter advanced. -/
def planeAfter (pl : Plane) (e : Nat) (sup : Bool) (beats : Nat) (pv : Bool) (now : Nat) : Plane :=
  let pl := { pl with joinStall := 0, joinReported := false }
  let commits := enInPop e != 0 || (enOutMask e != 0 && beats != 0) || (!sup && (enClass e == 5 || enClass e == 10))
  let pl := { pl with committed := pl.committed || commits }
  let pl := if enPsetEn e then
      { pl with preds := if natBit pl.preds (enPsetDst e) == pv then pl.preds else if pv then pl.preds + 2 ^ enPsetDst e else pl.preds - 2 ^ enPsetDst e }
    else pl
  if enAdvEn e then pl.advance (enAdvCtr e) now else pl

/-- A catch ends: the predicate it writes, the beats it pops and offers, the entry in flight, the plane's counters and position (R48-R53).
`r` are the lines it reads and writes, `sz` its rounds and beats, `w` what its work handed back. -/
def State.endCatch (u p e id : Nat) (sup : Bool) (r : List (Nat × Nat) × List (Nat × Nat)) (sz : Nat × Nat) (w : Work) : State :=
  let pl := w.s.plane u p
  let s := w.s
  let pv := enPsetEn e && s.psetValue u p e w.lanes
  let n := if sz.2 = 0 then 0 else if sz.1 = 0 then sz.2 else 1
  let outs := (if sup then nullBeats n pl.epoch pv else w.outs).map fun (b : Beat) => { b with pred := pv }
  let s := s.nullHeads u p e sup
  let s := s.popBeats u p (enInPop e)
  let s := s.pushBeats u p (enOutMask e) id outs
  let s := if enClass e = 0 then s
    else s.setUnit u { s.unit u with inflight := (s.unit u).inflight ++ [flightOf pl p id e sup r w (if sup then sz.2 else w.owes) pv] }
  (s.setPlane u p (planeAfter (s.plane u p) e sup sz.2 pv s.now)).goOn u p e

/-- The entry at the current position fires: its work runs, unless its predicate suppresses it; a fault of the work itself has torn the
context down, and the catch ends there (R178). -/
def State.fire (s : State) (u : Nat) (work : State → Nat → Nat → Nat → Work) (size : Nat → Nat → Nat × Nat) : State :=
  let p := s.curPlane u
  let pl := s.plane u p
  let e := s.curEntry u
  let sup := pl.suppresses e
  let s' := s.beginCatch u
  let w : Work := if sup then { s := s', left := (size pl.cfg e).1 - 1 } else work s' u p e
  if !(w.s.plane u p).valid then w.s
  else State.endCatch u p e (s.unit u).nextId sup (s.entryRanges u pl.cfg e) (size pl.cfg e) w

/-- A catch: the entry at the current plane's position fires when it is of the class asked for and R48 holds; an invalid entry faults
instead (R40), as does one whose lines leave its window (R39), a pass whose scale lines carry no MX tag (R69) or one beyond 4,096 products
(R32). That the last three hold for an entry its predicate suppresses too is the model's choice (log 104). -/
def State.catchEntry (s : State) (u : Nat) (mine : Nat → Bool) (work : State → Nat → Nat → Nat → Work)
    (size : Nat → Nat → Nat × Nat := entrySize) : State :=
  let p := s.curPlane u
  if !s.atEntry u then s
  else if s.entryBad u p (s.curEntry u) then s.entryFault u p 4 3
  else if !mine (s.curEntry u) || !s.catchFree u then s
  else if !s.tagsOk u (s.curEntry u) then s.entryFault u p 4 3
  else if !s.linesOk u then s.entryFault u p 12 3
  else if passTooLong (s.curEntry u) then s.entryFault u p 6 3
  else s.fire u work size

/-- ENTRY_SKIP (R48): an entry that is not due is passed over, to SKIP_TO or the next; with END set the run ends. -/
def State.skipEntry (s : State) (u : Nat) : State :=
  let p := s.curPlane u
  let pl := s.plane u p
  let e := recEntry pl.cfg pl.pc
  if !s.mayIssue u p || !pl.shapesReady e || pl.due e then s
  else if enEnd e then s.endRun u p
  else s.setPlane u p { pl with pc := if enSkipEn e then enSkipTo e else (pl.pc + 1) % 64 }

/-! ### Beats in and out (R34, R50, R170-R178) -/

def rigFault (s : State) (b sev c seat : Nat) : State :=
  let s := if s.fenced then s else s.setBit ⟨Reg.RIG_FAULTS, 0, 3⟩ b true (seatOff seat)
  s.raise { block := 0x03, fault := b, sev := sev, scope := if sev = 3 then .context c else .none, ctx := some c, whereKind := 2,
            whereIs := seat, info := 0 }

/-- Payload of a marker (Table 6.10). -/
def markCtx (b : Beat) : Nat := natBits b.data.toNat 0 8
def markOld (b : Beat) : Nat := natBits b.data.toNat 8 4
def markNew (b : Beat) : Nat := natBits b.data.toNat 12 4

/-- A beat joins a port's queue; one beyond the circuit's own C beats goes through the spill area granted (R144). -/
def State.queueBeat (s : State) (u p n : Nat) (b : Beat) : State :=
  let pl := s.plane u p
  let q := s.inPort u p n
  if q.spilled = 0 ∨ q.queue.length < bindBuf (recIn pl.cfg n) then s.setInPort u p n { q with queue := q.queue ++ [b] }
  else
    let held := (List.range 8).flatMap fun m => (s.inPort u p m).spillAt
    let k := ((List.range (recSpillLines pl.cfg)).find? fun i => !held.contains i).getD 0
    let s := s.setInPort u p n { q with queue := q.queue ++ [b], spillAt := q.spillAt ++ [k] }
    let s := s.putTagged (sliceBase u + recSpillBase pl.cfg + 64 * k) b.data b.poison 15
    s.bump .NET_SPILL_BEATS_COUNT 1 (seatOff (seatOf u))

/-- BEAT_ARRIVE (R34, R171, R176, R178): the beat's epoch against the plane's. -/
def State.beatArrive (s : State) (u p n : Nat) (b : Beat) : State :=
  let pl := s.plane u p
  let d := unitOff u
  if !pl.valid then s
  else if b.mark then
    if !bindLive (recIn pl.cfg n) then (rigFault s 2 0 pl.ctx (seatOf u)).emit (.credit u p n 1)
    else if markCtx b ≠ pl.ctx ∨ markOld b ≠ pl.epoch ∨ markNew b ≠ (pl.epoch + 1) % 16 then rigFault s 1 3 pl.ctx (seatOf u)
    else s.queueBeat u p n b
  else
    let k := (b.epoch + 16 - pl.epoch) % 16
    if k = 0 then s.queueBeat u p n b
    else if k = 15 then (s.bump .UNIT_STALE_DROP_COUNT 1 d).emit (.credit u p n 1)
    else if k = 1 then (s.queueBeat u p n b).bump .UNIT_EARLY_HOLD_COUNT 1 d
    else s.unitFault u 3 3 pl.ctx p pl.pc 0 n b.epoch

/-- Change an entry in flight. -/
def State.setFlight (s : State) (u id : Nat) (f : InFlight → InFlight) : State :=
  let x := s.unit u
  s.setUnit u { x with inflight := x.inflight.map fun y => if y.id = id then f y else y }

/-- The slot group that a unit's output port sends by, with its rig: that of the circuit bound there. -/
def State.outGroup (s : State) (u p n : Nat) : Option (RigSt × SlotGroup) :=
  s.rigs.findSome? fun r => (r.2.circuits.find? fun c => c.bound && c.srcUid == u && c.srcPlane == p && c.srcPort == n).bind fun c =>
    (r.2.groups.find? fun g => g.seat == c.seat && g.idx == c.group).map fun g => (r.2, g)

/-- How long a member waits for its turn when `last` was served last (R132). -/
def turnAfter (last m : Nat) : Nat := (m + 7 - last) % 8

/-- A slot of the port's group is left in this stroke, and it is the port's turn among the members that hold a beat and a credit (R132). A port with no
circuit bound is held by no group. -/
def State.slotTurn (s : State) (u p n : Nat) : Bool :=
  match s.outGroup u p n with
  | none => true
  | some (r, g) =>
    (g.stroke != (s.switch g.swKey).stroke || decide (g.used < g.firstSlots.length)) &&
      (r.circuits.filter fun c => c.bound && c.seat == g.seat && c.group == g.idx && c.srcUid == u && c.srcPlane != p).all fun c =>
        let q := s.outPort c.srcUid c.srcPlane c.srcPort
        q.pending == [] || q.credits == 0 || decide (turnAfter g.last p ≤ turnAfter g.last c.srcPlane)

/-- The port's group has served plane `p` in a slot of this stroke (R132). -/
def State.serveGroup (s : State) (u p n : Nat) : State :=
  match s.outGroup u p n with
  | none => s
  | some (_, g) =>
    let st := (s.switch g.swKey).stroke
    { s with rigs := s.rigs.map fun (r : Nat × RigSt) =>
        (r.1, { r.2 with groups := r.2.groups.map fun (h : SlotGroup) =>
          if h.swKey = g.swKey ∧ h.inPort = g.inPort ∧ h.firstSlots = g.firstSlots then
            { h with last := p, stroke := st, used := if h.stroke = st then h.used + 1 else 1 }
          else h }) }

/-- BEAT_EMIT (R49, R50, R132): the oldest beat offered on a port leaves when the port holds a credit, it is the port's turn in its group's slots and
no earlier entry still owes one; it carries the plane's index (Table 5.3). -/
def State.beatEmit (s : State) (u p n : Nat) : State :=
  let q := s.outPort u p n
  match q.pending with
  | [] => s
  | h :: t =>
    let first := t.foldl (fun a b => if b.1 < a.1 then b else a) h
    let owed := (s.unit u).inflight.any fun x =>
      x.plane == p && decide (x.id < first.1) && x.outLeft.any fun o => o.1 == n && decide (0 < o.2)
    if q.credits = 0 ∨ owed ∨ s.asleep (seatOf u) ∨ !s.slotTurn u p n then s
    else
      let s := s.serveGroup u p n
      let s := s.setOutPort u p n { q with credits := q.credits - 1, pending := q.pending.erase first }
      let s := s.setFlight u first.1 fun x => { x with outLeft := x.outLeft.map fun o => if o.1 = n then (o.1, o.2 - 1) else o }
      (s.countMoved u p).emit (.beat u p n { first.2 with member := p })

/-- An uncorrectable line of the operand store (Table 2.15, R556): it is poisoned, and so are the result lines of an entry that read it.
UNIT_FAULT_INFO.VALUE then holds the line's number, which Table 2.14 leaves open: the model's choice (log 104). -/
def State.opstoreUe (s : State) (u : Nat) (f : InFlight) (l : Nat) : State :=
  let within := fun (r : Nat × Nat) => decide ((l + 4096 - r.1) % 4096 < r.2)
  let hit := l :: (if f.reads.any within then f.writes.flatMap fun r => (List.range r.2).map fun i => (r.1 + i) % 4096 else [])
  let s := hit.foldl (fun (s : State) x => s.setOpLine u x { s.opLine u x with poison := true }) s
  (s.unitFault u 7 0 (s.plane u f.plane).ctx f.plane f.entry 0 0 l).poisonOrigin l

/-- What the unit reports as an entry finishes (Table 2.15); VALUE of OPSTORE_CE is the line's number, as for OPSTORE_UE (log 104). -/
def State.engineEnd (s : State) (u : Nat) (f : InFlight) (x : EngineEnd) : State :=
  match x with
  | .good => s
  | .mismatch =>
    let cs := (((List.range 8).filter fun p => (s.plane u p).valid).map fun p => (s.plane u p).ctx).eraseDups
    let s := s.setF .UNIT_CTRL_OFFLINE 1 (unitOff u)
    let s := if cs = [] then s.fault unitRegs { block := 0x01, fault := 9, sev := 3, scope := .none, whereKind := 1, whereIs := u,
                                                 info := packBits [(3, f.plane), (6, f.entry)] } (unitOff u) else s
    cs.foldl (fun s c => s.unitFault u 9 3 c f.plane f.entry 0 0 0) s
  | .lineUe l => s.opstoreUe u f (l % 4096)
  | .lineCe l => s.unitFault u 8 1 (s.plane u f.plane).ctx f.plane f.entry 0 0 (l % 4096)
  | .configUe q => if (s.plane u (q % 8)).valid then s.unitFault u 11 3 (s.plane u (q % 8)).ctx (q % 8) 0 0 0 0 else s

/-- ENGINE_COMPLETE (R48, R49, R61): an entry with nothing left to take or owe finishes, and frees the result buffer it held. -/
def State.engineComplete (s : State) (u id : Nat) (x : EngineEnd) : State :=
  let w := s.unit u
  match w.inflight.find? (fun f => f.id == id) with
  | none => s
  | some f =>
    if f.inLeft ≠ 0 ∨ f.passPending ∨ f.outLeft.any (fun o => decide (0 < o.2)) then s
    else
      (s.setUnit u { w with inflight := w.inflight.filter fun y => y.id != id, resBuf := if w.resBuf = some id then none else w.resBuf }).engineEnd u f x

/-! ### Moves (R36, R38, R68, R231-R233) -/

/-- Read one Topsoil line for a TS_LOAD: outside the window a poisoned beat (R38). -/
def State.tsRead (s : State) (u p o : Nat) : OpLine × State :=
  if inTsWindow (s.plane u p) o then
    let a := sliceBase u + o
    ({ data := s.lineAt a, tag := s.memTag.get 0 (lineOf a), poison := s.poisonAt a }, s)
  else
    let (d, s) := s.takeFreeLine
    ({ data := d, tag := 0, poison := true }, s)

/-- The feed ring and slot that a Topsoil offset of a unit lies in (R230). -/
def State.feedSlotAt (s : State) (u o : Nat) : Option (FeedRing × Nat × Nat) :=
  let a := sliceBase u + o
  (s.streams.rings.find? fun g => g.uid == u && decide (g.base ≤ a) && decide (a < g.base + 64 * g.elemLines * g.slots.length)).map fun g =>
    (g, (a - g.base) / 64 / max 1 g.elemLines, (a - g.base) / 64 % max 1 g.elemLines)

/-- A line of a FULL slot is read, which ends a stall on the ring (R232): reads of its last line count, and at READS the slot is released (R233). -/
def State.feedRead (s : State) (u : Nat) (g : FeedRing) (k line : Nat) : State :=
  let s := s.setRingOf u g.ctx g.vbase fun g => { g with stalled := none }
  if line + 1 ≠ g.elemLines then s
  else s.setRingOf u g.ctx g.vbase fun g =>
    let n := (g.slots.getD k {}).reads + 1
    if n ≥ g.needReads then
      { (g.setSlot k fun _ => {}) with rd := (k + 1) % max 1 g.slots.length, releases := (s.now :: g.releases).take 4 }
    else g.setSlot k fun f => { f with reads := n }

/-- Load lines from the `i`-th of `n` on until one lies in a slot that is not FULL; answers the line stopped at and whether any address
was out of range. -/
def State.tsLoad (s : State) (u p e ts : Nat) : Nat → Nat → Nat × Bool × State
  | 0, i => (i, false, s)
  | n + 1, i =>
    let o := ts + 64 * i
    match (if inTsWindow (s.plane u p) o then s.feedSlotAt u o else none) with
    | some (g, k, line) =>
      if (g.slots.getD k {}).state ≠ 2 then
        (i, false, s.setRingOf u g.ctx g.vbase fun g => { g with stalled := some (g.stalled.getD s.now) })
      else
        let (l, s) := s.tsRead u p o
        let s := s.setOpLine u ((enDst e + i) % 4096) l
        (s.feedRead u g k line).tsLoad u p e ts n (i + 1)
    | none =>
      let bad := !inTsWindow (s.plane u p) o
      let (l, s) := s.tsRead u p o
      let (j, b, s) := (s.setOpLine u ((enDst e + i) % 4096) l).tsLoad u p e ts n (i + 1)
      (j, b || bad, s)

/-- TS_LOAD's work at the catch. -/
def workTsLoad (s : State) (u p e : Nat) : Work :=
  let n := enLen e
  let (i, bad, s) := s.tsLoad u p e (tsStart (s.plane u p).ctrs e) n 0
  let s := if bad then s.entryFault u p 5 3 else s
  { s := s, left := n - i }

/-- TS_STORE's work: lines and tags copied; an address out of range is not written and faults (R38, R68). -/
def workTsStore (s : State) (u p e : Nat) : Work :=
  let pl := s.plane u p
  let ts := tsStart pl.ctrs e
  let s' := (List.range (enLen e)).foldl (fun s i =>
    let o := ts + 64 * i
    let l := s.opLine u ((enSrcA e + i) % 4096)
    if inTsWindow pl o then s.putTagged (sliceBase u + o) l.data l.poison l.tag else s) s
  let bad := (List.range (enLen e)).any fun i => !inTsWindow pl (ts + 64 * i)
  { s := if bad then s'.entryFault u p 5 3 else s' }

/-- SEND's beats: operand-store lines (R35). -/
def workSend (s : State) (u p e : Nat) : Work :=
  let ep := (s.plane u p).epoch
  let bs := (List.range (enLen e)).map fun i =>
    let l := s.opLine u ((enSrcA e + i) % 4096)
    ({ data := l.data, epoch := ep, poison := l.poison } : Beat)
  { s := s, outs := bs, owes := enLen e }

/-- One round of a RECV: the head of its port to line DST + i, with the tag of FLAGS[3:0] (R68); a null beat counts as poisoned (R36). -/
def State.recvBeat (s : State) (u p e n i : Nat) : State :=
  match s.headBeat u p n with
  | none => s
  | some b => s.setOpLine u ((enDst e + i) % 4096) { data := b.data, tag := enDstFmt e, poison := b.poison || b.null }

/-- RECV's first round, at the catch. -/
def workRecv (s : State) (u p e : Nat) : Work :=
  match maskPorts (enInPop e) with
  | [] => { s := s }
  | n :: _ => { s := s.recvBeat u p e n 0, left := enLen e - 1 }

/-- The beat a FORWARD passes on: payload, poison, null flag unchanged (R36). -/
def State.forwardBeat (s : State) (u p n : Nat) : List Beat :=
  match s.headBeat u p n with
  | none => []
  | some b => [{ b with mark := false }]

/-- FORWARD's first beat. -/
def workForward (s : State) (u p e : Nat) : Work :=
  match maskPorts (enInPop e) with
  | [] => { s := s }
  | n :: _ => { s := s, outs := s.forwardBeat u p n, left := enLen e - 1, owes := enLen e }

/-- The beat a SELECT emits: the lower port's when predicate PRED_SRC is 1, else the other's (Table 2.3); `sel` is that predicate as it stood at
the catch, which no later entry changes for this one (R53). -/
def State.selectBeat (s : State) (u p e : Nat) (sel : Bool) : List Beat :=
  match maskPorts (enInPop e) with
  | [a, b] => s.forwardBeat u p (if sel then a else b)
  | _ => []

/-- SELECT's first round. -/
def workSelect (s : State) (u p e : Nat) : Work :=
  { s := s, outs := s.selectBeat u p e (natBit (s.plane u p).preds (enPredSrc e)), left := enLen e - 1, owes := enLen e }

/-- STREAMING_BEAT_CONSUME (R50, R232): an entry in flight takes its next round of beats, or a TS_LOAD goes on with lines now FULL. A
suppressed entry consumes and emits nulls (R52). -/
def State.streamBeat (s : State) (u id : Nat) : State :=
  match (s.unit u).inflight.find? (fun f => f.id == id) with
  | none => s
  | some f =>
    let p := f.plane
    let pl := s.plane u p
    let e := recEntry pl.cfg f.entry
    if f.inLeft = 0 ∨ s.asleep (seatOf u) then s
    else if f.opclass = 4 then
      let (i, bad, s) := s.tsLoad u p e f.ts f.inLeft (enLen e - f.inLeft)
      let s := s.setFlight u id fun y => { y with inLeft := enLen e - i }
      if bad then s.unitFault u 5 3 pl.ctx p f.entry 0 0 0 else s
    else if !(f.inPorts.all fun n => (s.headBeat u p n).isSome) then s
    else
      let mask := enInPop e
      let n := f.inPorts.headD 0
      let (outs, s) :=
        if f.suppressed then (if f.opclass = 9 then [] else nullBeats 1 pl.epoch f.pred, s)
        else match f.opclass with
          | 6 => (s.selectBeat u p e f.sel, s)
          | 7 => (s.forwardBeat u p n, s)
          | _ => ([], (s.recvBeat u p e n f.taken).nullLog u p f.entry mask)
      let s := s.popBeats u p mask
      let s := s.pushBeats u p (enOutMask e) id (outs.map fun (b : Beat) => { b with pred := f.pred })
      s.setFlight u id fun y => { y with inLeft := y.inLeft - 1, taken := y.taken + 1 }

/-! ### Shape words (R43-R46) -/

/-- A read of a waiting counter's shape word, at the address `va` formed when it was asked for, completes: VALID 0 leaves it waiting; else the limit
loads (now, or for the next wrap), or faults (R45, R46). -/
def State.shapeRead (s : State) (u p k va : Nat) : State :=
  let pl := s.plane u p
  let c := recCtr pl.cfg k
  match s.readVa pl.ctx va 8 with
  | none => match s.walk pl.ctx va false with
    | .bad b => s.tiersFault b 3 (some pl.ctx) va 0 1 u
    | .leaf _ _ _ => s
  | some (bs, poison) =>
    let w := leNat bs
    let v := natBits w 0 32
    let lim := (v + 2 ^ ctrShift c - 1) / 2 ^ ctrShift c
    if poison then s.unitFault u 2 3 pl.ctx p pl.pc k 0 0
    else if !natBit w 63 then s.setPlane u p { pl with shapeTried := (k, s.now) :: pl.shapeTried.filter fun x => x.1 != k }
    else if ctrConst c < lim then s.unitFault u 0 3 pl.ctx p pl.pc k 0 v
    else
      let pl := { pl with shapeSince := pl.shapeSince.filter fun x => x.1 != k, shapeTried := pl.shapeTried.filter fun x => x.1 != k }
      if (pl.limits.getD k none).isNone then
        let pl := { pl with limits := pl.limits.set k (some lim) }
        let again := ctrLoadOn c && decide (lim ≤ pl.ctrs.getD k 0 + 1)
        s.setPlane u p (if again then { pl with shapeSince := pl.shapeSince ++ [(k, s.now, shapeAddr pl.cfg pl.ctrs k)] } else pl)
      else s.setPlane u p { pl with nextLimits := pl.nextLimits.set k (some lim) }

/-- The wait bound in ns (Table 2.13). -/
def State.shapeWaitNs (s : State) (u : Nat) : Nat := clamp 1 100000 (s.getF .SEQ_SHAPE_WAIT_WAIT_US (unitOff u)) * 1000

/-- When a waiting counter's word was last read with VALID 0. -/
def Plane.triedAt (pl : Plane) (k : Nat) : Option Nat := (pl.shapeTried.find? fun x => x.1 == k).map (·.2)

/-- SHAPE_LOAD_COMPLETE (R44): the first read of a waiting counter. -/
def State.shapeLoad (s : State) (u p k : Nat) : State :=
  let pl := s.plane u p
  match pl.asked k, pl.triedAt k with
  | some (_, va), none => if pl.valid then s.shapeRead u p k va else s
  | _, _ => s

/-- SHAPE_REREAD (R45): again, 1 us after a read that found VALID 0. -/
def State.shapeReread (s : State) (u p k : Nat) : State :=
  let pl := s.plane u p
  match pl.asked k, pl.triedAt k with
  | some (_, va), some t => if pl.valid && decide (t + 1000 ≤ s.now) then s.shapeRead u p k va else s
  | _, _ => s

/-- SHAPE_TIMEOUT (R45). -/
def State.shapeTimeout (s : State) (u p k : Nat) : State :=
  let pl := s.plane u p
  match pl.asked k with
  | some (t, _) =>
    if pl.valid && (pl.triedAt k).isSome && decide (t + s.shapeWaitNs u ≤ s.now) then s.unitFault u 1 3 pl.ctx p pl.pc k 0 0 else s
  | none => s

/-! ### Charging time (R169) -/

/-- A plane of the unit could fire now. -/
def State.couldFire (s : State) (u p : Nat) : Bool :=
  let pl := s.plane u p
  let e := recEntry pl.cfg pl.pc
  let (rd, wr) := s.entryRanges u pl.cfg e
  s.mayIssue u p && pl.shapesReady e && (!pl.due e || (s.headsReady u p (enInReq e) && s.creditsReady u p (enOutMask e) &&
    s.enginesFree u (entryEngines pl.cfg e) && s.hazardFree u rd wr))

/-- Charge `n` ns of a unit's time to its current plane and that plane's context: none while the unit sleeps, or has yielded with no plane that can
fire. -/
def State.chargeUnit (s : State) (u n : Nat) : State :=
  let x := s.unit u
  let p := s.curPlane u
  let pl := s.plane u p
  if n = 0 || !pl.valid || s.asleep (seatOf u) || (x.yielded && !(List.range 8).any (s.couldFire u)) then s
  else
    let s := s.bump .UNIT_PLANE_NS_NS n (unitOff u + 8 * p)
    let s := s.setUnit u { x with periodNs := SMap.modify 0 x.periodNs pl.ctx (· + n) }
    s.setCtx pl.ctx { s.ctx pl.ctx with ns := (s.ctx pl.ctx).ns + n }

/-- `n` ns pass on every unit that holds a plane. -/
def State.chargeNs (s : State) (n : Nat) : State :=
  (((s.planes.filter fun p => p.2.valid).map fun p => p.1 / 8).eraseDups).foldl (fun s u => s.chargeUnit u n) s

/-! ### Unit control (R55, R56, R59, Tables 2.10, 2.11) -/

/-- A compute unit's identifier (R19). -/
def isCompute (u : Nat) : Bool := decide (u < 16384) && !isService u

/-- A field write that acts for the stroke core and cox firmware only: a host's is discarded and logged (R59). -/
def State.fieldWrite (s : State) (m : Master) (off : Nat) (act : State → State) : State :=
  if m.host then s.hostRefused m (blockCode off) off else act s

/-- A unit of either rig of a wave is held halted. -/
def State.waveHalted (s : State) (w : Wave) : Bool :=
  ((s.rig w.outRig).planes ++ (match w.inRig with
    | some k => (s.rig k).planes
    | none => [])).any fun k => s.flag .UNIT_CTRL_HALT (unitOff k.uid)

/-- The bound of R177 pauses while a unit of the rig is held halted. -/
def State.pauseWaves (s : State) : State :=
  { s with waves := s.waves.map fun (w : Wave) =>
      match w.haltSince, s.waveHalted w with
      | none, true => { w with haltSince := some s.now }
      | some t, false => { w with haltSince := none, pausedNs := w.pausedNs + (s.now - t) }
      | _, _ => w }

/-- HALT. -/
def State.writeHalt (s : State) (m : Master) (u v : Nat) : State :=
  if !isCompute u then s
  else s.fieldWrite m (Reg.UNIT_CTRL + unitOff u) fun s => (s.setF .UNIT_CTRL_HALT v (unitOff u)).pauseWaves

/-- Every valid plane of a unit is invalidated by an epoch bump; what its entries had in flight goes with them, the result buffer with a pass. -/
def State.bumpPlanes (s : State) (u : Nat) : State :=
  let s := { s with
    inPorts := s.inPorts.filter fun q => q.1 / 128 != u
    outPorts := s.outPorts.filter fun q => q.1 / 128 != u }
  let s := s.setUnit u { s.unit u with inflight := [], pass := none, resBuf := none }
  (List.range 8).foldl (fun s p =>
    let pl := s.plane u p
    if pl.valid then
      s.setPlane u p { pl with valid := false, epoch := (pl.epoch + 1) % 16, inRun := false, wavePend := false, eligible := false,
                               idleReady := false, idle := 0 }
    else s) s

/-- OFFLINE (Table 2.10): setting it halts the unit and invalidates every plane; a context with a wave over the unit is torn down (Table
6.12). A retired unit stays OFFLINE until reset. -/
def State.writeOffline (s : State) (m : Master) (u v : Nat) : State :=
  if !isCompute u then s else s.fieldWrite m (Reg.UNIT_CTRL + unitOff u) fun s =>
    if v % 2 = 0 then (if (s.unit u).retired then s else s.setF .UNIT_CTRL_OFFLINE 0 (unitOff u))
    else if s.flag .UNIT_CTRL_OFFLINE (unitOff u) then s
    else
      let waving := ((s.waves.filter fun w => (List.range 8).any fun p => (s.plane u p).valid && (s.plane u p).ctx == w.ctx).map fun w => w.ctx).eraseDups
      let s := s.setF .UNIT_CTRL_OFFLINE 1 (unitOff u)
      let s := s.bumpPlanes u
      waving.foldl (fun s c => s.teardown c 1 none true) s

/-- FORCE_STATIC (R56): applied plane by plane at the next run start. -/
def State.writeForceStatic (s : State) (m : Master) (u v : Nat) : State :=
  if !isCompute u then s else s.fieldWrite m (Reg.SEQ_MODE + unitOff u) fun s => s.setF .SEQ_MODE_FORCE_STATIC v (unitOff u)

/-- A unit fails built-in test: it is retired and OFFLINE; UNIT_RETIRED_BIST is logged, and the logbook records it (R589). -/
def State.retireUnit (s : State) (u : Nat) : State :=
  let s := s.setUnit u { s.unit u with retired := true }
  let s := if isCompute u then s.setF .UNIT_CTRL_OFFLINE 1 (unitOff u) else s
  let s := if 1 < s.getF .KEEL_LOG_POLICY_MIN_SEV then
      s.logRec 3 (errBytes { time := s.now, sev := 1, raw := 1, block := 0x11, fault := 6, whereKind := 1, whereIs := u, info := 6, seq := s.err.seq }
        s.self (s.getF .TWIN_ID_PAIR))
    else s
  s.fault ⟨0x11, .BOARD_ERR_FLAGS, Reg.BOARD_ERR_INFO⟩ { block := 0x11, fault := 6, sev := 1, scope := .none, whereKind := 1, whereIs := u, info := 6 }

end Sys2Proof.Machine
end

