-- ==== Sys2Proof/Machine/Net.lean ====
section
/-! DEFINITION. The seat circuit network (chapter 05): geometry, slot tables, strokes and markers, link errors, credits, watchdogs. Ports are
coded as NET_SW_SEL.LINK codes them: 0 L, 1 N, 2 E, 3 S, 4 W. -/

namespace Sys2Proof.Machine

/-! ### Geometry (R120, R121, Tables 5.1, 5.2) -/

/-- A place in the network: seat, row, column. -/
structure Place where
  seat : Nat
  y : Nat
  x : Nat
deriving DecidableEq, Repr

def Place.sw (p : Place) : Nat := p.y * 32 + p.x
def Place.key (p : Place) : Nat := p.seat * 1024 + p.sw

/-- The seat across a row bridge on the W (4) or E (2) side (Table 5.2). -/
def rowNeighbour (seat port : Nat) : Option Nat :=
  if seat < 4 then
    if port = 2 then (if seat < 3 then some (seat + 1) else none) else (if 0 < seat then some (seat - 1) else none)
  else
    if port = 2 then (if 4 < seat then some (seat - 1) else none) else (if seat < 7 then some (seat + 1) else none)

/-- The seat across the column bridge. -/
def colNeighbour (seat : Nat) : Nat := if seat < 4 then seat + 4 else seat - 4

/-- Where a port of a switch leads: the far switch and the port the link enters it by, whether over a bridge; none at an edge that carries
no bridge. -/
def Place.next (p : Place) (port : Nat) : Option (Place × Nat × Bool) :=
  match port with
  | 1 => if 0 < p.y then some ({ p with y := p.y - 1 }, 3, false) else none
  | 2 => if p.x < 31 then some ({ p with x := p.x + 1 }, 4, false) else (rowNeighbour p.seat 2).map fun t => ({ p with seat := t, x := 0 }, 4, true)
  | 3 => if p.y < 31 then some ({ p with y := p.y + 1 }, 1, false)
         else some ({ seat := colNeighbour p.seat, y := 31, x := 31 - p.x }, 3, true)
  | 4 => if 0 < p.x then some ({ p with x := p.x - 1 }, 2, false) else (rowNeighbour p.seat 4).map fun t => ({ p with seat := t, x := 31 }, 2, true)
  | _ => none

/-- An N port of row 0 that is attached (Table 5.1). -/
def attached (x : Nat) : Bool := x % 2 == 0 || decide (x ≤ 25)

/-- The seat a bridge port of a switch leads to; none when the port is no bridge. -/
def Place.bridge (p : Place) (port : Nat) : Option Nat :=
  match p.next port with
  | some (q, _, true) => some q.seat
  | _ => none

/-- The shift from an input port to the next link: 10 over a bridge channel, else 2 (R131). -/
def Place.shift (p : Place) (port : Nat) : Nat := if (p.bridge port).isSome then 10 else 2

/-- A bridge is attached while both seats are READY (R129). -/
def State.bridgeUp (s : State) (a b : Nat) : Bool := s.flag .NET_STATUS_READY (seatOff a) && s.flag .NET_STATUS_READY (seatOff b)

/-- A port that carries a link now. -/
def State.linked (s : State) (p : Place) (port : Nat) : Bool :=
  if port = 0 then true
  else match p.next port with
    | some (q, _, true) => s.bridgeUp p.seat q.seat
    | some (_, _, false) => true
    | none => port == 1 && attached p.x

/-- Inputs a switch waits for: linked and not down (R127, R128). -/
def State.liveInputs (s : State) (p : Place) : List Nat :=
  (List.range 5).filter fun port => s.linked p port && !natBit (s.switch p.key).down port

/-- NET_STATUS.BRIDGE_ATT of a seat (Table 5.7). -/
def State.attachBridges (s : State) (seat : Nat) : State :=
  let up := fun (t : Option Nat) => match t with
    | some n => bit (s.bridgeUp seat n)
    | none => 0
  s.setF .NET_STATUS_BRIDGE_ATT (up (rowNeighbour seat 4) + 2 * up (rowNeighbour seat 2) + 4 * up (some (colNeighbour seat))) (seatOff seat)

/-! ### Slot tables (R134, Table 5.8) -/

/-- The register key of a slot-table entry. -/
def slotKey (seat sw out slot : Nat) : Nat := Reg.NET_SW_DATA + seatOff seat + inst (sw + out * 1024 + slot * 8192)

/-- Fields of an entry. -/
def slotValid (w : Word) : Bool := natBit w.toNat 0
def slotIn (w : Word) : Nat := natBits w.toNat 1 3
def slotFirst (w : Word) : Bool := natBit w.toNat 4
def slotCtx (w : Word) : Nat := natBits w.toNat 5 8
def slotGateway (w : Word) : Bool := natBit w.toNat 13
def slotDown (w : Word) : Bool := natBit w.toNat 14

/-- An entry. -/
def State.slotAt (s : State) (seat sw out slot : Nat) : Word := s.regAt (slotKey seat sw out slot)

/-- Entries of a switch: output, slot, word. -/
def State.swEntries (s : State) (seat sw : Nat) : List (Nat × Nat × Word) :=
  ((List.range 5).flatMap fun out => (List.range 32).map fun k => (out, k, s.slotAt seat sw out k)).filter fun e => slotValid e.2.2

/-- Contexts with a slot group over the link that enters a switch by a port. -/
def State.linkCtxs (s : State) (seat sw port : Nat) : List Nat :=
  (((s.swEntries seat sw).filter fun e => slotIn e.2.2 == port && !slotGateway e.2.2).map fun e => slotCtx e.2.2).eraseDups

/-- Contexts with a slot group on an output link. -/
def State.outCtxs (s : State) (seat sw out : Nat) : List Nat :=
  (((s.swEntries seat sw).filter fun e => e.1 == out && !slotGateway e.2.2).map fun e => slotCtx e.2.2).eraseDups

/-! ### Faults (R151, Table 5.9) -/

/-- A network fault: its NET_ERR bit and its record. -/
def State.netFault (s : State) (seat b sev : Nat) (ctx : Option Nat) (wk w : Nat) : State :=
  let s := if s.fenced then s else s.setBit .NET_ERR_FLAGS b true (seatOff seat)
  s.raise { block := 0x02, fault := b, sev := sev, scope := match ctx with
              | some c => if sev = 3 then .context c else .none
              | none => .none,
            ctx := ctx, whereKind := wk, whereIs := w, info := 0 }

/-- A fault (S3) of the contexts on a link; one with none on it still sets its bit and makes a record. -/
def State.netFaults (s : State) (seat b : Nat) (cs : List Nat) : State :=
  if cs = [] then s.netFault seat b 3 none 2 seat else cs.foldl (fun s c => s.netFault seat b 3 (some c) 2 seat) s

/-- An uncorrectable payload of a link word (R126, R556): its record, and the origin of the poison, whose address the manual leaves open. -/
def State.linkUe (s : State) (seat : Nat) : State :=
  let s := (s.bump .NET_LINK_UE_COUNT 1 (seatOff seat)).netFault seat 1 0 none 2 seat
  let (w, s) := s.takeFree
  s.poisonOrigin w.toNat

/-- What an error of a link word does (R126): 1 corrected, 2 an uncorrectable payload, 3 an uncorrectable tag, which discards the word and ends the
contexts on the link, 4 a bridge channel's CRC failed and the transfer was retried (R122). Answers the beat that goes on. -/
def State.linkCheck (s : State) (seat : Nat) (cs : List Nat) (err : Nat) (word : Option Beat) : Option Beat × State :=
  match err, word with
  | 1, w => (w, (s.bump .NET_LINK_CE_COUNT 1 (seatOff seat)).netFault seat 0 1 none 2 seat)
  | 2, some b => (some { b with poison := true }, s.linkUe seat)
  | 3, _ => (none, s.netFaults seat 2 cs)
  | 4, w => (w, (s.bump .NET_BRIDGE_RETRY_COUNT 1 (seatOff seat)).netFault seat 7 1 none 2 seat)
  | _, w => (w, s)

/-! ### Strokes (R127-R130) -/

/-- The unit at a switch. -/
def unitAt (seat sw : Nat) : Nat := seat * 2048 + sw

/-- Watchdog counts of a stroke at a unit (R141, R144): its issuing plane's output ports with a beat and no credit, and its due entry
held up by one port while another is full. -/
def State.countStalls (s : State) (u : Nat) : State :=
  let p := s.curPlane u
  let pl := s.plane u p
  if s.unitHalted u || !pl.valid then s
  else
    let s := (List.range 8).foldl (fun s n =>
      let q := s.outPort u p n
      if q.pending != [] && q.credits == 0 then s.setOutPort u p n { q with stall := q.stall + 1 } else s) s
    let e := recEntry pl.cfg pl.pc
    let req := maskPorts (enInReq e)
    let full := fun (n : Nat) => decide (bindBuf (recIn pl.cfg n) ≤ (s.inPort u p n).queue.length)
    let joins := pl.eligible && pl.shapesReady e && pl.due e && req.any (fun n => (s.headBeat u p n).isNone && (req.any fun m => m != n && full m))
    if joins then s.setPlane u p { pl with joinStall := pl.joinStall + 1 } else s

/-- A seat whose network does not run: its islands are gated (Table 18.5). -/
def State.dark (s : State) (seat : Nat) : Bool := (s.seat seat).phase == .asleep

/-- MARK_TIMEOUT (R128). -/
def State.markTimeout (s : State) (seat sw port : Nat) : State :=
  let pl : Place := ⟨seat, sw / 32, sw % 32⟩
  let k := s.switch pl.key
  let bound := max 2 (s.getF .NET_CTRL_MARK_TIMEOUT (seatOff seat)) * 100
  if 8 ≤ seat ∨ 1024 ≤ sw ∨ s.dark seat ∨ !((s.liveInputs pl).contains port) ∨ natBit k.arrived port ∨ s.now < k.since + bound then s
  else
    let cs := s.linkCtxs seat sw port
    let s := s.setSwitch pl.key { k with down := k.down + 2 ^ port }
    let s := (s.swEntries seat sw).foldl (fun s e =>
      if slotIn e.2.2 = port then s.regPut (slotKey seat sw e.1 e.2.1) (BitVec.ofNat 64 (e.2.2.toNat ||| 0x4000)) else s) s
    let s := if port = 0 then s.writeOffline .cox (unitAt seat sw) 1 else s
    s.netFaults seat 6 cs

/-- SEAT_NET_READY (R129, R130): 16 strokes across all of a seat's switches; not of a seat on its way to sleep. -/
def State.netReady (s : State) (seat : Nat) : State :=
  if 8 ≤ seat ∨ s.dark seat ∨ (s.seat seat).phase = .entering ∨ s.flag .NET_STATUS_READY (seatOff seat) ∨
      !((List.range 1024).all fun sw => decide (16 ≤ (s.switch (seat * 1024 + sw)).stroke)) then s
  else
    let s := s.setF .NET_STATUS_READY 1 (seatOff seat)
    (List.range 8).foldl State.attachBridges s

/-! ### Beats and side words (R123-R126, R131, R134, R136) -/

/-- Every group of every rig whose source link a beat crosses is not quiet. -/
def State.touchGroups (s : State) (key port slot stroke : Nat) : State :=
  { s with rigs := s.rigs.map fun (p : Nat × RigSt) =>
      (p.1, { p.2 with groups := p.2.groups.map fun (g : SlotGroup) =>
        if g.swKey = key ∧ g.inPort = port ∧ g.firstSlots.contains slot then { g with quietSince := stroke + 1 } else g }) }

/-- A gateway's attachment: the N port of a switch of row 0 at column 4k + 1 or 4k + 3 (Table 5.1). -/
def Place.gateway (p : Place) (port : Nat) : Option Nat :=
  if port = 1 ∧ p.y = 0 ∧ p.x % 2 = 1 ∧ p.x < 16 then some (p.x / 4) else none

/-- The gateway group that carries a word which arrives on a link in a slot: that of the entry that sent it (R138). -/
def State.gatewayLink (s : State) (p : Place) (port slot : Nat) : Bool :=
  match p.next port with
  | some (q, out, _) => let w := s.slotAt q.seat q.sw out slot; slotValid w && slotGateway w
  | none => false

/-- The entry that forwards what arrives by a port for slot `j` (R134): the one that names the port; from a gateway's attachment also the gateway
group's, since fabric traffic enters a chain at any switch (R138; log 108). -/
def State.forwardEntry (s : State) (p : Place) (port j : Nat) : Option (Nat × Nat × Word) :=
  let es := (s.swEntries p.seat p.sw).filter fun e => e.2.1 == j && !slotDown e.2.2
  (es.find? fun e => slotIn e.2.2 == port).orElse fun _ => if (p.gateway port).isSome then es.find? fun e => slotGateway e.2.2 else none

/-- A slot-0 word notes the stroke marker of its input: of this stroke, or of the next one (R127). -/
def State.markArrived (s : State) (p : Place) (port : Nat) : State :=
  let k := s.switch p.key
  if !(s.liveInputs p).contains port then s
  else if !natBit k.arrived port then s.setSwitch p.key { k with arrived := k.arrived + 2 ^ port }
  else if !natBit k.early port then s.setSwitch p.key { k with early := k.early + 2 ^ port }
  else s

/-! ### Gateways of circuits between modules (R132, R180) -/

/-- The codes by which a circuit names as its end a gateway, another attachment of an edge port, the stroke core. -/
def gatewayCode (seat k : Nat) : Nat := 0x4000 + 4 * seat + k
def edgeCode (seat x : Nat) : Nat := 0x5000 + 32 * seat + x
def coreCode (seat : Nat) : Nat := edgeCode seat 25

/-- A beat's tag as it crosses the fabric: bits [11:0] of Table 5.3. -/
def beatTag (b : Beat) : Nat :=
  packBits [(4, b.epoch), (1, bit b.poison), (1, bit b.null), (1, bit b.pred), (1, bit b.mark), (1, 1), (3, b.member)]

/-- Change the segments that a test picks. -/
def State.modSegs (s : State) (which : Segment → Bool) (f : Segment → Segment) : State :=
  { s with fab := { s.fab with segs := s.fab.segs.map fun g => if which g then f g else g } }

/-- The same end of the same circuit. -/
def Segment.isEnd (g h : Segment) : Bool := g.ctx == h.ctx && g.names == h.names && g.out_ == h.out_

/-- The circuits of this module that a segment belongs to, each with its rig. -/
def State.segCircuits (s : State) (x : Segment) : List (RigSt × Circuit) :=
  x.names.flatMap fun n => let r := s.rig n.1
    (r.circuits.filter fun c => c.xmod && c.spread == n.2 && decide (c.srcUid < 0x4000) == x.out_).map fun c => (r, c)

/-- The slot group of a circuit. -/
def RigSt.groupOf (r : RigSt) (c : Circuit) : Option SlotGroup := r.groups.find? fun g => g.seat == c.seat && g.idx == c.group

/-- The SPREAD record that a segment's messages name: that of the newest rig. -/
def Segment.id (x : Segment) : Nat := ((x.names.getLast?).map (·.2)).getD 0

/-- Names of rigs that are gone or closing are dropped; an end that no rig names is no more. -/
def State.pruneSegs (s : State) : State :=
  let live := fun (k : Nat) => s.rigs.any fun r => r.1 == k && !r.2.closing
  { s with fab := { s.fab with segs :=
      (s.fab.segs.map fun x => { x with names := x.names.filter fun n => live n.1 }).filter fun x => x.names != [] } }

/-- The credit of a beat that has left a source gateway's buffer goes back on its group's last link. -/
def State.gatewayCredit (s : State) (g : Segment) (b : Beat) : State :=
  match (s.segCircuits g).findSome? fun r => r.1.groupOf r.2 with
  | none => s
  | some h => match h.entries.reverse.find? fun e => slotFirst (BitVec.ofNat 64 e.2) with
    | none => s
    | some e => s.emit (.port ((e.1 % instStride - seatBase) / seatStride * 8192 + e.1 / instStride % 1024 * 8 + 1) "SIDE_WORD"
          [e.1 / instStride / 8192 % 32, b.member, 1])

/-- A source gateway sends the oldest beat of its buffer for one remote credit. -/
def State.gatewaySendOne (s : State) (g : Segment) : State :=
  match s.fab.segs.find? g.isEnd with
  | none => s
  | some h => match h.queue with
    | [] => s
    | b :: r =>
      if h.credits = 0 then s
      else
        let s := s.modSegs g.isEnd fun h => { h with queue := r, credits := h.credits - 1 }
        (s.emit (.message "BEAT" h.peer [h.id, h.ctx, 0, beatTag b, b.data.toNat])).gatewayCredit g b

/-- Everything a source gateway holds credits for leaves; its buffer is 32 beats. -/
def State.gatewaySend (s : State) (g : Segment) : State := (List.range 32).foldl (fun s _ => s.gatewaySendOne g) s

/-- A beat that the last switch of a source group forwarded to its gateway joins the send buffer (R180). -/
def State.gatewayTake (s : State) (p : Place) (e : Nat × Nat × Word) (j : Nat) (b : Beat) : State :=
  if e.1 ≠ 1 ∨ (p.gateway 1).isNone ∨ slotGateway e.2.2 then s
  else
    let key := slotKey p.seat p.sw 1 j
    match s.fab.segs.find? fun x => x.out_ && (s.segCircuits x).any fun r => r.2.srcPlane == b.member &&
        (r.1.groupOf r.2).any fun g => g.entries.any fun y => y.1 == key with
    | none => s
    | some g => (s.modSegs g.isEnd fun h => { h with queue := h.queue ++ [b] }).gatewaySend g

/-- The landing ends that feed a slot group, with their members. -/
def State.landingEnds (s : State) (g : SlotGroup) : List (Segment × Nat) :=
  (s.fab.segs.filter fun x => !x.out_).filterMap fun x =>
    ((s.segCircuits x).find? fun r => (r.1.groupOf r.2).any fun h => h.swKey == g.swKey && h.inPort == g.inPort && h.firstSlots == g.firstSlots).map
      fun r => (x, r.2.srcPlane)

/-- A landing gateway puts one beat into a slot of a group: of the member whose turn it is among those with a beat and a credit (R132). The landing
place it leaves is credited over the fabric (R180). -/
def State.gatewayFeedOne (s : State) (g : SlotGroup) : State :=
  let st := (s.switch g.swKey).stroke
  let now := (s.rigs.findSome? fun r => r.2.groups.find? fun h => h.swKey == g.swKey && h.inPort == g.inPort && h.firstSlots == g.firstSlots).getD g
  let used := if now.stroke = st then now.used else 0
  let ready := (s.landingEnds now).filter fun x => x.1.queue != [] && x.1.credits != 0
  match ready with
  | [] => s
  | x :: xs =>
    if now.firstSlots.length ≤ used then s
    else
      let best := xs.foldl (fun a y => if turnAfter now.last y.2 < turnAfter now.last a.2 then y else a) x
      let b := best.1.queue.headD {}
      let s := s.modSegs best.1.isEnd fun h => { h with queue := h.queue.drop 1, credits := h.credits - 1 }
      let s := { s with rigs := s.rigs.map fun (r : Nat × RigSt) =>
        (r.1, { r.2 with groups := r.2.groups.map fun (h : SlotGroup) =>
          if h.swKey = g.swKey ∧ h.inPort = g.inPort ∧ h.firstSlots = g.firstSlots then { h with last := best.2, stroke := st, used := used + 1 } else h }) }
      (s.emit (.link g.seat (g.swKey % 1024) g.inPort (g.firstSlots.getD used 0) { b with member := best.2 })).emit (.message "BEAT" best.1.peer [best.1.id, best.1.ctx, 1])

/-- The slots of a group that are left in this stroke are filled. -/
def State.gatewayFeed (s : State) (g : SlotGroup) : State := (List.range 32).foldl (fun s _ => s.gatewayFeedOne g) s

/-- The groups that a segment's landing end feeds. -/
def State.segGroups (s : State) (x : Segment) : List SlotGroup :=
  if x.out_ then [] else ((s.segCircuits x).filterMap fun r => r.1.groupOf r.2).head?.toList

/-- A BEAT message's credits and beats reach the ends of their circuit, by context and SPREAD record; a beat that of the rig of its own epoch, where two rigs
name the record (R180). -/
def State.segmentMsg (s : State) (c id : Nat) (beats : List Beat) (credits : Nat) : State :=
  let ends := fun (out_ : Bool) => s.fab.segs.filter fun x => x.ctx == c && x.out_ == out_ && x.names.any fun n => n.2 == id
  let s := match (ends true).head? with
    | none => s
    | some x => if credits = 0 then s else (s.modSegs x.isEnd fun h => { h with credits := h.credits + credits }).gatewaySend x
  beats.foldl (fun s b =>
    match ((ends false).find? fun x => x.names.any fun n => n.2 == id && (s.rig n.1).epoch == b.epoch).orElse fun _ => (ends false).head? with
    | none => s
    | some x => (s.segGroups x).foldl State.gatewayFeed (s.modSegs x.isEnd fun h => { h with queue := h.queue ++ [b] })) s

/-- Credits that come back to a landing gateway for a member of a group. -/
def State.landingCredit (s : State) (key member n : Nat) : State :=
  match s.fab.segs.find? fun x => !x.out_ && (s.segCircuits x).any fun r => r.2.srcPlane == member &&
      (r.1.groupOf r.2).any fun g => g.entries.any fun e => e.1 == key with
  | none => s
  | some x => (s.segGroups x).foldl State.gatewayFeed (s.modSegs x.isEnd fun h => { h with credits := h.credits + n })

/-- A stroke begins: landing gateways at the switch fill their groups' slots. -/
def State.strokeFeed (s : State) (key : Nat) : State :=
  (s.rigs.flatMap fun r => r.2.groups.filter fun g => g.swKey == key && g.inPort == 1).foldl State.gatewayFeed s

/-! ### Service-unit and stroke-core ends (R176) -/

/-- The seat of a circuit's end that is a unit or the stroke core. -/
def endSeat (u : Nat) : Nat := if u < 0x5000 then seatOf u else (u - 0x5000) / 32

/-- A beat at a service unit or the stroke core, `p` its circuit's member: a marker is checked against the epochs of the circuits of its context that end there, and advances
those it fits; any beat is consumed and its credit goes back. -/
def State.serviceBeat (s : State) (u p n : Nat) (b : Beat) : State :=
  let ends := fun (r : RigSt) (c : Circuit) => r.ctx == markCtx b && c.dstUid == u && c.srcPlane == p
  let fits := fun (r : RigSt) (c : Circuit) => ends r c && c.live && c.epoch == markOld b && markNew b == (c.epoch + 1) % 16
  let some_ := fun (t : RigSt → Circuit → Bool) => s.rigs.any fun r => r.2.circuits.any (t r.2)
  if !b.mark || !some_ ends then s.emit (.credit u p n 1)
  else if !some_ (fun r c => ends r c && c.live) then (rigFault s 2 0 (markCtx b) (endSeat u)).emit (.credit u p n 1)
  else if !some_ fits then rigFault s 1 3 (markCtx b) (endSeat u)
  else
    let on := fun (r : RigSt) (c : Circuit) => if fits r c then { c with epoch := (c.epoch + 1) % 16 } else c
    { s with rigs := s.rigs.map fun (r : Nat × RigSt) => (r.1, { r.2 with circuits := r.2.circuits.map (on r.2) }) }.emit (.credit u p n 1)

/-- A beat that leaves by the attachment of the stroke core, N of (0, 25), is consumed there. -/
def State.coreTake (s : State) (p : Place) (e : Nat × Nat × Word) (b : Beat) : State :=
  if e.1 = 1 ∧ p.y = 0 ∧ p.x = 25 ∧ slotGateway e.2.2 = false then s.serviceBeat (coreCode p.seat) b.member 0 b else s

/-- STROKE_BEGIN (R127): the first stroke waits for nothing; stroke n + 1 for slot 0 of stroke n on every live input. Slot 0 of the new stroke may have
come already from a neighbour one stroke ahead. -/
def State.strokeBegin (s : State) (seat sw : Nat) : State :=
  let pl : Place := ⟨seat, sw / 32, sw % 32⟩
  let k := s.switch pl.key
  if 8 ≤ seat ∨ 1024 ≤ sw ∨ s.dark seat ∨ (k.stroke ≠ 0 ∧ !((s.liveInputs pl).all fun port => natBit k.arrived port)) then s
  else
    let k' := if k.stroke = 0 then k else { k with arrived := k.early, early := 0 }
    let s := s.setSwitch pl.key { k' with stroke := k.stroke + 1, since := s.now }
    let s := if sw = 25 ∧ s.flag .NET_STATUS_READY (seatOff seat) then s.bump .NET_STROKES_COUNT 1 (seatOff seat) else s
    (s.countStalls (unitAt seat sw)).strokeFeed pl.key

/-- SWITCH_FORWARD (R126, R127, R131, R136, R138): a link word arrives in a slot of an input; slot 0 is the stroke marker. Its beat leaves in the shifted slot by
the entry for it; a beat of a gateway group that no entry carries on leaves the chain here; any other beat without a valid entry, or with one that is DOWN, is an
orphan. `err` is that of linkCheck. -/
def State.switchForward (s : State) (seat sw port slot : Nat) (word : Option Beat) (err : Nat) : State :=
  let pl : Place := ⟨seat, sw / 32, sw % 32⟩
  if 8 ≤ seat ∨ 1024 ≤ sw ∨ 32 ≤ slot ∨ 5 ≤ port ∨ s.dark seat ∨ !s.linked pl port then s
  else
    let s := if slot = 0 then s.markArrived pl port else s
    match s.linkCheck seat (s.linkCtxs seat sw port) err word with
    | (none, s) => s
    | (some b, s) =>
      let s := s.touchGroups pl.key port slot (s.switch pl.key).stroke
      let j := (slot + pl.shift port) % 32
      match s.forwardEntry pl port j with
      | some e => ((s.emit (.link seat sw e.1 j b)).gatewayTake pl e j b).coreTake pl e b
      | none =>
        if s.gatewayLink pl port slot then s.emit (.port (pl.key * 8 + port) "GATEWAY_LEAVE" [slot])
        else (s.bump .NET_ORPHAN_COUNT 1 (seatOff seat)).netFault seat 4 0 none 2 seat

/-- BEAT_ARRIVE on the last link of a circuit: what the link does to the word (R126), then the input port. The link is the L output of the unit's switch, or
the N output of the switch that a service unit is attached to (Table 5.1). -/
def State.beatIn (s : State) (u p n : Nat) (b : Beat) (err : Nat) : State :=
  let cs := if isService u then s.outCtxs (seatOf u) (2 * (u % 1024)) 1 else s.outCtxs (seatOf u) (u % 2048) 0
  match (if err = 0 then (some b, s) else s.linkCheck (seatOf u) cs err (some b)) with
  | (none, s) => s
  | (some b, s) => if isService u then s.serviceBeat u p n b else s.beatArrive u p n b

/-- The output port a credit reaches at a unit: the circuit of a group by its L-link slot and member. -/
def State.creditCircuit (s : State) (u key member : Nat) : Option Circuit :=
  (s.rigs.flatMap fun p => p.2.circuits.filter fun c =>
    c.bound && c.srcUid == u && c.srcPlane == member && p.2.groups.any fun g => g.seat == c.seat && g.idx == c.group && g.entries.any fun e => e.1 == key).head?

/-- One credit return of a side word on output link `out`: forwarded upstream where the FIRST entry names its group, or usable at the
source port of the unit (R134, Table 5.5). -/
def State.creditReturn (s : State) (seat sw out group member n : Nat) : State :=
  let w := s.slotAt seat sw out (group % 32)
  if n = 0 ∨ !slotValid w ∨ !slotFirst w then s
  else
    let pl : Place := ⟨seat, sw / 32, sw % 32⟩
    let port := slotIn w
    if port = 0 then
      let u := unitAt seat sw
      match s.creditCircuit u (slotKey seat sw out (group % 32)) member with
      | some c =>
        let q := s.outPort u c.srcPlane c.srcPort
        s.setOutPort u c.srcPlane c.srcPort { q with credits := q.credits + n, stall := 0, stallReported := false }
      | none => s
    else if (pl.gateway port).isSome && !slotGateway w then s.landingCredit (slotKey seat sw out (group % 32)) member n
    else s.emit (.port (pl.key * 8 + port) "SIDE_WORD" [(group + 32 - pl.shift port) % 32, member, n])

/-- SIDE_WORD (R123, R126): up to two credit returns (group, member, count); an uncorrectable word loses them. -/
def State.sideWord (s : State) (seat sw out : Nat) (credits : List (Nat × Nat × Nat)) (err : Nat) : State :=
  if 8 ≤ seat ∨ 1024 ≤ sw ∨ 5 ≤ out ∨ s.dark seat then s
  else if err = 2 then s.netFaults seat 3 (s.outCtxs seat sw out)
  else
    let s := if err = 1 then (s.bump .NET_LINK_CE_COUNT 1 (seatOff seat)).netFault seat 0 1 none 2 seat else s
    (credits.take 2).foldl (fun s c => s.creditReturn seat sw out c.1 c.2.1 (c.2.2 % 4)) s

/-- An entry over an unattached port or a detached or down link cannot be set valid (R120, R128, R129). -/
def State.slotAllowed (s : State) (seat sw out port : Nat) : Bool :=
  let pl : Place := ⟨seat, sw / 32, sw % 32⟩
  decide (port < 5) && s.linked pl out && s.linked pl port && !natBit (s.switch pl.key).down port

/-- Set or clear an entry; setting VALID on a valid one is discarded and logged (R136). -/
def State.slotSet (s : State) (seat sel v : Nat) : State :=
  let sw := sel % 1024
  let out := sel / 1024 % 8
  let slot := sel / 8192 % 32
  if 8 ≤ seat ∨ 5 ≤ out then s
  else
    let key := slotKey seat sw out slot
    let old := s.regAt key
    if natBit v 0 && slotValid old then s.netFault seat 5 0 none 2 seat
    else if natBit v 0 && !s.slotAllowed seat sw out (natBits v 1 3) then s
    else s.regPut key (BitVec.ofNat 64 ((v &&& 0x3FFF) + (old.toNat &&& 0x4000)))

/-- SLOT_TABLE_WRITE: NET_SW_DATA written through the writer's own selector (R59, R605). -/
def State.slotWrite (s : State) (m : Master) (seat v : Nat) : State :=
  let off := Reg.NET_SW_DATA + seatOff seat
  s.fieldWrite m off fun s => s.slotSet seat (s.sel.get 0 (selKey m (Reg.NET_SW_SEL + seatOff seat))) v

/-! ### Built-in test (R128, R590) -/

/-- Cox firmware brings the links into a unit's switch back: none is down, and no entry over one that was is valid until a rig is loaded (R128). -/
def State.linksBack (s : State) (u : Nat) : State :=
  let seat := seatOf u
  let sw := u % 2048
  let s := s.setSwitch (seat * 1024 + sw) { s.switch (seat * 1024 + sw) with down := 0 }
  ((List.range 5).flatMap fun out => (List.range 32).map fun k => slotKey seat sw out k).foldl (fun s k => if slotDown (s.regAt k) then s.regPut k 0 else s) s

/-- BUILT_IN_TEST (Table 2.15, R590): a pass clears OFFLINE, and brings back the links of the unit's switch, which the test in static-rate mode has
exercised (R128; log 109); a failure retires the unit, which stays OFFLINE until reset. -/
def State.builtInTest (s : State) (u : Nat) (pass : Bool) : State :=
  if !isCompute u || !s.flag .UNIT_CTRL_OFFLINE (unitOff u) || (s.unit u).retired then s
  else
    let s := { s with board := { s.board with testRuns := (s.board.testRuns + 1) % 65536 } }
    if pass then (s.setF .UNIT_CTRL_OFFLINE 0 (unitOff u)).linksBack u else s.retireUnit u

/-! ### Closing groups (R135) -/

/-- A group's source link has been quiet for two strokes. -/
def State.quiet (s : State) (g : SlotGroup) : Bool := decide (g.quietSince + 2 ≤ (s.switch g.swKey).stroke)

/-- Clear a group's entries, source first. -/
def State.clearGroup (s : State) (g : SlotGroup) : State := (g.entries.map (·.1)).foldl State.clearSlot s

/-- GROUP_TEARDOWN (R135): a group of a rig whose context is gone. -/
def State.groupTeardown (s : State) (rig seat idx : Nat) : State :=
  let r := s.rig rig
  match r.groups.find? (fun g => g.seat == seat && g.idx == idx) with
  | some g =>
    if r.closing && s.quiet g then
      let s := s.clearGroup g
      let left := r.groups.filter fun k => !(k.seat == seat && k.idx == idx)
      if left = [] then { s with rigs := s.rigs.drop rig } else s.setRig rig { r with groups := left }
    else s
  | none => s

/-! ### Watchdogs (R141, R144) -/

/-- Write NET_WD_REPORT. -/
def State.wdReport (s : State) (kind u p n dir len : Nat) : State :=
  s.regPut (Reg.NET_WD_REPORT + seatOff (seatOf u)) (BitVec.ofNat 64 (packBits [(2, kind), (14, u), (3, p), (3, n), (1, dir), (9, 0), (32, len)]))

/-- Mark the rig of a plane for recompilation. -/
def State.markRig (s : State) (u p : Nat) : State :=
  { s with rigs := s.rigs.map fun (r : Nat × RigSt) =>
      if r.2.planes.any fun k => k.uid == u && k.pplane == p && r.2.epoch == (s.plane u p).epoch then (r.1, { r.2 with recompile := true }) else r }

/-- FATAL_MULT (0 acts as 1). -/
def State.fatalMult (s : State) (u : Nat) : Nat := atLeast1 (s.getF .NET_CTRL_FATAL_MULT (seatOff (seatOf u)))

/-- CREDIT_STALL (R141). -/
def State.creditStall (s : State) (u p n : Nat) : State :=
  let pl := s.plane u p
  let q := s.outPort u p n
  if !pl.valid || q.stallReported || decide (q.stall ≤ bindWd (recOut pl.cfg n)) then s
  else
    let s := s.setOutPort u p n { q with stallReported := true }
    let s := (s.wdReport 1 u p n 0 q.stall).bump .NET_CREDIT_STALLS_COUNT 1 (seatOff (seatOf u))
    (s.markRig u p).netFault (seatOf u) 8 0 (some pl.ctx) 1 u

/-- Ports of a plane's due entry that are full while another lacks a beat. -/
def State.fullPorts (s : State) (u p : Nat) : List Nat :=
  let pl := s.plane u p
  (maskPorts (enInReq (recEntry pl.cfg pl.pc))).filter fun n => decide (bindBuf (recIn pl.cfg n) ≤ (s.inPort u p n).queue.length)

/-- Lines of a plane's spill area that back no credit yet: its ports share the one area. -/
def State.spillFree (s : State) (u p : Nat) : Nat :=
  recSpillLines (s.plane u p).cfg - (List.range 8).foldl (fun a n => a + (s.inPort u p n).spilled) 0

/-- JOIN_STALL (R144): the report, and further credits for the full circuits, backed by what is left of the spill area in even parts (log 107). -/
def State.joinStall (s : State) (u p : Nat) : State :=
  let pl := s.plane u p
  if !pl.valid || pl.joinReported || decide (pl.joinStall ≤ recJoin pl.cfg) then s
  else
    let full := s.fullPorts u p
    let s := s.setPlane u p { pl with joinReported := true }
    let s := (s.wdReport 2 u p (full.headD 0) 1 pl.joinStall).bump .NET_JOIN_STALLS_COUNT 1 (seatOff (seatOf u))
    let s := (s.markRig u p).netFault (seatOf u) 9 0 (some pl.ctx) 1 u
    let lines := s.spillFree u p / max 1 full.length
    if lines = 0 then s
    else full.foldl (fun s n =>
      let q := s.inPort u p n
      (s.setInPort u p n { q with spilled := q.spilled + lines }).emit (.credit u p n lines)) s

/-- CIRCUIT_DEADLOCK (R141, R144): an output (dir 0) or a join (dir 1) at FATAL_MULT times its bound, a join's spill area full. -/
def State.deadlock (s : State) (u p n dir : Nat) : State :=
  let pl := s.plane u p
  let q := s.outPort u p n
  let fire := fun (len : Nat) => (s.wdReport 3 u p n dir len).netFault (seatOf u) 10 3 (some pl.ctx) 1 u
  if !pl.valid then s
  else if dir = 0 then (if 0 < q.stall ∧ s.fatalMult u * bindWd (recOut pl.cfg n) ≤ q.stall then fire q.stall else s)
  else
    let spillFull := (s.fullPorts u p).any fun m =>
      decide (bindBuf (recIn pl.cfg m) + (s.inPort u p m).spilled + s.spillFree u p ≤ (s.inPort u p m).queue.length)
    if 0 < pl.joinStall ∧ s.fatalMult u * recJoin pl.cfg ≤ pl.joinStall ∧ spillFull then fire pl.joinStall else s

/-! ### Gateway groups (R138) -/

/-- Walk a line of links: at each switch a port is left by; the entries of the chain's two groups. -/
def chainEntries : Nat → Place → Nat → Nat → Nat → List (Nat × Nat)
  | 0, _, _, _, _ => []
  | n + 1, p, inp, out, slot =>
    let w := 1 + 2 * inp + 16 + 0x2000
    let here := [(slotKey p.seat p.sw out slot, w), (slotKey p.seat p.sw out ((slot + 16) % 32), w)]
    match p.next out with
    | some (q, port, br) => here ++ chainEntries n q port (if br && out == 3 then 1 else out) ((slot + (if br then 10 else 2)) % 32)
    | none => []

/-- All gateway chains: row 0 of both rows both ways, and the four column lines both ways. -/
def gatewayEntries : List (Nat × Nat) :=
  chainEntries 127 ⟨0, 0, 0⟩ 0 2 0 ++ chainEntries 127 ⟨3, 0, 31⟩ 0 4 0 ++ chainEntries 127 ⟨7, 0, 0⟩ 0 2 0 ++ chainEntries 127 ⟨4, 0, 31⟩ 0 4 0
    ++ (List.range 4).flatMap (fun s => chainEntries 63 ⟨s, 0, 0⟩ 0 3 0 ++ chainEntries 63 ⟨s + 4, 0, 31⟩ 0 3 0)

/-- Load the gateway groups. -/
def State.loadGateways (s : State) : State := gatewayEntries.foldl (fun s e => s.regPut e.1 (BitVec.ofNat 64 e.2)) s

/-! ### Commands -/

def execBuiltInTest (uid : Nat) (pass : Bool) (s : State) := done (s.builtInTest uid pass)
def execBeatArrive (uid plane port : Nat) (b : BeatIn) (s : State) := done (s.beatIn uid (plane % 8) (port % 8) b.beat b.err)

def execStrokeBegin (seat sw : Nat) (s : State) := done (s.strokeBegin seat sw)
def execMarkTimeout (seat sw port : Nat) (s : State) := done (s.markTimeout seat sw port)
def execSeatNetReady (seat : Nat) (s : State) := done (s.netReady seat)
def execSwitchForward (seat sw port slot : Nat) (word : Option Beat) (err : Nat) (s : State) := done (s.switchForward seat sw port slot word err)
def execSideWord (seat sw link : Nat) (credits : List (Nat × Nat × Nat)) (err : Nat) (s : State) := done (s.sideWord seat sw link credits err)
def execGroupTeardown (rig seat idx : Nat) (s : State) := done (s.groupTeardown rig seat idx)
def execCreditStall (uid plane port : Nat) (s : State) := done (s.creditStall uid (plane % 8) (port % 8))
def execJoinStall (uid plane : Nat) (s : State) := done (s.joinStall uid (plane % 8))
def execCircuitDeadlock (uid plane port dir : Nat) (s : State) := done (s.deadlock uid (plane % 8) (port % 8) dir)

end Sys2Proof.Machine
end

