-- ==== Sys2Proof/Machine/RigCheck.lean ====
section
/-! DEFINITION. Validation of a rig container (R153-R160, R179, R182, Table 6.13). A container is one little-endian number. A check
answers the section and record at fault. -/

namespace Sys2Proof.Machine

/-- `n` bytes at byte `off` of a container. -/
def cb (c off n : Nat) : Nat := natBits c (8 * off) (8 * n)

/-- The section table (Table 6.2). -/
def rigSects (c : Nat) : List Sect :=
  (List.range (cb c 12 4)).map fun i =>
    let o := cb c 32 8 + 32 * i
    { idx := i, typ := cb c o 1, sflags := cb c (o + 1) 1, rank := cb c (o + 2) 2, seat := cb c (o + 4) 1, rsvd := cb c (o + 5) 3,
      off := cb c (o + 8) 8, len := cb c (o + 16) 8, count := cb c (o + 24) 4, crc := cb c (o + 28) 4 }

/-- Record sizes of Table 6.3; 0 for NOTES and reserved types. -/
def sectRec (typ : Nat) : Nat :=
  if typ = 1 then 3072 else if typ = 2 then 128 else if typ = 3 then 64 else if typ = 4 then 128 else if typ = 5 then 32 else 0

/-- Record `i` of a section. -/
def sectAt (c : Nat) (t : Sect) (i : Nat) : Nat := cb c (t.off + sectRec t.typ * i) (sectRec t.typ)

/-- Records of the sections of a type, with section and record index. -/
def rigRecs (c typ : Nat) : List (Sect × Nat × Nat) :=
  ((rigSects c).filter fun t => t.typ == typ).flatMap fun t => (List.range t.count).map fun i => (t, i, sectAt c t i)

/-- A place of a rejection: section and record. -/
abbrev Spot := Nat × Nat

/-- The first record of a type that fails. -/
def firstBad (rs : List (Sect × Nat × Nat)) (bad : Sect → Nat → Bool) : Option Spot :=
  (rs.find? fun r => bad r.1 r.2.2).map fun r => (r.1.idx, r.2.1)

/-! ### Header and sections -/

/-- Section ranges overlap each other, the header or the section table. -/
def sectClash (c : Nat) (t : Sect) : Bool :=
  let meets := fun (a n b m : Nat) => decide (0 < n) && decide (0 < m) && decide (a < b + m) && decide (b < a + n)
  meets t.off t.len 0 128 || meets t.off t.len (cb c 32 8) (32 * cb c 12 4) ||
    (rigSects c).any fun o => o.idx != t.idx && meets t.off t.len o.off o.len

/-- A section that R154 rules out. -/
def sectBad (c : Nat) (t : Sect) : Bool :=
  let known := decide (1 ≤ t.typ) && decide (t.typ ≤ 5)
  t.off % 64 != 0 || decide (cb c 16 8 < t.off + t.len) || sectClash c t || decide (cb c 10 2 ≤ t.rank)
    || (known && t.len != t.count * sectRec t.typ)
    || (decide (1 ≤ t.typ) && decide (t.typ ≤ 4) && (decide (8 ≤ t.seat) ||
        (rigSects c).any fun o => decide (o.idx < t.idx) && o.typ == t.typ && o.rank == t.rank && o.seat == t.seat))
    || (t.typ == 5 && t.seat != 0xFF)

/-- BAD_SECTION's first place: the table itself as section 0. -/
def badSection (c : Nat) : Option Spot :=
  if cb c 32 8 % 32 ≠ 0 ∨ cb c 16 8 < cb c 32 8 + 32 * cb c 12 4 ∨ cb c 32 8 < 128 then some (0, 0)
  else ((rigSects c).find? (sectBad c)).map fun t => (t.idx, 0)

/-! ### Stream descriptors (Tables 8.1, 8.2, R228) -/

/-- A descriptor from its 128 bytes. -/
def streamOf (r : Nat) : StreamDesc :=
  let f := fun (w lo len : Nat) => natBits r (64 * w + lo) len
  let dim := fun (k : Nat) => (f (4 + 2 * k) 0 24, signed 40 (f (4 + 2 * k) 24 40), signed 48 (f (5 + 2 * k) 0 48))
  { kind := f 0 0 4, gather := natBit r 4, phys := natBit r 5, noMerge := natBit r 6, engine := f 0 8 3, dstTag := f 0 12 4,
    elemLines := if f 0 16 10 = 0 then 1024 else f 0 16 10, rateHint := f 0 32 16, src := f 1 0 56, dst := f 2 0 56, unit := f 3 0 14,
    ringSlots := f 3 16 7, reads := f 3 24 8, needNs := f 3 32 32, dims := (List.range 4).map dim, shapeAddr := f 12 0 56, shapeDim := f 12 56 3,
    shapeEn := natBit r (64 * 12 + 59), shapeShift := f 12 60 4, list := f 13 0 56,
    bad := f 0 7 1 != 0 || f 0 11 1 != 0 || f 0 26 6 != 0 || f 0 48 16 != 0 || f 1 56 8 != 0 || f 2 56 8 != 0 || f 3 14 2 != 0 || f 3 23 1 != 0
      || (List.range 4).any (fun k => f (5 + 2 * k) 48 16 != 0) || f 13 56 8 != 0 || f 14 0 64 != 0 || f 15 0 64 != 0 }

/-- Planes of the rig's rank on a unit. -/
def planesOn (c rank uid : Nat) : List Nat :=
  ((rigRecs c 1).filter fun r => r.1.rank == rank && recUid r.2.2 == uid).map fun r => r.2.2

/-- A STREAMS record that R228 rules out; reserved fields have their own code. -/
def streamBad (c : Nat) (t : Sect) (r : Nat) : Bool :=
  let d := streamOf r
  { d with bad := false }.invalid t.seat false ||
    (d.kind == 1 && match planesOn c t.rank d.unit with
      | [] => true
      | p :: _ => decide (d.dst < recTsVbase p) ||
          decide (recTsVbase p + 65536 * recTsGranules p < d.dst + 64 * d.elemLines * d.ringSlots))

/-! ### Reserved fields -/

/-- A reserved bit of an entry's word 2 is set: of the Topsoil fields (Table 2.2), or above a SCATTER entry's DESC_ADDR (R290). -/
def entrySpare (e : Nat) : Bool := if enClass e = 10 then natBits e 184 8 != 0 else natBits e 158 2 != 0

/-- Reserved fields of a plane record (Tables 2.2, 2.4, 4.7, 6.5, 6.6). -/
def planeReserved (r : Nat) : Bool :=
  let z := fun (lo len : Nat) => natBits r lo len != 0
  z 17 7 || z 31 1 || z 48 16 || z 163 13 || z 201 55 || z 319 193
    || (List.range 16).any (fun k =>
        let b := natBits r (0x200 + 128 * k) 128
        natBits b 7 1 != 0 || natBits b 27 5 != 0 || natBits b 38 10 != 0 || natBits b 64 64 != 0)
    || (List.range 16).any (fun k => natBits (recCtr r k) 43 21 != 0 || natBits (recCtr r k) 120 8 != 0)
    || (List.range 4).any (fun k => natBits (recEpi r k) 37 91 != 0)
    || natBits (recNumctl r) 2 62 != 0
    || (List.range 64).any (fun k =>
        let e := recEntry r k
        natBits e 30 2 != 0 || natBits e 62 2 != 0 || entrySpare e || natBits e 211 45 != 0)

/-- Reserved fields of a slot-group record (Table 6.7). -/
def groupReserved (r : Nat) : Bool := natBits r 24 8 != 0 || natBits r 64 192 != 0
/-- Reserved fields of a fold record (Table 6.8). -/
def foldReserved (r : Nat) : Bool :=
  natBits r 24 8 != 0 || natBits r 48 16 != 0 || natBits r 320 192 != 0 || (List.range 8).any fun i => natBits r (64 + 32 * i + 3) 13 != 0
/-- Reserved fields of a SPREAD record (Table 6.11). -/
def spreadReserved (r : Nat) : Bool := natBits r 51 1 != 0 || natBits r 54 2 != 0 || natBits r 59 1 != 0 || natBits r 62 2 != 0 || natBits r 128 128 != 0

/-- RESERVED_NONZERO's first place. -/
def reservedBad (c : Nat) : Option Spot :=
  if natBits (cb c 9 1) 1 7 ≠ 0 ∨ cb c 44 36 ≠ 0 then some (0, 0)
  else match (rigSects c).find? fun t => natBits t.sflags 1 7 != 0 || t.rsvd != 0 with
    | some t => some (t.idx, 0)
    | none =>
      (firstBad (rigRecs c 1) fun _ r => planeReserved r).orElse fun _ =>
      (firstBad (rigRecs c 2) fun _ r => groupReserved r).orElse fun _ =>
      (firstBad (rigRecs c 3) fun _ r => foldReserved r).orElse fun _ =>
      (firstBad (rigRecs c 4) fun _ r => (streamOf r).bad).orElse fun _ => firstBad (rigRecs c 5) fun _ r => spreadReserved r

/-! ### Planes, entries, counters -/

/-- BAD_PLANE (R156, R157): fields out of range, a duplicate logical plane, windows that differ on one unit. -/
def planeBad (c : Nat) (t : Sect) (r : Nat) : Bool :=
  let mine := planesOn c t.rank (recUid r)
  natBits r 11 3 != t.seat || natBit r 10 || recEntries r == 0 || decide (64 < recEntries r)
    || (List.range 64).any (fun k => decide (recEntries r ≤ k) && recEntry r k != 0)
    || recJoin r == 0 || recSpillBase r % 64 != 0 || decide (4096 < recSpillLines r)
    || decide (recTsGranules r * 65536 < recSpillBase r + 64 * recSpillLines r)
    || recOpsLines r == 0 || decide (4096 < recOpsBase r + recOpsLines r) || recTsVbase r % 65536 != 0 || decide (64 < recTsGranules r)
    || decide (1 < (mine.filter fun m => recLplane m == recLplane r).length)
    || mine.any fun m => recOpsBase m != recOpsBase r || recOpsLines m != recOpsLines r || recTsVbase m != recTsVbase r || recTsGranules m != recTsGranules r

/-- The operand-store ranges of an entry that its encoding fixes: an MX operand by its scale lines and its shortest element lines. -/
def fixedRanges (cfg e : Nat) : List (Nat × Nat) :=
  let n := enLen e
  if enClass e = 1 then
    let len := fun (f : Nat) => if f = 2 then (n + 1) / 2 + n * 8 else passLines f 0 n
    let (rd, wr) := ({} : State).entryRanges 0 cfg e
    [(enSrcA e, len (enFmtA e)), (enSrcB e, len (enFmtB e))] ++ rd.drop 2 ++ wr
  else let (rd, wr) := ({} : State).entryRanges 0 cfg e; rd ++ wr

/-- The last Topsoil byte an entry can reach, every counter at its constant (R157). -/
def tsReach (cfg e : Nat) : Nat :=
  let top := fun (k : Nat) => ctrConst (recCtr cfg k) - 1
  enTsBase e + 64 * (top (enTsCtrA e) * enTsStrideA e + top (enTsCtrB e) * enTsStrideB e + enLen e)

/-- An entry the validator refuses (R40, R63, R71, R76, R93, R102, R104, R105, R111, R157). -/
def entryRefused (cfg e : Nat) : Bool :=
  let ports := (maskPorts (enInReq e)).all (fun n => bindBound (recIn cfg n)) && (maskPorts (enOutMask e)).all (fun n => bindBound (recOut cfg n))
  let pop := (maskPorts (enInPop e)).all (fun n => natBit (enInReq e) n)
  let pset := !(enPsetEn e && (decide (4 ≤ enPsetOp e) || (enPsetOp e == 0 && !bindBound (recIn cfg (enPsetPort e)))))
  let fa := enFmtA e
  let fb := enFmtB e
  let cls := match enClass e with
    | 1 => decide (enLen e ≤ 128) && (fa == 3) == (fb == 3) && !(fa == 3 && enWide e) && natBits (enFlags e) 5 3 == 0
        && (!enEpiEn e || (!enWide e && fa != 3 && epiOk cfg (recEpi cfg (enEpiSel e))))
    | 2 => decide (enFormat e ≤ 11) && vecFmtOk (enFormat e) (enSrcFmt e) (enDstFmt e)
    | 3 => decide (enSrcFmt e ≤ 3) && decide (enDstFmt e ≤ 3) && sfnCodeOk (recMp cfg) (enFormat e)
    | 6 => (maskPorts (enInPop e)).length == 2
    | 9 => (decide (enDstFmt e ≤ 9) || enDstFmt e == 15)
    | 10 => scatterOk e
    | 11 => statOk e
    | k => decide (k ≤ 11)
  let ts := (enClass e != 4 && enClass e != 5) || (enTsBase e % 64 == 0 && decide (tsReach cfg e ≤ recTsGranules cfg * 65536))
  !(ports && pop && pset && cls && ts && (fixedRanges cfg e).all (inOpsWindow cfg))

/-- BAD_ENTRY: an entry, epilogue descriptor or micro-program slot of a record. -/
def entriesBad (r : Nat) : Bool :=
  (List.range (recEntries r)).any (fun k => entryRefused r (recEntry r k))
    || (List.range 4).any (fun k => recEpi r k != 0 && !epiOk r (recEpi r k))
    || (List.range 6).any fun k => !(mpEmpty (recMp r k) && mpSpare (recMp r k)) && !mpValid (recMp r k)

/-- BAD_COUNTER (R41): a constant counter with shape fields set, or a misaligned address. -/
def countersBad (r : Nat) : Bool :=
  (List.range 16).any fun k =>
    let c := recCtr r k
    if ctrShape c then ctrAddr c % 8 != 0 else natBits c 33 10 != 0 || ctrAddr c != 0

/-! ### Routes and slots (R120, R131, R134, R159) -/

/-- Where a group starts: its first switch and the port its source link enters by. -/
def groupStart (t : Sect) (r : Nat) : Option (Place × Nat) :=
  let src := natBits r 0 14
  match natBits r 14 2 with
  | 0 =>
    if natBit r 10 then
      if src % 1024 < 16 ∧ src / 2048 = t.seat then some (⟨t.seat, 0, 2 * (src % 1024)⟩, 1) else none
    else some (⟨src / 2048, src % 1024 / 32, src % 32⟩, 0)
  | 1 => if src < 4 then some (⟨t.seat, 0, 4 * src + 1⟩, 1) else none
  | _ => none

/-- A hop of a route: switch, input port, output port, the shift accumulated before its output link. -/
structure Hop where
  at_ : Place
  inp : Nat
  out : Nat
  shift : Nat
deriving DecidableEq, Repr

/-- Follow the hop codes: the hops, and the destination unit (none for another attachment), or nothing when the route leaves the grid. -/
def followRoute (r : Nat) : Nat → Nat → Place → Nat → Nat → Option (List Hop × Option Nat × Place)
  | 0, _, _, _, _ => none
  | n + 1, k, p, inp, sh =>
    let sh := sh + p.shift inp
    match natBits r (256 + 4 * k) 4 with
    | 4 => some ([⟨p, inp, 0, sh⟩], some (unitAt p.seat p.sw), p)
    | 5 => if p.y = 0 ∧ attached p.x then
        some ([⟨p, inp, 1, sh⟩], if p.x % 2 = 0 then some (p.seat * 2048 + 1024 + p.x / 2) else none, p) else none
    | h =>
      if h ≤ 3 then
        match p.next (h + 1) with
        | some (q, port, _) => (followRoute r n (k + 1) q port sh).map fun x => (⟨p, inp, h + 1, sh⟩ :: x.1, x.2)
        | none => none
      else none

/-- A group's route. -/
def groupRoute (t : Sect) (r : Nat) : Option (List Hop × Option Nat × Place) :=
  match groupStart t r with
  | none => none
  | some (p, inp) =>
    if natBits r 16 8 = 0 ∨ 192 < natBits r 16 8 then none else followRoute r (natBits r 16 8) 0 p inp 0

/-- Slots of the mask. -/
def groupSlots (r : Nat) : List Nat := (List.range 32).filter fun j => natBit (natBits r 32 32) j

/-- Slot-table entries of a group: key and word, source first; `rot` the common offset of R137. -/
def groupEntries (t : Sect) (r ctx rot : Nat) : List (Nat × Nat) :=
  match groupRoute t r with
  | none => []
  | some (hops, _, _) =>
    let first := (groupSlots r).headD 0
    hops.flatMap fun h => (groupSlots r).map fun j =>
      (slotKey h.at_.seat h.at_.sw h.out ((j + h.shift + rot) % 32), 1 + 2 * h.inp + (if j = first then 16 else 0) + 32 * ctx)

/-- Input bindings of a rank that name a group: unit, logical plane, port, binding. -/
def groupInputs (c rank seat group : Nat) (xmod : Bool) : List (Nat × Nat × Nat × Nat) :=
  ((rigRecs c 1).filter fun r => r.1.rank == rank).flatMap fun r =>
    ((List.range 8).filter fun n =>
      let b := recIn r.2.2 n
      bindBound b && bindXmod b == xmod && bindSeat b == seat && bindGroup b == group).map fun n => (recUid r.2.2, recLplane r.2.2, n, recIn r.2.2 n)

/-- Output bindings of a rank that name a group. -/
def groupOutputs (c rank seat group : Nat) (xmod : Bool) : List (Nat × Nat × Nat × Nat) :=
  ((rigRecs c 1).filter fun r => r.1.rank == rank).flatMap fun r =>
    ((List.range 8).filter fun n =>
      let b := recOut r.2.2 n
      bindBound b && bindXmod b == xmod && bindSeat b == seat && bindGroup b == group).map fun n => (recUid r.2.2, recLplane r.2.2, n, recOut r.2.2 n)

/-- The key of a slot of a source link: the link by which a group enters its first switch, beside the keys of the slot tables. -/
def sourceKey (swKey inPort slot : Nat) : Nat := 2 ^ 60 + (swKey * 8 + inPort) * 32 + slot

/-- Every slot of every link that a group holds: of its source's link, and of each output link of its route (R131, R132). -/
def groupClaims (t : Sect) (r : Nat) : List Nat :=
  let start := (groupStart t r).getD (⟨0, 0, 0⟩, 0)
  (groupSlots r).map (sourceKey start.1.key start.2) ++ (groupEntries t r 0 0).map (·.1)

/-- SPREAD records that use a group as their destination segment, or source segment. -/
def spreadUses (c rank seat group : Nat) (dst : Bool) : List Nat :=
  ((rigRecs c 5).map fun r => r.2.2).filter fun x =>
    if dst then natBits x 32 16 == rank && natBits x 56 3 == seat && natBits x 80 16 == group
    else natBits x 16 16 == rank && natBits x 48 3 == seat && natBits x 64 16 == group

/-- SLOT_CLASH: a slot that two groups of one rank claim, or one group twice. -/
def slotClash (c : Nat) : Option Spot :=
  let all := (rigRecs c 2).map fun r => (r, groupClaims r.1 r.2.2)
  (all.find? fun a => a.2.eraseDups.length != a.2.length ||
      all.any fun b => (b.1.1.idx != a.1.1.idx || b.1.2.1 != a.1.2.1) && b.1.1.rank == a.1.1.rank && b.2.any fun k => a.2.contains k).map
    fun a => (a.1.1.idx, a.1.2.1)

/-! ### Bindings, waves, folds, spreads -/

/-- The group record a binding names. -/
def groupRec (c rank seat i : Nat) : Option (Sect × Nat) :=
  ((rigSects c).find? fun t => t.typ == 2 && t.rank == rank && t.seat == seat).bind fun t => if i < t.count then some (t, sectAt c t i) else none

/-- The unit a group's route ends at; the gateway (seat and number) whose attachment it ends at. -/
def groupUnit (c rank seat i : Nat) : Option Nat :=
  (groupRec c rank seat i).bind fun g => (groupRoute g.1 g.2).bind fun x => x.2.1
def groupGateway (c rank seat i : Nat) : Option (Nat × Nat) :=
  (groupRec c rank seat i).bind fun g => (groupRoute g.1 g.2).bind fun x =>
    if x.2.1.isSome then none else (x.2.2.gateway 1).map fun k => (x.2.2.seat, k)

/-- Fields of a SPREAD record (Table 6.11). -/
def spSrcRank (x : Nat) : Nat := natBits x 16 16
def spDstRank (x : Nat) : Nat := natBits x 32 16
def spSrc (x : Nat) : Nat × Nat := (natBits x 48 3, natBits x 64 16)
def spDst (x : Nat) : Nat × Nat := (natBits x 56 3, natBits x 80 16)
def spSrcGw (x : Nat) : Nat × Nat := (natBits x 48 3, natBits x 52 2)
def spDstGw (x : Nat) : Nat × Nat := (natBits x 56 3, natBits x 60 2)
def spLanding (x : Nat) : Nat := natBits x 96 16

/-- The SPREAD record of an identifier. -/
def spreadRec (c id : Nat) : Option Nat := ((rigRecs c 5).find? fun x => natBits x.2.2 0 16 == id).map fun x => x.2.2

/-- Bindings of a rank that name a SPREAD record: unit, logical plane, port, binding. -/
def xmodBindings (c rank id : Nat) (outs : Bool) : List (Nat × Nat × Nat × Nat) :=
  ((rigRecs c 1).filter fun r => r.1.rank == rank).flatMap fun r =>
    ((List.range 8).filter fun n =>
      let b := if outs then recOut r.2.2 n else recIn r.2.2 n
      bindBound b && bindXmod b && bindGroup b == id).map fun n =>
        (recUid r.2.2, recLplane r.2.2, n, if outs then recOut r.2.2 n else recIn r.2.2 n)

/-- The input bindings at a group's end that match an output of a source plane (R158). -/
def matching (c rank : Nat) (t : Sect) (r i lplane : Nat) : List (Nat × Nat × Nat × Nat) :=
  match groupRoute t r with
  | some (_, some u, _) => (groupInputs c rank t.seat i false).filter fun b => b.1 == u && bindMember b.2.2.2 == lplane
  | _ => []

/-- The input bindings that match an output of a source plane over a SPREAD record: on its destination rank, at the end of its destination group. -/
def matchingX (c x lplane : Nat) : List (Nat × Nat × Nat × Nat) :=
  (xmodBindings c (spDstRank x) (natBits x 0 16) false).filter fun b =>
    groupUnit c (spDstRank x) (spDst x).1 (spDst x).2 == some b.1 && bindMember b.2.2.2 == lplane

/-- What matches an output binding of a plane record, wherever its circuit ends; none where the binding names nothing. -/
def outMatches (c : Nat) (t : Sect) (r b : Nat) : Option (List (Nat × Nat × Nat × Nat)) :=
  if bindXmod b then (spreadRec c (bindGroup b)).map fun x => matchingX c x (recLplane r)
  else (groupRec c t.rank (bindSeat b) (bindGroup b)).map fun g => matching c t.rank g.1 g.2 (bindGroup b) (recLplane r)

/-- The slot group that an output binding's circuit starts in. -/
def outGroupOf (c b : Nat) : Nat × Nat :=
  if bindXmod b then ((spreadRec c (bindGroup b)).map spSrc).getD (8, 0) else (bindSeat b, bindGroup b)

/-- BAD_ROUTE: the route leaves the grid, or ends at a compute unit or a gateway that no binding of the group lies on. -/
def routeBad (c : Nat) (t : Sect) (i r : Nat) : Bool :=
  let on := fun (u : Nat) => (groupInputs c t.rank t.seat i false).any (fun b => b.1 == u) ||
    (spreadUses c t.rank t.seat i true).any fun x => (xmodBindings c t.rank (natBits x 0 16) false).any fun b => b.1 == u
  match groupRoute t r with
  | none => true
  | some (_, some u, _) => groupSlots r == [] || (!isService u && !on u)
  | some (_, none, p) => groupSlots r == [] || ((p.gateway 1).isSome && spreadUses c t.rank t.seat i false == [] && groupOutputs c t.rank t.seat i false == [])

/-- An output binding that R133, R141 or R158 rules out: numbers out of range, not of the plane's unit, without exactly one match at a compute unit, or
the second of its plane in a group (R132). -/
def outBad (c : Nat) (t : Sect) (r n : Nat) : Bool :=
  let b := recOut r n
  if !bindBound b then b != 0
  else bindBuf b != 0 || bindWd b == 0 ||
    ((List.range 8).any fun m => m != n && bindBound (recOut r m) && outGroupOf c (recOut r m) == outGroupOf c b) ||
    (match groupRec c t.rank (outGroupOf c b).1 (outGroupOf c b).2 with
      | none => true
      | some (gt, g) => natBits g 0 14 != recUid r || natBits g 14 2 != 0 || (groupRoute gt g).isNone ||
        (if bindXmod b then (match spreadRec c (bindGroup b) with
            | none => true
            | some x => spSrcRank x != t.rank || (matchingX c x (recLplane r)).length != 1)
         else match groupUnit c t.rank (bindSeat b) (bindGroup b) with
          | some u => !isService u && (matching c t.rank gt g (bindGroup b) (recLplane r)).length != 1
          | none => false))

/-- An input binding that R133 or R158 rules out: numbers out of range, not at the end of its group, or without exactly one source. -/
def inBad (c : Nat) (t : Sect) (r n : Nat) : Bool :=
  let b := recIn r n
  if !bindBound b then b != 0
  else bindBuf b == 0 || decide (32 < bindBuf b) || bindWd b != 0 ||
    (if bindXmod b then (match spreadRec c (bindGroup b) with
        | none => true
        | some x => spDstRank x != t.rank || groupUnit c t.rank (spDst x).1 (spDst x).2 != some (recUid r) ||
          ((xmodBindings c (spSrcRank x) (bindGroup b) true).filter fun o => o.2.1 == bindMember b).length != 1 ||
          1 < ((spreadUses c t.rank (spDst x).1 (spDst x).2 true).flatMap fun y =>
            (xmodBindings c t.rank (natBits y 0 16) false).filter fun i => bindMember i.2.2.2 == bindMember b).length)
     else match groupRec c t.rank (bindSeat b) (bindGroup b) with
      | none => true
      | some (_, g) => groupUnit c t.rank (bindSeat b) (bindGroup b) != some (recUid r) || (natBits g 14 2 == 0 && !natBit g 10 &&
          !((groupOutputs c t.rank (bindSeat b) (bindGroup b) false).any fun o => o.1 == natBits g 0 14 && o.2.1 == bindMember b)))

/-- BAD_BINDING of a plane record: a binding that does not fit, or buffers over 32 on a port of its unit (R133). -/
def bindingBad (c : Nat) (t : Sect) (r : Nat) : Bool :=
  let sumOver := fun (n : Nat) => (planesOn c t.rank (recUid r)).foldl (fun a m => a + bindBuf (recIn m n)) 0
  (List.range 8).any fun n => outBad c t r n || inBad c t r n || decide (32 < sumOver n)

/-- BAD_WAVE: LIVE or CARRY differ between the ends of a circuit. -/
def waveBad (c : Nat) (t : Sect) (r : Nat) : Bool :=
  (List.range 8).any fun n =>
    let b := recOut r n
    bindBound b && ((outMatches c t r b).getD []).any fun i => bindLive i.2.2.2 != bindLive b || bindCarry i.2.2.2 != bindCarry b

/-- BAD_FOLD (R160). -/
def foldBad (c : Nat) : Option Spot :=
  let folds := rigRecs c 3
  let recBad := fun (t : Sect) (r : Nat) =>
    let u := natBits r 0 16
    let n := natBits r 16 8
    let ls := (planesOn c t.rank u).map recLplane
    let es := (List.range n).map fun i => natBits r (64 + 32 * i) 32
    n == 0 || decide (8 < n) || decide (4095 < natBits r 32 16) || decide (ls.length < 2) ||
      es.any (fun e => natBits e 16 16 == 0 || !ls.contains (e % 8)) || !(ls.all fun l => es.any fun e => e % 8 == l) ||
      decide (1 < (folds.filter fun f => f.1.rank == t.rank && natBits f.2.2 0 16 == u).length)
  (firstBad folds recBad).orElse fun _ => firstBad (rigRecs c 1) fun t r =>
    decide (2 ≤ (planesOn c t.rank (recUid r)).length) && !(folds.any fun f => f.1.rank == t.rank && natBits f.2.2 0 16 == recUid r)

/-- A SPREAD record that R179 rules out, `i` its index: ID out of order, ranks equal or out of range, a source group that does not end at SRC_GW, a
destination group that does not start at DST_GW, other than one binding at each end that names it, LANDING or WD out of range. -/
def spreadRecBad (c i x : Nat) : Bool :=
  let ends := (groupRec c (spSrcRank x) (spSrc x).1 (spSrc x).2).isNone || groupGateway c (spSrcRank x) (spSrc x).1 (spSrc x).2 != some (spSrcGw x)
  let starts := match groupRec c (spDstRank x) (spDst x).1 (spDst x).2 with
    | none => true
    | some (_, g) => natBits g 14 2 != 1 || natBits g 0 14 != (spDstGw x).2
  natBits x 0 16 != i || spSrcRank x == spDstRank x || decide (cb c 10 2 ≤ spSrcRank x) || decide (cb c 10 2 ≤ spDstRank x) || ends || starts ||
    (xmodBindings c (spSrcRank x) i true).length != 1 || (xmodBindings c (spDstRank x) i false).length != 1 ||
    decide (spLanding x < 32) || decide (4096 < spLanding x) || natBits x 112 16 == 0

/-- BAD_SPREAD (R179): a record at fault, or a rig of several ranks that does not say SPREAD. -/
def spreadBad (c : Nat) : Option Spot :=
  if natBit (cb c 9 1) 0 = false ∧ cb c 10 2 ≠ 1 then some (0, 0)
  else ((rigRecs c 5).find? fun x => spreadRecBad c x.2.1 x.2.2).map fun x => (x.1.idx, x.2.1)

/-! ### The whole container -/

/-- The bytes of a container with DIGEST taken as zero. -/
def digestBytes (c n : Nat) : List Nat := (List.range n).map fun i => if 80 ≤ i ∧ i < 128 then 0 else cb c i 1

/-- The validator (Table 6.13, codes 0x01 to 0x12): the first code that applies, with its section and record. -/
def rigInvalid (c : Nat) (stepping : Nat) (readable : Bool) : Option (Nat × Spot) :=
  let at0 := fun (b : Bool) => if b then some ((0, 0) : Spot) else none
  let checks : List (Nat × (Unit → Option Spot)) :=
    [(0x01, fun _ => at0 (cb c 0 4 != 0x47524D41)), (0x02, fun _ => at0 (cb c 4 2 != 1)),
     (0x03, fun _ => at0 (cb c 6 2 != 8 || decide (stepping < cb c 8 1))),
     (0x04, fun _ => at0 (decide (2 ^ 34 < cb c 16 8) || !readable || cb c 10 2 == 0 || decide (256 < cb c 10 2))),
     (0x05, fun _ => at0 (cb c 80 48 != (Config.sha384 (digestBytes c (cb c 16 8))).toNat)),
     (0x06, fun _ => (badSection c).orElse fun _ => firstBad (rigRecs c 4) (streamBad c)),
     (0x07, fun _ => ((rigSects c).find? fun t => t.crc != crc32c ((List.range t.len).map fun i => cb c (t.off + i) 1)).map fun t => (t.idx, 0)),
     (0x08, fun _ => ((rigSects c).find? fun t => (t.typ == 0 || decide (6 < t.typ)) && natBit t.sflags 0).map fun t => (t.idx, 0)),
     (0x09, fun _ => reservedBad c),
     (0x0A, fun _ => (at0 (decide (1000000 < cb c 40 4))).orElse fun _ => firstBad (rigRecs c 1) (planeBad c)),
     (0x0B, fun _ => firstBad (rigRecs c 1) fun _ r => entriesBad r), (0x0C, fun _ => firstBad (rigRecs c 1) fun _ r => countersBad r),
     (0x0D, fun _ => ((rigRecs c 2).find? fun x => routeBad c x.1 x.2.1 x.2.2).map fun x => (x.1.idx, x.2.1)), (0x0E, fun _ => slotClash c),
     (0x0F, fun _ => firstBad (rigRecs c 1) (bindingBad c)), (0x10, fun _ => firstBad (rigRecs c 1) (waveBad c)),
     (0x11, fun _ => foldBad c), (0x12, fun _ => spreadBad c)]
  checks.foldl (fun a k => match a with
    | some x => some x
    | none => (k.2 ()).map fun p => (k.1, p)) none

end Sys2Proof.Machine
end

