-- ==== Sys2Proof/Machine/RigPlace.lean ====
section
/-! DEFINITION. Placing a rig (R157, R162-R166, R175, R180, R181): planes, windows, slots and landing buffers are found first, and the state
changes only when all of them are. -/

namespace Sys2Proof.Machine

/-- A number with the field of `len` bits from `lo` up set to `v`. -/
def natPut (n lo len v : Nat) : Nat := n % 2 ^ lo + v % 2 ^ len * 2 ^ lo + n / 2 ^ (lo + len) * 2 ^ (lo + len)

/-- The context's current rig. -/
def State.ctxRig (s : State) (c : Nat) : Option RigSt := (s.ctx c).currentRig.map s.rig

/-! ### Planes (R163) -/

/-- Physical planes of a unit that no resident or loading rig holds. -/
def State.planeFree (s : State) (u p : Nat) : Bool :=
  !(s.plane u p).valid && !(s.rigs.any fun r => r.2.planes.any fun k => k.uid == u && k.pplane == p)

/-- A physical plane for each logical plane: that of the current rig's same logical plane on the unit, else the lowest free one. -/
def State.placePlanes (s : State) (cur : Option RigSt) : List Nat → List Placed → Option (List Placed)
  | [], acc => some acc
  | r :: rest, acc =>
    let u := recUid r
    let taken := fun (p : Nat) => acc.any fun k => k.uid == u && k.pplane == p
    let old := cur.bind fun g => (g.planes.find? fun k => k.uid == u && k.lplane == recLplane r).map (·.pplane)
    let fresh := (List.range 8).find? fun p => s.planeFree u p && !taken p
    match (old.filter fun p => !taken p).orElse fun _ => fresh with
    | none => none
    | some p => s.placePlanes cur rest (acc ++ [{ uid := u, lplane := recLplane r, pplane := p, cfg := r, tsBase := 0 }])

/-! ### Windows (R157, R163) -/

/-- Operand-store windows of other contexts resident on a unit. -/
def State.otherOps (s : State) (c u : Nat) : List (Nat × Nat) :=
  (s.rigs.filter fun r => r.2.ctx != c).flatMap fun r => (r.2.windows.filter fun w => w.uid == u).map fun w => (w.opsBase, w.opsLines)

/-- The least offset at which a unit's operand-store window meets no other context's. -/
def State.opsOffset (s : State) (c u base lines : Nat) : Option Nat :=
  (List.range 4096).find? fun o => !((s.otherOps c u).any fun w => linesMeet ((base + o) % 4096, lines) w)

/-- The first of `n` contiguous free granules of a unit's slice. -/
def State.tsRun (s : State) (u n : Nat) : Option Nat :=
  (List.range 65).find? fun g => decide (g + n ≤ 64) && (List.range n).all fun i => s.frameFree (sliceBase u / 65536 + g + i)

/-- Map a unit's Topsoil window for a context, its pages FIXED: the unit addresses its slice itself (DEDUCED, log 25). -/
def State.mapTs (s : State) (c u vbase g : Nat) : Nat → Option State
  | 0 => some s
  | n + 1 =>
    match s.mapTs c u vbase g n with
    | none => none
    | some s =>
      let off := sliceBase u + 65536 * (g + n)
      let va := vbase + 65536 * n
      if (s.findLeaf c va).isSome then none
      else
        let s := s.tagPage (off / 65536) false { ctx := c, gen := 0, kind := 1, topSeat := seatOf u, topModule := s.self }
        let s := s.zeroRange off 65536
        let s := s.setUsage c 0 (s.usage c 0 + 1)
        s.installLeaf c va { valid := true, leaf := true, read := true, write := true, addr := s.dwezin off, tier := 0, place := 2, ctx := c } false

/-- Place the windows of every unit of a rig: the code refused with, or the windows and the state with Topsoil mapped. A window the
current rig has at the same virtual address and size is kept. -/
def State.placeWindows (s : State) (c : Nat) (cur : Option RigSt) : List Nat → List Window → Except Nat (List Window × State)
  | [], acc => .ok (acc, s)
  | r :: rest, acc =>
    let u := recUid r
    if acc.any fun w => w.uid == u then s.placeWindows c cur rest acc
    else match s.opsOffset c u (recOpsBase r) (recOpsLines r) with
      | none => .error 0x25
      | some o =>
        let w : Window := { uid := u, opsBase := (recOpsBase r + o) % 4096, opsLines := recOpsLines r, tsVbase := recTsVbase r, tsBase := 0,
                            granules := recTsGranules r }
        match cur.bind fun g => g.windows.find? fun k => k.uid == u && k.tsVbase == recTsVbase r && k.granules == recTsGranules r && k.granules != 0 with
        | some k => s.placeWindows c cur rest (acc ++ [{ w with tsBase := k.tsBase, shared := true }])
        | none =>
          if s.quota c 0 < s.usage c 0 + recTsGranules r then .error 0x26
          else match s.tsRun u (recTsGranules r) with
            | none => .error 0x26
            | some g => match s.mapTs c u (recTsVbase r) g (recTsGranules r) with
              | none => .error 0x26
              | some s => s.placeWindows c cur rest (acc ++ [{ w with tsBase := 65536 * g }])

/-- A plane record rewritten for its window and physical planes (R163): line fields, TS_BASE and SPILL_BASE, MEMBER. -/
def relocate (r : Nat) (o tsBase : Nat) (member : Nat → Nat) : Nat :=
  let r := natPut r 176 12 (recOpsBase r + o)
  let r := natPut r 128 22 (recSpillBase r + tsBase)
  let r := (List.range 8).foldl (fun r n =>
    if bindBound (recIn r n) && !bindXmod (recIn r n) then natPut r (0x200 + 128 * n + 24) 3 (member n) else r) r
  let r := (List.range 4).foldl (fun r k =>
    if recEpi r k = 0 then r
    else natPut (natPut r (0x1200 + 128 * k) 12 (epBiasLine (recEpi r k) + o)) (0x1200 + 128 * k + 13) 12 (epScaleLine (recEpi r k) + o)) r
  (List.range (recEntries r)).foldl (fun r k =>
    let b := 0x2000 + 256 * k
    let e := recEntry r k
    let r := natPut r (b + 72) 12 (enSrcA e + o)
    let r := natPut r (b + 84) 12 (enSrcB e + o)
    let r := natPut r (b + 96) 12 (enDst e + o)
    if enClass e = 10 then r else natPut r (b + 128) 22 (enTsBase e + tsBase)) r

/-! ### Circuits, groups, slots (R137, R158, R175) -/

/-- The end of a group that is no bound input: a service unit, a gateway, or another attachment of an edge port. -/
def groupSink (gt : Sect) (g : Nat) : Nat :=
  match groupRoute gt g with
  | some (_, some u, _) => u
  | some (_, none, p) => match p.gateway 1 with
    | some k => gatewayCode p.seat k
    | none => edgeCode p.seat p.x
  | none => edgeCode 0 0

/-- A circuit of an output binding of a plane: to the input that matches it, to a gateway when its far end is on another rank, else to what its group's
route ends at. `phys` gives the physical plane of a unit's logical plane. -/
def outCircuit (c rank : Nat) (mods : List Nat) (phys : Nat → Nat → Nat) (r n : Nat) : Option Circuit :=
  let b := recOut r n
  let base : Circuit :=
    { srcUid := recUid r, srcPlane := phys (recUid r) (recLplane r), srcPort := n, dstUid := 0, dstPlane := 8, dstPort := 0, buf := 32, wd := bindWd b,
      live := bindLive b, carry := bindCarry b, xmod := bindXmod b, seat := (outGroupOf c b).1, group := (outGroupOf c b).2 }
  if !bindBound b then none
  else if bindXmod b then (spreadRec c (bindGroup b)).map fun x =>
    { base with dstUid := gatewayCode (spSrcGw x).1 (spSrcGw x).2, spread := bindGroup b, peer := mods.getD (spDstRank x) 0, landing := spLanding x }
  else (groupRec c rank (bindSeat b) (bindGroup b)).map fun (gt, g) =>
    match matching c rank gt g (bindGroup b) (recLplane r) with
    | i :: _ => { base with dstUid := i.1, dstPlane := phys i.1 i.2.1, dstPort := i.2.2.1, buf := bindBuf i.2.2.2 }
    | [] => { base with dstUid := groupSink gt g }

/-- A circuit of an input binding whose source is no plane of this rank: a service unit or a gateway, MEMBER standing for the source's plane. -/
def inCircuit (c rank : Nat) (mods : List Nat) (phys : Nat → Nat → Nat) (r n : Nat) : Option Circuit :=
  let b := recIn r n
  let base : Circuit :=
    { srcUid := 0, srcPlane := bindMember b, srcPort := 0, dstUid := recUid r, dstPlane := phys (recUid r) (recLplane r), dstPort := n, buf := bindBuf b,
      wd := 0, live := bindLive b, carry := bindCarry b, xmod := bindXmod b, seat := bindSeat b, group := bindGroup b }
  if !bindBound b then none
  else if bindXmod b then (spreadRec c (bindGroup b)).map fun x =>
    { base with srcUid := gatewayCode (spDstGw x).1 (spDstGw x).2, seat := (spDst x).1, group := (spDst x).2, spread := bindGroup b,
                peer := mods.getD (spSrcRank x) 0, landing := spLanding x }
  else match groupRec c rank (bindSeat b) (bindGroup b) with
    | none => none
    | some (gt, g) =>
      if natBits g 14 2 = 1 then some { base with srcUid := gatewayCode gt.seat (natBits g 0 14) }
      else if natBit g 10 then some { base with srcUid := natBits g 0 14 }
      else none

/-- The circuits of a rank as placed; `mods` are the modules of the ranks. -/
def rigCircuits (c rank : Nat) (mods : List Nat) (ps : List Placed) : List Circuit :=
  let phys := fun (u l : Nat) => ((ps.find? fun k => k.uid == u && k.lplane == l).map (·.pplane)).getD 0
  ((rigRecs c 1).filter fun r => r.1.rank == rank).flatMap fun r =>
    (List.range 8).filterMap (outCircuit c rank mods phys r.2.2) ++ (List.range 8).filterMap (inCircuit c rank mods phys r.2.2)

/-- The slot groups of a rank as placed at a rotation. -/
def rigGroups (c rank ctx rot : Nat) : List SlotGroup :=
  ((rigRecs c 2).filter fun r => r.1.rank == rank).map fun r =>
    let start := (groupStart r.1 r.2.2).getD (⟨0, 0, 0⟩, 0)
    { seat := r.1.seat, idx := r.2.1, gateway := natBits r.2.2 14 2 == 1, src := natBits r.2.2 0 14, swKey := start.1.key, inPort := start.2,
      firstSlots := (groupSlots r.2.2).map fun j => (j + rot) % 32,
      dst := match groupRoute r.1 r.2.2 with
        | some (_, d, _) => d
        | none => none,
      entries := groupEntries r.1 r.2.2 ctx rot }

/-- Slots a placed group holds: of its source's link, and of its entries. -/
def SlotGroup.claims (g : SlotGroup) : List Nat := g.firstSlots.map (sourceKey g.swKey g.inPort) ++ g.entries.map (·.1)

/-- Groups that carry a CARRY circuit. -/
def carriedGroup (cs : List Circuit) (g : SlotGroup) : Bool := cs.any fun c => c.carry && c.seat == g.seat && c.group == g.idx

/-- Two circuits with the same source, destination, ports and buffers, on this module and at the far end of one between modules. -/
def sameEnds (o c : Circuit) : Bool :=
  o.srcUid == c.srcUid && o.srcPlane == c.srcPlane && o.srcPort == c.srcPort && o.dstUid == c.dstUid && o.dstPlane == c.dstPlane &&
    o.dstPort == c.dstPort && o.buf == c.buf && o.xmod == c.xmod && o.peer == c.peer && o.landing == c.landing

/-- The identical LIVE circuit of the current rig (R175): its route and slots are the same as well. -/
def carryMatch (cur : RigSt) (gs : List SlotGroup) (c : Circuit) : Option Circuit :=
  cur.circuits.find? fun o => o.live && sameEnds o c && gs.any fun g => g.seat == c.seat && g.idx == c.group &&
    cur.groups.any fun k => k.seat == o.seat && k.idx == o.group && k.entries == g.entries && k.firstSlots == g.firstSlots

/-- Every slot is free, but for those of carried groups and those given: no rig holds it, no gateway chain or group still to be cleared, its link is
attached and not down. -/
def State.slotsFit (s : State) (gs : List SlotGroup) (carried : SlotGroup → Bool) (also : List Nat) : Bool :=
  let held := (s.rigs.flatMap fun r => r.2.groups.flatMap SlotGroup.claims).filter fun k => !also.contains k
  gs.all fun g => carried g || ((!g.claims.any held.contains) && g.entries.all fun e =>
    let w := s.regAt e.1
    (!slotValid w || also.contains e.1) && !slotDown w && s.slotAllowed ((e.1 % instStride - seatBase) / seatStride)
      (e.1 / instStride % 1024) (e.1 / instStride / 1024 % 8) (natBits e.2 1 3))

/-- Buffers bound to each input port of a unit, over all planes of all rigs but those given, with the plane records to come, stay within 32 (R133). A
circuit that is carried counts once. -/
def State.buffersFit (s : State) (recs : List Nat) (except_ : RigSt → Bool) (carries : Bool) : Bool :=
  let here := (s.rigs.filter fun r => !r.2.closing && !except_ r.2).flatMap fun r => r.2.planes
  recs.all fun r => (List.range 8).all fun n =>
    decide ((here.filter fun k => k.uid == recUid r).foldl (fun a k => a + bindBuf (recIn k.cfg n)) 0 +
      (recs.filter fun m => recUid m == recUid r && (carries || !bindCarry (recIn m n))).foldl (fun a m => a + bindBuf (recIn m n)) 0 ≤ 32)

/-- The rotation and the form of a wave: OVERLAP when everything fits beside the current rig, else DRAIN (R137, R175). -/
def State.fitSlots (s : State) (c rank ctx : Nat) (recs : List Nat) (cs : List Circuit) (cur : Option RigSt) : Option (Nat × Bool) :=
  let gs0 := rigGroups c rank ctx 0
  let rots := match cur with
    | some g => if gs0.any (carriedGroup cs) then [g.rotation] else List.range 32
    | none => List.range 32
  let fits := fun (also : List Nat) (o : Nat) => let gs := rigGroups c rank ctx o; s.slotsFit gs (carriedGroup cs) also
  match (if s.buffersFit recs (fun _ => false) false then rots.find? (fits []) else none) with
  | some o => some (o, false)
  | none =>
    match cur with
    | none => none
    | some g =>
      let also := g.groups.flatMap SlotGroup.claims
      if s.buffersFit recs (fun r => r.ctx == ctx) true then (rots.find? (fits also)).map fun o => (o, true) else none

/-- Beats of a gateway's landing store that circuits hold (R180), those that are carried counted by the rig they come from. -/
def landingOf (cs : List Circuit) (carries : Bool) (gw : Nat) : Nat :=
  (cs.filter fun c => c.xmod && c.srcUid == gw && (carries || !c.carry)).foldl (fun a c => a + c.landing) 0

/-- The landing store of every gateway, 16,384 beats, holds the buffers of the rigs there are and of one to come. -/
def State.landingFits (s : State) (cs : List Circuit) : Bool :=
  (cs.filter fun c => c.xmod && decide (0x4000 ≤ c.srcUid)).all fun c =>
    decide ((s.rigs.foldl (fun a r => a + landingOf r.2.circuits (r.2.state == 3 || r.2.state == 5) c.srcUid) 0) + landingOf cs false c.srcUid ≤ 16384)

/-! ### Writing slots, binding ports (R135) -/

/-- Write a rig's slot-table entries, last link first; carried groups stand. -/
def State.writeGroups (s : State) (key : Nat) : State :=
  let r := s.rig key
  let s := r.groups.foldl (fun s g => if g.carried || g.written then s else g.entries.reverse.foldl (fun s e => s.regPut e.1 (BitVec.ofNat 64 e.2)) s) s
  s.setRig key { r with groups := r.groups.map fun (g : SlotGroup) => { g with written := true, quietSince := (s.switch g.swKey).stroke } }

/-- Bind a circuit's source port: it holds C credits (R133); a circuit kept through a wave keeps what it holds. -/
def State.bindPort (s : State) (c : Circuit) : State :=
  if c.carry then s
  else s.setOutPort c.srcUid c.srcPlane c.srcPort { s.outPort c.srcUid c.srcPlane c.srcPort with credits := c.buf, stall := 0, stallReported := false }

/-- The feed rings of a rig's FEED descriptors on a unit, at slot 0 (R231). -/
def State.feedRingsOf (s : State) (r : RigSt) (u : Nat) : List FeedRing :=
  (r.streams.filter fun d => d.2.2.kind == 1 && d.2.2.unit == u).filterMap fun d =>
    (r.windows.find? fun w => w.uid == u).map fun w =>
      { uid := u, ctx := r.ctx, vbase := d.2.2.dst, base := sliceBase u + w.tsBase + (d.2.2.dst - w.tsVbase), elemLines := d.2.2.elemLines,
        needReads := d.2.2.reads, slots := List.replicate d.2.2.ringSlots {}, wr := 0, rd := 0, releases := [], rateHint := d.2.2.rateHint,
        stalled := none }

/-- Put a rig's feed rings on a unit, at slot 0 in place of those at the bases `old` of the context's rigs; one that is there already stays. -/
def State.installRings (s : State) (r : RigSt) (u : Nat) (old : List Nat) : State :=
  let kept := s.streams.rings.filter fun g => !(g.uid == u && g.ctx == r.ctx && old.contains g.vbase)
  { s with streams := { s.streams with rings := kept ++ (s.feedRingsOf r u).filter fun g => !(kept.any fun k => k.is g.uid g.ctx g.vbase) } }

/-! ### The whole placement -/

/-- The modules of the ranks (R181): RANK_MAP where it is given, else the members of the context's slice in order. -/
def State.rankModules (s : State) (c ctx map : Nat) : List Nat :=
  let n := cb c 10 2
  if n = 1 then [s.self]
  else if map = 0 then (s.sliceOf (s.ctx ctx).slice).take n
  else match s.readVa ctx map (2 * n) with
    | some (bs, _) => (List.range n).map fun i => leNat ((bs.drop (2 * i)).take 2) % 65536
    | none => []

/-- A unit that refuses a load (R163). -/
def State.unitUnusable (s : State) (u : Nat) : Bool := s.flag .UNIT_CTRL_OFFLINE (unitOff u) || (s.unit u).retired

/-- The circuits a rig would have with every plane where the current rig has it, plane 8 where it has none: what CARRY is judged by. -/
def provisional (cur : Option RigSt) (c rank : Nat) (mods recs : List Nat) : List Circuit :=
  rigCircuits c rank mods (recs.map fun r =>
    { uid := recUid r, lplane := recLplane r, cfg := r, tsBase := 0,
      pplane := ((cur.bind fun g => g.planes.find? fun k => k.uid == recUid r && k.lplane == recLplane r).map (·.pplane)).getD 8 })

/-- A CARRY circuit has no identical LIVE circuit in the current rig, or there is no current rig (CARRY_MISMATCH). -/
def carryBad (cur : Option RigSt) (c rank ctx : Nat) (cs : List Circuit) : Bool :=
  match cur with
  | none => cs.any fun k => k.carry
  | some g => cs.any fun k => k.carry && (carryMatch g (rigGroups c rank ctx g.rotation) k).isNone

/-- The gateway ends of a rig's circuits between modules (R180): one carried keeps the end it has; a new source end holds L remote credits. -/
def State.openSegs (s : State) (key : Nat) (cur : Option Nat) : State :=
  let r := s.rig key
  (r.circuits.filter fun c => c.xmod).foldl (fun s c =>
    let out_ := decide (c.srcUid < 0x4000)
    match (if c.carry then cur.bind fun k => (carryMatch (s.rig k) r.groups c).map fun o => (k, o.spread) else none) with
    | some n => s.modSegs (fun g => g.out_ == out_ && g.names.contains n) fun g => { g with names := g.names ++ [(key, c.spread)] }
    | none =>
      let x : Segment := { ctx := r.ctx, names := [(key, c.spread)], out_ := out_, peer := c.peer, credits := if out_ then c.landing else 0 }
      { s with fab := { s.fab with segs := s.fab.segs ++ [x] } }) s

/-- What placing a rank gives: its planes, windows, circuits, rotation and form of its wave. -/
structure Placement where
  planes : List Placed
  windows : List Window
  circuits : List Circuit
  rotation : Nat
  drain : Bool

/-- Find every resource of a rank in the order of Table 6.13: the refusing code, or the placement and the state with Topsoil mapped (R163). -/
def State.findPlaces (s : State) (ctx c rank : Nat) (mods : List Nat) : Except Nat (Placement × State) :=
  let x := s.ctx ctx
  let cur := s.ctxRig ctx
  let recs := ((rigRecs c 1).filter fun r => r.1.rank == rank).map fun r => r.2.2
  let seats := (recs.map fun r => seatOf (recUid r)).eraseDups
  if x.incomingRig.isSome || s.waves.any (fun w => w.ctx == ctx) || s.rigs.any (fun r => r.2.ctx == ctx && r.2.state == 1) then .error 0x21
  else if carryBad cur c rank ctx (provisional cur c rank mods recs) then .error 0x22
  else if recs.any fun r => s.unitUnusable (recUid r) then .error 0x23
  else if seats.any fun k => !(List.range 64).any fun i => !(s.rigs.any fun r => r.2.tab.contains (k, i)) then .error 0x24
  else match s.placePlanes cur recs [] with
    | none => .error 0x24
    | some ps =>
      let cs := rigCircuits c rank mods ps
      if recs.any fun r => (s.opsOffset ctx (recUid r) (recOpsBase r) (recOpsLines r)).isNone then .error 0x25
      else match s.placeWindows ctx cur recs [] with
        | .error e => .error e
        | .ok (ws, s) => match s.fitSlots c rank ctx recs cs cur with
          | none => .error 0x27
          | some (rot, drain) =>
            if !s.landingFits cs then .error 0x28
            else if mods.length != cb c 10 2 || !mods.contains s.self || mods.eraseDups.length != mods.length ||
                (1 < cb c 10 2 && mods.any fun m => !(s.sliceOf x.slice).contains m) then .error 0x29
            else .ok ({ planes := ps, windows := ws, circuits := cs, rotation := rot, drain := drain }, s)

/-- Planes with their records relocated to the windows, MEMBER rewritten to physical planes (R163). -/
def Placement.relocated (w : Placement) : List Placed :=
  w.planes.map fun (k : Placed) =>
    let v := (w.windows.find? fun v => v.uid == k.uid).getD { uid := 0, opsBase := 0, opsLines := 0, tsVbase := 0, tsBase := 0, granules := 0 }
    let member := fun (n : Nat) =>
      ((w.circuits.find? fun c => c.dstUid == k.uid && c.dstPlane == k.pplane && c.dstPort == n).map (·.srcPlane)).getD (bindMember (recIn k.cfg n))
    { k with cfg := relocate k.cfg ((v.opsBase + 4096 - recOpsBase k.cfg) % 4096) v.tsBase member, tsBase := v.tsBase }

/-- The fold records of a rank by physical plane (Table 6.8). -/
def rigFolds (c rank : Nat) (ps : List Placed) : List (Nat × Nat × List (Nat × Nat)) :=
  ((rigRecs c 3).filter fun r => r.1.rank == rank).map fun r =>
    let u := natBits r.2.2 0 16
    (u, natBits r.2.2 32 16, (List.range (natBits r.2.2 16 8)).map fun i =>
      let e := natBits r.2.2 (64 + 32 * i) 32
      (((ps.find? fun k => k.uid == u && k.lplane == e % 8).map (·.pplane)).getD 0, natBits e 16 16))

/-- Place this module's rank of a valid container: the refusing code, or the state with the rig LOADING (R162-R165). -/
def State.placeHere (s : State) (ctx c map : Nat) (cmd : Nat × Nat) : Except Nat (Nat × State) :=
  let x := s.ctx ctx
  let mods := s.rankModules c ctx map
  let rank := (mods.findIdx? fun m => m == s.self).getD 0
  match s.findPlaces ctx c rank mods with
  | .error e => .error e
  | .ok (w, s) =>
    let ps := w.relocated
    let seats := (ps.map fun k => seatOf k.uid).eraseDups
    let free := fun (seat : Nat) => ((List.range 64).find? fun i => !(s.rigs.any fun r => r.2.tab.contains (seat, i))).getD 0
    let key := ((s.rigs.getLast?).map fun r => r.1 + 1).getD 0
    let epoch := if x.hadRig then x.nextEpoch else 0
    let old := ((s.ctxRig ctx).map (·.epoch)).getD 0
    let g : RigSt :=
      { rigId := cb c 24 8, ctx := ctx, epoch := epoch, state := 1, rank := rank, ranks := cb c 10 2, rankMap := mods, planes := ps,
        groups := (rigGroups c rank ctx w.rotation).map fun (g : SlotGroup) => { g with carried := carriedGroup w.circuits g },
        circuits := w.circuits.map fun (k : Circuit) => { k with epoch := if k.carry then old else epoch },
        streams := ((rigRecs c 4).filter fun r => r.1.rank == rank).map fun r => (r.1.seat, r.2.1, streamOf r.2.2), windows := w.windows,
        folds := rigFolds c rank ps, tab := seats.map fun k => (k, free k), drain := w.drain, rotation := w.rotation,
        waveUs := if cb c 40 4 = 0 then 10000 else cb c 40 4, cmd := some cmd }
    let s := (s.setRig key g).openSegs key x.currentRig
    let s := s.setCtx ctx { s.ctx ctx with hadRig := true, nextEpoch := (g.epoch + 1) % 16 }
    .ok (key, if w.drain then s else s.writeGroups key)

/-- Place a valid container for a context on this rank and the others (R162, R181): `others` is the first code of Table 6.13 that applies on another
rank, 0 for none; one that is no code of a placement is SPREAD_UNREACHABLE. The first in table order refuses the load. -/
def State.placeRig (s : State) (ctx c map others : Nat) (cmd : Nat × Nat) : Except Nat (Nat × State) :=
  let k := if decide (0x21 ≤ others) && decide (others ≤ 0x29) then others else 0x29
  match s.placeHere ctx c map cmd with
  | .error e => .error (if cb c 10 2 ≤ 1 ∨ others = 0 then e else min e k)
  | .ok r => if cb c 10 2 ≤ 1 ∨ others = 0 then .ok r else .error k

end Sys2Proof.Machine
end

