-- ==== Sys2Proof/Machine/Rigs.lean ====
section
/-! DEFINITION. Loading, sharing and replacing rigs (R161-R178, R182-R184): the commands of the rig opcodes, the fold schedules, the wave. -/

namespace Sys2Proof.Machine

/-! ### Loading (R162-R167, R182) -/

/-- Seats a rig has planes on. -/
def RigSt.seats (r : RigSt) : List Nat := r.tab.map (·.1)

/-- Change a rig. -/
def State.modRig (s : State) (key : Nat) (f : RigSt → RigSt) : State := s.setRig key (f (s.rig key))

/-- Refuse a load (R182): completion with section and record, the notice, RIG_REJECT and its count on the section's seat (log 20). -/
def State.rejectRig (s : State) (c : Cmd) (code : Nat) (sp : Spot) (seat : Nat) : State :=
  let d := seatOff seat
  let s := s.notice 0x03 nRefused (packBits [(8, code), (16, sp.1), (32, sp.2)])
  let s := s.regPut (Reg.RIG_REJECT + d) (BitVec.ofNat 64 (packBits [(8, code), (16, sp.1), (32, sp.2), (8, c.ctx)]))
  let s := s.bump .RIG_REJECTS_COUNT 1 d
  s.complete c code (packBits [(16, sp.1), (32, sp.2)]) 0

/-- The seat of a section; 0 for a section of the whole module. -/
def sectSeat (c : Nat) (i : Nat) : Nat :=
  match (rigSects c).find? fun t => t.idx == i with
  | some t => if t.seat < 8 then t.seat else 0
  | none => 0

/-- A container in the context's memory: its number, whether all of it can be read, whether a line of it is poisoned. -/
def State.readContainer (s : State) (ctx va : Nat) : Nat × Bool × Bool :=
  match s.readVa ctx va 128 with
  | none => (0, false, false)
  | some (h, p) =>
    let n := natBits (leNat h) 128 64
    if 2 ^ 34 < n ∨ n < 128 then (leNat h, true, p)
    else match s.readVa ctx va n with
      | none => (leNat h, false, p)
      | some (bs, q) => (leNat bs, true, p || q)

/-- The module's stepping as MIN_STEP writes it. -/
def State.stepping (s : State) : Nat := s.getF .IDENT_PART_STEP_MAJOR * 16 + s.getF .IDENT_PART_STEP_MINOR

/-- Step 1 of Table 6.9: the code and place of a refusal. -/
def State.checkContainer (s : State) (ctx va : Nat) : Nat × Option (Nat × Spot) :=
  let (c, ok, poison) := s.readContainer ctx va
  if c = 0 ∧ !ok then (c, some (4, (0, 0)))
  else match rigInvalid c s.stepping ok with
    | some (k, p) => (c, some (if poison && decide (5 < k) then (5, (0, 0)) else (k, p)))
    | none => (c, if poison then some (5, (0, 0)) else none)

/-- Drop a context's staged copy of a container, with its frames (R167). -/
def State.unstage (s : State) (c id : Nat) : State :=
  let x := s.ctx c
  let fs := (x.stagedFrames.filter fun t => t.1 == id).flatMap (·.2)
  let s := fs.foldl (fun s f => s.scrubPage c f false) s
  s.setCtx c { s.ctx c with staged := x.staged.filter (fun t => t.1 != id), stagedFrames := x.stagedFrames.filter fun t => t.1 != id }

/-- Stage a container: a copy in frames of the context's Subsoil, charged to its quota (R167). Where they are not to be had it is not staged, and the
load goes on (DESIGN CHOICE, log 34). -/
def State.stage (s : State) (c id k : Nat) : State :=
  let s := s.unstage c id
  let got := (List.range ((cb k 16 8 + 65535) / 65536)).foldl (fun (a : Option (List Nat × State)) i =>
    a.bind fun (fs, s) => match s.allocPage c 1 false 0 with
      | .ok (f, s) => some (fs ++ [f], s.putBytes f ((List.range (min 65536 (cb k 16 8 - 65536 * i))).map fun j => BitVec.ofNat 8 (cb k (65536 * i + j) 1)))
      | .error _ => none) (some ([], s))
  match got with
  | none => s
  | some (fs, s) =>
    let x := s.ctx c
    s.setCtx c { x with staged := x.staged ++ [(id, k)], stagedFrames := x.stagedFrames ++ [(id, fs)] }

/-- RIG_LOAD (R162-R164, R167): checked, staged when asked, placed; `others` is 0 when every other rank's module placed its part,
else the first code that one of them answers, `copyOk` whether a staged copy passes its digest on reuse. -/
def State.rigLoad (s : State) (r q others : Nat) (copyOk : Bool) : State :=
  match s.launched r q 0x20 with
  | none => s
  | some c =>
    if s.rigs.any fun g => g.2.cmd == some (r, q) then s
    else
      let id := c.fld 40 0 64
      let byId := c.fld 56 1 1 == 1
      let stage := c.fld 56 0 1 == 1
      let x := s.ctx c.ctx
      let (k, bad) :=
        if byId then match x.staged.find? fun t => t.1 == id with
          | some t => (t.2, if copyOk then none else some (5, ((0, 0) : Spot)))
          | none => (0, some (5, (0, 0)))
        else s.checkContainer c.ctx (c.fld 32 0 64)
      match bad with
      | some (code, sp) =>
        let s := if byId then s.unstage c.ctx id else s
        s.rejectRig c code sp (sectSeat k sp.1)
      | none =>
        let s := if stage && !byId then s.stage c.ctx (cb k 24 8) k else s
        match s.placeRig c.ctx k (c.fld 48 0 64) others (r, q) with
        | .error code => s.rejectRig c code (0, 0) 0
        | .ok (_, s) => s

/-- A context's schedule of a unit under a rig (R160): its fold record, or its single plane of 512 beats (log 21). -/
def RigSt.schedule (r : RigSt) (u : Nat) : Nat × List (Nat × Nat) :=
  match r.folds.find? fun f => f.1 == u with
  | some f => (if f.2.1 = 0 then 64 else f.2.1, f.2.2)
  | none => (64, (r.planes.filter fun k => k.uid == u).map fun k => (k.pplane, 512))

/-- The rig whose schedule is in force for a context on a unit (R176): the outgoing rig's until its last plane there has flipped. -/
def State.scheduleRig (s : State) (u c : Nat) : Option RigSt :=
  let ps := ((List.range 8).map fun p => s.plane u p).filter fun pl => pl.valid && pl.ctx == c
  ((ps.find? fun pl => pl.wavePend).orElse fun _ => ps.head?).map fun pl => s.rig pl.rig

/-- Contexts with a valid plane on a unit, in ascending order. -/
def State.unitCtxs (s : State) (u : Nat) : List Nat :=
  (List.range 256).filter fun c => (List.range 8).any fun p => (s.plane u p).valid && (s.plane u p).ctx == c

/-- 1.0 as a share factor is held (log 21). -/
def kOne : Nat := 2 ^ 32
/-- A context's share factor on a unit. -/
def State.shareK (s : State) (u c : Nat) : Nat := (((s.ctx c).shareK.find? fun k => k.1 == u).map (·.2)).getD kOne

/-- One entry per plane, BEATS summed (R168). -/
def mergeEntries (es : List (Nat × Nat)) : List (Nat × Nat) :=
  ((es.map (·.1)).eraseDups).map fun p => (p, min 65535 ((es.filter fun e => e.1 == p).foldl (fun a e => a + e.2) 0))

/-- The schedule of a unit combined over its contexts (R168): YIELD and entries; one context alone keeps its own, and a unit with one
plane needs none. -/
def State.combined (s : State) (u : Nat) : Nat × List (Nat × Nat) :=
  let cs := s.unitCtxs u
  let parts := cs.filterMap fun c => (s.scheduleRig u c).map fun r =>
    let (y, es) := r.schedule u
    (y, es.map fun (e : Nat × Nat) => (e.1, if cs.length ≤ 1 then e.2 else clamp 1 65535 ((e.2 * s.shareK u c * 2 + kOne) / (2 * kOne))))
  let es := parts.map (·.2)
  let all := es.flatten
  let all := if 8 < all.length then (es.map mergeEntries).flatten else all
  if all.length ≤ 1 then (64, []) else (parts.foldl (fun a p => max a p.1) 0, all.take 8)

/-- Write a schedule to the shadow set. -/
def State.writeShadow (s : State) (u : Nat) (y : Nat) (es : List (Nat × Nat)) : State :=
  let d := unitOff u
  let s := (es.zipIdx).foldl (fun (s : State) (e : (Nat × Nat) × Nat) => (s.setF .UNIT_FOLD_PLANE e.1.1 (d + 8 * e.2)).setF .UNIT_FOLD_BEATS e.1.2 (d + 8 * e.2)) s
  (s.setF .UNIT_FOLD_CTRL_COUNT es.length d).setF .UNIT_FOLD_CTRL_YIELD y d

/-- The next schedule entry whose plane may issue, from `i` on around (R161): the entry and whether the wrap was passed. -/
def State.nextFold (s : State) (u : Nat) (fs : List (Nat × Nat)) : Nat → Nat → Bool → Nat × Bool
  | 0, i, w => (i, w)
  | n + 1, i, w =>
    let w' := w || decide (fs.length ≤ i + 1)
    let j := if fs.length ≤ i + 1 then 0 else i + 1
    let pl := s.plane u (fs.getD j (0, 0)).1
    if pl.valid && pl.eligible then (j, w') else s.nextFold u fs n j w'

/-- The shadow schedule. -/
def State.shadowFolds (s : State) (u : Nat) : List (Nat × Nat) :=
  let d := unitOff u
  (List.range (min 8 (s.getF .UNIT_FOLD_CTRL_COUNT d))).map fun i => (s.getF .UNIT_FOLD_PLANE (d + 8 * i), atLeast1 (s.getF .UNIT_FOLD_BEATS (d + 8 * i)))

/-- Install a schedule: its first entry whose plane may issue is current. -/
def State.setFolds (s : State) (u : Nat) (fs : List (Nat × Nat)) : State :=
  let s := s.setUnit u { s.unit u with folds := fs, moved := 0, yielded := false }
  let i := (fs.findIdx? fun f => (s.plane u f.1).valid && (s.plane u f.1).eligible).getD 0
  (s.setF .UNIT_FOLD_CTRL_CUR i (unitOff u)).setF .UNIT_FOLD_CTRL_PEND 0 (unitOff u)

/-- The combined schedule written and put in force at once: a fresh rig, or a unit's last flip (R176). -/
def State.installFolds (s : State) (u : Nat) : State :=
  let (y, es) := s.combined u
  (s.writeShadow u y es).setFolds u es

/-- The current entry has had its share: BEATS moved, or the plane has yielded with nothing to fire (R161). -/
def State.foldDone (s : State) (u : Nat) (yield_ : Bool) : Bool :=
  let x := s.unit u
  let f := x.folds.getD (s.foldPos u) (0, 1)
  if yield_ then !s.couldFire u f.1 else decide (atLeast1 f.2 ≤ x.moved)

/-- FOLD_ADVANCE (R161), short of a wrap that installs a schedule. -/
def State.foldAdvance (s : State) (u : Nat) (yield_ : Bool) : State :=
  let x := s.unit u
  let (j, w) := s.nextFold u x.folds x.folds.length (s.foldPos u) false
  if x.folds = [] || !s.foldDone u yield_ || (w && s.flag .UNIT_FOLD_CTRL_PEND (unitOff u)) then s
  else (s.setUnit u { s.unit u with moved := 0, yielded := yield_ }).setF .UNIT_FOLD_CTRL_CUR j (unitOff u)

/-- FOLD_INSTALL (R184): at the wrap, or at once on a unit that has no schedule. -/
def State.foldInstall (s : State) (u : Nat) (yield_ : Bool) : State :=
  let x := s.unit u
  let (_, w) := s.nextFold u x.folds x.folds.length (s.foldPos u) false
  if !s.flag .UNIT_FOLD_CTRL_PEND (unitOff u) || !(x.folds == [] || (w && s.foldDone u yield_)) then s
  else s.setFolds u (s.shadowFolds u)

/-- FOLD_COMMIT (R184): COMMIT written 1. -/
def State.foldCommit (s : State) (m : Master) (u : Nat) : State :=
  if !isCompute u then s else s.fieldWrite m (Reg.UNIT_FOLD_CTRL + unitOff u) fun s => s.setF .UNIT_FOLD_CTRL_PEND 1 (unitOff u)

/-- The share factor's step (R168), `w` over `sw` the target, `ns` over `sum` the use. -/
def stepK (k w sw ns sum : Nat) : Nat :=
  let sum := max sum 1
  let k' := if 64 * ns < sum then k * w * 64 / max sw 1 else k * w * sum / (max sw 1 * ns)
  clamp (kOne / 16) (kOne * 16) k'

/-- A unit's share factors after a period. -/
def State.stepShares (s : State) (u : Nat) : State :=
  let cs := s.unitCtxs u
  let sw := cs.foldl (fun a c => a + (s.ctx c).weight) 0
  let ns := fun (c : Nat) => SMap.get 0 (s.unit u).periodNs c
  let sum := cs.foldl (fun a c => a + ns c) 0
  cs.foldl (fun s c =>
    let x := s.ctx c
    s.setCtx c { x with shareK := SMap.put (x.shareK) u (stepK (s.shareK u c) x.weight sw (ns c) sum) }) s

/-- FOLD_REBUILD (R168): every unit of the seat that holds planes of more than one context. A period ends on every unit. -/
def State.foldRebuild (s : State) (seat : Nat) : State :=
  if s.asleep seat then s
  else
    let us := ((s.planes.filter fun p => p.2.valid && seatOf (p.1 / 8) == seat).map fun p => p.1 / 8).eraseDups
    let s := us.foldl (fun s u =>
      if (s.unitCtxs u).length ≤ 1 then s
      else
        let s := s.stepShares u
        let (y, es) := s.combined u
        (s.writeShadow u y es).setF .UNIT_FOLD_CTRL_PEND 1 (unitOff u)) s
    { s with units := s.units.map fun (p : Nat × UnitSt) => if seatOf p.1 == seat then (p.1, { p.2 with periodNs := [] }) else p }

/-! ### Planes become active (R163, R165, R166) -/

/-- Bind the circuits of a rig that leave a plane, and those that reach it from a service unit or a gateway; those carried keep their credits. -/
def State.bindPlane (s : State) (key u p : Nat) : State :=
  let r := s.rig key
  let from_ := fun (c : Circuit) => c.srcUid == u && c.srcPlane == p
  let fed := fun (c : Circuit) => !isCompute c.srcUid && c.dstUid == u && c.dstPlane == p
  let mine := fun (c : Circuit) => from_ c || fed c
  let s := (r.circuits.filter from_).foldl State.bindPort s
  let s := (r.circuits.filter fun c => fed c && c.xmod && !c.carry).foldl (fun s c =>
    s.modSegs (fun x => !x.out_ && x.names.contains (key, c.spread)) fun x => { x with credits := c.buf }) s
  s.modRig key fun r => { r with circuits := r.circuits.map fun (c : Circuit) => if mine c then { c with bound := true } else c }

/-- A unit that takes its first plane of a context is reassigned to it: cox firmware clears the numeric flags and zeroes the counters of
Table 4.11 (R118, the text after Table 3.8; log 97). The context's share factor there starts at 1.0 (R168). -/
def State.reassign (s : State) (u c : Nat) : State :=
  if (List.range 8).any fun p => (s.plane u p).valid && (s.plane u p).ctx == c then s
  else
    let d := unitOff u
    let s := s.setCtx c { s.ctx c with shareK := (s.ctx c).shareK.filter fun k => k.1 != u }
    ((s.regPut (Reg.UNIT_NUM_FLAGS + d) 0).regPut (Reg.UNIT_SFN_FTZ + d) 0).regPut (Reg.UNIT_STAT_CLAMP + d) 0

/-- A plane whose record has landed becomes active: the idle bank is swapped in, and its first run begins. -/
def State.activate (s : State) (key : Nat) (k : Placed) : State :=
  let r := s.rig key
  let s := s.reassign k.uid r.ctx
  let pl := s.plane k.uid k.pplane
  let pl' : Plane :=
    { valid := true, ctx := r.ctx, epoch := r.epoch, rig := key, eligible := true, cfg := pl.idle, idle := pl.cfg, bank := 1 - pl.bank,
      tsBase := pl.idleTsBase, idleTsBase := pl.tsBase }
  let s := s.setPlane k.uid k.pplane (pl'.startRun (s.flag .SEQ_MODE_FORCE_STATIC (unitOff k.uid)) s.now)
  if r.drain then s else s.bindPlane key k.uid k.pplane

/-- The incoming rig's plane is one no outgoing plane occupies. -/
def State.freshPlane (s : State) (w : Wave) (k : Placed) : Bool :=
  !((s.rig w.outRig).planes.any fun o => o.uid == k.uid && o.pplane == k.pplane)

/-- PLANE_RECORD_LAND (R166). -/
def State.recordLand (s : State) (u p : Nat) (ok : Bool) : State :=
  let here := fun (k : Placed) => k.uid == u && k.pplane == p
  match s.rigs.find? fun g => !g.2.closing && g.2.planes.any fun k => here k && !k.landed with
  | none => s
  | some (key, g) =>
    match g.planes.find? here with
    | none => s
    | some k =>
      let upd := fun (f : Placed → Placed) (s : State) =>
        s.modRig key fun r => { r with planes := r.planes.map fun (k : Placed) => if here k then f k else k }
      if ok then
        let s := upd (fun k => { k with landed := true }) s
        let s := s.setPlane u p { s.plane u p with idle := k.cfg, idleReady := true, idleTsBase := k.tsBase }
        match s.waves.find? fun w => w.inRig == some key with
        | some w => if s.freshPlane w k then ((s.activate key k).installFolds u).installRings g u [] else s
        | none => s
      else if k.retried then s.unitFault u 11 3 g.ctx p 0 0 0 0
      else upd (fun k => { k with retried := true }) s

/-- Runs queued for a context's next rig in place of those queued under the last (R240); a step's run that waited for it is launched (R482). -/
def State.requeueRuns (s : State) (c : Nat) : State :=
  let due := s.streams.cmds.any fun k => k.purpose == 4 && k.arg == c && !k.launched
  let s := { s with streams := { s.streams with cmds := s.streams.cmds.filter fun k => !(k.purpose == 4 && k.arg == c && !k.launched) } }
  let s := match due, s.currentRig c with
    | true, some g => s.firmwareRun g
    | _, _ => s
  let cmds := s.rings.flatMap fun g => g.2.waiting.filter fun k => k.opcode == 0x23 && k.ctx == c
  cmds.foldl (fun (s : State) k =>
    let ids := (s.streams.cmds.filter fun x => x.cmd == some (k.ring, k.seq)).map (·.id)
    let s := { s with streams := { s.streams with
      cmds := s.streams.cmds.filter fun x => !ids.contains x.id
      insts := s.streams.insts.filter fun x => !ids.contains x.cmd } }
    match s.currentRig c with
    | some g => s.queueRun g (k.fld 32 0 8) (k.fld 34 0 16) k.job (some (k.ring, k.seq)) 0 0
    | none => s) s

/-- The ring number under which cox firmware's own rig loads run (R482): no host ring has it. -/
def firmwareRing : Nat := 8192

/-- RIG_LOAD_COMPLETE (R166, step 5 of Table 6.9): of a RIG_LOAD, or of a load by cox firmware (R482). -/
def State.loadComplete (s : State) (r q : Nat) : State :=
  match s.rigs.find? (fun g => g.2.cmd == some (r, q) && g.2.state == 1 && (r == firmwareRing || (s.launched r q 0x20).isSome)) with
  | some (key, g) =>
    let done_ := fun (s : State) =>
      let s := g.seats.foldl (fun s k => s.bump .RIG_LOADS_COUNT 1 (seatOff k)) s
      match s.launched r q 0x20 with
      | some c => s.complete c 0 0 0
      | none => s
    if (s.ctx g.ctx).currentRig.isNone then
      if !g.planes.all (fun k => k.landed) then s
      else
        let s := g.planes.foldl (fun s k => s.activate key k) s
        let us := (g.planes.map (·.uid)).eraseDups
        let s := us.foldl (fun s u => (s.installFolds u).installRings g u []) s
        let s := s.modRig key fun r => { r with state := 3, cmd := none }
        let s := s.setCtx g.ctx { s.ctx g.ctx with currentRig := some key }
        done_ (s.requeueRuns g.ctx)
    else
      let s := s.modRig key fun r => { r with state := 2, cmd := none }
      done_ (s.setCtx g.ctx { s.ctx g.ctx with incomingRig := some key })
  | none => s

/-- Make a version's rig the context's next (R482): loaded from its staged copy as the replacement, unless it is current, loaded or being
loaded already. `q` numbers the load. -/
def State.firmwareRig (s : State) (c id q : Nat) : State :=
  let is := fun (k : Option Nat) => match k with
    | some k => (s.rig k).rigId == id
    | none => false
  if id = 0 || is (s.ctx c).currentRig || is (s.ctx c).incomingRig || s.rigs.any (fun g => g.2.ctx == c && g.2.state == 1) then s
  else match (s.ctx c).staged.find? (fun t => t.1 == id) with
    | none => s
    | some t => match s.placeRig c t.2 0 0 (firmwareRing, q) with
      | .error _ => s
      | .ok (_, s) => s

/-- RIG_UNSTAGE (R167); BUSY while a version's entry names the rig (R482). -/
def State.rigUnstage (s : State) (r q : Nat) : State :=
  match s.launched r q 0x22 with
  | none => s
  | some c =>
    let x := s.ctx c.ctx
    let id := c.fld 40 0 64
    if s.wpkg.versions.any (fun (v : Version) => v.ctx == c.ctx && (v.decodeRig == id || v.prefillRig == id)) && x.staged.any (fun t => t.1 == id) then
      s.complete c 0xE7 0 0
    else if x.staged.any fun t => t.1 == id then (s.unstage c.ctx id).complete c 0 0 0
    else s.complete c 0x06 0 0

/-! ### The wave (R170-R178) -/

/-- A group of the outgoing rig that the incoming rig carries (R175). -/
def keptGroup (inc : Option RigSt) (g : SlotGroup) : Bool :=
  match inc with
  | some r => r.groups.any fun k => k.carried && k.entries == g.entries
  | none => false

/-- Launch a wave (R172). -/
def State.launchWave (s : State) (c out_ : Nat) (inc : Option Nat) (cmd : Option (Nat × Nat)) : State :=
  let x := s.ctx c
  let seq := (x.waves + 1) % 65536
  let o := s.rig out_
  let s := s.setCtx c { x with waves := x.waves + 1 }
  let w : Wave :=
    { ctx := c, outRig := out_, inRig := inc, seq := seq, launched := s.now, pending := o.planes.map fun k => (k.uid, k.pplane),
      releasing := (o.groups.filter fun g => !keptGroup (inc.map s.rig) g).map fun g => (g.seat, g.idx), cmd := cmd }
  let s := o.planes.foldl (fun s k => s.setPlane k.uid k.pplane { s.plane k.uid k.pplane with wavePend := true }) s
  let s := s.modRig out_ fun r => { r with state := 5, waveSeq := seq }
  let s := match inc with
    | some k => s.modRig k fun r => { r with state := 4, waveSeq := seq }
    | none => s
  let s := { s with waves := s.waves ++ [w] }.pauseWaves
  match inc with
  | some k =>
    let ps := (s.rig k).planes.filter fun p => p.landed && s.freshPlane w p
    ps.foldl (fun s p => ((s.activate k p).installFolds p.uid).installRings (s.rig k) p.uid []) s
  | none => s

/-- RIG_SWITCH (R172, R301, Tables 15.7, 15.9, 15.10). -/
def State.rigSwitch (s : State) (r q : Nat) : State :=
  match s.launched r q 0x21 with
  | none => s
  | some c =>
    let x := s.ctx c.ctx
    let waving := s.waves.any fun w => w.ctx == c.ctx
    let loading := s.rigs.any fun g => g.2.ctx == c.ctx && g.2.state == 1
    if s.waves.any (fun w => w.cmd == some (r, q)) || s.roundOpen c.ctx then s
    else if waving then s.complete c 0x06 0 0
    else match x.currentRig with
      | none => s.complete c 0x06 0 0
      | some o =>
        if c.fld 32 0 1 = 1 then
          if x.incomingRig.isSome || loading then s.complete c 0xE7 0 0 else s.launchWave c.ctx o none (some (r, q))
        else match x.incomingRig with
          | none => s.complete c 0x06 0 0
          | some k => s.launchWave c.ctx o (some k) (some (r, q))

/-- Live ports of a binding table. -/
def livePorts (rec_ : Nat → Nat) : List Nat := (List.range 8).filter fun n => bindBound (rec_ n) && bindLive (rec_ n)

/-- The marker of a wave (Table 6.10). -/
def markerBeat (w : Wave) (old : Nat) (rigId : Nat) : Beat :=
  { data := BitVec.ofNat 512 (packBits [(8, w.ctx), (4, old), (4, (old + 1) % 16), (16, w.seq), (32, rigId)]), epoch := old, mark := true }

/-- R174's conditions, with a slot of its group and a credit for each marker. -/
def State.mayFlip (s : State) (w : Wave) (u p : Nat) : Bool :=
  let pl := s.plane u p
  let stays := match w.inRig with
    | some k => (s.rig k).planes.any fun q => q.uid == u && q.pplane == p
    | none => false
  w.pending.contains (u, p) && pl.valid && pl.wavePend && !s.unitHalted u && !pl.committed
    && (livePorts (recIn pl.cfg)).all (fun n => s.headMark u p n)
    && !((s.unit u).inflight.any fun f => f.plane == p)
    && (!stays || pl.idleReady)
    && (livePorts (recOut pl.cfg)).all fun n => decide (0 < (s.outPort u p n).credits) && (s.outPort u p n).pending == [] && s.slotTurn u p n

/-- Beats of the old epoch left in the queues of a flipped plane are stale (R176); one in the spill area ends its credit (log 107). -/
def State.dropStale (s : State) (u p : Nat) : State :=
  let ep := (s.plane u p).epoch
  (List.range 8).foldl (fun s n =>
    let q := s.inPort u p n
    let stale := fun (b : Beat) => !b.mark && (b.epoch + 1) % 16 == ep
    let k := (q.queue.filter stale).length
    if k = 0 then s
    else
      let tail := (q.queue.drop (q.queue.length - q.spillAt.length)).zip q.spillAt
      let kept := (tail.filter fun t => !stale t.1).map (·.2)
      let gone := q.spillAt.length - kept.length
      let s := s.setInPort u p n { q with queue := q.queue.filter (fun b => !stale b), spillAt := kept, spilled := q.spilled - gone }
      let s := s.bump .UNIT_STALE_DROP_COUNT k (unitOff u)
      if k = gone then s else s.emit (.credit u p n (k - gone))) s

/-- Under DRAIN, when every plane has flipped and the outgoing groups are cleared: write the groups, bind the ports (R175). -/
def State.drainBind (s : State) (c : Nat) : State :=
  match s.waves.find? fun w => w.ctx == c with
  | some w =>
    match w.inRig with
    | some k =>
      let r := s.rig k
      if r.drain && w.pending == [] && w.releasing == [] && (r.circuits.any (fun c => !c.bound) || r.groups.any fun g => !g.written && !g.carried) then
        let s := s.writeGroups k
        r.planes.foldl (fun s p => s.bindPlane k p.uid p.pplane) s
      else s
    | none => s
  | none => s

/-- Change a context's wave. -/
def State.setWave (s : State) (c : Nat) (f : Wave → Wave) : State :=
  { s with waves := s.waves.map fun (w : Wave) => if w.ctx = c then f w else w }

/-- PLANE_FLIP (R174). -/
def State.planeFlip (s : State) (u p : Nat) : State :=
  let pl := s.plane u p
  match s.waves.find? fun w => w.ctx == pl.ctx && s.mayFlip w u p with
  | none => s
  | some w =>
    let inc := w.inRig.map s.rig
    let s := if pl.inRun then s.bump .UNIT_ABANDONED_COUNT 1 (unitOff u) else s
    let mk := markerBeat w pl.epoch ((inc.map (·.rigId)).getD 0)
    let s := (livePorts (recOut pl.cfg)).foldl (fun s n =>
      let s := s.serveGroup u p n
      let q := s.outPort u p n
      (s.setOutPort u p n { q with credits := q.credits - 1 }).emit (.beat u p n { mk with member := p })) s
    let s := (livePorts (recIn pl.cfg)).foldl (fun s n =>
      let q := s.inPort u p n
      (s.setInPort u p n { q with queue := q.queue.eraseIdx (s.headIdx u p n) }).emit (.credit u p n 1)) s
    let s := s.modRig w.outRig fun r => { r with circuits := r.circuits.map fun (c : Circuit) =>
      if c.srcUid = u ∧ c.srcPlane = p then { c with bound := false } else c }
    let s := match w.inRig, (inc.bind fun r => r.planes.find? fun k => k.uid == u && k.pplane == p) with
      | some key, some k =>
        let carried := (s.rig key).circuits.filter fun (c : Circuit) => c.srcUid == u && c.srcPlane == p && c.carry
        let s := (List.range 8).foldl (fun (s : State) (n : Nat) => if carried.any fun c => c.srcPort == n then s else s.setOutPort u p n {}) s
        let s := s.activate key k
        -- carried circuits go on under DRAIN as well
        let s := s.modRig key fun r => { r with circuits := r.circuits.map fun (c : Circuit) =>
          if c.srcUid = u ∧ c.srcPlane = p ∧ c.carry = true then { c with bound := true } else c }
        s.dropStale u p
      | _, _ =>
        let s := { s with
          inPorts := s.inPorts.filter fun q => q.1 / 16 != planeKey u p
          outPorts := s.outPorts.filter fun q => q.1 / 16 != planeKey u p }
        s.setPlane u p { pl with valid := false, epoch := (pl.epoch + 1) % 16, inRun := false, wavePend := false, eligible := false, cfg := 0,
                                 ctrs := [], limits := [], nextLimits := [], shapeSince := [], shapeTried := [], preds := 0 }
    let s := s.setWave w.ctx fun w => { w with pending := w.pending.filter fun k => k != (u, p) }
    let left := w.pending.any fun k => k.1 == u && k.2 != p
    let s := if left then s
      else
        let old := ((s.rig w.outRig).streams.filter fun (d : Nat × Nat × StreamDesc) => d.2.2.unit == u).map fun (d : Nat × Nat × StreamDesc) => d.2.2.dst
        (s.installFolds u).installRings ((w.inRig.map s.rig).getD {}) u old
    s.drainBind w.ctx

/-- Both ends of a circuit of an outgoing rig have flipped (R175): its planes, a service unit that keeps its epoch (R176), and a gateway once no beat waits
in its buffer. -/
def State.circuitOver (s : State) (w : Wave) (r : RigSt) (k : Circuit) : Bool :=
  !w.pending.contains (k.srcUid, k.srcPlane) && !w.pending.contains (k.dstUid, k.dstPlane)
    && (!((isService k.dstUid || k.dstUid == coreCode k.seat) && k.live && !k.xmod) || k.epoch != r.epoch)
    && (!k.xmod || (s.fab.segs.filter fun x => x.names.contains (w.outRig, k.spread)).all fun x => x.queue == [])

/-- CIRCUIT_RELEASE (R175): a group of the outgoing rig, once both ends of each of its circuits have flipped and its link is quiet. -/
def State.circuitRelease (s : State) (c seat idx : Nat) : State :=
  match s.waves.find? fun w => w.ctx == c && w.releasing.contains (seat, idx) with
  | none => s
  | some w =>
    let r := s.rig w.outRig
    match r.groups.find? fun g => g.seat == seat && g.idx == idx with
    | none => s
    | some g =>
      let flipped := (r.circuits.filter fun k => k.seat == seat && k.group == idx).all (s.circuitOver w r)
      if !flipped || !s.quiet g then s
      else
        let s := s.clearGroup g
        let s := s.modRig w.outRig fun r => { r with groups := r.groups.filter fun k => !(k.seat == seat && k.idx == idx) }
        let s := s.setWave c fun w => { w with releasing := w.releasing.filter fun k => k != (seat, idx) }
        s.drainBind c

/-- Free an outgoing rig's Topsoil windows but those its successor shares (R177). -/
def State.freeWindows (s : State) (c : Nat) (o : RigSt) (inc : Option RigSt) : State :=
  let kept := fun (w : Window) => match inc with
    | some r => r.windows.any fun k => k.uid == w.uid && k.shared && k.tsVbase == w.tsVbase
    | none => false
  (o.windows.filter fun w => !kept w && decide (0 < w.granules)).foldl (fun s w =>
    let vas := (List.range w.granules).map fun i => w.tsVbase + 65536 * i
    let frames := (List.range w.granules).map fun i => (sliceBase w.uid + w.tsBase) / 65536 + i
    let s := vas.foldl (fun s v => s.editLeaf c v fun _ => {}) s
    let s := s.setUsage c 0 (s.usage c 0 - w.granules)
    s.shootdown { ctx := c, scope := 1, vpage := w.tsVbase / 65536, slice := false, why := 1, arg := 0, frames := frames, cmd := none, doneAt := none }) s

/-- Freeze RIG_WAVE_STATE on the seats of a wave. -/
def State.freezeWave (s : State) (w : Wave) : State :=
  let seats := ((s.rig w.outRig).seats ++ ((w.inRig.map s.rig).map RigSt.seats).getD []).eraseDups
  seats.foldl (fun s k => s.regPut (Reg.RIG_WAVE_STATE + seatOff k) (BitVec.ofNat 64
    (packBits [(32, (w.pending.filter fun p => seatOf p.1 == k).length), (32, (s.now - w.launched) / 1000)]))) s

/-- WAVE_COMPLETE (R177): `others` says that every other rank is done. -/
def State.waveComplete (s : State) (c : Nat) (others : Bool) : State :=
  match s.waves.find? fun w => w.ctx == c with
  | none => s
  | some w =>
    if w.pending != [] || w.releasing != [] || !others then s
    else
      let o := s.rig w.outRig
      let inc := w.inRig.map s.rig
      let s := s.freezeWave w
      let seats := (o.seats ++ (inc.map RigSt.seats).getD []).eraseDups
      let s := seats.foldl (fun s k => s.bump .RIG_WAVES_COUNT 1 (seatOff k)) s
      let s := s.freeWindows c o inc
      let s := { s with rigs := s.rigs.drop w.outRig, waves := s.waves.filter fun v => v.ctx != c }.pruneSegs
      let s := match w.inRig with
        | some k => s.modRig k fun r =>
            { r with state := 3, drain := false, groups := r.groups.map fun (g : SlotGroup) => { g with carried := false, written := true },
                     windows := r.windows.map fun (x : Window) => { x with shared := false } }
        | none => s
      let s := s.setCtx c { s.ctx c with currentRig := w.inRig, incomingRig := none }
      let s := s.requeueRuns c
      match w.cmd with
      | some (r, q) => match s.launched r q 0x21 with
        | some k => s.complete k 0 w.seq 0
        | none => s
      | none => s

/-- WAVE_STALL (R177). -/
def State.waveStall (s : State) (c : Nat) : State :=
  match s.waves.find? fun w => w.ctx == c with
  | none => s
  | some w =>
    let us := match w.inRig with
      | some k => (s.rig k).waveUs
      | none => (s.rig w.outRig).waveUs
    let paused := w.pausedNs + (match w.haltSince with
      | some t => s.now - t
      | none => 0)
    if s.now ≤ w.launched + us * 1000 + paused then s
    else
      let s := s.freezeWave w
      let s := s.modRig w.outRig fun r => { r with recompile := true }
      let s := match w.inRig with
        | some k => s.modRig k fun r => { r with recompile := true }
        | none => s
      rigFault s 0 3 c ((w.pending.head?.map fun p => seatOf p.1).getD ((s.rig w.outRig).seats.headD 0))

/-- RIG_RUN (R224, R240). -/
def State.rigRun (s : State) (r q : Nat) : State :=
  match s.launched r q 0x23 with
  | none => s
  | some c =>
    match s.currentRig c.ctx with
    | none => s.complete c 0x06 0 0
    | some g =>
      let queued := s.streams.cmds.any fun k => k.cmd == some (r, q)
      let s := if queued then s else s.queueRun g (c.fld 32 0 8) (c.fld 34 0 16) c.job (some (r, q)) 0 0
      if c.fld 32 0 8 = 0 then s.complete c 0 0 0 else s.launchRun (r, q)

/-! ### Meanings -/

def execFoldAdvance (uid : Nat) (yielded : Bool) (s : State) := done (s.foldAdvance uid yielded)
def execFoldInstall (uid : Nat) (yielded : Bool) (s : State) := done (s.foldInstall uid yielded)
def execFoldRebuild (seat : Nat) (s : State) := done (s.foldRebuild seat)
def execRigLoad (r q others : Nat) (copyOk : Bool) (s : State) := done (s.rigLoad r q others copyOk)
def execPlaneRecordLand (uid plane : Nat) (ok : Bool) (s : State) := done (s.recordLand uid (plane % 8) ok)
def execRigLoadComplete (r q : Nat) (s : State) := done (s.loadComplete r q)
def execRigUnstage (r q : Nat) (s : State) := done (s.rigUnstage r q)
def execRigSwitch (r q : Nat) (s : State) := done (s.rigSwitch r q)
def execPlaneFlip (uid plane : Nat) (s : State) := done (s.planeFlip uid (plane % 8))
def execCircuitRelease (c seat idx : Nat) (s : State) := done (s.circuitRelease c seat idx)
def execWaveComplete (c : Nat) (others : Bool) (s : State) := done (s.waveComplete c others)
def execWaveStall (c : Nat) (s : State) := done (s.waveStall c)
def execRigRun (r q : Nat) (s : State) := done (s.rigRun r q)

end Sys2Proof.Machine
end

