-- ==== Sys2Proof/Machine/Matrix.lean ====
section
/-! DEFINITION. The matrix engine: passes (R69-R71, R78-R85, R89) and what becomes of their results (R57, R104-R108). -/

namespace Sys2Proof.Machine

/-- One block of a row or column as read: its scale exponent (none: NaN), its 32 elements' bits, whether any line it lies in is
poisoned. -/
structure OpBlock where
  scale : Option Int
  elems : List Nat
  poison : Bool
deriving DecidableEq, Repr

/-- The element format of an operand: FP8 and BF16 by its FORMAT code, MX by the tag of its first scale line (R69). -/
def State.passFmt (s : State) (u fmt line : Nat) : Fmt :=
  match fmt with
  | 0 => e4m3
  | 1 => e5m2
  | 3 => bf16
  | _ => (mxFmt (s.opTag u line)).getD e4m3

/-- Block `j` of row `c` (R70): scales first, byte 32j + c; elements from the line after the scales. -/
def State.passBlock (s : State) (u fmt line n j c : Nat) : OpBlock :=
  if fmt = 2 then
    let tag := s.opTag u line
    let sc := s.opBits u line (8 * (32 * j + c)) 8
    let base := line + (n + 1) / 2
    let w := codeBits tag
    let es := (List.range 32).map fun i => s.opBits u base ((32 * j + c) * 32 * w + i * w) w
    ⟨scaleExp sc.1, es.map (·.1), sc.2 || es.any (·.2)⟩
  else
    let w := if fmt = 3 then 16 else 8
    let es := (List.range 32).map fun i => s.opBits u line ((32 * j + c) * 32 * w + i * w) w
    ⟨some 0, es.map (·.1), es.any (·.2)⟩

/-- The blocks of row or column `c`, ascending along K. -/
def State.passRow (s : State) (u fmt line n c : Nat) : List OpBlock := (List.range n).map fun j => s.passBlock u fmt line n j c

/-- One output of a pass: anchored, rounded or packed (R78-R85), or a BF16 chain (R89). -/
def passOutput (fa fb : Fmt) (bf wide : Bool) (ra rb : List OpBlock) : NR :=
  if bf then bf16Chain (ra.flatMap (·.elems)) (rb.flatMap (·.elems))
  else
    let bl := (ra.zip rb).map fun p => (⟨p.1.scale, p.2.scale, p.1.elems, p.2.elems⟩ : Block)
    let a := accumulate fa fb bl
    let r := if wide then a.toWide else a.toF32
    if bl.any fun b => b.ea.isNone || b.eb.isNone then ⟨r.bits, r.fl ||| flScaleNan⟩ else r

/-- The 1,024 outputs of a pass, row by row: value, flags, poison of any line read for it (R35, R69-R71, R78-R85, R89). -/
def State.passResults (s : State) (u e : Nat) : List (Nat × Nat × Bool) :=
  let n := enLen e
  let fa := s.passFmt u (enFmtA e) (enSrcA e)
  let fb := s.passFmt u (enFmtB e) (enSrcB e)
  let rows := (List.range 32).map fun c => s.passRow u (enFmtA e) (enSrcA e) n c
  let cols := (List.range 32).map fun c => s.passRow u (enFmtB e) (enSrcB e) n c
  rows.flatMap fun ra => cols.map fun rb =>
    let r := passOutput fa fb (enFmtA e == 3) (enWide e) ra rb
    (r.bits, r.fl, ra.any (·.poison) || rb.any (·.poison))

/-- MPASS's work at the catch: products and anchors; the results wait in the accumulators for PASS_COMPLETE (R57). -/
def workMpass (s : State) (u p e : Nat) : Work :=
  let x := s.unit u
  let rs := s.passResults u e
  let s := s.setUnit u { x with pass := some { id := x.nextId - 1, plane := p, entry := (s.plane u p).pc, results := rs } }
  { s := s, owes := if enToPort e then passOutLines (s.plane u p).cfg e else 0, passPending := true }

/-- The epilogue over a pass's results (R106): scale and bias by column or row, activation, narrowing; poison of the bias and scale
lines read. -/
def State.passEpilogue (s : State) (u cfg d : Nat) (rs : List (Nat × Nat × Bool)) : List (SR × Bool) :=
  let bias := (List.range 32).map fun c => s.opElem u (epBiasLine d) 0 c
  let scale := (List.range 32).map fun c => s.opElem u (epScaleLine d) 0 c
  rs.zipIdx.map fun r =>
    let i := r.2 / 32
    let c := r.2 % 32
    let b := if epBiasEn d then some (bias.getD c (0, false)) else none
    let sc := match epScaleMode d with
      | 1 => some (scale.getD c (0, false))
      | 2 => some (scale.getD i (0, false))
      | _ => none
    let o := epilogue (recMp cfg) (recNumctl cfg) (sc.map (·.1)) (b.map (·.1)) (if epActEn d then some (epAct d) else none) (epOutFmt d) r.1.1
    (⟨o.bits, o.fl ||| r.1.2.1, o.ftz⟩, r.1.2.2 || (b.map (·.2)).getD false || (sc.map (·.2)).getD false)

/-- What leaves the accumulators: the pass's results as they are, or through the epilogue (R104-R108). -/
def State.passOuts (s : State) (u : Nat) (pa : PassSt) : List (SR × Bool) :=
  let cfg := (s.plane u pa.plane).cfg
  let e := recEntry cfg pa.entry
  if enEpiEn e then s.passEpilogue u cfg (recEpi cfg (enEpiSel e)) pa.results else pa.results.map fun r => (⟨r.1, r.2.1, 0⟩, r.2.2)

/-- PASS_COMPLETE (R57, R68, R82, R85, R104-R108): once the result buffer is empty the pass's results leave the accumulators, through
the epilogue if it has one, for DST or the ports; the matrix engine and the special-function block are free, and so are the operand-store lines:
those of DST are written, the operands are read no more. UNIT_ACC_OVF counts the outputs that overflow to infinity in accumulation (R81), not those
that the final rounding or narrowing makes infinite: the manual's words allow either, and this is the model's choice (log 105). -/
def State.passComplete (s : State) (u : Nat) : State :=
  let x := s.unit u
  match x.pass, x.resBuf with
  | some pa, none =>
    let pl := s.plane u pa.plane
    let e := recEntry pl.cfg pa.entry
    let code := passOut pl.cfg e
    let outs := s.passOuts u pa
    let fl := outs.foldl (fun a o => a ||| o.1.fl) 0
    let ovf := (outs.filter fun o => o.1.fl &&& flAccOvf != 0).length
    let s := s.numFlags u fl ovf (outs.foldl (fun a o => a + o.1.ftz) 0) 0
    let ls := packLines (codeBits code) (outs.map fun o => (o.1.bits, o.2))
    let s := s.setUnit u { s.unit u with pass := none, resBuf := some pa.id }
    let s := s.setFlight u pa.id fun f => { f with engines := [], passPending := false, reads := [], writes := [] }
    if enToPort e then
      let pred := ((s.unit u).inflight.find? (fun f => f.id == pa.id)).any fun f => f.pred
      s.pushBeats u pa.plane (enOutMask e) pa.id
        (ls.map fun l => { data := l.1, epoch := pl.epoch, poison := l.2, pred := pred })
    else s.putOps u (enDst e) code ls
  | _, _ => s

end Sys2Proof.Machine
end

