-- ==== Sys2Proof/Machine/Hash.lean ====
section
/-! DEFINITION. SipHash-2-4, by which pages are chained (R270), and Philox-4x32-10, by which tokens are drawn (R347). -/

namespace Sys2Proof.Machine

/-- The four words of SipHash's state. -/
structure Sip where
  v0 : Word
  v1 : Word
  v2 : Word
  v3 : Word

/-- One SipRound. -/
def Sip.round (s : Sip) : Sip :=
  let a := s.v0 + s.v1
  let b := (s.v1.rotateLeft 13) ^^^ a
  let a := a.rotateLeft 32
  let c := s.v2 + s.v3
  let d := (s.v3.rotateLeft 16) ^^^ c
  let a := a + d
  let d := (d.rotateLeft 21) ^^^ a
  let c := c + b
  let b := (b.rotateLeft 17) ^^^ c
  let c := c.rotateLeft 32
  ⟨a, b, c, d⟩

/-- A block of eight message bytes. -/
def Sip.absorb (s : Sip) (m : Word) : Sip :=
  let s := (({ s with v3 := s.v3 ^^^ m } : Sip).round).round
  { s with v0 := s.v0 ^^^ m }

/-- SipHash-2-4 of a message under a 128-bit key (key bytes 0-7 the low word). -/
def sipHash (key : Nat) (msg : List Byte) : Nat :=
  let k0 : Word := BitVec.ofNat 64 key
  let k1 : Word := BitVec.ofNat 64 (key / 2 ^ 64)
  let s : Sip := ⟨k0 ^^^ 0x736f6d6570736575, k1 ^^^ 0x646f72616e646f6d, k0 ^^^ 0x6c7967656e657261, k1 ^^^ 0x7465646279746573⟩
  let n := msg.length
  let full := (List.range (n / 8)).map fun i => BitVec.ofNat 64 (leNat ((msg.drop (8 * i)).take 8))
  let last : Word := BitVec.ofNat 64 (leNat (msg.drop (n / 8 * 8)) + n % 256 * 2 ^ 56)
  let s := (full ++ [last]).foldl Sip.absorb s
  let s : Sip := { s with v2 := s.v2 ^^^ 0xff }
  let s := s.round.round.round.round
  (s.v0 ^^^ s.v1 ^^^ s.v2 ^^^ s.v3).toNat

/-- The rounds of Philox-4x32 from a key and a counter. -/
def philoxRounds : Nat → Nat → Nat → Nat × Nat × Nat × Nat → Nat × Nat × Nat × Nat
  | 0, _, _, c => c
  | n + 1, k0, k1, (c0, c1, c2, c3) =>
    let p0 := 0xD2511F53 * c0
    let p1 := 0xCD9E8D57 * c2
    philoxRounds n ((k0 + 0x9E3779B9) % 2 ^ 32) ((k1 + 0xBB67AE85) % 2 ^ 32)
      (((p1 / 2 ^ 32) ^^^ c1) ^^^ k0, p1 % 2 ^ 32, ((p0 / 2 ^ 32) ^^^ c3) ^^^ k1, p0 % 2 ^ 32)

/-- u of R347, in units of 2^-24. -/
def philoxDraw (seed pos : Nat) : Nat :=
  (philoxRounds 10 (seed % 2 ^ 32) (seed / 2 ^ 32 % 2 ^ 32) (pos % 2 ^ 32, 0, 0, 0)).1 / 256

end Sys2Proof.Machine
end

