-- ==== Sys2Proof/Machine/Kv.lean ====
section
/-! DEFINITION. KV pages (R252-R257, R270): their size and layout, headers, token IDs, extents in a context's memory, the page list (R314). -/

namespace Sys2Proof.Machine

/-! ### Layout (R252-R254) -/

/-- D, the head dimension. -/
def Version.dim (v : Version) : Nat := 32 * v.dim32
/-- e, the element width of the KV format. -/
def Version.kvBits (v : Version) : Nat := codeBits v.kvFmt
/-- R, one K or V half-slice. -/
def Version.kvHalf (v : Version) : Nat := 256 * v.dim * v.kvBits / 8 + 256 * v.dim / 32
/-- Bytes of the summaries. -/
def Version.kvSums (v : Version) : Nat := v.layers * v.kvHeads * v.dim * 2
/-- S, one layer. -/
def Version.kvLayer (v : Version) : Nat := v.kvHeads * 2 * v.kvHalf
/-- A page's content. -/
def Version.kvContent (v : Version) : Nat := 0x10000 + v.kvSums + v.layers * v.kvLayer
/-- The extent is made of 2 MiB pages. -/
def Version.kvBig (v : Version) : Bool := decide (0x100000 < v.kvContent)
/-- A page's extent. -/
def Version.kvExtent (v : Version) : Nat :=
  let g := pageBytes v.kvBig
  (v.kvContent + g - 1) / g * g
/-- The memory pages of an extent at a base. -/
def Version.kvVas (v : Version) (base : Nat) : List Nat := (List.range (v.kvExtent / pageBytes v.kvBig)).map fun i => base + i * pageBytes v.kvBig
/-- Offset of the K half-slice of a layer and head. -/
def Version.kOff (v : Version) (layer head : Nat) : Nat := 0x10000 + v.kvSums + layer * v.kvLayer + head * 2 * v.kvHalf

/-- Offset and length, in whole lines, of the rows of a page's positions from `lo` to before `hi`, by layer, head and half: elements, then scales
(Table 9.2). -/
def Version.rowRanges (v : Version) (lo hi : Nat) : List (Nat × Nat) :=
  let e := v.dim * v.kvBits / 8
  let sc := v.dim / 32
  let span := fun (a b : Nat) => (a / 64 * 64, (b + 63) / 64 * 64 - a / 64 * 64)
  (List.range v.layers).flatMap fun l => (List.range v.kvHeads).flatMap fun h => [0, 1].flatMap fun half =>
    let b := v.kOff l h + half * v.kvHalf
    [span (b + lo * e) (b + hi * e), span (b + 256 * e + lo * sc) (b + 256 * e + hi * sc)]

/-- A version's table entry, EMPTY where none is listed. -/
def State.version (s : State) (id : Nat) : Version := (s.wpkg.versions.find? fun v => v.id == id).getD { id := id }

/-! ### Headers (Table 9.3) -/

/-- A KV page header. -/
structure KvHdr where
  kvFmt : Nat := 0
  flags : Nat := 0
  fill : Nat := 0
  layers : Nat := 0
  heads : Nat := 0
  dim32 : Nat := 0
  version : Nat := 0
  handle : Nat := 0
  page : Nat := 0
  ctx : Nat := 0
  epoch : Nat := 0
  chain : Nat := 0
  domain : Nat := 0
  sealTime : Nat := 0
deriving DecidableEq, Repr

/-- The header's 64 bytes, HDR_CRC last. -/
def KvHdr.bytes (h : KvHdr) : List Byte :=
  let bs := packBytes [(4, 0x4B565047), (2, 1), (1, h.kvFmt), (1, h.flags), (2, h.fill), (2, h.layers), (1, h.heads), (1, h.dim32), (2, h.version),
    (4, h.handle), (2, h.page), (1, h.ctx), (1, h.epoch), (8, h.chain), (2, h.domain), (6, 0), (8, h.sealTime), (12, 0)]
  (bs ++ packBytes [(4, crc32c bs)]).map fun b => BitVec.ofNat 8 b

/-- A header from its bytes; none where MAGIC, FORMAT or HDR_CRC fails (R257). -/
def hdrOf (bs : List Byte) : Option KvHdr :=
  let n := leNat bs
  let f := fun (byte len : Nat) => natBits n (8 * byte) (8 * len)
  if f 0 4 ≠ 0x4B565047 ∨ f 4 2 ≠ 1 ∨ f 60 4 ≠ crc32c ((bs.take 60).map (·.toNat)) then none
  else some { kvFmt := f 6 1, flags := f 7 1, fill := f 8 2, layers := f 10 2, heads := f 12 1, dim32 := f 13 1, version := f 14 2, handle := f 16 4,
              page := f 20 2, ctx := f 22 1, epoch := f 23 1, chain := f 24 8, domain := f 32 2, sealTime := f 40 8 }

/-- FLAGS of Table 9.3. -/
def hdrFull (h : KvHdr) : Bool := natBit h.flags 0
def hdrSummary (h : KvHdr) : Bool := natBit h.flags 1
def hdrSealed (h : KvHdr) : Bool := natBit h.flags 2
def hdrPoisoned (h : KvHdr) : Bool := natBit h.flags 4

/-- A header in a context's memory: none where it cannot be read, is poisoned or fails its checks. -/
def State.kvHdr (s : State) (c va : Nat) : Option KvHdr :=
  match s.readVa c va 64 with
  | some (bs, false) => hdrOf bs
  | _ => none

/-- The header of page `j` of a request, when it names that request and page (R257). -/
def State.pageHdr (s : State) (i j : Nat) : Option KvHdr :=
  let e := s.entry i
  match (s.req i).extents[j]? with
  | none => none
  | some va => match s.kvHdr e.a.ctx va with
    | some h => if h.handle = handleOf i e.a.gen ∧ h.page = j then some h else none
    | none => none

/-- Write a header. -/
def State.putHdr (s : State) (c va : Nat) (h : KvHdr) : State := s.writeVa c va h.bytes

/-- Write token IDs of positions from `t` of a page on. -/
def State.putTokens (s : State) (c va t : Nat) (ids : List Nat) : State := s.writeVa c (va + 1024 + 4 * t) (ids.flatMap fun k => leBytes 4 k)

/-- Token IDs as a list of 32-bit numbers. -/
def words32 (bs : List Byte) : List Nat := (List.range (bs.length / 4)).map fun i => leNat ((bs.drop (4 * i)).take 4)

/-- The 256 token IDs of a page. -/
def State.pageTokens (s : State) (c va : Nat) : List Nat := match s.readVa c (va + 1024) 1024 with
  | some (bs, _) => words32 bs
  | none => []

/-! ### Chain hashes (R270) -/

/-- H_j of a page from its predecessor's. -/
def chainHash (key parent version domain fmt : Nat) (tokens : List Nat) : Nat :=
  let m := packBytes ([(8, parent), (2, version), (2, domain), (1, fmt), (3, 0)] ++ (List.range 256).map fun i => (4, tokens.getD i 0))
  let h := sipHash key (m.map fun b => BitVec.ofNat 8 b)
  if h = 0 then 1 else h

/-- A domain's key. -/
def State.domainKey (s : State) (d : Nat) : Option DomainKey := s.sed.keys.find? fun k => k.domain == d

/-! ### Extents (R252, R321) -/

/-- A fresh range of the context's firmware addresses (log 22). -/
def State.newVa (s : State) (c size : Nat) (big : Bool) : Nat × State :=
  let g := pageBytes big
  let o := ((s.ctx c).extVa + g - 1) / g * g
  (0xF0000000000000 + o, s.setCtx c { s.ctx c with extVa := o + size })

/-- Allocate and map an extent in a tier. -/
def State.newExtent (s : State) (c tier : Nat) (v : Version) : Except NoFrame (Nat × State) :=
  let (va, s) := s.newVa c v.kvExtent v.kvBig
  match s.mapPages c tier 0 true true v.kvBig (v.kvVas va) with
  | .error e => .error e
  | .ok s => .ok (va, s)

/-- Free one page of a context at once: scrubbed and free within the boundary that frees it (R219, R321; log 23). -/
def State.freeNow (s : State) (c va : Nat) : State :=
  match s.findLeaf c va with
  | none => s
  | some (a, p) =>
    let s := s.setPte a {}
    let s := s.dropCached (pageShoot c va (s.ctx c).span 0 0)
    let s := s.startShoot (pageShoot c va (s.ctx c).span 0 0)
    let s := s.tellReplicas c [2, va]
    if p.addr / 2 ^ 45 ≠ s.self then s
    else
      let off := p.addr % 2 ^ 45
      let s := s.scrubPage c off p.big
      (List.range (pageFrames p.big)).foldl (fun s i => s.frameScrubDone (off / 65536 + i)) s

/-- Free an extent. -/
def State.freeExtent (s : State) (c : Nat) (v : Version) (va : Nat) : State := (v.kvVas va).foldl (fun s x => s.freeNow c x) s

/-- Mark the pages of an extent as the source or target of a transfer, or not (R199). -/
def State.setXfer (s : State) (c : Nat) (v : Version) (va : Nat) (b : Bool) : State :=
  (v.kvVas va).foldl (fun s x => s.editLeaf c x fun (p : Pte) => { p with xfer := b }) s

/-- Change what the module holds of a request. -/
def State.modReq (s : State) (i : Nat) (f : ReqSt → ReqSt) : State := s.setReq i (f (s.req i))
/-- Change words 0 to 6 of an entry. -/
def State.modA (s : State) (i : Nat) (f : EntryA → EntryA) : State := s.setEntry i { s.entry i with a := f (s.entry i).a }
/-- Change words 7 to 15 of an entry. -/
def State.modB (s : State) (i : Nat) (f : EntryB → EntryB) : State := s.setEntry i { s.entry i with b := f (s.entry i).b }

/-- Make room in the page list for `n` pages: 8,192 entries to a 64 KiB page of the context's memory (R314; log 22). -/
def State.growList (s : State) (i n : Nat) : Except NoFrame State :=
  let c := (s.entry i).a.ctx
  let s := if (s.entry i).a.pageList ≠ 0 then s
    else
      let (va, s) := s.newVa c 0x80000 false
      s.modA i fun a => { a with pageList := va }
  let base := (s.entry i).a.pageList
  let have_ := (s.req i).listPages
  let need := (n + 8191) / 8192
  if need ≤ have_ then .ok s
  else match s.mapPages c 1 0 true true false ((List.range (need - have_)).map fun k => base + 65536 * (have_ + k)) with
    | .error e => .error e
    | .ok s => .ok (s.modReq i fun r => { r with listPages := need })

/-- The header of a page as it is reserved (R256). -/
def State.freshHdr (s : State) (i j : Nat) (v : Version) : KvHdr :=
  let e := s.entry i
  { kvFmt := v.kvFmt, layers := v.layers, heads := v.kvHeads, dim32 := v.dim32, version := v.id, handle := handleOf i e.a.gen, page := j,
    ctx := e.a.ctx, domain := (s.vi e.a.vi).domain }

/-- Reserve the next page of a request: extent, page list, header with FILL 0 and the token IDs known of it (R256, R321). -/
def State.reservePage (s : State) (i : Nat) : Except NoFrame State :=
  let e := s.entry i
  let v := s.version e.b.version
  let j := (s.req i).extents.length
  match s.newExtent e.a.ctx 1 v with
  | .error x => .error x
  | .ok (va, s) =>
    match s.growList i (j + 1) with
    | .error x => .error x
    | .ok s =>
      let s := s.modReq i fun r => { r with extents := r.extents ++ [va] }
      let s := s.modA i fun a => { a with pages := j + 1 }
      let s := s.writeVa e.a.ctx ((s.entry i).a.pageList + 8 * j) (leBytes 8 va)
      let s := s.putHdr e.a.ctx va (s.freshHdr i j v)
      .ok (s.putTokens e.a.ctx va 0 (((s.req i).tokens.drop (256 * j)).take 256))

/-- Reserve `n` pages more, all or none (R324). -/
def State.reservePages (s : State) (i : Nat) : Nat → Except NoFrame State
  | 0 => .ok s
  | n + 1 => match s.reservePage i with
    | .error e => .error e
    | .ok s => s.reservePages i n

/-- Free every page of a request and its page list. -/
def State.freePages (s : State) (i : Nat) : State :=
  let e := s.entry i
  let r := s.req i
  let v := s.version e.b.version
  let s := r.extents.foldl (fun s va => s.freeExtent e.a.ctx v va) s
  let s := (List.range r.listPages).foldl (fun s k => s.freeNow e.a.ctx (e.a.pageList + 65536 * k)) s
  let s := match r.restore with
    | some (_, src, size) => s.toScrub (src.flatMap fun a => (List.range (size / 65536)).map fun k => a / 65536 + k)
    | none => s
  let s := s.modReq i fun r => { r with extents := [], listPages := 0, reserved := false, restore := none }
  s.modA i fun a => { a with pages := 0, pageList := 0 }

/-- The Dwezin addresses of the memory pages of a request's extents from page `lo` to `hi`, in order (R333). -/
def State.extentAddrs (s : State) (i lo hi : Nat) : List Nat :=
  let e := s.entry i
  let v := s.version e.b.version
  ((((s.req i).extents.take hi).drop lo).flatMap v.kvVas).map fun va => ((s.translate e.a.ctx va false).map (·.1)).getD 0

/-- Advance FILL of the page that holds a position newly committed; at 256 the page is FULL (R256). The header is checked (R257): `false`
is KV_HDR_BAD. -/
def State.fillPage (s : State) (i pos : Nat) : Bool × State :=
  let j := pos / 256
  match s.pageHdr i j with
  | none => (false, s)
  | some h =>
    let fill := max h.fill (pos % 256 + 1)
    let h := if fill = 256 ∧ !hdrFull h then { h with fill := fill, flags := h.flags + 1, sealTime := s.now } else { h with fill := fill }
    (true, s.putHdr (s.entry i).a.ctx ((s.req i).extents.getD j 0) h)

/-- A request-fatal fault of a block (R339, R361, R283). -/
def State.reqFault (s : State) (f : FaultRegs) (b i code info : Nat) : State :=
  let e := s.entry i
  s.fault f { block := f.block, fault := b, sev := 2, scope := .request (handleOf i e.a.gen), ctx := some e.a.ctx, whereKind := 0, whereIs := 0,
              info := info, endCode := code }

/-- Fault registers of chapter 9: SEL_FAULT_INFO stands for the selector's faults, the others' first-fault information has no register. -/
def sedRegs : FaultRegs := ⟨0x06, .SED_ERR_FLAGS, Reg.SEL_FAULT_INFO⟩

/-- A sediment fault that leaves SEL_FAULT_INFO alone. -/
def State.sedFault (s : State) (b sev : Nat) (info : Nat := 0) : State :=
  if s.fenced then s
  else (s.setBit .SED_ERR_FLAGS b true).raise { block := 0x06, fault := b, sev := sev, scope := .none, info := info }

/-- KV_HDR_BAD (R257): the request fails. -/
def State.hdrBad (s : State) (i : Nat) : State :=
  let e := s.entry i
  let h := handleOf i e.a.gen
  (s.setBit .SED_ERR_FLAGS 0 true).raise
    { block := 0x06, fault := 0, sev := 2, scope := .request h, ctx := some e.a.ctx, info := h, endCode := 0x0D }

end Sys2Proof.Machine
end

