-- ==== Sys2Proof/Machine/Scatter.lean ====
section
/-! DEFINITION. The scatter engine (chapter 10): descriptors, the choice of experts, dispatch, rounds, return frames, the combine, the
queue controllers' count headers. -/

namespace Sys2Proof.Machine

/-! ### Faults (Table 10.13) -/

def scatRegs : FaultRegs := ⟨0x07, .SCAT_FAULT_FLAGS, Reg.SCAT_FAULT_INFO⟩

/-- An expert-routing fault of a unit. -/
def State.scatFault (s : State) (u b sev c layer expert : Nat) : State :=
  s.fault scatRegs
    { block := 0x07, fault := b, sev := sev, scope := if sev = 3 then .context c else .none, ctx := some c, whereKind := 1, whereIs := u,
      info := packBits [(14, u), (8, c), (9, layer), (10, expert)] } (seatOff (seatOf u))

/-- The translation of a virtual address is refused: the fault of its walk (R197). -/
def State.vaFault (s : State) (c va u : Nat) (write : Bool) : State :=
  match s.walk c va write with
  | .bad b => s.tiersFault b 3 (some c) va 0 1 u
  | .leaf _ _ _ => s

/-! ### Reading descriptors and maps -/

/-- A number in a context's memory, unless unmapped or poisoned. -/
def State.numVa (s : State) (c va n : Nat) : Option Nat :=
  match s.readVa c va n with
  | some (bs, false) => some (leNat bs)
  | _ => none

/-- A descriptor's fields, none when a reserved field is set or a value out of range (R290). -/
def scatDesc (w : Nat) : Option ScatDesc :=
  let f := fun (byte len : Nat) => natBits w (8 * byte) (8 * len)
  let rt := f 12 4
  let ok := decide (1 ≤ f 4 1) && decide (f 4 1 ≤ 16) && decide (f 5 1 ≤ 4) && natBits (f 6 1) 0 2 != 3 && natBits (f 6 1) 3 5 == 0 &&
    decide (natBits (f 7 1) 0 4 ≤ 1) && decide (natBits (f 7 1) 4 4 ≤ 1) && f 8 2 != 0 && decide (f 8 2 ≤ 1024) && f 10 2 != 0 &&
    decide (f 10 2 ≤ 1024) && decide (32 ≤ rt) && decide (rt ≤ 65536) && rt % 32 == 0 && f 16 7 % 64 == 0 && f 23 1 == 0 &&
    f 32 2 != 0 && decide (f 32 2 ≤ 256) && f 34 30 == 0 && decide (f 2 2 ≤ 1024)
  if ok then
    some { layer := f 0 2, experts := f 2 2, topk := f 4 1, shared := f 5 1, gate := natBits (f 6 1) 0 2, renorm := natBit (f 6 1) 2,
           retFmt := natBits (f 7 1) 0 4, outFmt := natBits (f 7 1) 4 4, payLines := f 8 2, retLines := f 10 2, roundTokens := rt,
           combine := f 16 7, sharedScale := f 24 4, needNs := f 28 4, rounds := f 32 2 }
  else none

/-- DESC_ADDR of a SCATTER entry. -/
def enDesc (e : Nat) : Nat := natBits e 128 56

/-- A context's descriptor at an address, within the live map's layers. -/
def State.readDesc (s : State) (c va : Nat) : Option ScatDesc :=
  match (s.numVa c va 64).bind scatDesc with
  | some d => if d.layer < s.getF .EXPMAP_LAYERS_LAYERS (inst c) then some d else none
  | none => none

/-- The live copy of a context's map, and a copy's address. -/
def State.mapGen (s : State) (c : Nat) : Nat := s.getF .EXPMAP_CTRL_GEN (inst c)
def State.mapBase (s : State) (c gen : Nat) : Nat :=
  if gen = 0 then s.getF .EXPMAP_BASE0_ADDR (inst c) else s.getF .EXPMAP_BASE1_ADDR (inst c)

/-- Bytes of a layer block, and where layer `l`'s stands. -/
def layerBytes : Nat := 16448
def layerOff (l : Nat) : Nat := 64 + l * layerBytes

/-- Fields of a map entry (Table 10.4). -/
def mapQueue (w : Nat) : Nat := natBits w 0 56
def mapHome (w : Nat) : Nat := natBits w 64 15
def mapTarget (w : Nat) : Bool := natBit w 79
def mapQuota (w : Nat) : Nat := natBits w 80 16
def mapRegion (w : Nat) : Nat := natBits w 96 6

/-- A layer's header number and its entries below E, as numbers. -/
def State.mapLayer (s : State) (base c l : Nat) : Option (Nat × List Nat) :=
  match s.numVa c (base + layerOff l) 64 with
  | none => none
  | some h =>
    let n := natBits h 0 16
    match s.numVa c (base + layerOff l + 64) (16 * n) with
    | none => none
    | some w => some (h, (List.range n).map fun e => natBits w (128 * e) 128)

/-- ROUND_TOKENS and OVF_ADDR of a layer header (Table 10.3). -/
def layerRound (h : Nat) : Nat := natBits h 16 32
def layerOvf (h : Nat) : Nat := natBits h 64 56

/-- The regions this source owns in a layer: every entry with TARGET set (R298). -/
def regionsOf (es : List Nat) : List Region :=
  (es.zipIdx.filter fun p => mapTarget p.1).map fun p =>
    { expert := p.2, queue := mapQueue p.1, home := mapHome p.1, quota := mapQuota p.1, region := mapRegion p.1 }

/-! ### Rounds (R285, R288, R291) -/

/-- Progress of a layer; none before its first round. -/
def State.layerSt (s : State) (c l : Nat) : Option LayerSt := s.scat.layers.find? fun (x : LayerSt) => x.ctx == c && x.layer == l

/-- Store progress. -/
def State.setLayer (s : State) (x : LayerSt) : State :=
  { s with scat := { s.scat with layers := x :: s.scat.layers.filter fun (y : LayerSt) => !(y.ctx == x.ctx && y.layer == x.layer) } }

/-- A layer's rounds are numbered when it begins: the round counter runs on by ROUNDS. -/
def State.beginLayer (s : State) (c : Nat) (d : ScatDesc) : LayerSt × State :=
  match s.layerSt c d.layer with
  | some x => (x, s)
  | none =>
    let base := ((s.scat.next.find? fun p => p.1 == c).map (·.2)).getD 0
    let x : LayerSt := { ctx := c, layer := d.layer, base := base }
    let s := { s with scat := { s.scat with next := SMap.put s.scat.next c (base + d.rounds) } }
    (x, s.setLayer x)

/-- A round of a context. -/
def State.round (s : State) (c n : Nat) : Option Round := s.scat.rounds.find? fun (r : Round) => r.ctx == c && r.num == n

/-- Change a round. -/
def State.setRound (s : State) (c n : Nat) (f : Round → Round) : State :=
  { s with scat := { s.scat with rounds := s.scat.rounds.map fun (r : Round) => if r.ctx == c && r.num == n then f r else r } }

/-- A round whose rows are all combined, whose returns all came and whose headers are all sent is done with. -/
def State.sweepRounds (s : State) : State :=
  { s with scat := { s.scat with rounds := s.scat.rounds.filter fun (r : Round) =>
      !(r.closedAt.isSome && r.combined == r.routed && r.owed == 0 && r.regions.all fun (g : Region) => g.sent) } }

/-- A bank is free for round `n`: no earlier round of the bank has rows to combine or returns to come (R299, R304). -/
def State.bankFree (s : State) (c n : Nat) : Bool :=
  !s.scat.rounds.any fun (r : Round) => r.ctx == c && r.num % 2 == n % 2 && r.num != n && (r.combined != r.routed || r.owed != 0)

/-- Bytes of an entry and of a combine record. -/
def entryBytes10 (d : ScatDesc) : Nat := 64 * (1 + d.payLines)
def recordBytes (d : ScatDesc) : Nat := 128 + (d.topk + d.shared) * 64 * (1 + d.retLines)

/-- The page set of a range gets PLACE FIXED (R187). -/
def State.fixRange (s : State) (c va n : Nat) : State :=
  (List.range ((va + n + 65535) / 65536 - va / 65536)).foldl (fun s i =>
    s.editLeaf c ((va / 65536 + i) * 65536) fun (p : Pte) => { p with place := 2 }) s

/-- Open round `n` (R288): the live copy is latched; the combine area of a rig loaded after the map is FIXED by then (R287; log 51). -/
def State.openRound (s : State) (u c n first : Nat) (d : ScatDesc) (es : List Nat) : State :=
  let r : Round := { ctx := c, num := n, uid := u, desc := d, gen := s.mapGen c, first := first, regions := regionsOf es }
  { s with scat := { s.scat with rounds := s.scat.rounds ++ [r] } }.fixRange c d.combine (2 * d.roundTokens * recordBytes d)

/-- Close a round (R291); one latched to the old copy holds that copy 4 µs longer. -/
def State.closeRound (s : State) (c n : Nat) : State :=
  let s := s.setRound c n fun (r : Round) => { r with closedAt := some (r.closedAt.getD s.now) }
  match s.round c n with
  | some r => if r.gen != s.mapGen c && s.flag .EXPMAP_CTRL_SWAP_PEND (inst c) then { s with scat := { s.scat with swaps := SMap.put s.scat.swaps c s.now } } else s
  | none => s

/-- The layer's map entries as the open round or, for a new round, the live copy gives them; none where E or ROUND_TOKENS differ (R294). -/
def State.layerFor (s : State) (c gen : Nat) (d : ScatDesc) : Option (List Nat) :=
  match s.mapLayer (s.mapBase c gen) c d.layer with
  | some (h, es) => if es.length == d.experts && layerRound h == d.roundTokens && s.flag .EXPMAP_CTRL_VALID (inst c) then some es else none
  | none => none

/-! ### Choosing experts (R293) -/

/-- The order of gate scores: larger first, NaN last, equal ones by index. -/
def gateBefore (a b : Nat × Nat) : Bool :=
  let na := (f32 a.2).isNan
  let nb := (f32 b.2).isNan
  if na || nb then (!na && nb) || (na && nb && decide (a.1 < b.1))
  else (f32 b.2).lt (f32 a.2) || (!(f32 a.2).lt (f32 b.2) && decide (a.1 < b.1))

/-- The chosen experts and their scores, ascending expert index. -/
def chooseExperts (topk : Nat) (scores : List Nat) : List (Nat × Nat) :=
  let best := (orderBy (scores.zipIdx.map fun p => (p.2, p.1)) fun a b => !gateBefore b a).take topk
  orderBy best fun a b => decide (a.1 ≤ b.1)

/-- Sum in FP32, ascending. -/
def f32Sum (xs : List Nat) : Nat := xs.foldl (fun a x => (f32Add a x).bits) 0

/-- The weights of the chosen scores by GATE_MODE. -/
def gateWeights (mode : Nat) (gs : List Nat) : List Nat :=
  match mode with
  | 0 => gs
  | 1 =>
    let m := (gs.foldl (fun (a : Option Nat) g => match a with
      | none => some g
      | some x => some (f32Max x g).bits) none).getD 0
    let es := gs.map fun g => (sfnBuiltin 1 (f32Sub g m).bits).bits
    let t := f32Sum es
    es.map fun e => (f32Div e t).bits
  | _ =>
    let t := f32Sum gs
    gs.map fun g => (f32Div g t).bits

/-! ### Dispatch (R295-R297, R304) -/

/-- Where the record of the `k`-th token of round `n` stands, and its slot for a choice. -/
def recordVa (d : ScatDesc) (n k : Nat) : Nat := d.combine + (n % 2 * d.roundTokens + k) * recordBytes d
def slotVa (d : ScatDesc) (n k choice : Nat) : Nat := recordVa d n k + 128 + choice * 64 * (1 + d.retLines)
/-- Where entry `q` of a region's bank stands (Table 10.8). -/
def entryVa (d : ScatDesc) (g : Region) (n q : Nat) : Nat :=
  g.queue + 2112 + (2 * g.region + n % 2) * g.quota * entryBytes10 d + q * entryBytes10 d

/-- Write a line at a virtual address with its poison. -/
def State.writeLine (s : State) (c va : Nat) (l : Line × Bool) : State :=
  s.lineWrite { ctx := c, va := va, data := leBytes 64 l.1.toNat, poison := l.2, tag := none }

/-- Write lines from an address on. -/
def State.writeLines (s : State) (c va : Nat) (ls : List (Line × Bool)) : State :=
  ls.zipIdx.foldl (fun s p => s.writeLine c (va + 64 * p.2) p.1) s

/-- A line from bytes. -/
def lineOfBytes (bs : List Nat) : Line := BitVec.ofNat 512 (natOfBytes bs)

/-- An expert queue entry header (Table 10.9), its CHECK last. -/
structure QHdr where
  token : Nat
  round : Nat
  expert : Nat
  choice : Nat
  flags : Nat
  weight : Nat
  job : Nat
  step : Nat
  ret : Nat
  src : Nat
  ctx : Nat
  layer : Nat
deriving DecidableEq, Repr

/-- Its 32 bytes. -/
def QHdr.bytes (h : QHdr) : List Nat :=
  let b := packBytes [(2, h.token), (2, h.round), (2, h.expert), (1, h.choice), (1, h.flags), (4, h.weight), (2, h.job), (2, h.step),
    (8, h.ret), (2, h.src), (1, h.ctx), (1, 0), (2, h.layer)]
  b ++ packBytes [(2, crc16 b)]

/-- The header of a line, when its CHECK holds. -/
def hdrOfLine (l : Line) : Option QHdr :=
  let f := fun (byte len : Nat) => natBits l.toNat (8 * byte) (8 * len)
  let b := (List.range 30).map fun i => f i 1
  if crc16 b == f 30 2 then
    some { token := f 0 2, round := f 2 2, expert := natBits (f 4 2) 0 10, choice := natBits (f 6 1) 0 5, flags := f 7 1, weight := f 8 4,
           job := f 12 2, step := f 14 2, ret := f 16 7, src := natBits (f 24 2) 0 15, ctx := f 26 1, layer := natBits (f 28 2) 0 9 }
  else none

/-- Job and step the context's traffic is tagged with: its latest launched stream's (R243). -/
def State.fetchTag (s : State) (c : Nat) : Nat × Nat :=
  match (s.streams.insts.filter fun (x : StreamInst) => x.ctx == c && x.launched).getLast? with
  | some x => (x.job, x.step)
  | none => (0, 0)

/-- One choice of a token placed or dropped by its rank (R297); answers the drop mask. -/
def State.placeChoice (s : State) (r : Round) (k ep : Nat) (pay : List (Line × Bool)) (poison : Bool) (c : Nat) (x : Nat × Nat) (mask : Nat) :
    Nat × State :=
  let d := r.desc
  let seat := seatOff (seatOf r.uid)
  match ((s.round r.ctx r.num).map (·.regions)).bind fun gs => gs.find? fun (g : Region) => g.expert == x.1 with
  | none => (mask, s)
  | some g =>
    let s := s.setRound r.ctx r.num fun (y : Round) =>
      { y with regions := y.regions.map fun (h : Region) => if h.expert == x.1 then { h with picks := h.picks + 1 } else h }
    if g.quota ≤ g.picks then (mask + 2 ^ c, (s.bump .SCAT_DROPS_COUNT 1 seat).pmc 0x0F 1 (some r.ctx))
    else
      let va := entryVa d g r.num g.picks
      if !s.mapped r.ctx va (entryBytes10 d) true then (mask, s.vaFault r.ctx va r.uid true)
      else
        let tag := s.fetchTag r.ctx
        let h : QHdr :=
          { token := (r.first + k) % 65536, round := r.num % 65536, expert := x.1, choice := c,
            flags := packBits [(1, bit poison), (1, 0), (1, r.gen), (1, 0), (4, ep)], weight := x.2, job := tag.1, step := tag.2,
            ret := slotVa d r.num k c, src := s.self, ctx := r.ctx, layer := d.layer }
        let s := s.writeLine r.ctx va (lineOfBytes (h.bytes ++ List.replicate 32 0), false)
        let s := s.writeLines r.ctx (va + 64) pay
        let s := s.setRound r.ctx r.num fun (y : Round) => { y with written := y.written + 1, owed := y.owed + 1 }
        (mask, s.bump .SCAT_DISPATCHED_COUNT 1 seat)

/-- A combine record's two header lines at dispatch (Table 10.10). -/
def recordLines (d : ScatDesc) (token round mask : Nat) (xs : List (Nat × Nat)) : List (Line × Bool) :=
  let one := packBits [(16, 2 ^ xs.length - 1), (16, mask), (16, 0), (4, 0), (4, 2 ^ d.shared - 1), (8, 0), (16, token), (16, round)] +
    2 ^ 96 * packBits (xs.map fun x => (10, x.1))
  [(BitVec.ofNat 512 one, false), (BitVec.ofNat 512 (packBits (xs.map fun x => (32, x.2))), false)]

/-- Route one token of a ROUTE (R291, R293, R294, R297): `t` its index in the entry. -/
def State.routeToken (s : State) (u p e : Nat) (d : ScatDesc) (t : Nat) (beats : List (Line × Bool)) : State :=
  let c := (s.plane u p).ctx
  let (x, s) := s.beginLayer c d
  if d.rounds * d.roundTokens ≤ x.routed then s.scatFault u 2 3 c d.layer 0
  else
    let n := x.base + x.routed / d.roundTokens
    let k := x.routed % d.roundTokens
    let gen := ((s.round c n).map (·.gen)).getD (s.mapGen c)
    match s.layerFor c gen d with
    | none => s.scatFault u 1 3 c d.layer 0
    | some es =>
      let s := if (s.round c n).isSome then s else s.openRound u c n (x.routed - k) d es
      let scores := (List.range d.experts).map fun i => natBits ((beats.getD (i / 16) (0, false)).1.toNat) (32 * (i % 16)) 32
      let xs := chooseExperts d.topk scores
      match xs.find? fun y => !mapTarget (es.getD y.1 0) with
      | some y => s.scatFault u 1 3 c d.layer y.1
      | none =>
        let ws := gateWeights d.gate (xs.map (·.2))
        let xs := (xs.zip ws).map fun y => (y.1.1, y.2)
        let pay := (List.range d.payLines).map fun i =>
          let l := s.opLine u ((enSrcA e + t * d.payLines + i) % 4096)
          (l.data, l.poison)
        let poison := pay.any (·.2) || beats.any (·.2)
        match s.round c n with
        | none => s
        | some r =>
          let (mask, s) := xs.zipIdx.foldl (fun (acc : Nat × State) y =>
            acc.2.placeChoice r k (s.plane u p).epoch pay poison y.2 y.1 acc.1) (0, s)
          if !(s.plane u p).valid then s
          else
            let rv := recordVa d n k
            let s := if s.mapped c rv 128 true then s.writeLines c rv (recordLines d ((r.first + k) % 65536) (n % 65536) mask xs)
              else s.vaFault c rv u true
            let s := s.setRound c n fun (y : Round) => { y with routed := y.routed + 1 }
            let s := s.setLayer { x with routed := x.routed + 1 }
            if k + 1 = d.roundTokens then s.closeRound c n else s

/-- The next token of a ROUTE can be dispatched: its round is open, or its bank free, or it is beyond the layer. -/
def State.routeReady (s : State) (c : Nat) (d : ScatDesc) : Bool :=
  match s.layerSt c d.layer with
  | none => s.bankFree c (((s.scat.next.find? fun p => p.1 == c).map (·.2)).getD 0)
  | some x =>
    let n := x.base + x.routed / d.roundTokens
    decide (d.rounds * d.roundTokens ≤ x.routed) || (s.round c n).isSome || s.bankFree c n

/-! ### Gathering beats -/

/-- Beats of a token: gate scores of a ROUTE, result lines of a RETURN. -/
def tokenBeats (form : Nat) (d : ScatDesc) : Nat := if form = 0 then (d.experts + 15) / 16 else if form = 3 then d.retLines else 0

/-- Rounds of input and beats of output of a SCATTER entry whose descriptor reads well. -/
def scatSize (d : ScatDesc) (e : Nat) : Nat × Nat :=
  let row := d.retLines * (if d.retFmt = 0 then 16 else 32)
  match enFormat e with
  | 0 => (enLen e * tokenBeats 0 d, 0)
  | 2 => (0, enLen e * ((row * codeBits d.outFmt + 511) / 512))
  | 3 => (enLen e * d.retLines, 0)
  | _ => (0, 0)

def State.gather (s : State) (u id : Nat) : Option Gather := s.scat.gathers.find? fun (g : Gather) => g.uid == u && g.id == id
def State.setGather (s : State) (g : Gather) : State :=
  { s with scat := { s.scat with gathers := s.scat.gathers.filter (fun (x : Gather) => !(x.uid == g.uid && x.id == g.id)) ++ [g] } }
def State.dropGather (s : State) (u id : Nat) : State :=
  { s with scat := { s.scat with gathers := s.scat.gathers.filter fun (x : Gather) => !(x.uid == u && x.id == id) } }

/-! ### Rows (R305) -/

/-- A record is complete. -/
def recordDone (w : Nat) : Bool :=
  (natBits w 32 16 ||| natBits w 16 16) == natBits w 0 16 && natBits w 48 4 == natBits w 52 4

/-- One FP32 operation on a value and the flags so far. -/
def NR.then (a : NR) (f : Nat → NR) : NR := let r := f a.bits; ⟨r.bits, a.fl ||| r.fl⟩

/-- One element of a combined row: kept weights and values, shared values (R305). -/
def combineElem (d : ScatDesc) (numctl : Nat) (kept : List (Nat × Nat)) (sharedVals : List Nat) : NR :=
  let t : NR := if d.renorm then kept.foldl (fun a x => a.then fun a => f32Add a x.1) ⟨0, 0⟩ else ⟨0, 0⟩
  let zero := d.renorm && natBits t.bits 0 31 == 0
  let weight := fun (w : Nat) => if d.renorm then f32Div w t.bits else ⟨w, 0⟩
  let acc : NR := if zero then ⟨0, t.fl⟩
    else kept.foldl (fun a x => let w := weight x.1; (⟨a.bits, a.fl ||| w.fl⟩ : NR).then fun a => f32Fma w.bits (widen d.retFmt x.2) a) ⟨0, t.fl⟩
  let acc := sharedVals.foldl (fun a v => a.then fun a => f32Fma d.sharedScale (widen d.retFmt v) a) acc
  acc.then fun a => narrowTo d.outFmt numctl a

/-- The row of the `k`-th token of a round as lines, whether it is poisoned, its numeric flags; none until the record is complete. -/
def State.combineRow (s : State) (r : Round) (numctl k : Nat) : Option (List (Line × Bool) × Bool × Nat) :=
  let d := r.desc
  match s.readVa r.ctx (recordVa d r.num k) 128 with
  | none => none
  | some (bs, bad) =>
    let num := leNat bs
    if !recordDone num then none
    else
      let w := codeBits d.retFmt
      -- a slot's result, and whether it is poisoned or cannot be read
      let slot := fun (i : Nat) => match s.readVa r.ctx (slotVa d r.num k i + 64) (64 * d.retLines) with
        | some (bs, b) => (leNat bs, b)
        | none => (0, true)
      let chosen := (List.range 16).filter fun i => natBit num i && !natBit num (16 + i)
      let got := chosen.map slot
      let kept := (chosen.zip got).map fun x => (natBits num (512 + 32 * x.1) 32, x.2.1)
      let shared := (List.range d.shared).map fun i => slot (d.topk + i)
      let sh := shared.map (·.1)
      let out := (List.range (d.retLines * 512 / w)).map fun j =>
        combineElem d numctl (kept.map fun x => (x.1, natBits x.2 (w * j) w)) (sh.map fun x => natBits x (w * j) w)
      let poison := natBit num 56 || bad || (got ++ shared).any (·.2)
      some (packLines (codeBits d.outFmt) (out.map fun o => (o.bits, poison)), poison, out.foldl (fun a o => a ||| o.fl) 0)

/-- Rows of a COMBINE that can be emitted now, at most `n`, in token order: their beats and how many. -/
def State.combineRows (s : State) (u p : Nat) (d : ScatDesc) : Nat → List Beat × Nat × State
  | 0 => ([], 0, s)
  | n + 1 =>
    let pl := s.plane u p
    match s.layerSt pl.ctx d.layer with
    | none => ([], 0, s)
    | some x =>
      match s.round pl.ctx (x.base + x.emitted / d.roundTokens) with
      | none => ([], 0, s)
      | some r =>
        let k := x.emitted % d.roundTokens
        if r.routed ≤ k then ([], 0, s)
        else match s.combineRow { r with desc := d } (recNumctl pl.cfg) k with
          | none => ([], 0, s)
          | some (ls, poison, fl) =>
            let s := s.numFlags u fl 0 0 0
            let s := s.setLayer { x with emitted := x.emitted + 1 }
            let s := s.setRound pl.ctx r.num fun (y : Round) => { y with combined := y.combined + 1 }
            let s := s.bump .SCAT_COMBINED_COUNT 1 (seatOff (seatOf u))
            let bs := ls.map fun l => ({ data := l.1, epoch := pl.epoch, poison := poison } : Beat)
            let (more, m, s) := s.sweepRounds.combineRows u p d n
            (bs ++ more, m + 1, s)

/-- COMBINE entries in flight of a context go on with rows now complete. -/
def State.combinePump (s : State) (c : Nat) : State :=
  (s.scat.gathers.filter fun (g : Gather) => g.form == 2 && g.ctx == c).foldl (fun s (g : Gather) =>
    match (s.unit g.uid).inflight.find? fun f => f.id == g.id with
    | none => s.dropGather g.uid g.id
    | some f =>
      let (bs, m, s) := s.combineRows g.uid f.plane g.desc f.inLeft
      let mask := enOutMask (recEntry (s.plane g.uid f.plane).cfg f.entry)
      let s := s.pushBeats g.uid f.plane mask g.id (bs.map fun (b : Beat) => { b with pred := f.pred })
      let s := s.setFlight g.uid g.id fun y => { y with inLeft := y.inLeft - m }
      if f.inLeft ≤ m then s.dropGather g.uid g.id else s) s

/-! ### Returns (R301, R302, R306) -/

/-- A return frame's last line lands at its slot (R302): the frame is checked against the record, written, and ARRIVED set. -/
def State.landReturn (s : State) (c va : Nat) (frame : List (Line × Bool)) : State :=
  if !(s.ctx c).valid then s
  else
    let bad := fun (s : State) (u layer e : Nat) => s.scatFault u 5 3 c layer e
    let hl := frame.headD (0, false)
    match hdrOfLine hl.1 with
    | none => bad s ((s.scat.rounds.find? fun (r : Round) => r.ctx == c).elim 0 (·.uid)) 0 0
    | some h =>
      match s.scat.rounds.find? fun (r : Round) => r.ctx == c && r.num % 65536 == h.round && r.desc.layer == h.layer with
      | none => bad s 0 h.layer h.expert
      | some r =>
        let d := r.desc
        let k := (h.token + 65536 - r.first % 65536) % 65536
        let num := (s.numVa c (recordVa d r.num k) 128).getD 0
        let same := decide (k < r.routed) && va == slotVa d r.num k h.choice && natBits num 64 16 == h.token && natBits num 80 16 == h.round &&
          (if natBit h.flags 1 then decide (d.topk ≤ h.choice) && decide (h.choice < d.topk + d.shared)
           else decide (h.choice < d.topk) && natBit num h.choice && natBits num (96 + 10 * h.choice) 10 == h.expert)
        if !same then bad s r.uid h.layer h.expert
        else
          let seen := if natBit h.flags 1 then natBit num (48 + (h.choice - d.topk)) else natBit num (32 + h.choice)
          let at_ := if natBit h.flags 1 then 48 + (h.choice - d.topk) else 32 + h.choice
          let poison := natBit h.flags 0 || frame.any (·.2)
          let num := if seen then num else num + 2 ^ at_
          let num := if poison && !natBit num 56 then num + 2 ^ 56 else num
          let s := s.writeLines c va frame
          let s := s.writeLine c (recordVa d r.num k) (BitVec.ofNat 512 num, false)
          let s := s.setRound c r.num fun (y : Round) => { y with owed := if seen || natBit h.flags 1 then y.owed else y.owed - 1 }
          (s.combinePump c).sweepRounds

/-- The header line of a RETURN's token (R301): its fault, if it has one. -/
def State.entryCheck (s : State) (u p e : Nat) (d : ScatDesc) (t : Nat) : Option Nat :=
  let pl := s.plane u p
  match hdrOfLine (s.opLine u ((enSrcB e + t) % 4096)).data with
  | none => some 3
  | some h => if h.ctx != pl.ctx || h.layer != d.layer then some 3 else if h.flags / 16 != pl.epoch then some 4 else none

/-- A RETURN writes a token's frame (R302): to this module's own combine slot, or to its source. -/
def State.returnFrame (s : State) (u p e t : Nat) (ls : List (Line × Bool)) : State :=
  let c := (s.plane u p).ctx
  let l := s.opLine u ((enSrcB e + t) % 4096)
  match hdrOfLine l.data with
  | none => s
  | some h =>
    let poison := natBit h.flags 0 || l.poison || ls.any (·.2)
    let h := { h with flags := h.flags / 2 * 2 + bit poison }
    let frame := (lineOfBytes (h.bytes ++ List.replicate 32 0), false) :: ls
    match s.translate c h.ret true with
    | none => s.vaFault c h.ret u true
    | some (a, _) =>
      let s := s.bump .SCAT_RETURNS_COUNT 1 (seatOff (seatOf u))
      if a / 2 ^ 45 = s.self then s.landReturn c h.ret frame
      else s.emit (.message "RETURN_FRAME" (a / 2 ^ 45) (c :: h.ret :: frame.flatMap fun x => [bit x.2, x.1.toNat]))

/-- Take one beat into a gather; a token whose beats are complete is dispatched, or its frame written. -/
def State.takeBeat (s : State) (g : Gather) (p e : Nat) (b : Beat) : State :=
  let bs := g.beats ++ [(b.data, b.poison || b.null)]
  match if g.form = 3 ∧ g.beats = [] then s.entryCheck g.uid p e g.desc g.token else none with
  | some f => s.scatFault g.uid f 3 g.ctx g.desc.layer ((hdrOfLine (s.opLine g.uid ((enSrcB e + g.token) % 4096)).data).elim 0 (·.expert))
  | none =>
    if bs.length < tokenBeats g.form g.desc then s.setGather { g with beats := bs }
    else
      let s := if g.form = 0 then s.routeToken g.uid p e g.desc g.token bs else s.returnFrame g.uid p e g.token bs
      if (s.ctx g.ctx).valid then s.setGather { g with token := g.token + 1, beats := [] } else s

/-- The next beat may be taken: one that completes a ROUTE's token waits while its round cannot open. -/
def State.gatherReady (s : State) (g : Gather) : Bool :=
  g.form != 0 || decide (g.beats.length + 1 < tokenBeats 0 g.desc) || s.routeReady g.ctx g.desc

/-! ### The four functions at the catch -/

/-- A SCATTER entry's descriptor as its catch reads it: the fault it raises, or the descriptor. -/
def State.catchDesc (s : State) (u p e : Nat) : Except State ScatDesc :=
  let c := (s.plane u p).ctx
  if !s.mapped c (enDesc e) 64 false then .error (s.vaFault c (enDesc e) u false)
  else match s.readDesc c (enDesc e) with
    | none => .error (s.scatFault u 0 3 c 0 0)
    | some d => .ok d

/-- ROUTE and RETURN: the first beat of the first token. -/
def workBeats (s : State) (u p e : Nat) : Work :=
  match s.catchDesc u p e with
  | .error s => { s := s }
  | .ok d =>
    let g : Gather := { uid := u, id := (s.unit u).nextId - 1, form := enFormat e, ctx := (s.plane u p).ctx, desc := d }
    match maskPorts (enInPop e) with
      | [] => { s := s }
      | n :: _ => match s.headBeat u p n with
        | none => { s := s }
        | some b =>
          let left := (scatSize d e).1 - 1
          let s := s.takeBeat g p e b
          { s := if left = 0 then s.dropGather u g.id else s, left := left }

/-- Rounds of a layer from the `i`-th on run empty (R285, R291). -/
def State.emptyRounds (s : State) (u c : Nat) (x : LayerSt) (d : ScatDesc) (es : List Nat) : Nat → Nat → State
  | 0, _ => s
  | n + 1, i => ((s.openRound u c (x.base + i) (i * d.roundTokens) d es).closeRound c (x.base + i)).emptyRounds u c x d es n (i + 1)

/-- CLOSE (R291). -/
def workClose (s : State) (u p e : Nat) : Work :=
  match s.catchDesc u p e with
  | .error s => { s := s }
  | .ok d =>
    let c := (s.plane u p).ctx
    match s.layerFor c (s.mapGen c) d with
    | none => { s := s.scatFault u 1 3 c d.layer 0 }
    | some es =>
      let (x, s) := s.beginLayer c d
      let used := (x.routed + d.roundTokens - 1) / d.roundTokens
      let s := if x.routed % d.roundTokens = 0 then s else s.closeRound c (x.base + x.routed / d.roundTokens)
      let s := s.emptyRounds u c x d es (d.rounds - used) used
      { s := (s.setLayer { x with routed := d.rounds * d.roundTokens }).sweepRounds }

/-- COMBINE (R305): rows complete now leave; the others as they complete. -/
def workCombine (s : State) (u p e : Nat) : Work :=
  match s.catchDesc u p e with
  | .error s => { s := s }
  | .ok d =>
    let id := (s.unit u).nextId - 1
    let (bs, m, s) := s.combineRows u p d (enLen e)
    let s := if m < enLen e then s.setGather { uid := u, id := id, form := 2, ctx := (s.plane u p).ctx, desc := d } else s
    { s := s, outs := bs, left := enLen e - m, owes := (scatSize d e).2 }

/-- A catch of a SCATTER entry: a ROUTE whose first token cannot be dispatched, or whose payload lines are being written, waits; its payload
lines count as read while it is in flight (R48), and one whose payload lines leave the plane's window does not fire (R39). -/
def State.catchScatter (s : State) (u form : Nat) (work : State → Nat → Nat → Nat → Work) : State :=
  let e := s.curEntry u
  let d := s.readDesc (s.plane u (s.curPlane u)).ctx (enDesc e)
  let size := fun (cfg e : Nat) => d.elim (entrySize cfg e) fun d => scatSize d e
  let lines := d.elim [] fun d => if form = 0 then [(enSrcA e, enLen e * d.payLines)] else []
  let waits := form == 0 && !(s.plane u (s.curPlane u)).suppresses e && d.elim false fun d =>
    (tokenBeats 0 d == 1 && !s.routeReady (s.plane u (s.curPlane u)).ctx d) || !s.hazardFree u lines []
  let mine := fun (e : Nat) => enClass e == 10 && enFormat e == form
  if waits then s
  else if s.fires u mine && !(lines.all (inOpsWindow (s.plane u (s.curPlane u)).cfg)) then s.entryFault u (s.curPlane u) 12 3
  else
    let id := (s.unit u).nextId
    let t := s.catchEntry u mine work size
    if form = 0 then t.setFlight u id fun f => if f.suppressed then f else { f with reads := lines } else t

/-- STREAMING_BEAT_CONSUME of a SCATTER entry in flight: its next beat, or more rows of a COMBINE. -/
def State.scatterBeat (s : State) (u : Nat) (f : InFlight) : State :=
  let p := f.plane
  let e := recEntry (s.plane u p).cfg f.entry
  if f.inLeft = 0 || s.asleep (seatOf u) then s
  else if f.suppressed then
    if !(f.inPorts.all fun n => (s.headBeat u p n).isSome) then s
    else (s.popBeats u p (enInPop e)).setFlight u f.id fun y => { y with inLeft := y.inLeft - 1, taken := y.taken + 1 }
  else if enFormat e = 2 then s.combinePump (s.plane u p).ctx
  else match s.gather u f.id, f.inPorts with
    | some g, n :: _ => match s.headBeat u p n with
      | none => s
      | some b =>
        if !s.gatherReady g || !(f.inPorts.all fun n => (s.headBeat u p n).isSome) then s
        else
          let s := if b.null then s.unitFault u 10 0 g.ctx p f.entry 0 n 0 else s
          let s := s.takeBeat g p e b
          if !(s.plane u p).valid then s
          else
            let s := s.popBeats u p (enInPop e)
            let s := s.setFlight u f.id fun y => { y with inLeft := y.inLeft - 1, taken := y.taken + 1 }
            if f.inLeft = 1 then s.dropGather u f.id else s
    | _, _ => s

/-- STREAMING_BEAT_CONSUME. -/
def State.consumeBeat (s : State) (u id : Nat) : State :=
  match (s.unit u).inflight.find? (fun f => f.id == id) with
  | none => s
  | some f => if f.opclass = 10 then s.scatterBeat u f else s.streamBeat u id

/-! ### Queue controllers (R298, R299) -/

/-- The COUNT and INFO words of a region's bank. -/
def countVa (queue bank region : Nat) : Nat := queue + 64 + (64 * bank + region) * 8
def infoVa (queue bank region : Nat) : Nat := queue + 1088 + (64 * bank + region) * 8

/-- Change a registered queue. -/
def State.setQueue (s : State) (c va : Nat) (f : QueueSt → QueueSt) : State :=
  { s with scat := { s.scat with queues := s.scat.queues.map fun (q : QueueSt) => if q.ctx == c && q.va == va then f q else q } }

/-- Add drops to an expert's overflow counter, saturating (R299). -/
def State.addOverflow (s : State) (c layer expert n : Nat) : State :=
  match s.numVa c (s.mapBase c (s.mapGen c) + layerOff layer) 64 with
  | none => s
  | some h =>
    let a := layerOvf h + 4 * expert
    if n = 0 || layerOvf h = 0 then s
    else s.writeVa c a (leBytes 4 (min (2 ^ 32 - 1) ((s.numVa c a 4).getD 0 + n)))

/-- A count header is accepted: INFO, then COUNT with VALID set, and the drops to the overflow table. -/
def State.acceptCount (s : State) (q : QueueSt) (h : CountHdr) : State :=
  let b := h.round % 2
  let info := packBits [(32, h.dropped), (16, h.round), (15, h.src), (1, bit h.lost)]
  let s := s.writeVa q.ctx (infoVa q.va b h.region) (leBytes 8 info)
  let s := s.writeVa q.ctx (countVa q.va b h.region) (leBytes 8 (h.value % 2 ^ 32 + 2 ^ 63))
  let s := s.setQueue q.ctx q.va fun (y : QueueSt) => { y with reads := y.reads.filter fun (x : Nat × Nat) => x.1 != 64 * b + h.region }
  s.addOverflow q.ctx h.layer h.expert h.dropped

/-- A COUNT word is still unread. -/
def State.countUnread (s : State) (q : QueueSt) (bank region : Nat) : Bool := natBit ((s.numVa q.ctx (countVa q.va bank region) 8).getD 0) 63

/-- A count header arrives at its queue (R299): accepted, or held while its bank is unread. -/
def State.countArrive (s : State) (c va : Nat) (h : CountHdr) : State :=
  match s.scat.queues.find? fun (q : QueueSt) => q.ctx == c && q.va == va with
  | none => s
  | some q =>
    if decide (64 ≤ h.region) then s
    else if s.countUnread q (h.round % 2) h.region || q.held.any fun (x : CountHdr) => x.region == h.region && x.round % 2 == h.round % 2 then
      (s.setQueue c va fun (y : QueueSt) => { y with held := y.held ++ [h] }).bump .SCAT_COUNT_HOLDS_COUNT 1 (seatOff q.seat)
    else s.acceptCount q h

/-- A held header is accepted once its bank has been read (R299). -/
def State.countRelease (s : State) (c va region bank : Nat) : State :=
  match s.scat.queues.find? fun (q : QueueSt) => q.ctx == c && q.va == va with
  | none => s
  | some q => match q.held.find? fun (x : CountHdr) => x.region == region && x.round % 2 == bank with
    | none => s
    | some h => if s.countUnread q bank region then s
      else (s.setQueue c va fun (y : QueueSt) => { y with held := y.held.erase h }).acceptCount { q with held := q.held.erase h } h

/-- A shape load of the context read a word: a COUNT word read READERS times is cleared for its bank's next use (R299). -/
def State.countRead (s : State) (c va : Nat) : State :=
  match s.scat.queues.find? fun (q : QueueSt) => q.ctx == c && decide (q.va + 64 ≤ va) && decide (va < q.va + 1088) with
  | none => s
  | some q =>
    let w := (va - q.va - 64) / 8
    let n := ((q.reads.find? fun x => x.1 == w).map (·.2)).getD 0 + 1
    let readers := atLeast1 ((s.numVa c (q.va + 9) 1).getD 1)
    if readers ≤ n then
      (s.writeVa c (countVa q.va 0 0 + 8 * w) (leBytes 8 0)).setQueue c q.va fun (y : QueueSt) => { y with reads := y.reads.filter fun (x : Nat × Nat) => x.1 != w }
    else s.setQueue c q.va fun (y : QueueSt) => { y with reads := SMap.put y.reads w n }

/-- A shape load with the counting of a COUNT word: it was read when the load no longer waits for it. -/
def State.shapeCounted (s : State) (u p k : Nat) (load : State → State) : State :=
  let pl := s.plane u p
  let t := load s
  let pl' := t.plane u p
  match pl.asked k with
  | some (_, va) => if pl.valid && pl'.valid && (pl'.limits != pl.limits || pl'.nextLimits != pl.nextLimits) then t.countRead pl.ctx va else t
  | none => t

/-- The source sends a region's count header once its entry writes are acknowledged (R298): to its own controller, or to the home. -/
def State.countSend (s : State) (c n expert : Nat) : State :=
  match s.scat.rounds.find? fun (r : Round) => r.ctx == c && r.num % 65536 == n && r.regions.any fun (g : Region) => g.expert == expert && !g.sent with
  | none => s
  | some r => match r.regions.find? fun (g : Region) => g.expert == expert && !g.sent with
    | none => s
    | some g =>
      -- every entry write to the region acknowledged
      let base := entryVa r.desc g r.num 0
      let open_ := s.fab.writes.any fun (w : RemoteWrite) =>
        w.ctx == c && decide (base ≤ w.va) && decide (w.va < base + g.quota * entryBytes10 r.desc)
      if r.closedAt.isNone || open_ then s
      else
        let v := min g.picks g.quota
        let h : CountHdr := { layer := r.desc.layer, expert := expert, region := g.region, round := n, value := v, dropped := g.picks - v, src := s.self,
                              lost := false }
        let s := s.setRound c r.num fun (y : Round) =>
          { y with regions := y.regions.map fun (x : Region) => if x.expert == expert then { x with sent := true } else x }
        let s := if v = 0 then s.bump .SCAT_ZERO_COUNTS_COUNT 1 (seatOff (seatOf r.uid)) else s
        let s := if g.home = s.self then s.countArrive c g.queue h
          else s.emit (.message "COUNT_HEADER" g.home [c, g.queue, h.layer, h.expert, h.region, h.round, h.value, h.dropped, h.src])
        s.sweepRounds

/-- RETURN_TIMEOUT (R306): a round not complete RETURN_US after it closed; the count pauses during a replay (R307). -/
def State.returnTimeout (s : State) (c n : Nat) : State :=
  match s.scat.rounds.find? fun (r : Round) => r.ctx == c && r.num % 65536 == n with
  | none => s
  | some r => match r.closedAt with
    | none => s
    | some t =>
      let bound := clamp 1 100000 (s.getF .SCAT_CTRL_RETURN_US (seatOff (seatOf r.uid))) * 1000
      let open_ := (List.range r.routed).any fun k => !recordDone ((s.numVa c (recordVa r.desc r.num k) 128).getD 0)
      if open_ && decide (t + bound ≤ s.now) && !s.step.replay then s.scatFault r.uid 6 3 c r.desc.layer 0 else s

/-! ### Losses (R307) -/

/-- Returns still owed by a lost home are marked arrived with LOST set; the step is a replay step. Answers whether any was. -/
def State.loseHome (s : State) (m : Nat) : State :=
  s.scat.rounds.foldl (fun s (r : Round) =>
    let mine := (r.regions.filter fun (g : Region) => g.home == m).map fun (g : Region) => g.expert
    let (n, s) := (List.range r.routed).foldl (fun (acc : Nat × State) k =>
      let num := (acc.2.numVa r.ctx (recordVa r.desc r.num k) 128).getD 0
      let lost := (List.range r.desc.topk).filter fun i =>
        natBit num i && !natBit num (16 + i) && !natBit num (32 + i) && mine.contains (natBits num (96 + 10 * i) 10)
      if lost = [] then acc
      else
        let num := num + (lost.foldl (fun a i => a + 2 ^ (32 + i)) 0)
        let num := if natBit num 57 then num else num + 2 ^ 57
        (acc.1 + lost.length, acc.2.writeLine r.ctx (recordVa r.desc r.num k) (BitVec.ofNat 512 num, false))) (0, s)
    if n = 0 then s
    else
      let s := s.setRound r.ctx r.num fun (y : Round) => { y with owed := y.owed - n }
      let s := s.scatFault r.uid 7 1 r.ctx r.desc.layer 0
      let s := if s.step.replay then s else s.bump .SCAT_REPLAYS_COUNT 1 (seatOff (seatOf r.uid))
      let s := { s with step := { s.step with replay := true } }
      (s.combinePump r.ctx).sweepRounds) s

/-- A source is lost: for each of its regions with no accepted header in the round under way, a header with VALUE 0 and LOST set. -/
def State.loseSource (s : State) (m : Nat) : State :=
  s.scat.queues.foldl (fun s (q : QueueSt) =>
    (List.range 64).foldl (fun s r =>
      let info := fun (b : Nat) => (s.numVa q.ctx (infoVa q.va b r) 8).getD 0
      let heard := fun (b : Nat) => natBits (info b) 48 15 == m && info b != 0
      if !heard 0 && !heard 1 then s
      else
        let newer := if heard 0 && heard 1 then (if (natBits (info 0) 32 16 + 1) % 65536 == natBits (info 1) 32 16 then 1 else 0) else if heard 0 then 0 else 1
        let n := (natBits (info newer) 32 16 + 1) % 65536
        if s.countUnread q (n % 2) r then s
        else s.acceptCount q { layer := 0, expert := 0, region := r, round := n, value := 0, dropped := 0, src := m, lost := true }) s) s

/-- A survivor raises REGIONS of its queues to cover the pair regions, G to 2G - 1 (R307). -/
def State.raiseRegions (s : State) : State :=
  s.scat.queues.foldl (fun s (q : QueueSt) =>
    let rmax := (s.numVa q.ctx (q.va + 8) 1).getD 0
    s.writeVa q.ctx q.va (leBytes 8 (min rmax (2 * q.group) + 2 ^ 63))) s

/-- A step launches: the contexts' round counters start at 0 and their layers anew (R285). -/
def State.resetRounds (s : State) (cs : List Nat) : State :=
  { s with scat := { s.scat with
      layers := s.scat.layers.filter fun (x : LayerSt) => !cs.contains x.ctx
      next := s.scat.next.filter fun (x : Nat × Nat) => !cs.contains x.1 } }

/-! ### The expert map (R286-R289) -/

/-- A map's header and layer blocks as bytes. -/
def State.mapBytes (s : State) (c va : Nat) : Option (List Nat) :=
  match s.numVa c va 64 with
  | none => none
  | some h =>
    let layers := natBits h 48 16
    if layers = 0 || 512 < layers then none
    else match s.readVa c va (layerOff layers) with
      | some (bs, false) => some (bs.map (·.toNat))
      | _ => none

/-- The number in bytes of a string. -/
def mapNum (bs : List Nat) (byte len : Nat) : Nat := natOfBytes ((bs.drop byte).take len)

/-- The entries below E of a layer of a map string. -/
def mapEntries (bs : List Nat) (l : Nat) : List Nat :=
  (List.range (min 1024 (mapNum bs (layerOff l) 2))).map fun e => mapNum bs (layerOff l + 64 + 16 * e) 16

/-- MAP_BAD (Table 10.6). -/
def State.mapBad (s : State) (c : Nat) (bs : List Nat) : Bool :=
  let layers := mapNum bs 6 2
  let crc := crc32c (bs.take 60 ++ (bs.drop 64))
  let entryBad := fun (w : Nat) => mapQuota w == 0 || natBits w 56 8 != 0 || natBits w 102 26 != 0 || mapQueue w % 64 != 0
  let layerBad := fun (l : Nat) =>
    let o := layerOff l
    let n := mapNum bs o 2
    decide (1024 < n) || mapNum bs (o + 6) 2 != 0 || mapNum bs (o + 15) 1 != 0 || mapNum bs (o + 16) 48 != 0 ||
      (mapEntries bs l).any entryBad || mapNum bs (o + 64 + 16 * n) (16 * (1024 - n)) != 0
  let all := (List.range layers).flatMap fun l => mapEntries bs l
  mapNum bs 0 4 != 0x50414D58 || mapNum bs 4 2 != 1 || mapNum bs 10 1 != c || mapNum bs 11 49 != 0 || mapNum bs 60 4 != crc ||
    !(s.wpkg.versions.any fun (v : Version) => v.id == mapNum bs 8 2 && v.ctx == c) || (List.range layers).any layerBad ||
    all.any fun a => all.any fun b => mapQueue a == mapQueue b && mapQuota a != mapQuota b

/-- A layer that is not drop-free (R289). -/
def mapLimited (bs : List Nat) : Bool :=
  (List.range (mapNum bs 6 2)).any fun l =>
    (mapEntries bs l).any fun w => mapTarget w && decide (mapQuota w < mapNum bs (layerOff l + 2) 4)

/-- MAP_RANGE: a HOME outside the slice, a QUEUE not mapped. -/
def State.mapRange (s : State) (c : Nat) (bs : List Nat) : Bool :=
  let homes := if (s.ctx c).span then s.sliceOf (s.ctx c).slice else [s.self]
  (List.range (mapNum bs 6 2)).any fun l =>
    (mapEntries bs l).any fun w => !homes.contains (mapHome w) || !s.mapped c (mapQueue w) 64 false

/-- The scatter descriptors the context's placed planes name. -/
def State.rigDescs (s : State) (c : Nat) : List ScatDesc :=
  (s.planes.filter fun p => p.2.valid && p.2.ctx == c).flatMap fun p =>
    (((List.range (recEntries p.2.cfg)).map fun k => recEntry p.2.cfg k).filter fun e => enClass e == 10).filterMap fun e =>
      (s.numVa c (enDesc e) 64).bind scatDesc

/-- The seat whose memory a virtual address lies in; Bedrock counts with seat 0. -/
def State.seatOfVa (s : State) (c va : Nat) : Nat :=
  match s.translate c va false with
  | none => 0
  | some (a, _) =>
    let off := a % 2 ^ 45
    if off < 0x800000000 then off / 2 ^ 32
    else if 0x010000000000 ≤ off ∧ off < 0x022000000000 then (off - 0x010000000000) / 0x2400000000 else 0

/-- Pin and register what a map names: queues, overflow tables, combine areas (R287); REGIONS of a queue of this module is the size of its
expert group. -/
def State.adoptMap (s : State) (c : Nat) (bs : List Nat) : State :=
  let ds := s.rigDescs c
  let s := ds.foldl (fun s (d : ScatDesc) => s.fixRange c d.combine (2 * d.roundTokens * recordBytes d)) s
  (List.range (mapNum bs 6 2)).foldl (fun s l =>
    let es := mapEntries bs l
    let ovf := mapNum bs (layerOff l + 8) 7
    let s := if ovf = 0 then s else s.fixRange c ovf 4096
    let pay := ((ds.find? fun (d : ScatDesc) => d.layer == l).map entryBytes10).getD 64
    let group := (es.map mapHome).eraseDups.length
    es.foldl (fun s w =>
      let q := mapQueue w
      let rmax := (s.numVa c (q + 8) 1).getD 0
      let s := s.fixRange c q (2112 + 2 * rmax * mapQuota w * pay)
      if mapHome w ≠ s.self then s
      else
        let s := s.writeVa c q (leBytes 8 (group + 2 ^ 63))
        if s.scat.queues.any fun (x : QueueSt) => x.ctx == c && x.va == q then s
        else { s with scat := { s.scat with queues := s.scat.queues ++ [({ ctx := c, va := q, seat := s.seatOfVa c q, group := group } : QueueSt)] } }) s) s

/-- Room for a map copy at its base, allocated by cox firmware where there is none. -/
def State.mapRoom (s : State) (c gen n : Nat) : Option State :=
  let base := s.mapBase c gen
  if base != 0 && s.mapped c base n true then some s
  else
    let (va, s) := s.newVa c n false
    match s.mapPages c 1 2 true true false ((List.range ((n + 65535) / 65536)).map fun k => va + 65536 * k) with
    | .error _ => none
    | .ok s => some (if gen = 0 then s.setF .EXPMAP_BASE0_ADDR va (inst c) else s.setF .EXPMAP_BASE1_ADDR va (inst c))

/-- Write a validated map into the idle copy and flip GEN (R287-R289). -/
def State.flipMap (s : State) (c : Nat) (bs : List Nat) : Option State :=
  let gen := 1 - s.mapGen c
  match s.mapRoom c gen bs.length with
  | none => none
  | some s =>
    let s := s.writeVa c (s.mapBase c gen) (bs.map fun b => BitVec.ofNat 8 b)
    let had := s.flag .EXPMAP_CTRL_VALID (inst c)
    let s := s.setF .EXPMAP_CTRL_VALID 1 (inst c)
    let s := s.setF .EXPMAP_CTRL_GEN gen (inst c)
    let s := s.setF .EXPMAP_CTRL_SWAP_PEND (bit had) (inst c)
    let s := s.setF .EXPMAP_CTRL_CAP_LIMITED (bit (mapLimited bs)) (inst c)
    let s := s.setF .EXPMAP_LAYERS_LAYERS (mapNum bs 6 2) (inst c)
    let s := { s with scat := { s.scat with swaps := if had then SMap.put s.scat.swaps c s.now else s.scat.swaps } }
    let s := s.bump .EXPMAP_INSTALLS_COUNT 1 (inst c)
    let s := s.adoptMap c bs
    some (if mapLimited bs then (s.ctxRequests c).foldl (fun s i => s.modA i fun a => { a with deposit := 0 }) s else s)

/-- The status of an install (Table 10.6) and the state it leaves; `agree` says that every source's map gives this module's queues the same
QUOTA. -/
def State.installMap (s : State) (c va : Nat) (agree : Bool) : Nat × State :=
  if s.flag .EXPMAP_CTRL_SWAP_PEND (inst c) then (2, s)
  else match s.mapBytes c va with
    | none => (1, s)
    | some bs =>
      if s.mapBad c bs || !agree then (1, s)
      else if mapLimited bs && s.mirrored c then (3, s)
      else if s.mapRange c bs then (4, s)
      else match s.flipMap c bs with
        | none => (4, s)
        | some s => (0, s)

/-- A map string with its CHECK computed anew. -/
def mapSeal (bs : List Nat) : List Nat :=
  let body := bs.take 60 ++ bs.drop 64
  bs.take 60 ++ packBytes [(4, crc32c body)] ++ bs.drop 64

/-- A map entry of a lost home names its twin: the queue there, and the region of the pair, G regions on (R307). -/
def mapMoved (w twin queue group : Nat) : Nat :=
  packBits [(56, queue), (8, 0), (15, twin), (1, bit (mapTarget w)), (16, mapQuota w), (6, (mapRegion w + group) % 64), (26, 0)]

/-- Cox firmware of a source installs a map that names the lost home's twin (R307); `queues` gives the twin's queue for each queue lost. -/
def State.remapHome (s : State) (m twin : Nat) (queues : List (Nat × Nat)) (c : Nat) : State :=
  match s.mapBytes c (s.mapBase c (s.mapGen c)) with
  | none => s
  | some bs =>
    let layers := List.range (mapNum bs 6 2)
    if !(layers.any fun l => (mapEntries bs l).any fun w => mapHome w == m) || s.flag .EXPMAP_CTRL_SWAP_PEND (inst c) then s
    else
      let edit := fun (bs : List Nat) (l : Nat) =>
        let es := mapEntries bs l
        let group := (es.map mapHome).eraseDups.length
        let queueOf := fun (w : Nat) => ((queues.find? fun p => p.1 == mapQueue w).map (·.2)).getD (mapQueue w)
        let new := es.flatMap fun w => packBytes [(16, if mapHome w = m then mapMoved w twin (queueOf w) group else w)]
        bs.take (layerOff l + 64) ++ new ++ bs.drop (layerOff l + 64 + 16 * es.length)
      (s.flipMap c (mapSeal (layers.foldl edit bs))).getD s

/-- EXPMAP_RECLAIM (R288): 4 µs after the last round latched to the old copy closed. -/
def State.reclaimMap (s : State) (c : Nat) : State :=
  let t := ((s.scat.swaps.find? fun p => p.1 == c).map (·.2)).getD 0
  let busy := s.scat.rounds.any fun (r : Round) => r.ctx == c && r.gen != s.mapGen c && r.closedAt.isNone
  if !s.flag .EXPMAP_CTRL_SWAP_PEND (inst c) || busy || decide (s.now < t + 4000) then s
  else
    let s := s.setF .EXPMAP_CTRL_SWAP_PEND 0 (inst c)
    { s with scat := { s.scat with swaps := s.scat.swaps.filter fun (p : Nat × Nat) => p.1 != c } }

/-- MAP_INSTALL (Table 15.6, opcode 0x30). -/
def State.mapInstall (s : State) (r q : Nat) (agree : Bool) : State :=
  match s.launched r q 0x30 with
  | none => s
  | some c =>
    let (st, s) := s.installMap c.ctx (c.fld 32 0 56) agree
    let s := s.setF .EXPMAP_STATUS_LAST st (inst c.ctx)
    s.complete c st 0 0

/-- Every context whose map is valid. -/
def State.remapHomes (s : State) (m twin : Nat) (queues : List (Nat × Nat)) : State :=
  ((List.range 256).filter fun c => s.flag .EXPMAP_CTRL_VALID (inst c)).foldl (State.remapHome · m twin queues) s

def execScatterRoute (uid : Nat) (s : State) := done (s.catchScatter uid 0 workBeats)
def execScatterClose (uid : Nat) (s : State) := done (s.catchScatter uid 1 workClose)
def execScatterCombine (uid : Nat) (s : State) := done (s.catchScatter uid 2 workCombine)
def execScatterReturn (uid : Nat) (s : State) := done (s.catchScatter uid 3 workBeats)
def execMapInstall (r q : Nat) (agree : Bool) (s : State) := done (s.mapInstall r q agree)
def execExpmapReclaim (c : Nat) (s : State) := done (s.reclaimMap c)
def execCountHeaderSend (c round expert : Nat) (s : State) := done (s.countSend c round expert)
def execCountHeaderArrive (c queue : Nat) (h : CountHdr) (s : State) := done (s.countArrive c queue h)
def execCountHeaderRelease (c queue region bank : Nat) (s : State) := done (s.countRelease c queue region bank)
def execReturnFrameLand (c va : Nat) (frame : List (Line × Bool)) (s : State) := done (s.landReturn c va frame)
def execReturnTimeout (c round : Nat) (s : State) := done (s.returnTimeout c round)

end Sys2Proof.Machine
end

