-- ==== Sys2Proof/Machine/Vector.lean ====
section
/-! DEFINITION. The vector engine, the special-function block and row statistics on operand-store lines (R73-R77, R86, R87, R93-R103,
R110-R117). -/

namespace Sys2Proof.Machine

/-- Elements of `n` vectors of a scalar format, widened to FP32, with poison (R73, R76). -/
def State.vecIn (s : State) (u line code n : Nat) : List (Nat × Bool) :=
  (List.range (64 * n)).map fun k =>
    let x := s.opElem u line code k
    (widen code x.1, x.2)

/-- Write results, 64 a vector, from DST with a tag; their flags are recorded. -/
def State.vecOut (s : State) (u line code : Nat) (rs : List (NR × Bool)) : State :=
  let s := s.numFlags u (rs.foldl (fun a r => a ||| r.1.fl) 0) (rs.filter fun r => r.1.fl &&& flAccOvf != 0).length 0 0
  s.putOps u line code (packLines (codeBits code) (rs.map fun r => (r.1.bits, r.2)))

/-- An operation lane by lane on A and B. -/
def vecLanes (f : Nat → Nat → NR) (as bs : List (Nat × Bool)) : List (NR × Bool) :=
  as.zipWith (fun a b => (f a.1 b.1, a.2 || b.2)) bs

/-- A two-operand FP32 operation (R76); the lanes of a compare are handed back for PSET_OP. -/
def workVec2 (f : Nat → Nat → NR) (s : State) (u _p e : Nat) : Work :=
  let n := enLen e
  let rs := vecLanes f (s.vecIn u (enSrcA e) (enSrcFmt e) n) (s.vecIn u (enSrcB e) (enSrcFmt e) n)
  { s := s.vecOut u (enDst e) 0 rs, lanes := if enFormat e = 6 ∨ enFormat e = 7 then rs.map fun r => r.1.bits == f32One else [] }

/-- A scalar value as a wide partial, exactly (R73): which of the anchors that hold it exactly it takes is left open, and is a function of the value
(R90). -/
def widenWide (x : Nat) : Nat :=
  let free := Config.wideAnchor x
  match f32 x with
  | .nan => packWide 0 0 3
  | .inf s => packWide 0 0 (if s then 2 else 1)
  | .fin s m e =>
    if m = 0 then packWide 0 (((free % 509 : Nat) : Int) - 254) 0
    else
      let low : Int := (Nat.log2 m : Int) + e - 38
      let lo := if low < -254 then -254 else low
      let hi := if 254 < e + 108 then 254 else e + 108
      let a := lo + ((free % ((hi - lo).toNat + 1) : Nat) : Int)
      packWide (sInt s m * 2 ^ (e + 108 - a).toNat) a 0

/-- VEC ADD: FP32, or DST + A on wide partials (R76, R86). -/
def workVecAdd (s : State) (u p e : Nat) : Work :=
  if enDstFmt e = 9 then
    let n := enLen e
    let as := (List.range (64 * n)).map fun k =>
      let x := s.opElem u (enSrcA e) (enSrcFmt e) k
      (if enSrcFmt e = 9 then x.1 else widenWide (widen (enSrcFmt e) x.1), x.2)
    let ds := (List.range (64 * n)).map fun k => s.opElem u (enDst e) 9 k
    { s := s.vecOut u (enDst e) 9 (vecLanes wideAdd ds as) }
  else workVec2 f32Add s u p e

/-- VEC FMA: A x B + DST, DST read as FP32 (R76). -/
def workVecFma (s : State) (u _p e : Nat) : Work :=
  let n := enLen e
  let as := s.vecIn u (enSrcA e) (enSrcFmt e) n
  let bs := s.vecIn u (enSrcB e) (enSrcFmt e) n
  let ds := s.vecIn u (enDst e) 0 n
  let rs := (as.zip bs).zipWith (fun a d => (f32Fma a.1.1 a.2.1 d.1, a.1.2 || a.2.2 || d.2)) ds
  { s := s.vecOut u (enDst e) 0 rs }

/-- VEC SCALE_EXP: n is B's lane, a signed 32-bit integer (R76). -/
def workVecScaleExp (s : State) (u _p e : Nat) : Work :=
  let n := enLen e
  let bs := (List.range (64 * n)).map fun k => s.opElem u (enSrcB e) 0 k
  { s := s.vecOut u (enDst e) 0 (vecLanes f32ScaleExp (s.vecIn u (enSrcA e) (enSrcFmt e) n) bs) }

/-- Lists of 64. -/
def vectorsOf {α : Type} : Nat → List α → List (List α)
  | 0, _ => []
  | n + 1, l => l.take 64 :: vectorsOf n (l.drop 64)

/-- The result vector of a REDUCE (R77): lane 0 is the tree's; what the other lanes hold is left open, and is a function of the operation and the
lanes reduced (R90). -/
def reduceVector (f : Nat → Nat → NR) (op : Nat) (v : List (Nat × Bool)) : List (NR × Bool) :=
  let xs := v.map (·.1)
  let bad := v.any (·.2)
  (treeReduce f xs, bad) :: (List.range 63).map fun k => (⟨(Config.reduceLane op k xs).toNat, 0⟩, bad)

/-- A REDUCE (R77), vector by vector. -/
def workReduce (f : Nat → Nat → NR) (s : State) (u _p e : Nat) : Work :=
  let n := enLen e
  { s := s.vecOut u (enDst e) 0 ((vectorsOf n (s.vecIn u (enSrcA e) (enSrcFmt e) n)).flatMap (reduceVector f (enFormat e))) }

/-- The source values of a CVT as exact values, with poison and whether a NaN scale was met (R67, R75). -/
def State.cvtIn (s : State) (u e : Nat) : List (Nat × Nat × Bool) :=
  let sf := enSrcFmt e
  (List.range (64 * enLen e)).map fun k =>
    let x := s.opElem u (enSrcA e) sf k
    if mxTag sf then
      let c := s.opBits u (enSrcB e) (8 * (k / 32)) 8
      (x.1, c.1, x.2 || c.2)
    else (x.1, 0, x.2)

/-- Groups of 32. -/
def groupsOf {α : Type} : Nat → List α → List (List α)
  | 0, _ => []
  | n + 1, l => l.take 32 :: groupsOf n (l.drop 32)

/-- VEC CVT (R73-R75, R87): wide to FP32, scalar or MX to scalar, scalar or MX to MX blocks with their scales at SRC_B. -/
def workVecCvt (s : State) (u p e : Nat) : Work :=
  let nc := recNumctl (s.plane u p).cfg
  let sf := enSrcFmt e
  let df := enDstFmt e
  let xs := s.cvtIn u e
  let scaleNan := if mxTag sf && xs.any (fun x => x.2.1 == 0xFF) then flScaleNan else 0
  if mxTag df then
    let vals := xs.map fun x => ((if mxTag sf then mxVal sf x.2.1 x.1 else f32 (widen sf x.1)), x.2.2)
    let gs := (groupsOf (2 * enLen e) vals).map fun g => (narrowBlock df nc (g.map (·.1)), g.any (·.2))
    let s := s.numFlags u (gs.foldl (fun a g => a ||| g.1.2.2) scaleNan) 0 0 0
    let s := s.putOps u (enDst e) 15 (packLines (codeBits df) (gs.flatMap fun g => g.1.2.1.map fun b => (b, g.2)))
    { s := s.putOps u (enSrcB e) df (packLines 8 (gs.map fun g => (g.1.1, g.2))) }
  else
    let rs := xs.map fun x =>
      ((if sf = 9 then wideToF32 x.1 else if mxTag sf then cvtMx df nc (mxVal sf x.2.1 x.1) else cvtScalar sf df nc x.1), x.2.2)
    let s := s.numFlags u scaleNan 0 0 0
    { s := s.vecOut u (enDst e) df rs }

/-- SFN's work (R94-R103), for a built-in or a micro-program of the plane. -/
def workSfn (s : State) (u p e : Nat) : Work :=
  let cfg := (s.plane u p).cfg
  let rs := (List.range (64 * enLen e)).map fun k =>
    let x := s.opElem u (enSrcA e) (enSrcFmt e) k
    (sfnElem (recMp cfg) (enFormat e) (enSrcFmt e) (enDstFmt e) (recNumctl cfg) x.1, x.2)
  let s := s.numFlags u (rs.foldl (fun a r => a ||| r.1.fl) 0) 0 (rs.foldl (fun a r => a + r.1.ftz) 0) 0
  { s := s.putOps u (enDst e) (enDstFmt e) (packLines (codeBits (enDstFmt e)) (rs.map fun r => (r.1.bits, r.2))) }

/-! ### Row statistics -/

/-- A statistics record at slot `k` counted from a line, with poison (Table 4.9). -/
def State.statAt (s : State) (u line k : Nat) : StatRec × Bool :=
  let x := s.opBits u line (128 * k) 128
  (StatRec.ofBits x.1, x.2)

/-- ACC and RMS_ACC (R113): one record a lane, the tree, and with CONT the record at DST first; written into slot RSLOT of line DST. With a record
of the other KIND at DST the outcome is that of a MERGE of the two (R117), which the manual states of a MERGE alone: the model's choice (log 106). -/
def workStatRow (lane : MR → Nat → MR) (seed : StatRec) (s : State) (u _p e : Nat) : Work :=
  let n := enLen e
  let xs := s.vecIn u (enSrcA e) (enDstFmt e) n
  let lanes := (vectorsOf n (xs.map (·.1))).foldl (fun (ls : List MR) v => ls.zipWith lane v) (List.replicate 64 ⟨seed, 0, 0⟩)
  let row := statTree lanes
  let slot := natBits (enFlags e) 5 2
  let line := s.opLine u (enDst e)
  let old := StatRec.ofBits (natBits line.data.toNat (128 * slot) 128)
  let cont := natBit (enFlags e) 4
  let m : MR := if cont then (let k := statMerge old row.r; ⟨k.r, row.fl ||| k.fl, row.cl + k.cl⟩) else row
  let s := s.numFlags u m.fl 0 0 m.cl
  let w := line.data.toNat - natBits line.data.toNat (128 * slot) 128 * 2 ^ (128 * slot) + m.r.toBits * 2 ^ (128 * slot)
  { s := s.setOpLine u (enDst e) { data := BitVec.ofNat 512 w, tag := 15, poison := line.poison || xs.any (·.2) } }

/-- MERGE (R112): DST[r] <- merge(DST[r], A[r]). -/
def workStatMerge (s : State) (u _p e : Nat) : Work :=
  let ms := (List.range (64 * enLen e)).map fun k =>
    let d := s.statAt u (enDst e) k
    let a := s.statAt u (enSrcA e) k
    (statMergeRead d.1 a.1, d.2 || a.2)
  let s := s.numFlags u (ms.foldl (fun a m => a ||| m.1.fl) 0) 0 0 (ms.foldl (fun a m => a + m.1.cl) 0)
  { s := s.putOps u (enDst e) 15 (packLines 128 (ms.map fun m => (m.1.r.toBits, m.2))) }

/-- FINISH (R115, R116): four FP32 values a record; epsilon the first FP32 of line SRC_B. -/
def workStatFinish (s : State) (u _p e : Nat) : Work :=
  let eps := s.opElem u (enSrcB e) 0 0
  let fs := (List.range (64 * enLen e)).map fun k =>
    let a := s.statAt u (enSrcA e) k
    (statFinish a.1 eps.1, a.2 || eps.2)
  let s := s.numFlags u (fs.foldl (fun a f => a ||| f.1.2.1) 0) 0 (fs.foldl (fun a f => a + f.1.2.2.2) 0) (fs.foldl (fun a f => a + f.1.2.2.1) 0)
  { s := s.putOps u (enDst e) 0 (packLines 32 (fs.flatMap fun f => f.1.1.map fun v => (v, f.2))) }

end Sys2Proof.Machine
end

