-- ==== Sys2Proof/Machine/Units.lean ====
section
/-! DEFINITION. The commands of a compute unit (chapters 02-04): events of its ports, sequencer and engines. A catch acts on the entry at
the current plane's position, and only when that entry is the command's. -/

namespace Sys2Proof.Machine

/-- An entry of a class. -/
def isClass (c : Nat) (e : Nat) : Bool := enClass e == c
/-- An entry of a class and FORMAT. -/
def isForm (c f : Nat) (e : Nat) : Bool := enClass e == c && enFormat e == f
/-- No engine work. -/
def workNone (s : State) (_u _p _e : Nat) : Work := { s := s }

def execEntrySkip (uid : Nat) (s : State) := done (s.skipEntry uid)
def execNop (uid : Nat) (s : State) := done (s.catchEntry uid (isClass 0) workNone)
def execMpass (uid : Nat) (s : State) := done (s.catchEntry uid (isClass 1) workMpass)
def execPassComplete (uid : Nat) (s : State) := done (s.passComplete uid)
def execVecAdd (uid : Nat) (s : State) := done (s.catchEntry uid (isForm 2 0) workVecAdd)
def execVecSub (uid : Nat) (s : State) := done (s.catchEntry uid (isForm 2 1) (workVec2 f32Sub))
def execVecMul (uid : Nat) (s : State) := done (s.catchEntry uid (isForm 2 2) (workVec2 f32Mul))
def execVecFma (uid : Nat) (s : State) := done (s.catchEntry uid (isForm 2 3) workVecFma)
def execVecMax (uid : Nat) (s : State) := done (s.catchEntry uid (isForm 2 4) (workVec2 f32Max))
def execVecMin (uid : Nat) (s : State) := done (s.catchEntry uid (isForm 2 5) (workVec2 f32Min))
def execVecCmpLt (uid : Nat) (s : State) := done (s.catchEntry uid (isForm 2 6) (workVec2 f32CmpLt))
def execVecCmpEq (uid : Nat) (s : State) := done (s.catchEntry uid (isForm 2 7) (workVec2 f32CmpEq))
def execVecCvt (uid : Nat) (s : State) := done (s.catchEntry uid (isForm 2 8) workVecCvt)
def execVecReduceSum (uid : Nat) (s : State) := done (s.catchEntry uid (isForm 2 9) (workReduce f32Add))
def execVecReduceMax (uid : Nat) (s : State) := done (s.catchEntry uid (isForm 2 10) (workReduce f32Max))
def execVecScaleExp (uid : Nat) (s : State) := done (s.catchEntry uid (isForm 2 11) workVecScaleExp)
def execSfnExp2 (uid : Nat) (s : State) := done (s.catchEntry uid (isForm 3 0) workSfn)
def execSfnExp (uid : Nat) (s : State) := done (s.catchEntry uid (isForm 3 1) workSfn)
def execSfnLog2 (uid : Nat) (s : State) := done (s.catchEntry uid (isForm 3 2) workSfn)
def execSfnRcp (uid : Nat) (s : State) := done (s.catchEntry uid (isForm 3 3) workSfn)
def execSfnRsqrt (uid : Nat) (s : State) := done (s.catchEntry uid (isForm 3 4) workSfn)
def execSfnSqrt (uid : Nat) (s : State) := done (s.catchEntry uid (isForm 3 5) workSfn)
def execSfnTanh (uid : Nat) (s : State) := done (s.catchEntry uid (isForm 3 6) workSfn)
def execSfnSigmoid (uid : Nat) (s : State) := done (s.catchEntry uid (isForm 3 7) workSfn)
def execSfnSilu (uid : Nat) (s : State) := done (s.catchEntry uid (isForm 3 8) workSfn)
def execSfnGelu (uid : Nat) (s : State) := done (s.catchEntry uid (isForm 3 9) workSfn)
def execSfnMicroprogram (uid : Nat) (s : State) := done (s.catchEntry uid (fun e => isClass 3 e && decide (10 ≤ enFormat e)) workSfn)
def execTsLoad (uid : Nat) (s : State) := done (s.catchEntry uid (isClass 4) workTsLoad)
def execTsStore (uid : Nat) (s : State) := done (s.catchEntry uid (isClass 5) workTsStore)
def execSelect (uid : Nat) (s : State) := done (s.catchEntry uid (isClass 6) workSelect)
def execForward (uid : Nat) (s : State) := done (s.catchEntry uid (isClass 7) workForward)
def execSend (uid : Nat) (s : State) := done (s.catchEntry uid (isClass 8) workSend)
def execRecv (uid : Nat) (s : State) := done (s.catchEntry uid (isClass 9) workRecv)
def execStatAcc (uid : Nat) (s : State) := done (s.catchEntry uid (isForm 11 0) (workStatRow accLane {}))
def execStatRmsAcc (uid : Nat) (s : State) := done (s.catchEntry uid (isForm 11 1) (workStatRow rmsLane { rms := true }))
def execStatMerge (uid : Nat) (s : State) := done (s.catchEntry uid (isForm 11 2) workStatMerge)
def execStatFinish (uid : Nat) (s : State) := done (s.catchEntry uid (isForm 11 3) workStatFinish)
def execStreamingBeatConsume (uid id : Nat) (s : State) := done (s.consumeBeat uid id)
def execBeatEmit (uid plane port : Nat) (s : State) := done (s.beatEmit uid (plane % 8) (port % 8))
def execEngineComplete (uid id : Nat) (x : EngineEnd) (s : State) := done (s.engineComplete uid id x)
def execShapeLoadComplete (uid plane ctr : Nat) (s : State) := 
  done (s.shapeCounted uid (plane % 8) (ctr % 16) fun s => s.shapeLoad uid (plane % 8) (ctr % 16))
def execShapeReread (uid plane ctr : Nat) (s : State) := 
  done (s.shapeCounted uid (plane % 8) (ctr % 16) fun s => s.shapeReread uid (plane % 8) (ctr % 16))
def execShapeTimeout (uid plane ctr : Nat) (s : State) := done (s.shapeTimeout uid (plane % 8) (ctr % 16))

end Sys2Proof.Machine
end

