-- ==== Sys2Proof/Machine/Sleep.lean ====
section
/-! DEFINITION. Seat sleep (R520-R526): refusal conditions, entry, saves, wake sources, restores, and the accesses and writes that a sleeping
seat holds. -/

namespace Sys2Proof.Machine

/-! ### Places -/

/-- The seat that a slot-table entry's output link leads to, by its register key. -/
def slotDest (key : Nat) : Nat :=
  let seat := (key % instStride - seatBase) / seatStride
  let sw := key / instStride % 1024
  match (Place.mk seat (sw / 32) (sw % 32)).next (key / instStride / 1024 % 8) with
  | some (q, _, _) => q.seat
  | none => seat

/-- Gateway-group entries of a seat and of the bridges that cross into it (R138, R520), with the seats their links lead to. -/
def gatewaysOf (k : Nat) : List (Nat × Nat × Nat) :=
  gatewayEntries.filterMap fun e =>
    let seat := (e.1 % instStride - seatBase) / seatStride
    let dest := slotDest e.1
    if seat = k ∨ dest = k then some (e.1, e.2, if seat = k then dest else seat) else none

/-- PWRCLK_STATE.SEAT_SLEEP and SEAT_MOVING follow the seats' phases. -/
def State.seatBits (s : State) : State :=
  let mask := fun (f : SeatPhase → Bool) => packBits ((List.range 8).map fun k => (1, bit (f (s.seat k).phase)))
  (s.setF .PWRCLK_STATE_SEAT_SLEEP (mask fun p => p == .asleep)).setF .PWRCLK_STATE_SEAT_MOVING (mask fun p => p == .entering || p == .waking)

/-- Enter a phase. -/
def State.setPhase (s : State) (k : Nat) (p : SeatPhase) : State := (s.setSeat k { s.seat k with phase := p }).seatBits

/-! ### Refusals (Table 18.4) -/

/-- A frame of the seat belongs to a context of another slice than 0, or to firmware. -/
def State.seatFrames (s : State) (k : Nat) : Bool :=
  let inSeat := fun (f : Nat) => seatOfOff (f * 65536) == some k
  (s.tiers.frames.any fun p => inSeat p.1 && (p.2.kind == 3 || ((p.2.kind == 1 || p.2.kind == 2) && (s.ctx p.2.ctx).slice != 0))) ||
    s.tiers.pt.any fun p => p.2.valid && p.2.leaf && firmwareRange p.2.va && p.2.addr / 2 ^ 45 == s.self && inSeat (p.2.addr % 2 ^ 45 / 65536)

/-- A valid slot-table entry outside the gateway groups that is the seat's, or crosses a bridge into it (R129, Table 18.4). -/
def State.seatSlots (s : State) (k : Nat) : Bool :=
  s.regs.any fun p => canonReg (canonOff (p.1 % instStride)) == Reg.NET_SW_DATA && slotValid p.2 && !slotGateway p.2 &&
    (seatOfKey p.1 == some k || slotDest p.1 == k)

/-- The code that refuses a seat's sleep, 0 for none. -/
def State.sleepRefusal (s : State) (k : Nat) : Nat :=
  let inSeat := fun (a : Nat) => a / 2 ^ 45 == s.self && seatOfOff (a % 2 ^ 45) == some k
  if s.flag .FAB_CTRL_EN then 1
  else if s.planes.any fun p => p.2.valid && seatOf (p.1 / 8) == k then 2
  else if s.seatSlots k then 3
  else if s.liveEntries.any fun i => i / 2048 == k then 4
  else if s.seatFrames k then 5
  else if s.tiers.migs.any fun m => inSeat m.oldAddr || inSeat m.newAddr then 6
  else if s.coll.insts.any fun x => x.desc.seat == k then 7
  else if s.streams.insts.any fun x => x.seat == k then 8
  else if decide (s.getF .KEEL_THERM_THROTTLE_C ≤ s.seatTj k) then 9
  else 0

/-! ### Entry (Table 18.5 E1-E4) -/

/-- Every seat's BRIDGE_ATT follows the seats' READY (R129). -/
def State.attachAll (s : State) : State := (List.range 8).foldl State.attachBridges s

/-- E1: gateway groups are cleared; the seat's network is no longer READY, and its bridges are detached at both ends. -/
def State.sleepStart (s : State) (k : Nat) : State :=
  let s := (gatewaysOf k).foldl (fun s e => s.clearSlot e.1) s
  ((s.setF .NET_STATUS_READY 0 (seatOff k)).attachAll).setPhase k .entering

/-- Put a save over the copy that does not hold the newest one (R523). -/
def nextSave (a b : Option Save) (regs : List (Nat × Word)) : Option Save × Option Save :=
  let ca := (a.map (·.count)).getD 0
  let cb := (b.map (·.count)).getD 0
  let x : Save := { count := max ca cb + 1, regs := regs }
  if cb < ca then (a, some x) else (some x, b)

/-- E2 to E4: what the seat holds is saved or lost (Tables 18.1, 18.3). -/
def State.sleepEnter (s : State) (k : Nat) : State :=
  let mine := s.regs.filter fun p => seatOfKey p.1 == some k
  let x := s.seat k
  let (a, b) := nextSave x.copyA x.copyB (mine.filter fun p => savedKey p.1)
  let s := s.setSeat k { x with copyA := a, copyB := b }
  let s := { s with
    regs := s.regs.filter fun p => seatOfKey p.1 != some k
    ops := s.ops.filter fun p => seatOf (p.1 / 4096) != k
    planes := s.planes.filter fun p => seatOf (p.1 / 8) != k
    inPorts := s.inPorts.filter fun p => seatOf (p.1 / 128) != k
    outPorts := s.outPorts.filter fun p => seatOf (p.1 / 128) != k
    switches := s.switches.filter fun p => p.1 / 1024 != k
    units := s.units.filterMap fun (p : Nat × UnitSt) =>
      if seatOf p.1 ≠ k then some p else if p.2.retired then some (p.1, { retired := true }) else none
    tiers := { s.tiers with tlb := s.tiers.tlb.filter fun t => t.tu != k && (t.tu < 16 || (t.tu - 16) / 8 != k)
                            walks := s.tiers.walks.filter fun t => t.tu != k }
    streams := { s.streams with stopped := s.streams.stopped.filter fun x => x != k } }
  (s.bump .PWRCLK_SEAT_SLEEPS_COUNT).setPhase k .asleep

/-! ### Waking (Table 18.5 X1-X4) -/

/-- X3: the gateway entries of the seat whose links join seats that are not in M2 are written (R520). -/
def State.openGateways (s : State) (k : Nat) : State :=
  (gatewaysOf k).foldl (fun s e => if e.2.2 ≠ k ∧ s.dark e.2.2 then s else s.regPut e.1 (BitVec.ofNat 64 e.2.1)) s

/-- The seat serves. -/
def State.seatServes (s : State) (k : Nat) : State := (s.setSeat k { s.seat k with wake := false }).setPhase k .awake

/-- A wake source of a seat: before E3 it aborts the entry, and the seat is READY again once its marker has 16 strokes behind it, as a network that went on
running has (R130); a sleeping seat is to wake (R524). -/
def State.wakeSeat (s : State) (k : Nat) : State :=
  match (s.seat k).phase with
  | .entering => ((s.openGateways k).seatServes k).netReady k
  | .asleep => s.setSeat k { s.seat k with wake := true }
  | _ => s

/-- The newest save whose CRC holds. -/
def newestSave (a b : Option Save) (okA okB : Bool) : Option Save :=
  match (if okA then a else none), (if okB then b else none) with
  | some x, some y => if x.count < y.count then some y else some x
  | some x, none => some x
  | none, y => y

/-- A seat whose save is lost: reset values, every generation drawn anew, built-in test before it serves (R523). -/
def State.restoreLost (s : State) (k : Nat) : State :=
  let s := s.pwrFault 5 1
  let s := (List.range 2048).foldl (fun s j =>
    let (r, s) := s.takeRandom
    let i := 2048 * k + j
    s.setEntry i { s.entry i with a := { (s.entry i).a with gen := 1 + r % (2 ^ 18 - 1) } }) s
  let s := s.setSeat k { s.seat k with testDue := true }
  (List.range 1024).foldl (fun s i => s.setF .UNIT_CTRL_OFFLINE 1 (unitOff (k * 2048 + i))) s

/-- SEAT_WAKE (X1, X2): the save is restored; X3 begins with the gateway groups. -/
def State.seatWake (s : State) (k : Nat) (okA okB : Bool) : State :=
  let x := s.seat k
  if x.phase != .asleep || !x.wake then s
  else
    let s := match newestSave x.copyA x.copyB okA okB with
      | some c => c.regs.foldl (fun (s : State) (p : Nat × Word) => s.regPut p.1 p.2) s
      | none => s.restoreLost k
    (s.setPhase k .waking).openGateways k

/-! ### Held accesses and writes (R525, R526) -/

/-- A line access that the frame's tag admits reads the line unless it writes all of it, and what the check finds then has its effect before the
access: 0 clean, 1 corrected and written back, else uncorrectable and poisoned (R212, R216, R218, R603). -/
def State.checkedAccess (s : State) (x : HeldAccess) : State :=
  let whole := x.write && x.first == 0 && decide (64 ≤ x.bytes.length)
  let s := if s.tagCheck x.ctx x.off x.gen x.write = none ∧ !whole then s.patrol x.off x.check else s
  s.tierAccess x.ctx x.off x.gen x.seat x.module x.write x.first x.bytes

/-- A line access: one that names a frame of a sleeping seat is held, and wakes it. -/
def State.seatAccess (s : State) (x : HeldAccess) : State :=
  let go := fun (s : State) => s.checkedAccess x
  match seatOfOff x.off with
  | none => go s
  | some k =>
    let s := s.wakeSeat k
    if s.asleep k then s.setSeat k { s.seat k with accesses := (s.seat k).accesses ++ [x] } else go s

/-- A write by cox firmware to a sleeping seat wakes it and takes effect after X4; other masters of a sleeping seat do not write. -/
def State.holdFor (s : State) (m : Master) (k : Nat) (w : HeldWrite) (act : State → State) : State :=
  if !s.asleep k || m.host then act s
  else if m != .cox then s
  else
    let s := s.wakeSeat k
    if s.asleep k then s.setSeat k { s.seat k with writes := (s.seat k).writes ++ [w] } else act s

/-- Do a held write. -/
def State.doHeld (s : State) (w : HeldWrite) : State :=
  match w with
  | .reg off size v => s.writeReg .cox off size v
  | .halt u v => s.writeHalt .cox u v
  | .offline u v => s.writeOffline .cox u v
  | .forceStatic u v => s.writeForceStatic .cox u v
  | .slot k sel v => s.slotSet k sel v
  | .fold u => s.foldCommit .cox u
  | .jobVoid k v => s.jobVoid .cox k v

/-- A seat whose save was lost has units that built-in test has not seen yet (R523, R590). -/
def State.testsDue (s : State) (k : Nat) : Bool :=
  (s.seat k).testDue && (List.range 1024).any fun i => s.flag .UNIT_CTRL_OFFLINE (unitOff (k * 2048 + i)) && !(s.unit (k * 2048 + i)).retired

/-- SEAT_WAKE_COMPLETE (X4): once the marker barrier of X3 has set NET_STATUS.READY (SEAT_NET_READY, R130), what was held is released; a seat whose save was
lost serves only once every unit is tested (R523). -/
def State.seatWakeComplete (s : State) (k : Nat) : State :=
  let x := s.seat k
  if x.phase != .waking || s.testsDue k || !s.flag .NET_STATUS_READY (seatOff k) then s
  else
    let s := (s.seatServes k).bump .PWRCLK_WAKES_COUNT
    let s := s.setSeat k { s.seat k with accesses := [], writes := [], testDue := false }
    let s := x.accesses.foldl State.checkedAccess s
    x.writes.foldl State.doHeld s

/-- A register write, to a sleeping seat's block among others. -/
def State.regWrite (s : State) (m : Master) (off size v : Nat) : State :=
  match seatOfKey (off / 8 * 8) with
  | some k => if k < 8 then s.holdFor m k (.reg off size v) fun s => s.writeReg m off size v else s.writeReg m off size v
  | none => s.writeReg m off size v

/-! ### Meanings -/

/-- REGISTER_WRITE (R13-R17, R59, R526). -/
def execRegisterWrite (m : Master) (off size v : Nat) (s : State) := done (s.pmcAfter (s.regWrite m off size v))
def execTierAccess (c off gen seat module : Nat) (write : Bool) (first : Nat) (bs : List Byte) (check : Nat) (s : State) :=
  done (s.seatAccess { ctx := c, off := off, gen := gen, seat := seat, module := module, write := write, first := first, bytes := bs, check := check })
def execHalt (m : Master) (uid v : Nat) (s : State) := done (s.holdFor m (seatOf uid) (.halt uid v) fun s => s.writeHalt m uid v)
def execOffline (m : Master) (uid v : Nat) (s : State) := done (s.holdFor m (seatOf uid) (.offline uid v) fun s => s.writeOffline m uid v)
def execForceStatic (m : Master) (uid v : Nat) (s : State) := done (s.holdFor m (seatOf uid) (.forceStatic uid v) fun s => s.writeForceStatic m uid v)
def execSlotTableWrite (m : Master) (seat v : Nat) (s : State) :=
  done (s.holdFor m (seat % 8) (.slot (seat % 8) (s.sel.get 0 (selKey m (Reg.NET_SW_SEL + seatOff (seat % 8)))) v) fun s => s.slotWrite m (seat % 8) v)
def execFoldCommit (m : Master) (uid : Nat) (s : State) := done (s.holdFor m (seatOf uid) (.fold uid) fun s => s.foldCommit m uid)
def execStreamJobVoid (m : Master) (seat v : Nat) (s : State) := done (s.holdFor m (seat % 8) (.jobVoid (seat % 8) v) fun s => s.jobVoid m (seat % 8) v)
def execSeatWake (seat : Nat) (okA okB : Bool) (s : State) := done (s.seatWake (seat % 8) okA okB)
def execSeatWakeComplete (seat : Nat) (s : State) := done (s.seatWakeComplete (seat % 8))

end Sys2Proof.Machine
end

