-- ==== Sys2Proof/Machine/Attention.lean ====
section
/-! DEFINITION. Attention's arithmetic (R258-R261, R265), which rigs carry out entry by entry, said once as functions of what a rig reads, and the
summary keys that a seal pass writes (R262). -/

namespace Sys2Proof.Machine

/-! ### Rows of K and V (R254) -/

/-- The exact values of one row of `dim` elements: element bits as a number, scale bytes of its groups of 32. -/
def rowVals (code : Nat) (elems : Nat) (scales : List Nat) (dim : Nat) : List Val :=
  (List.range dim).map fun d => mxVal code (scales.getD (d / 32) 0) (natBits elems (d * codeBits code) (codeBits code))

/-! ### The online softmax (R259) -/

/-- The state of a row: running maximum, sum, outputs, FP32 bits. -/
structure SoftState where
  m : Nat
  l : Nat
  o : List Nat
deriving DecidableEq, Repr

/-- The state before the first page. -/
def softStart (dim : Nat) : SoftState := ⟨nInf, 0, List.replicate dim 0⟩

/-- 2^x and 1 / x by the special-function block. -/
def softExp2 (x : Nat) : Nat := (sfnBuiltin 0 x).bits
def softRcp (x : Nat) : Nat := (sfnBuiltin 3 x).bits

/-- A reduction of 256 lanes: the tree of R77 over each of four vectors, the vectors in ascending order. -/
def reduce256 (f : Nat → Nat → NR) (xs : List Nat) : Nat :=
  let part := fun (k : Nat) => (treeReduce f ((xs.drop (64 * k)).take 64)).bits
  (f (f (f (part 0) (part 1)).bits (part 2)).bits (part 3)).bits

/-- The scores of a page's positions: `c` times the products, minus infinity where a position is masked or beyond the query's (R258). -/
def softScores (c : Nat) (xs : List (Option Nat)) : List Nat := xs.map fun x => match x with
  | none => nInf
  | some x => (f32Fma x c 0).bits

/-- One page: its scores, and its P.V as a function of the 256 weights. -/
def softPage (st : SoftState) (s : List Nat) (pv : List Nat → List Nat) : SoftState :=
  let mn := (f32Max st.m (reduce256 f32Max s)).bits
  if mn = nInf then st
  else
    let a := softExp2 (f32Sub st.m mn).bits
    let p := s.map fun x => softExp2 (f32Sub x mn).bits
    { m := mn, l := (f32Fma st.l a (reduce256 f32Add p)).bits, o := st.o.zipWith (fun o v => (f32Fma o a v).bits) (pv p) }

/-- The row's outputs; every position masked gives +0. -/
def softOut (st : SoftState) : List Nat :=
  if st.l = 0 then st.o.map fun _ => 0
  else st.o.map fun x => (f32Mul x (softRcp st.l)).bits

/-- A row over its attended pages in ascending order (R258, R259). -/
def softRow (dim : Nat) (pages : List (List Nat × (List Nat → List Nat))) : SoftState :=
  pages.foldl (fun st p => softPage st p.1 p.2) (softStart dim)

/-- Two states of a split row, the earlier run first (R261). -/
def softMerge (a b : SoftState) : SoftState :=
  let mn := (f32Max a.m b.m).bits
  if mn = nInf then a
  else
    let x := softExp2 (f32Sub a.m mn).bits
    let y := softExp2 (f32Sub b.m mn).bits
    { m := mn, l := (f32Fma a.l x (f32Mul b.l y).bits).bits, o := a.o.zipWith (fun o v => (f32Fma o x (f32Mul v y).bits).bits) b.o }

/-! ### P.V (R260) -/

/-- The weights of one group of 32 columns under the scales of its rows of V, rounded once (R76). -/
def pvScaled (p scales : List Nat) : List Nat := p.zipWith (fun x c => match scaleExp c with
  | some e => (f32ScaleExp x (e % 2 ^ 32).toNat).bits
  | none => fp32.nanBits) scales

/-- The scaled weights as the A operand of an MPASS: MXFP8 E4M3 along the positions, in blocks of 32 (R75). -/
def pvBlocks (numctl : Nat) (p : List Nat) : List OpBlock := (List.range 8).map fun k =>
  let b := narrowBlock 4 numctl (((p.drop (32 * k)).take 32).map f32)
  ⟨scaleExp b.1, b.2.1, false⟩

/-- V's element as FP8: E5M2 as it is, any other exactly as E4M3. -/
def pvElem (code b : Nat) : Nat := if code = 5 then b else match mxFmt code with
  | some f => (e4m3.rne (f.decode b)).bits
  | none => 0

/-- One column of the group: 256 elements as the B operand, 8 blocks without scale. -/
def pvColumn (code : Nat) (es : List Nat) : List OpBlock := (List.range 8).map fun k => ⟨some 0, ((es.drop (32 * k)).take 32).map (pvElem code), false⟩

/-- P.V of a page for one group: `v` holds the columns' elements, `scales` the scale byte of each of the 256 rows. -/
def pvGroup (code numctl : Nat) (scales : List Nat) (v : List (List Nat)) (p : List Nat) : List Nat :=
  let a := pvBlocks numctl (pvScaled p scales)
  v.map fun es => (passOutput e4m3 (if code = 5 then e5m2 else e4m3) false false a (pvColumn code es)).bits

/-! ### Scores of block selection (R265) -/

/-- A candidate's score: the BF16 dot products of the group's queries with the summary, in ascending head order. -/
def candScore (qs : List (List Nat)) (sum : List Nat) : Nat :=
  qs.foldl (fun a q => (f32Add a (bf16Chain (q.map fun x => (bf16.rne (f32 x)).bits) sum).bits).bits) 0

/-! ### Summary keys (R262) -/

/-- Element `d` of the mean of 256 rows: FP32 by fma in ascending position, times 2^-8, rounded to BF16. -/
def summaryKey (rows : List (List Val)) (d : Nat) : Nat :=
  let sum := rows.foldl (fun a r => (f32Fma (fp32.rne (r.getD d (.fin false 0 0))).bits f32One a).bits) 0
  (bf16.rne (f32 (f32Mul sum 0x3B800000).bits)).bits

/-- The summary of a layer and head of the page at `va`, and whether a line read for it is poisoned; none where it cannot be read. -/
def State.headSummary (s : State) (c va : Nat) (v : Version) (layer head : Nat) : Option (List Nat × Bool) :=
  let k := va + v.kOff layer head
  let w := v.dim * v.kvBits
  match s.readVa c k (32 * w), s.readVa c (k + 32 * w) (8 * v.dim) with
  | some (es, b1), some (cs, b2) =>
    let n := leNat es
    let rows := (List.range 256).map fun t =>
      rowVals v.kvFmt (natBits n (t * w) w) (((cs.drop (t * v.dim32)).take v.dim32).map (·.toNat)) v.dim
    some ((List.range v.dim).map (summaryKey rows), b1 || b2)
  | _, _ => none

/-- Every summary of a page in the order of Table 9.1, as bytes, and whether a K line of the page is poisoned. -/
def State.pageSummaries (s : State) (c va : Nat) (v : Version) : Option (List Byte × Bool) :=
  (((List.range v.layers).flatMap fun l => (List.range v.kvHeads).map fun h => s.headSummary c va v l h).mapM id).map fun rs =>
    (rs.flatMap fun r => r.1.flatMap fun x => leBytes 2 x, rs.any (·.2))

end Sys2Proof.Machine
end

