-- ==== Sys2Proof/Machine/Sample.lean ====
section
/-! DEFINITION. Sampling (chapter 12): parameter block, stop table and grammar record at admission, the treatment of logits, the draw, the
automaton. -/

namespace Sys2Proof.Machine

/-! ### What admission reads (R341, R342, R352, R353) -/

/-- The number in `len` bytes from `byte` on. -/
def rawNum (bs : List Byte) (byte len : Nat) : Nat := leNat ((bs.drop byte).take len)
/-- Bytes as numbers. -/
def natsOf (bs : List Byte) : List Nat := bs.map (·.toNat)
/-- A record's last four bytes are the CRC-32C of those before. -/
def crcOk (bs : List Byte) (n : Nat) : Bool := rawNum bs (n - 4) 4 == crc32c (natsOf (bs.take (n - 4)))

/-- Bytes a check needs: none where a line is unmapped, unreadable or poisoned (R316). -/
def State.readClean (s : State) (c va n : Nat) : Option (List Byte) :=
  match s.readVa c va n with
  | some (bs, false) => some bs
  | _ => none

/-- An FP32 that is a finite number. -/
def f32Finite (b : Nat) : Bool := natBits b 23 8 != 0xFF
/-- FP32 comparisons as IEEE 754 has them. -/
def f32Lt (a b : Nat) : Bool := (f32 a).lt (f32 b)
def f32Eq (a b : Nat) : Bool := (f32 a).eq (f32 b)

/-- The sampling parameter block (Table 12.1), but for its stop table: the block and STOPS, STOP_ADDR; none where a check fails. -/
def sampBlock (bs : List Byte) (constrained : Bool) : Option (SampBlk × Nat × Nat) :=
  let f := rawNum bs
  let temp := f 8 4
  let topP := f 12 4
  let minP := f 16 4
  let rep := f 24 4
  let fr := f 28 4
  let pr := f 32 4
  let stops := f 23 1
  let addr := f 40 8
  if crcOk bs 64 && (f32Eq temp 0 || (f32Finite temp && f32Lt 0 temp)) && f32Lt 0 topP && !f32Lt f32One topP && f32Finite topP &&
      !f32Lt minP 0 && f32Lt minP f32One && f32Finite minP && decide (f 20 2 ≤ 1024) && decide (f 22 1 < 2) && decide (stops ≤ 8) &&
      f32Finite rep && f32Lt 0 rep && f32Finite fr && f32Finite pr &&
      (!constrained || (f32Eq rep f32One && f32Eq fr 0 && f32Eq pr 0)) && f 36 4 == 0 && decide (addr < 2 ^ 56) && (stops == 0 || addr % 64 == 0) &&
      f 48 8 == 0 && f 56 4 == 0 then
    some ({ seed := f 0 8, temperature := temp, topP := topP, minP := minP, topK := f 20 2, penInput := f 22 1 == 1, repetition := rep,
            frequency := fr, presence := pr, stopAddr := addr }, stops, addr)
  else none

/-- An entry of the stop table (R342). -/
def stopEntry (bs : List Byte) (vocab : Nat) : Option (List Nat) :=
  let n := rawNum bs 0 4
  let ids := (List.range n).map fun i => rawNum bs (4 + 4 * i) 4
  if 1 ≤ n ∧ n ≤ 15 ∧ ids.all (fun t => decide (t < vocab)) = true ∧ (bs.drop (4 + 4 * n)).all (· == 0) = true then some ids else none

/-- Lines of a mask: ⌈V ÷ 512⌉ (R353). -/
def maskLines (vocab : Nat) : Nat := (vocab + 511) / 512

/-- The automaton header's checks (R353): the arrays overlap neither the header nor one another. -/
def headerGrammar (bs : List Byte) (table vocab : Nat) : Option Grammar :=
  let f := rawNum bs
  let parts : List (Nat × Nat) := [(0, 64), (f 24 8, 16 * f 12 4), (f 32 8, 8 * f 20 4), (f 40 8, 64 * maskLines vocab * f 6 2)]
  let apart := (orderBy (parts.filter fun p => p.2 != 0) fun a b => decide (a.1 ≤ b.1)).foldl
    (fun (acc : Bool × Nat) p => (acc.1 && decide (acc.2 ≤ p.1), p.1 + p.2)) (true, 0)
  if crcOk bs 64 && f 0 4 == 0x4D524741 && f 4 2 == 1 && f 8 4 == vocab && f 6 2 != 0 && f 12 4 != 0 && decide (f 12 4 ≤ 1048576) &&
      decide (f 20 4 ≤ 2 ^ 28) && decide (f 16 4 < f 12 4) && f 24 8 % 64 == 0 && f 32 8 % 64 == 0 && f 40 8 % 64 == 0 && apart.1 &&
      f 48 8 == 0 && f 56 4 == 0 then
    some { kind := 0, tableAddr := table, masks := f 6 2, states := f 12 4, start := f 16 4, trans := f 20 4, stateOff := f 24 8, transOff := f 32 8,
           maskOff := f 40 8, state := f 16 4 }
  else none

/-- A grammar record's own checks (Table 12.4): KIND, EOS_OK and TABLE_ADDR. -/
def grammarRec (bs : List Byte) (vocab : Nat) : Option (Nat × Bool × Nat) :=
  let f := rawNum bs
  if crcOk bs 64 && decide (f 0 1 < 2) && decide (f 1 1 < 2) && f 2 2 == 0 && decide (f 8 8 < 2 ^ 56) && f 8 8 % 64 == 0 && f 16 4 == vocab &&
      (bs.drop 20).take 40 == List.replicate 40 0 then some (f 0 1, f 1 1 == 1, f 8 8)
  else none

/-- What reading the option data answers: it cannot be read, it fails a check, or it is good. -/
inductive OptRead (α : Type) where
  | unreadable
  | bad
  | good (a : α)

/-- The stop table (R316, R342): read whole, then its entries checked. -/
def State.readStops (s : State) (c addr vocab n : Nat) : OptRead (List (List Nat)) :=
  let lines := (List.range n).map fun k => s.readClean c (addr + 64 * k) 64
  if lines.any (·.isNone) then .unreadable
  else
    let ids := lines.map fun l => l.bind fun bs => stopEntry bs vocab
    if ids.any (·.isNone) then .bad else .good (ids.map (·.getD []))

/-- The sampling block and its stop table. -/
def State.readSamp (s : State) (c ptr vocab : Nat) (constrained : Bool) : OptRead SampBlk :=
  match s.readClean c ptr 64 with
  | none => .unreadable
  | some bs => match sampBlock bs constrained with
    | none => .bad
    | some (b, n, addr) => match s.readStops c addr vocab n with
      | .unreadable => .unreadable
      | .bad => .bad
      | .good l => .good { b with stops := l }

/-- The grammar record and, of an automaton, its header. -/
def State.readGrammar (s : State) (c ptr vocab : Nat) : OptRead Grammar :=
  match s.readClean c ptr 64 with
  | none => .unreadable
  | some bs => match grammarRec bs vocab with
    | none => .bad
    | some (1, eos, t) => .good { kind := 1, eosOk := eos, tableAddr := t }
    | some (_, _, t) => match s.readClean c t 64 with
      | none => .unreadable
      | some hb => match headerGrammar hb t vocab with
        | none => .bad
        | some g => .good g

/-! ### Faults (Table 12.9) -/

/-- SAMP fault registers. -/
def sampRegs : FaultRegs := ⟨0x09, .SAMP_ERR_FLAGS, Reg.SAMP_ERR_INFO⟩
/-- A sampling fault: first-fault information handle, context, unit. -/
def State.sampFault (s : State) (b sev u handle c : Nat) : State :=
  s.fault sampRegs { block := 0x09, fault := b, sev := sev, scope := match sev with | 2 => .request handle | 3 => .context c | _ => .none,
                     ctx := some c, whereKind := 1, whereIs := u, info := packBits [(32, handle), (8, c), (14, u)], endCode := 0x07 }

/-! ### The row (R344-R348) -/

/-- The automaton at use (R354, R356): a row's mask and ACCEPT, or what goes wrong: 1 the automaton, 2 a mask's poison, 3 memory. -/
def State.maskOf (s : State) (c : Nat) (g : Grammar) (vocab : Nat) : Except Nat (List Byte × Bool) :=
  let n := 64 * maskLines vocab
  let get := fun (va : Nat) (acc : Bool) => match s.readVa c va n with
    | none => Except.error 3
    | some (_, true) => .error 2
    | some (bs, false) => .ok (bs, acc)
  if g.kind = 1 then get g.tableAddr g.eosOk
  else if g.states ≤ g.state then .error 1
  else match s.readVa c (g.tableAddr + g.stateOff + 16 * g.state) 16 with
    | none => .error 3
    | some (_, true) => .error 1
    | some (bs, false) =>
      let m := rawNum bs 0 2
      if g.masks ≤ m || decide (g.trans < rawNum bs 4 4 + rawNum bs 8 4) then .error 1
      else get (g.tableAddr + g.maskOff + n * m) (rawNum bs 2 1 % 2 == 1)

/-- Tokens of a state's transitions strictly rise. -/
def strictlyUp : List Nat → Bool
  | a :: b :: r => decide (a < b) && strictlyUp (b :: r)
  | _ => true

/-- The next state after a token other than end-of-sequence (R354, R356). -/
def State.nextState (s : State) (c : Nat) (g : Grammar) (t : Nat) : Except Nat Nat :=
  if g.kind = 1 then .ok g.state
  else match s.readVa c (g.tableAddr + g.stateOff + 16 * g.state) 16 with
    | none => .error 3
    | some (_, true) => .error 1
    | some (bs, false) =>
      match s.readVa c (g.tableAddr + g.transOff + 8 * rawNum bs 4 4) (8 * rawNum bs 8 4) with
      | none => if rawNum bs 8 4 = 0 then (if rawNum bs 12 4 < g.states then .ok (rawNum bs 12 4) else .error 1) else .error 3
      | some (_, true) => .error 1
      | some (tb, false) =>
        let es := (List.range (rawNum bs 8 4)).map fun i => (rawNum tb (8 * i) 4, rawNum tb (8 * i + 4) 4)
        let next := match es.find? (fun e => e.1 == t) with
          | some e => e.2
          | none => rawNum bs 12 4
        if !strictlyUp (es.map (·.1)) || decide (g.states ≤ next) then .error 1 else .ok next

/-- One logit treated (R344): `n` its count, `ok` that a mask allows it. Its z, as bits. -/
def treatLogit (b : SampBlk) (constrained : Bool) (l n : Nat) (ok : Bool) : Nat :=
  let l := if (f32 l).isNan then nInf else l
  let l := if !constrained && n != 0 then
      let l := if f32Lt 0 l then (f32Div l b.repetition).bits else (f32Mul l b.repetition).bits
      let l := (f32Fma (b.frequency ^^^ 0x80000000) (f32OfNat n) l).bits
      (f32Sub l b.presence).bits
    else l
  let l := if constrained && !ok then nInf else l
  if f32Eq b.temperature 0 then l else (f32Div l b.temperature).bits

/-- Greedy choice (R345): the largest z, ties to the lower token. -/
def greedyPick (zs : List (Nat × Nat)) : Option Nat :=
  (zs.foldl (fun (a : Option (Nat × Nat)) z => match a with
    | none => some z
    | some y => if f32Lt y.2 z.2 then some z else some y) none).map (·.1)

/-- Running sums in order. -/
def runSums (acc : Nat) : List Nat → List Nat
  | [] => []
  | e :: r => let a := (f32Add acc e).bits; a :: runSums a r

/-- The draw of R346 over the eligible tokens with their z, `u` in units of 2^-24. -/
def drawToken (b : SampBlk) (zs : List (Nat × Nat)) (u : Nat) : Option Nat :=
  let k := if b.topK = 0 then 1024 else b.topK
  let cs := (orderBy zs fun x y => f32Lt y.2 x.2 || (!f32Lt x.2 y.2 && decide (x.1 ≤ y.1))).take k
  match cs with
  | [] => none
  | c0 :: _ =>
    let es := cs.map fun c =>
      if c0.2 = pInf then (if c.2 = pInf then f32One else 0) else (sfnBuiltin 1 (f32Sub c.2 c0.2).bits).bits
    let kept := match es with
      | [] => []
      | e0 :: r => e0 :: r.takeWhile fun e => !f32Lt e b.minP
    let sums := runSums 0 kept
    let th := (f32Mul b.topP (sums.getLastD 0)).bits
    let m := (sums.findIdx? fun c => !f32Lt c th).getD (kept.length - 1)
    let s2 := sums.getD m 0
    let target := (f32Mul ((fp32.rne (.fin false u (-24))).bits) s2).bits
    let j := ((sums.take (m + 1)).findIdx? fun c => f32Lt target c).getD m
    (cs[j]?).map (·.1)

/-- The n-th 32-bit number of a string of beats. -/
def beatWord (beats : List (Line × Bool)) (t : Nat) : Nat × Bool :=
  match beats[t / 16]? with
  | some (d, p) => (natBits d.toNat (32 * (t % 16)) 32, p)
  | none => (0, true)

/-- SAMPLING_REQUEST (R343-R349): service unit `u` takes a request beat of context `c`'s rig and its logits, draws one token and hands it over
for commit. -/
def State.sampleRow (s : State) (u c : Nat) (req : Line) (beats : List (Line × Bool)) : State :=
  let h := natBits req.toNat 0 32
  match s.findHandle h with
  | none => s.sampFault 1 3 u h c
  | some i =>
    let e := s.entry i
    let v := s.version e.b.version
    if e.a.ctx ≠ c || e.a.state != .decode || natBits req.toNat 32 25 != e.a.curLen || natBits req.toNat 64 16 != e.b.version ||
        beats.length != (v.vocab + 15) / 16 then s.sampFault 1 3 u h c
    else
      let r := s.req i
      let b := r.samp
      let con := e.a.constrained
      let s := s.bump .SAMP_ROWS_COUNT
      let s := s.pmc 0x0E 1 (some c)
      let counts := if con then some ([], false) else s.readVa c e.b.penaltyPtr (4 * v.vocab)
      let recBad := con && (match s.readVa c e.b.grammarPtr 64 with | some (_, p) => p | none => false)
      let mask := if con then s.maskOf c r.grammar v.vocab else .ok ([], false)
      match counts, mask with
      | none, _ => s.tiersFault 3 3 (some c) e.b.penaltyPtr 0
      | _, .error 1 => s.sampFault 2 3 u h c
      | _, .error 3 => s.tiersFault 3 3 (some c) r.grammar.tableAddr 0
      | some (cb, cp), mask =>
        if beats.any (·.2) || cp || recBad || (match mask with | .error _ => true | _ => false) then s.sampFault 0 2 u h c
        else
          let (mb, acc) := match mask with | .ok x => x | .error _ => ([], false)
          let ls := (List.range v.vocab).map fun t => (t, (beatWord beats t).1)
          let nan := ls.any fun l => (f32 l.2).isNan
          let allowed := fun (t : Nat) => if t = v.eos then acc else natBit (mb.getD (t / 8) 0).toNat (t % 8)
          let zs := (ls.map fun l => (l.1, treatLogit b con l.2 (rawNum cb (4 * l.1) 4) (allowed l.1))).filter fun z => z.2 != nInf
          let greedy := f32Eq b.temperature 0
          let s := if nan then (s.bump .SAMP_NAN_ROWS_COUNT).sampFault 3 0 u h c else s
          let s := if greedy then s.bump .SAMP_GREEDY_COUNT else s
          let pick := if greedy then greedyPick zs else drawToken b zs (philoxDraw b.seed e.a.curLen)
          let s := if pick.isNone then (s.bump .SAMP_NO_CHOICE_COUNT).sampFault 4 0 u h c else s
          let t := pick.getD v.eos
          let flags := packBits [(3, 0), (1, bit pick.isNone), (1, bit nan), (1, bit greedy)]
          match (if !con || t == v.eos then .ok r.grammar.state else s.nextState c r.grammar t) with
          | .error 3 => s.tiersFault 3 3 (some c) r.grammar.tableAddr 0
          | .error _ => s.sampFault 2 3 u h c
          | .ok next => s.modReq i fun (x : ReqSt) => { x with sampled := some { id := t, pos := e.a.curLen, flags := flags, nextState := next } }

/-! ### Commits (R350, R351, R354, R357) -/

/-- Advance a token's penalty count, saturating. -/
def State.countToken (s : State) (i t : Nat) : State :=
  let e := s.entry i
  if e.a.constrained then s
  else match s.readVa e.a.ctx (e.b.penaltyPtr + 4 * t) 4 with
    | some (bs, _) => s.writeVa e.a.ctx (e.b.penaltyPtr + 4 * t) (leBytes 4 (min (2 ^ 32 - 1) (leNat bs + 1)))
    | none => s

/-- Write every count anew from token IDs (R350, R351). -/
def State.writeCounts (s : State) (i : Nat) (ids : List Nat) : State :=
  let e := s.entry i
  if e.a.constrained then s
  else
    let v := s.version e.b.version
    s.writeVa e.a.ctx e.b.penaltyPtr ((List.range v.vocab).flatMap fun t => leBytes 4 (min (2 ^ 32 - 1) (ids.filter (· == t)).length))

/-- The positions whose tokens are counted: those the module sampled, and with PEN_INPUT the others too; `origin` says which are sampled. -/
def countedTokens (r : ReqSt) : List Nat :=
  ((r.tokens.zip (r.origin ++ List.replicate r.tokens.length false)).filter fun p => p.2 || r.samp.penInput).map (·.1)

/-- Rebuild the counts, or the automaton's state by running it from START over the sampled tokens (R351, R355). -/
def State.rebuildCounts (s : State) (i : Nat) : State :=
  let e := s.entry i
  let r := s.req i
  let s := s.modReq i fun (x : ReqSt) => { x with countsBad := false }
  if !e.a.constrained then (s.bump .SAMP_COUNT_REBUILDS_COUNT).writeCounts i (countedTokens r)
  else if r.grammar.kind = 1 then s
  else
    let s := s.bump .SAMP_COUNT_REBUILDS_COUNT
    let v := s.version e.b.version
    let ids := ((r.tokens.zip (r.origin ++ List.replicate r.tokens.length false)).filter fun p => p.2 && p.1 != v.eos).map (·.1)
    let go := ids.foldl (fun (a : Except Nat Grammar) t => match a with
      | .error x => .error x
      | .ok g => match s.nextState e.a.ctx g t with
        | .error x => .error x
        | .ok n => .ok { g with state := n }) (.ok { r.grammar with state := r.grammar.start })
    match go with
    | .ok g => (s.modReq i fun (x : ReqSt) => { x with grammar := g }).writeVa e.a.ctx (e.b.grammarPtr + 4) (leBytes 4 g.state)
    | .error 3 => s.tiersFault 3 3 (some e.a.ctx) r.grammar.tableAddr 0
    | .error _ => s.sampFault 2 3 0 (handleOf i e.a.gen) e.a.ctx

/-- A stop string matches at the end of the committed tokens, all of them sampled (R357). -/
def stopMatch (r : ReqSt) : Bool :=
  r.samp.stops.any fun st =>
    let n := st.length
    decide (n ≤ r.tokens.length) && r.tokens.drop (r.tokens.length - n) == st && (r.origin.drop (r.origin.length - n)).all id &&
      decide (n ≤ r.origin.length)

/-! ### Meaning -/

def execSamplingRequest (u c : Nat) (req : Line) (beats : List (Line × Bool)) (s : State) := done (s.sampleRow u c req beats)

end Sys2Proof.Machine
end

