-- ==== Sys2Proof/Machine/Select.lean ====
section
/-! DEFINITION. Block selection and seal passes (R262-R268). -/

namespace Sys2Proof.Machine

/-- The pages a request of input position `p` has, and its candidates under a window (R263). -/
def pagesTo (p : Nat) : Nat := p / 256 + 1
def candidates (pages w : Nat) : Nat := pages - 1 - w

/-- A selector fault: its context and unit (Table 9.9). -/
def State.selFault (s : State) (u h c : Nat) : State :=
  s.fault sedRegs { block := 0x06, fault := 1, sev := 3, scope := .context c, ctx := some c, whereKind := 1, whereIs := u,
                    info := packBits [(14, u), (8, c), (10, 0), (32, h)] }

/-- The rank of candidates (R264): one without summary first, then by score, NaN last; ties to the lower page. -/
def rankBefore (a b : Nat × Nat × Bool) : Bool :=
  let cls := fun (x : Nat × Nat × Bool) => if !x.2.2 then 0 else if (f32 x.2.1).isNan then 2 else 1
  if cls a ≠ cls b then decide (cls a < cls b)
  else if cls a = 1 ∧ !f32Eq a.2.1 b.2.1 then f32Lt b.2.1 a.2.1
  else decide (a.1 ≤ b.1)

/-- The attended pages of a selection in ascending order (R264). -/
def attended (pages w k : Nat) (cands : List (Nat × Nat × Bool)) : List Nat :=
  let top := ((orderBy cands rankBefore).take k).map (·.1)
  (List.range pages).filter fun j => j == 0 || decide (pages ≤ j + w) || top.contains j

/-- Scores of the candidates from the beats; a poisoned beat's are free values (log 2). -/
def State.takeScores (s : State) (beats : List (Line × Bool)) : Nat → List Nat × State
  | 0 => ([], s)
  | n + 1 =>
    let (l, s) := s.takeScores beats n
    match beatWord beats n with
    | (x, false) => (l ++ [x], s)
    | (_, true) => let (w, s) := s.takeFree; (l ++ [w.toNat % 2 ^ 32], s)

/-- SELECTION_REQUEST (R266): unit `u` ranks a request's candidates, writes the page list, then the shape word, and completes. -/
def State.selectPages (s : State) (u c : Nat) (req : Line) (beats : List (Line × Bool)) : State :=
  let f := natBits req.toNat
  let h := f 0 32
  match s.findHandle h with
  | none => s.selFault u h c
  | some i =>
    let e := s.entry i
    let v := s.version e.b.version
    let layer := f 32 9
    let head := f 41 6
    let k := f 48 11
    let w := f 59 7
    let list := f 128 56
    let shape := f 192 56
    let pages := pagesTo (e.a.curLen - 1)
    let n := candidates pages w
    if e.a.state != .decode || e.a.ctx != c || decide (v.layers ≤ layer) || decide (v.kvHeads ≤ head) || k == 0 || decide (1024 < k) || w == 0 ||
        decide (64 < w) || list % 64 != 0 || shape % 8 != 0 || beats.length != (n + 15) / 16 then s.selFault u h c
    else
      let hdrs := (List.range n).map fun j => s.pageHdr i (j + 1)
      if hdrs.any (·.isNone) then s.hdrBad i
      else
        let (scores, s) := s.takeScores beats n
        let cands := (List.range n).map fun j => (j + 1, scores.getD j 0, ((hdrs.getD j none).map hdrSummary).getD false)
        let got := attended pages w k cands
        let s := s.bump .SEL_SCORES_COUNT n
        let s := s.bump .SEL_NAN_COUNT (scores.filter fun x => (f32 x).isNan).length
        let s := s.bump .SEL_FORCED_COUNT (cands.filter fun x => !x.2.2 && got.contains x.1 && decide (x.1 + w < pages)).length
        let addrs := got.map fun j => (s.req i).extents.getD j 0 + v.kOff layer head
        if !s.mapped c list (8 * addrs.length) true || !s.mapped c shape 8 true then s.tiersFault 3 3 (some c) list 0
        else
          let s := s.writeVa c list (addrs.flatMap fun a => leBytes 8 a)
          let s := s.writeVa c shape (leBytes 8 (addrs.length + 2 ^ 63))
          let s := s.modReq i fun (r : ReqSt) => { r with selShapes := if r.selShapes.contains shape then r.selShapes else r.selShapes ++ [shape] }
          let s := s.bump .SEL_CALLS_COUNT
          s.emit (.message "SELECTED" u [h, layer, head, addrs.length])

/-- The chain hash of a request's page `j`, from the token IDs of its pages (R270). -/
def chainOf (key version domain fmt : Nat) (tokens : List Nat) : Nat → Nat
  | 0 => chainHash key 0 version domain fmt (tokens.take 256)
  | j + 1 => chainHash key (chainOf key version domain fmt tokens j) version domain fmt ((tokens.drop (256 * (j + 1))).take 256)

/-- Set SUMMARY_VALID and SEALED on a full page, with its chain hash; without a key, as in domain 0, the hash is a free value (log 2). -/
def State.sealPage (s : State) (i j : Nat) (poisoned : Bool) : State :=
  let e := s.entry i
  match s.pageHdr i j with
  | none => s.hdrBad i
  | some h =>
    let (hash, epoch, s) := match s.domainKey h.domain with
      | some k => (chainOf k.key h.version h.domain h.kvFmt (s.req i).tokens j, k.epoch, s)
      | none => let (w, s) := s.takeFree; (w.toNat, 0, s)
    let flags := h.flags ||| (if poisoned then 0x16 else 0x06)
    s.putHdr e.a.ctx ((s.req i).extents.getD j 0) { h with flags := flags, chain := hash, epoch := epoch }

/-- The seal pass of a page: its summaries land, then it is sealed; poisoned K lines are summed as they are and set POISONED. A page that
does not translate faults its context. Of a page that lies in another module, `far` says whether the K lines read there were poisoned (log 8). -/
def State.sealSums (s : State) (i page : Nat) (far : Bool) : State :=
  let c := (s.entry i).a.ctx
  let va := (s.req i).extents.getD page 0
  match s.pageSummaries c va (s.version (s.entry i).b.version) with
  | none => s.tiersFault 3 3 (some c) va 0
  | some (bs, poisoned) => (s.writeVa c (va + 0x10000) bs).sealPage i page (poisoned || (far && s.farVa c va))

/-- SEAL_PASS_COMPLETE (R262): the summaries of a page have landed. -/
def State.sealDone (s : State) (handle page : Nat) (far : Bool) : State :=
  match s.findHandle handle with
  | none => s
  | some i =>
    let p : SealPass := { entry := i, gen := (s.entry i).a.gen, page := page }
    if s.seals.contains p then
      let s := { s with seals := s.seals.filter fun x => x != p }
      if (s.entry i).a.state.final || (s.req i).extents.length ≤ page then s else s.sealSums i page far
    else s

def execSelectionRequest (u c : Nat) (req : Line) (beats : List (Line × Bool)) (s : State) := done (s.selectPages u c req beats)
def execSealPassComplete (handle page : Nat) (poisoned : Bool) (s : State) := done (s.sealDone handle page poisoned)

end Sys2Proof.Machine
end

