-- ==== Sys2Proof/Machine/Weights.lean ====
section
/-! DEFINITION. Weight packages and versions (chapter 16): the checks of a package, the landing of its tiles, the version table and its
flips, retiring and freeing. -/

namespace Sys2Proof.Machine

/-! ### Records of a package (R466-R474) -/

/-- The number in `len` bytes from `byte` on of a string. -/
def bytesNum (bs : List Nat) (byte len : Nat) : Nat := ((bs.drop byte).take len).foldr (fun b a => b + 256 * a) 0
/-- Bytes as numbers. -/
def asNats (bs : List Byte) : List Nat := bs.map (·.toNat)
/-- Every byte of a part is zero. -/
def zeroPart (bs : List Nat) (byte len : Nat) : Bool := ((bs.drop byte).take len).all (· == 0)

/-- SHA-384 of a string as a number whose lowest byte is the digest's first (log 11). -/
def digestNum (bs : List Nat) : Nat := (Config.sha384 bs).toNat

/-- One level of the hash tree (R470): nodes in pairs, an odd last one carried up. -/
def hashLevel : List Nat → List Nat
  | a :: b :: r => digestNum (1 :: packBytes [(48, a), (48, b)]) :: hashLevel r
  | l => l

/-- The root over leaves (R470). -/
def hashRoot : Nat → List Nat → Nat
  | 0, l => l.headD 0
  | n + 1, l => if l.length ≤ 1 then l.headD 0 else hashRoot n (hashLevel l)

/-- A range of a shard (Table 16.4). -/
structure ShardRange where
  first : Nat
  seat : Nat
  count : Nat
deriving DecidableEq, Repr

/-- A package as cox firmware copied it (R475): the parts its checks need. -/
structure PkgCopy where
  head : List Nat
  manifest : List Nat
  shards : List Nat
  leaves : List Nat

/-- TILE_COUNT, TILE_OFF and the statement of a package header. -/
def pkgTiles (h : List Nat) : Nat := bytesNum h 24 4
def pkgTileOff (h : List Nat) : Nat := bytesNum h 16 8
def pkgStmt (h : List Nat) : List Nat := (h.drop 64).take 512

/-- The header's fields are in range (Table 16.2, R469). -/
def pkgHeadOk (h : List Nat) : Bool :=
  let f := bytesNum h
  f 0 4 == 0x474B5057 && f 4 2 == 1 && f 6 2 == 8 && f 16 8 % 65536 == 0 && f 24 4 != 0 && decide (f 24 4 ≤ 2 ^ 27) && f 28 4 != 0 &&
    decide (f 28 4 ≤ 1048576) && f 32 8 % 64 == 0 && f 40 8 % 64 == 0 && f 48 8 % 64 == 0 && f 56 2 != 0 && decide (f 56 2 ≤ 64) &&
    zeroPart h 58 6 && zeroPart h 5203 2989

/-- The statement's fields are in range and agree with the header (Table 16.3). -/
def pkgStmtOk (h : List Nat) : Bool :=
  let f := bytesNum (pkgStmt h)
  f 0 4 == 0x544D5453 && f 4 2 == 1 && f 6 1 == 1 && f 7 1 == 0 && f 60 4 == pkgTiles h && f 208 4 != 0 && decide (f 208 4 ≤ 524288) &&
    decide (f 212 4 < f 208 4) && f 216 2 != 0 && decide (f 216 2 ≤ 512) && f 218 1 != 0 && decide (f 218 1 ≤ 64) && f 219 1 != 0 &&
    decide (f 219 1 ≤ 8) && decide (4 ≤ f 220 1) && decide (f 220 1 ≤ 8) && zeroPart (pkgStmt h) 221 3 && zeroPart (pkgStmt h) 232 280

/-- The length of a shard table whose entries are given: to the end of its last range list (log 40). -/
def shardLen (n : Nat) (entries : List Nat) : Nat :=
  (List.range n).foldl (fun m k => max m (bytesNum entries (16 * k) 4 + 8 * bytesNum entries (16 * k + 4) 4)) (16 * n)

/-- A shard's ranges, none where an entry or a range is out of its bounds (Table 16.4, R487). -/
def shardRanges (tab : List Nat) (k tiles : Nat) : Option (List ShardRange) :=
  let off := bytesNum tab (16 * k) 4
  let n := bytesNum tab (16 * k + 4) 4
  let rs := (List.range n).map fun i =>
    let w := bytesNum tab (off + 8 * i) 8
    (natBit w 31 || natBits w 60 4 != 0, ({ first := natBits w 0 28, seat := natBits w 28 3, count := natBits w 32 28 } : ShardRange))
  if off % 8 == 0 && n != 0 && decide (n ≤ 65536) && zeroPart tab (16 * k + 12) 4 &&
      rs.all (fun r => !r.1 && r.2.count != 0 && decide (r.2.first + r.2.count ≤ tiles)) &&
      rs.foldl (fun a r => a + r.2.count) 0 == bytesNum tab (16 * k + 8) 4 then some (rs.map (·.2))
  else none

/-- Regions lie beyond the header, within TOTAL_LEN and do not overlap (R469). -/
def pkgRegionsOk (h : List Nat) (shardBytes : Nat) : Bool :=
  let f := bytesNum h
  let rs : List (Nat × Nat) := [(0, 8192), (f 32 8, 64 * f 28 4), (f 40 8, shardBytes), (f 48 8, 48 * f 24 4), (f 16 8, 65536 * f 24 4)]
  rs.all (fun r => decide (r.1 + r.2 ≤ f 8 8)) &&
    ((orderBy rs fun a b => decide (a.1 ≤ b.1)).foldl (fun (acc : Bool × Nat) r => (acc.1 && decide (acc.2 ≤ r.1), r.1 + r.2)) (true, 0)).1

/-- Copy a package's parts out of the context's memory and check its fields (R475; BAD_PACKAGE). -/
def State.pkgCopy (s : State) (c va : Nat) : Option PkgCopy :=
  let get := fun (off n : Nat) => (s.readVa c (va + off) n).map fun r => asNats r.1
  match get 0 8192 with
  | none => none
  | some h =>
    let f := bytesNum h
    if !pkgHeadOk h || !pkgStmtOk h then none
    else match get (f 40 8) (16 * f 56 2) with
      | none => none
      | some ents =>
        let n := shardLen (f 56 2) ents
        if !pkgRegionsOk h n then none
        else match get (f 32 8) (64 * f 28 4), get (f 40 8) n, get (f 48 8) (48 * f 24 4) with
          | some m, some sh, some hs =>
            if !s.mapped c va (f 8 8) false || (List.range (f 56 2)).any (fun k => (shardRanges sh k (f 24 4)).isNone) then none
            else some { head := h, manifest := m, shards := sh, leaves := (List.range (f 24 4)).map fun i => bytesNum hs (48 * i) 48 }
          | _, _, _ => none

/-- The public key of a Keel slot, as bytes. -/
def State.slotKey (s : State) (k : Nat) : List Nat :=
  (List.range 324).flatMap fun i => packBytes [(8, s.getF .KEEL_KEY_DATA_KEY (0x1000 * k + 8 * i))]
/-- The key part of slot `k`'s identity registers: they stand 16 bytes apart. -/
def keySlotOff (k : Nat) : Nat := 16 * k

/-- The lowest slot that holds a key and is not revoked (R472). -/
def State.keySlot (s : State) (id : Nat) : Option Nat :=
  (List.range 16).find? fun k => s.flag .KEEL_KEY_STATE_VALID (keySlotOff k) && !s.flag .KEEL_KEY_STATE_REVOKED (keySlotOff k) &&
    s.getF .KEEL_KEY_ID_KEY_ID (keySlotOff k) == id

/-! ### Tiles (R466-R468, R476) -/

/-- Where block `j` of row `c` of an MX or PLAIN tile lies, and the scale of one in an MX tile (R467). -/
def tileBlock (fmt rows j c : Nat) : Nat := 256 + (j * rows + c) * (4 * codeBits fmt)
def tileScale (scaleOff rows j c : Nat) : Nat := scaleOff + j * rows + c

/-- A tile's header and regions satisfy R466 and R467. -/
def tileShapeOk (t : List Nat) : Bool :=
  let f := bytesNum t
  let kind := f 6 1
  let fmt := f 7 1
  let rows := f 22 2
  let kblk := f 24 2
  let el := f 36 4
  let so := f 40 4
  let sl := f 44 4
  let used := if kind = 2 then el else tileBlock fmt rows kblk 0 - 256
  let scales := if kind = 0 then tileScale 0 rows kblk 0 else 0
  (match kind with
    | 0 => decide (4 ≤ fmt) && decide (fmt ≤ 8)
    | 1 => decide (fmt ≤ 3)
    | 2 => fmt == 15
    | _ => false) &&
  (if kind = 2 then rows == 0 && kblk == 0 else rows != 0 && decide (rows ≤ 1024)) &&
  f 26 2 == 0 && f 32 4 % 32 == 0 && zeroPart t 48 80 && el % 64 == 0 && sl % 64 == 0 && decide (used ≤ el) && decide (256 + el ≤ 65536) &&
  (if sl = 0 then so == 0 else kind == 0 && decide (256 + el ≤ so) && decide (so + sl ≤ 65536)) && decide (scales ≤ sl) &&
  zeroPart t (256 + used) (el - used) && zeroPart t (256 + el) ((if sl = 0 then 65536 else so) - (256 + el)) &&
  (if sl = 0 then true else zeroPart t (so + scales) (sl - scales) && zeroPart t (so + sl) (65536 - (so + sl)))

/-- A landed tile matches (R476): its leaf, its identity, its shape, no poison. -/
def tileMatches (t : List Nat) (leaf pkg index : Nat) (poisoned : Bool) : Bool :=
  let f := bytesNum t
  digestNum (0 :: t) == leaf && f 0 4 == 0x454C4954 && f 4 2 == 1 && f 8 8 == pkg && f 16 4 == index && tileShapeOk t && !poisoned &&
    zeroPart t 128 128

/-! ### The version table (R478-R480) -/

/-- WPKG fault registers: the block has no first-fault register. -/
def State.wpkgFault (s : State) (b sev : Nat) (ctx : Option Nat) (info : Nat) : State :=
  if s.fenced then s
  else (s.setBit .WPKG_ERR_FLAGS b true).raise { block := 0x0D, fault := b, sev := sev, scope := .none, ctx := ctx, info := info }

/-- Store an entry; state 0 removes it, and the live pointer to it. -/
def State.setVersion (s : State) (v : Version) : State :=
  let rest := s.wpkg.versions.filter fun x => x.id != v.id
  { s with wpkg := { s.wpkg with
      versions := if v.state = 0 then rest else orderBy (v :: rest) fun a b => decide (a.id ≤ b.id)
      live := if v.state = 0 then s.wpkg.live.filter (fun p => p.2 != v.id) else s.wpkg.live } }

/-- A reader still holds the copy a flip leaves: a step that runs, an admission that waits for the twin. -/
def State.tableRead (s : State) : Bool := s.step.phase == 2 || s.twin.awaiting.any fun a => a.entering.isSome

/-- Send the version table to the twin (R480), 64 entries a record; `gone` are entries just emptied. -/
def State.sendVersions (s : State) (gone : List Nat) : State :=
  if !s.mirroring then s
  else
    let all := (s.wpkg.versions.map fun v => (v.id, v.state, v.root)) ++ (gone.map fun g => (g, 0, 0))
    (List.range ((all.length + 63) / 64)).foldl (fun s k =>
      s.sendTwin "VERSIONS" true 0 0 (packBytes (((all.drop (64 * k)).take 64).flatMap fun e => [(2, e.1), (1, e.2.1), (5, 0), (48, e.2.2)]))) s

/-- The flip (R479): GEN, the counts of WPKG_STATUS, and the exchange with the twin. -/
def State.flipTable (s : State) (gone : List Nat := []) : State :=
  let read := s.tableRead
  let s := { s with wpkg := { s.wpkg with latched := read } }
  let s := s.setF .WPKG_STATUS_GEN ((s.getF .WPKG_STATUS_GEN + 1) % 2)
  let s := s.setF .WPKG_STATUS_SWAP_PEND (bit read)
  let s := s.setF .WPKG_STATUS_LOADS s.wpkg.loads.length
  let s := s.setF .WPKG_STATUS_RESIDENT (s.wpkg.versions.filter fun v => v.state == 2 || v.state == 3).length
  s.sendVersions gone

/-- A version with requests here or mirrored for the twin (R335, R483). -/
def State.pinned (s : State) (v : Nat) : Bool :=
  s.refs v != 0 || s.twin.mirrors.any fun m => m.2.entry.b.version == v && m.2.entry.a.state != .free

/-- Unmap a version's weight range and put its frames into SCRUB, but those another context still maps (R483). -/
def State.dropWeights (s : State) (v : Version) : State × List Nat :=
  v.pages.foldl (fun (acc : State × List Nat) va =>
    let s := acc.1
    match s.findLeaf v.ctx va with
    | none => acc
    | some (a, p) =>
      let s := s.setPte a {}
      let s := s.dropCached (pageShoot v.ctx va false 0 0)
      let s := s.tellReplicas v.ctx [2, va]
      let s := s.setUsage v.ctx p.tier (s.usage v.ctx p.tier - pageFrames p.big)
      if p.addr / 2 ^ 45 ≠ s.self then (s, acc.2)
      else
        let f := p.addr % 2 ^ 45 / 65536
        let fs := (List.range (pageFrames p.big)).map (f + ·)
        (s.toScrub (fs.filter fun f => !s.mappedElse [] f), acc.2 ++ fs)) (s, [])

/-- Apply a change of the table that is not a command's. -/
def State.applyChange (s : State) (x : VerChange) : State :=
  match x with
  | .resident ver =>
    let v := s.version ver
    if v.state ≠ 1 then s
    else ((s.setVersion { v with state := 2 }).setF .SL_VER_BATCH_MAX (Config.batchMax v.decodeRig).toNat (inst ver)).flipTable
  | .retiring ver =>
    let v := s.version ver
    if v.state ≠ 2 then s else (s.setVersion { v with state := 3 }).flipTable
  | .freeing ver =>
    let v := s.version ver
    if v.state ≠ 3 || s.pinned ver then s
    else
      let (s, fs) := s.dropWeights v
      let s := s.setVersion { v with state := if fs = [] then 0 else 4, frames := fs, pages := [] }
      s.flipTable (if fs = [] then [ver] else [])
  | .empty ver =>
    let v := s.version ver
    if v.state ≠ 4 || v.frames != [] then s else (s.setVersion { v with state := 0 }).flipTable [ver]
  | .live r q =>
    match s.launched r q 0x41 with
    | none => s
    | some c =>
      let model := c.fld 40 0 16
      let v := s.version (c.fld 42 0 16)
      let has := s.wpkg.live.any fun p => p.1 == model
      if v.state = 0 || v.state == 1 || v.state == 4 then s.complete c 0x0C 0 0
      else if v.model ≠ model then s.complete c 0x0D 0 0
      else if v.state = 3 then s.complete c 0x0E 0 0
      else if !has && decide (256 ≤ s.wpkg.live.length) then s.complete c 0x10 0 0
      else
        let s := { s with wpkg := { s.wpkg with live := SMap.put s.wpkg.live model v.id } }
        s.flipTable.complete c 0 0 0
  | .retire r q =>
    match s.launched r q 0x42 with
    | none => s
    | some c =>
      let v := s.version (c.fld 42 0 16)
      if v.state = 0 || v.state == 1 || v.state == 4 then s.complete c 0x0C 0 0
      else if v.state = 3 then s.complete c 0 0 0
      else if s.wpkg.live.any (fun p => p.2 == v.id) then s.complete c 0x0F 0 0
      else ((s.setVersion { v with state := 3 }).flipTable).complete c 0 0 0

/-- A change of the table: made at once, or kept while the old copy is latched (R479). -/
def State.verChange (s : State) (x : VerChange) : State :=
  if s.wpkg.latched then
    let s := if s.wpkg.waits.contains x then s else { s with wpkg := { s.wpkg with waits := s.wpkg.waits ++ [x] } }
    s.setF .WPKG_STATUS_SWAP_PEND 1
  else s.applyChange x

/-- Versions RETIRING that nothing pins are freed (R483). -/
def State.freeVersions (s : State) : State :=
  (s.wpkg.versions.filter fun v => v.state == 3).foldl (fun s v => if s.pinned v.id then s else s.verChange (.freeing v.id)) s

/-- The old copy is reclaimed when its last reader is done; changes that waited are made (R479). -/
def State.settleVersions (s : State) : State :=
  if s.tableRead then s
  else
    let ws := s.wpkg.waits
    let s := { s with wpkg := { s.wpkg with latched := false, waits := [] } }
    let s := s.setF .WPKG_STATUS_SWAP_PEND 0
    let s := ws.foldl (fun s x => s.verChange x) s
    s.freeVersions

/-! ### Loading (Table 16.6) -/

/-- A load fails (Table 16.7): WPKG_LOAD_INFO, and what it mapped is scrubbed. -/
def State.loadInfo (s : State) (status tile ver : Nat) : State :=
  let s := s.setF .WPKG_LOAD_INFO_STATUS status
  let s := s.setF .WPKG_LOAD_INFO_TILE tile
  s.setF .WPKG_LOAD_INFO_VERSION ver

/-- A load in progress ends failed: its pages are unmapped and scrubbed, its entry is EMPTY, its command completes (R476, R472). -/
def State.endLoad (s : State) (l : LoadSt) (status tile : Nat) : State :=
  let v := s.version l.ver
  let (s, _) := s.dropWeights v
  let s := { s with wpkg := { s.wpkg with loads := s.wpkg.loads.filter fun x => x.ver != l.ver } }
  let s := (s.setVersion { v with state := 0 }).flipTable [l.ver]
  let s := s.loadInfo status tile l.ver
  match s.launched l.ring l.seq 0x40 with
  | some c => s.complete c status 0 0
  | none => s

/-- A page of a seat's Subsoil region for weights: charged, tagged, zeroed, mapped unreadable and FIXED (R474). -/
def State.weightPage (s : State) (c seat va : Nat) : Option State :=
  match s.allocAt c 1 true 0 (s.findInSeat seat true) with
  | .error _ => none
  | .ok (off, s) => s.installLeaf c va { valid := true, leaf := true, addr := s.dwezin off, tier := 1, place := 2, ctx := c } true

/-- Map pages in turn, all or none. -/
def State.weightPages (s : State) (c : Nat) : List (Nat × Nat) → Option State
  | [] => some s
  | (seat, va) :: r => match s.weightPage c seat va with
    | none => none
    | some s => s.weightPages c r

/-- Pages of ranges from an address on: the seat and address of each page, the address of each tile in range order, the end (R474). -/
def layRanges : Nat → List ShardRange → List (Nat × Nat) × List (Nat × Nat) × Nat
  | va, [] => ([], [], va)
  | va, r :: rs =>
    let n := (r.count + 31) / 32
    let (ps, ts, e) := layRanges (va + n * 0x200000) rs
    ((List.range n).map (fun i => (r.seat, va + i * 0x200000)) ++ ps, (List.range r.count).map (fun k => (r.first + k, va + 65536 * k)) ++ ts, e)

/-- A load record's own fields (Table 16.5). -/
def loadRecOk (rec : List Nat) : Bool :=
  let f := bytesNum rec
  f 0 4 == 0x44524C57 && f 4 4 == 0 && f 8 8 % 65536 == 0 && f 15 1 == 0 && f 16 8 % 0x200000 == 0 && f 23 1 == 0 && decide (f 25 1 < 3) &&
    f 26 2 == 0 && zeroPart rec 44 16 && f 60 4 == crc32c (rec.take 60)

/-- A rig that is staged in the context, or none named. -/
def State.rigStaged (s : State) (c id : Nat) : Bool := id == 0 || (s.ctx c).staged.any fun t => t.1 == id

/-- What a load's checks answer: a status of Table 16.7, or the entry, its pages and its tiles. -/
def State.loadCheck (s : State) (c : Cmd) : Except Nat (Version × PkgCopy × List (Nat × Nat) × List (Nat × Nat) × Nat) :=
  let ver := c.fld 42 0 16
  match (s.readVa c.ctx (c.fld 32 0 56) 64).map (fun r => asNats r.1) with
  | none => .error 0x01
  | some rec =>
    let f := bytesNum rec
    if !loadRecOk rec then .error 0x01
    else if (s.version ver).state ≠ 0 then .error 0x07
    else if 256 ≤ s.wpkg.versions.length then .error 0x09
    else if !s.rigStaged c.ctx (f 28 8) || !s.rigStaged c.ctx (f 36 8) then .error 0x0A
    else match s.pkgCopy c.ctx (f 8 8) with
      | none => .error 0x02
      | some k =>
        let shard := f 24 1
        let n := pkgTiles k.head
        let stmt := pkgStmt k.head
        let g := bytesNum stmt
        if shard ≠ 255 && decide (bytesNum k.head 56 2 ≤ shard) then .error 0x01
        else
          let rs := if shard = 255 then [{ first := 0, seat := 0, count := n }] else (shardRanges k.shards shard n).getD []
          let dest := f 16 8
          let (ps, ts, e) := layRanges dest rs
          if decide (2 ^ 56 < e) || ps.any (fun p => (List.range 32).any fun i => (s.findLeaf c.ctx (p.2 + 65536 * i)).isSome) then .error 0x01
          else match s.keySlot (g 8 8) with
            | none => .error 0x03
            | some slot =>
              if !Config.sigVerifies 1 (s.slotKey slot) stmt ((k.head.drop 576).take 4627) then .error 0x04
              else if hashRoot 28 k.leaves ≠ g 64 48 || digestNum k.manifest != g 112 48 || digestNum k.shards != g 160 48 then .error 0x05
              else
                let v : Version :=
                  { id := ver, model := c.fld 40 0 16, ctx := c.ctx, state := 1, slot := slot, root := g 64 48, vocab := g 208 4, eos := g 212 4,
                    layers := g 216 2, kvHeads := g 218 1, dim32 := g 219 1, kvFmt := g 220 1, destVa := dest, decodeRig := f 28 8,
                    prefillRig := f 36 8, place := f 25 1, tiles := ts.length, pages := ps.map (·.2) }
                .ok (v, k, ps, ts, f 8 8)

/-- PKG_LOAD (R475): at most four loads at once; a further one waits to launch, and one that finds the old table latched waits for it. -/
def State.pkgLoad (s : State) (r q : Nat) : State :=
  match s.launched r q 0x40 with
  | none => s
  | some c =>
    if 4 ≤ s.wpkg.loads.length || s.wpkg.latched || s.wpkg.loads.any (fun l => l.ring == r && l.seq == q) then s
    else
      let ver := c.fld 42 0 16
      match s.loadCheck c with
      | .error st =>
        let s := if st = 4 ∨ st = 5 then s.wpkgFault 0 0 (some c.ctx) ver else s
        (s.loadInfo st 0 ver).complete c st 0 0
      | .ok (v, k, ps, ts, pkg) =>
        match s.weightPages c.ctx ps with
        | none => (s.loadInfo 0x08 0 ver).complete c 0x08 0 0
        | some s =>
          let l : LoadSt := { ver := ver, ring := r, seq := q, pkgId := bytesNum (pkgStmt k.head) 16 8, src := pkg + pkgTileOff k.head,
                              tiles := ts.map fun (t : Nat × Nat) => { tile := t.1, va := t.2, leaf := k.leaves.getD t.1 0 } }
          let s := { s with wpkg := { s.wpkg with loads := s.wpkg.loads ++ [l] } }
          (s.setVersion v).flipTable

/-- Change a load's tile. -/
def State.setLanding (s : State) (ver va : Nat) (f : Landing → Landing) : State :=
  { s with wpkg := { s.wpkg with loads := s.wpkg.loads.map fun l =>
      if l.ver = ver then { l with tiles := l.tiles.map fun t => if t.va = va then f t else t } else l } }

/-- The last page has become readable (Table 16.6 steps 7, 8). -/
def State.finishLoad (s : State) (l : LoadSt) : State :=
  let v := s.version l.ver
  let s := v.pages.foldl (fun s va => s.editLeaf v.ctx va fun (p : Pte) => { p with place := v.place }) s
  let s := { s with wpkg := { s.wpkg with loads := s.wpkg.loads.filter fun x => x.ver != l.ver } }
  let s := s.bump .WPKG_LOADS_COUNT
  let s := s.setF .WPKG_STATUS_LOADS s.wpkg.loads.length
  let s := s.verChange (.resident l.ver)
  match s.launched l.ring l.seq 0x40 with
  | some c => s.complete c 0 0 0
  | none => s

/-- TILE_LAND (R476): a tile of a load lands at its address; `lost` says that a line of it came poisoned over the path. The pages whose
tiles have all matched become readable, with a shootdown. -/
def State.tileLand (s : State) (ver va : Nat) (lost : Bool) : State :=
  match s.wpkg.loads.find? (fun l => l.ver == ver) with
  | none => s
  | some l =>
    match l.tiles.find? (fun t => t.va == va && t.state != 2) with
    | none => s
    | some t =>
      let v := s.version ver
      let got := s.readVa v.ctx (l.src + 65536 * t.tile) 65536
      let bytes := (got.map (·.1)).getD []
      let bad := got.elim true (·.2)
      if tileMatches (asNats bytes) t.leaf l.pkgId t.tile (bad || lost || bytes.length != 65536) then
        let s := match s.findLeaf v.ctx (va / 0x200000 * 0x200000) with
          | some (_, p) => s.putBytes (p.addr % 2 ^ 45 + va % 0x200000) bytes
          | none => s
        let s := s.setLanding ver va fun (t : Landing) => { t with state := 2 }
        let s := s.bump .WPKG_TILES_VERIFIED_COUNT
        let s := s.setVersion { v with verified := v.verified + 1 }
        let page := va / 0x200000 * 0x200000
        let ts := ((s.wpkg.loads.find? fun x => x.ver == ver).map (·.tiles)).getD []
        let s := if (ts.filter fun t => t.va / 0x200000 * 0x200000 == page).all (fun t => t.state == 2) then
            let s := s.editLeaf v.ctx page fun (p : Pte) => { p with read := true }
            s.shootdown { ctx := v.ctx, scope := 0, vpage := page / 65536, slice := (s.ctx v.ctx).span, why := 0, arg := 0, frames := [],
                          cmd := none, doneAt := none }
          else s
        if ts.all (fun t => t.state == 2) then s.finishLoad l else s
      else if t.state = 0 then
        let s := s.wpkgFault 1 1 (some v.ctx) t.tile
        let s := s.bump .WPKG_TILE_RETRIES_COUNT
        s.setLanding ver va fun (t : Landing) => { t with state := 1 }
      else (s.wpkgFault 2 0 (some v.ctx) t.tile).endLoad l 0x06 t.tile

/-- A Keel key slot was revoked or rewritten (R472): loads under it end KEY_WITHDRAWN, versions verified under it retire. -/
def State.keyChanged (s : State) (slot : Nat) : State :=
  let s := (s.wpkg.loads.filter fun l => (s.version l.ver).slot == slot).foldl (fun s l => s.endLoad l 0x0B 0) s
  let vs := s.wpkg.versions.filter fun v => v.slot == slot && v.state == 2
  let s := if vs = [] then s else s.wpkgFault 3 1 none slot
  let s := vs.foldl (fun s v => s.verChange (.retiring v.id)) s
  s.freeVersions

/-- A frame leaves SCRUB: an entry FREEING whose frames are all scrubbed becomes EMPTY (R483). -/
def State.scrubDone (s : State) (f : Nat) : State :=
  let was := (s.tag f).kind == 4
  let s := s.frameScrubDone f
  if !was then s
  else
    let vs := s.wpkg.versions.filter fun v => v.state == 4 && v.frames.contains f
    vs.foldl (fun s v =>
      let s := s.setVersion { v with frames := v.frames.filter (· != f) }
      if v.frames.all (· == f) then s.verChange (.empty v.id) else s) s

/-! ### The twin's table (R480) -/

/-- Whether the twin reports a version RESIDENT with the same root. -/
def State.twinHolds (s : State) (v : Version) : Bool := s.twin.twinVersions.any fun t => t.1 == v.id && t.2.1 == 2 && t.2.2 == v.root

/-- VERSIONS: entries of the twin's table; a root that differs is logged once until an exchange shows it equal or absent. -/
def State.versionsRec (s : State) (es : List (Nat × Nat × Nat)) : State :=
  let s := { s with twin := { s.twin with twinVersions :=
    (s.twin.twinVersions.filter fun (t : Nat × Nat × Nat) => !(es.any fun e => e.1 == t.1)) ++ es.filter fun (e : Nat × Nat × Nat) => e.2.1 != 0 } }
  s.wpkg.versions.foldl (fun (s : State) (v : Version) =>
    match s.twin.twinVersions.find? (fun t => t.1 == v.id) with
    | some t =>
      if t.2.2 ≠ v.root then
        if v.mismatch then s else (s.setVersion { v with mismatch := true }).wpkgFault 4 1 none v.id
      else s.setVersion { v with mismatch := false }
    | none => s.setVersion { v with mismatch := false }) s

/-! ### Meanings -/

def execPkgLoad (r q : Nat) (s : State) := done (s.pkgLoad r q)
def execVersionLive (r q : Nat) (s : State) := done (s.verChange (.live r q))
def execVersionRetire (r q : Nat) (s : State) := done ((s.verChange (.retire r q)).freeVersions)
def execTileLand (ver va : Nat) (lost : Bool) (s : State) := done (s.tileLand ver va lost)
def execFrameScrubDone (f : Nat) (s : State) := done (s.scrubDone f)

end Sys2Proof.Machine
end

