-- ==== Sys2Proof/Machine/Sediment.lean ====
section
/-! DEFINITION. The sediment index (R269-R281): the owning module's lookups, copies and deposits; the shard's entries, pins, eviction,
rebuilds and maps. -/

namespace Sys2Proof.Machine

/-! ### The shard's entries (R272, R278, R279) -/

/-- SED_CAP.ENTRIES and SED_PINS follow the entries. -/
def State.setSed (s : State) (es : List SedEnt) : State :=
  let s := { s with sed := { s.sed with entries := es } }
  let s := s.setF .SED_CAP_ENTRIES es.length
  s.setF .SED_PINS_COUNT (es.foldl (fun a e => a + e.pins) 0)

/-- Change an entry. -/
def State.modSed (s : State) (hash : Nat) (f : SedEnt → SedEnt) : State := s.setSed (s.sed.entries.map fun e => if e.hash = hash then f e else e)

/-- An entry of the current array. -/
def State.sedEnt (s : State) (hash : Nat) : Option SedEnt := s.sed.entries.find? fun e => e.hash == hash

/-- An entry's 64 bytes (Table 9.6). -/
def SedEnt.bytes (e : SedEnt) : List Nat :=
  let bs := packBytes [(8, e.hash), (8, e.parent), (8, e.addr), (2, e.version), (2, e.domain), (1, e.kvFmt + 16 * e.state), (1, e.pins), (2, e.children),
    (4, e.lastHit), (4, e.hits), (1, e.epoch), (19, 0)]
  bs ++ packBytes [(4, crc32c bs)]

/-- The two buckets of a hash (R272). -/
def buckets (n hash : Nat) : Nat × Nat :=
  let a := hash % 2 ^ 32 % 2 ^ n
  let b := hash / 2 ^ 32 % 2 ^ 32 % 2 ^ n
  (a, if a = b then (b + 1) % 2 ^ n else b)

/-- The bucket with a free slot that a new entry takes, the first of its two where both have one (log 42). -/
def slotFor (es : List SedEnt) (n hash : Nat) : Option Nat :=
  let (a, b) := buckets n hash
  let room := fun (k : Nat) => decide ((es.filter fun e => e.bucket == k).length < 4)
  if room a then some a else if room b then some b else none

/-- Scrub a stored extent. -/
def State.dropExtent (s : State) (addr size : Nat) : State :=
  s.toScrub ((List.range (size / 65536)).map fun i => addr % 2 ^ 45 / 65536 + i)

/-- Remove one entry: its parent loses a child, its extent is scrubbed (R278). -/
def State.removeEnt (s : State) (e : SedEnt) : State :=
  let s := s.setSed (s.sed.entries.filter fun x => x.hash != e.hash)
  let s := if e.state = 2 then s.modSed e.parent fun (p : SedEnt) => { p with children := p.children - 1 } else s
  let s := (s.bump .SED_EVICTIONS_COUNT).dropFirmware 6 e.hash
  s.dropExtent e.addr e.extent

/-- The descendants of an entry, level by level. -/
def State.descendants (s : State) : Nat → List Nat → List Nat
  | 0, _ => []
  | n + 1, hs =>
    let next := (s.sed.entries.filter fun e => hs.contains e.parent && e.parent != 0).map (·.hash)
    if next = [] then [] else next ++ s.descendants n next

/-- Remove an entry and its descendants at once, a pinned one with its last pin (R279). -/
def State.removeTree (s : State) (hash : Nat) : State :=
  (hash :: s.descendants s.sed.entries.length [hash]).reverse.foldl (fun s h => match s.sedEnt h with
    | none => s
    | some e => if e.pins = 0 then s.removeEnt e else s.modSed h fun (x : SedEnt) => { x with doomed := true }) s

/-- Free Subsoil and Bedrock in per mille. -/
def State.extentFree (s : State) : Nat :=
  let total := (s.tierRanges 1 ++ s.tierRanges 2).foldl (fun a r => a + (r.2 - r.1)) 0
  (s.freeUnits 1 + s.freeUnits 2) * 1000 / total

/-- The entry evicted next (R278): VALID, without pins or children, the oldest hit, then the lower hash. -/
def evictNext (es : List SedEnt) : Option SedEnt :=
  (orderBy (es.filter fun e => e.state == 2 && e.pins == 0 && e.children == 0) fun a b =>
    decide (a.lastHit < b.lastHit) || (a.lastHit == b.lastHit && decide (a.hash ≤ b.hash))).head?

/-- SHARD_EVICT (R278): below LOW, until HIGH. -/
def State.evictTo (s : State) (mark : Nat) : Nat → State
  | 0 => s
  | n + 1 => if mark ≤ s.extentFree then s else match evictNext s.sed.entries with
    | none => s
    | some e => (s.removeEnt e).evictTo mark n
def State.shardEvict (s : State) : State :=
  let low := s.getF .SED_CTRL_LOW
  let high := max low (s.getF .SED_CTRL_HIGH)
  if s.flag .SED_STATUS_SHARD_ACTIVE && decide (s.extentFree < low) then s.evictTo high s.sed.entries.length else s

/-! ### Lookups and pins (R273, R274) -/

/-- What a page of a lookup finds: a hit, a miss, a miss whose entry goes, a miss with unequal tokens. -/
inductive SedFind where
  | hit (e : SedEnt)
  | miss
  | bad (e : SedEnt)
  | unequal
deriving DecidableEq, Repr

/-- One page of a lookup (R273): its place in the chain, its hash and token IDs. The stored header names no request and that place (R257). -/
def State.sedFind (s : State) (epoch domain version fmt page hash : Nat) (tokens : List Nat) (crcBad : Bool) : SedFind :=
  match s.sedEnt hash with
  | none => .miss
  | some e =>
    if crcBad then .bad e
    else if e.state ≠ 2 || e.version != version || e.domain != domain || e.kvFmt != fmt || e.epoch != epoch || e.doomed then .miss
    else
      let off := e.addr % 2 ^ 45
      match hdrOf (s.bytesAt off 64) with
      | none => .bad e
      | some h =>
        if hdrPoisoned h || h.handle != 0 || h.page != page || s.anyPoison off e.extent then .bad e
        else if words32 (s.bytesAt (off + 1024) 1024) ≠ tokens then .unequal
        else if 255 ≤ e.pins then .miss
        else .hit e

/-- The pages of a lookup in chain order, from a place of the chain on, to the first that does not hit: hits pinned as they are found. -/
def State.sedWalk (s : State) (epoch domain version fmt : Nat) (crcBad : List Nat) : Nat → List (Nat × List Nat) → List SedEnt × State
  | _, [] => ([], s)
  | page, (hash, tokens) :: rest =>
    match s.sedFind epoch domain version fmt page hash tokens (crcBad.contains hash) with
    | .hit e =>
      let s := s.modSed hash fun (x : SedEnt) =>
        { x with pins := x.pins + 1, lastHit := s.now / 1000000000 % 2 ^ 32, hits := min (2 ^ 32 - 1) (x.hits + 1) }
      let (es, s) := s.sedWalk epoch domain version fmt crcBad (page + 1) rest
      (e :: es, s)
    | .miss => ([], s)
    | .bad e => ([], (s.removeTree e.hash).sedFault 2 1)
    | .unequal => ([], (s.bump .SED_TOKEN_MISMATCH_COUNT).sedFault 3 0)

/-- Whether this module holds a shard of the map of a generation: the current one, or the old one while it drains (R280). -/
def State.servesMap (s : State) (mapGen : Nat) : Bool :=
  if mapGen = s.getF .SED_STATUS_MAP_GEN then s.flag .SED_STATUS_SHARD_ACTIVE
  else s.flag .SED_STATUS_MAP_SWAP_PEND && s.sed.oldMap.contains s.self

/-- SEDIMENT_LOOKUP (R273): a shard answers, its hits pinned with the reply (R274). `mapGen` is the generation of the shard map that the lookup latched
as it was sent (R280); a module that holds no shard of that map answers nothing, and each answer under the old map keeps it 4 us longer. -/
def State.sedLookup (s : State) (mapGen owner handle first epoch domain version fmt : Nat) (pages : List (Nat × List Nat)) (crcBad : List Nat) : State :=
  if !s.servesMap mapGen || s.fenced then s
  else
    let pages := pages.take 256
    let (es, s) := s.sedWalk epoch domain version fmt crcBad first pages
    let s := if mapGen = s.getF .SED_STATUS_MAP_GEN then s else { s with sed := { s.sed with mapAt := some s.now } }
    let s := s.bump .SED_LOOKUPS_COUNT
    let s := s.bump .SED_HIT_PAGES_COUNT es.length
    let s := s.bump .SED_MISS_PAGES_COUNT (pages.length - es.length)
    let s := if es = [] then s
      else { s with sed := { s.sed with pins := s.sed.pins ++ [{ owner := owner, handle := handle, hashes := es.map (·.hash), at_ := s.now }] } }
    s.emit (.message "LOOKUP_REPLY" owner (handle :: first :: es.map (·.addr)))

/-- Release a pin's pages; an entry doomed goes with its last pin. -/
def State.releasePin (s : State) (p : PinSt) : State :=
  let s := { s with sed := { s.sed with pins := s.sed.pins.filter fun x => x != p } }
  p.hashes.foldl (fun s h =>
    let s := s.modSed h fun (x : SedEnt) => { x with pins := x.pins - 1 }
    match s.sedEnt h with
    | some e => if e.doomed && e.pins == 0 then s.removeEnt e else s
    | none => s) s

/-- What a firmware stream of a shard's copy is known by: the module and the request. -/
def copyArg (owner handle : Nat) : Nat := handle + owner * 2 ^ 32

/-- PIN_MS in ns. -/
def State.pinNs (s : State) : Nat := atLeast1 (s.getF .SED_CTRL_PIN_MS) * 1000000

/-- PIN_TIMEOUT (R26, R274, R276, R281): no copy order within PIN_MS of the reply, or a copy not landed within PIN_MS of its order (log 103). -/
def State.pinTimeout (s : State) (owner handle : Nat) : State :=
  match s.sed.pins.filter fun p => p.owner == owner && p.handle == handle && decide (p.at_ + s.pinNs ≤ s.now) with
  | [] => s
  | p :: ps => ((p :: ps).foldl State.releasePin s).dropFirmware 5 (copyArg owner handle)

/-- The memory pages of a stored extent, whose size says which pages it is made of (R252), each with the address it goes to. -/
def extentParts (e : SedEnt) (dest : List Nat) : List (Nat × Nat × Nat) :=
  let g := pageBytes (decide (0x100000 < e.extent))
  ((List.range (e.extent / g)).map fun k => e.addr + k * g).zipWith (fun a d => (a, d, g)) dest

/-- Copies of extents in turn to addresses in turn. -/
def copyParts : List SedEnt → List Nat → List (Nat × Nat × Nat)
  | [], _ => []
  | e :: es, dest =>
    let ps := extentParts e dest
    ps ++ copyParts es (dest.drop ps.length)

/-- COPY_ORDER (R274): the shard copies pinned extents to the addresses named, one for each memory page, under R29, for the context and due at the
boundary named (R235); an order that finds no pin is answered with a miss for every page. -/
def State.copyOrder (s : State) (owner handle c due : Nat) (dest : List Nat) : State :=
  match s.sed.pins.find? (fun p => p.owner == owner && p.handle == handle && !p.ordered) with
  | none => s.emit (.message "COPY_MISS" owner [handle])
  | some _ =>
    let mine := s.sed.pins.filter fun p => p.owner == owner && p.handle == handle
    let s := { s with sed := { s.sed with pins := s.sed.pins.map fun (p : PinSt) =>
      if p.owner = owner ∧ p.handle = handle then { p with ordered := true, at_ := s.now } else p } }
    let es := mine.flatMap fun p => p.hashes.filterMap s.sedEnt
    let parts := copyParts es dest
    match parts with
    | [] => s
    | p :: _ => s.firmwareStream (s.copySeat p.1 p.2.1) c 0 5 (copyArg owner handle) (needNs due s.now) parts

/-! ### The owner's side -/

/-- The module of a root's shard (R271). -/
def State.shardOf (s : State) (root : Nat) : Option Nat := s.sed.map[root / 2 ^ 48 * s.sed.map.length / 65536]?

/-- The hashes and token IDs of a request's full prompt pages from `first` on, 256 at most. -/
def State.lookupPages (s : State) (i first : Nat) (k : DomainKey) : List (Nat × List Nat) :=
  let e := s.entry i
  let v := s.version e.b.version
  let ts := (s.req i).tokens
  ((List.range (e.a.promptLen / 256)).drop first |>.take 256).map fun j => (chainOf k.key v.id k.domain v.kvFmt ts j, (ts.drop (256 * j)).take 256)

/-- Send a request's lookup from page `first` on, when its domain has a key, a shard and a full page to look up; else it is settled (R26,
R27, R269). -/
def State.sendLookup (s : State) (i first : Nat) : State :=
  let e := s.entry i
  let v := s.version e.b.version
  let settled := s.modReq i fun (r : ReqSt) => { r with lookup := 2 }
  match s.domainKey (s.vi e.a.vi).domain with
  | none => settled
  | some k =>
    if k.domain = 0 then settled
    else match s.lookupPages i first k with
      | [] => settled
      | p :: ps =>
        match s.shardOf (chainOf k.key v.id k.domain v.kvFmt (s.req i).tokens 0) with
        | none => settled
        | some m =>
          let s := s.modReq i fun (r : ReqSt) => { r with lookup := 1, lookupAt := s.now, lookupJob := first }
          s.emit (.message "SEDIMENT_LOOKUP" m (s.getF .SED_STATUS_MAP_GEN :: handleOf i e.a.gen :: first :: k.epoch :: k.domain :: v.id :: v.kvFmt :: (p :: ps).map (·.1)))

/-- LOOKUP_REPLY (R273, R26): the hits of a lookup; a late reply is discarded. A prompt of more pages looks further while every page hit. -/
def State.lookupReply (s : State) (handle first : Nat) (addrs : List Nat) : State :=
  match s.findHandle handle with
  | none => (s.bump .SED_LATE_COUNT).sedFault 7 0 handle
  | some i =>
    let r := s.req i
    if r.lookup ≠ 1 || r.lookupJob != first || decide (r.lookupAt + 100000 < s.now) then (s.bump .SED_LATE_COUNT).sedFault 7 0 handle
    else
      let asked := min 256 ((s.entry i).a.promptLen / 256 - first)
      let n := min asked addrs.length
      let s := s.modReq i fun (r : ReqSt) => { r with hitExtents := r.hitExtents ++ addrs.take n, hitCount := first + n, lookup := 2 }
      if n = asked then s.sendLookup i (first + n) else s

/-- LOOKUP_TIMEOUT (R26). -/
def State.lookupTimeout (s : State) (handle : Nat) : State :=
  match s.findHandle handle with
  | none => s
  | some i =>
    let r := s.req i
    if r.lookup = 1 ∧ r.lookupAt + 100000 ≤ s.now then s.modReq i fun (r : ReqSt) => { r with lookup := 2 } else s

/-- SEDIMENT_COPY_LANDED (R274, R276): at the owner the first `landed` hit pages have landed whole, their headers are rewritten; fewer than
all is a failed copy, which its next boundary handles. At the shard the pins are released, also where the owner's COPY_VOID reports none
landed, the order voided (R26, R281): its copy ends. Nothing has landed whole while the shard's copy is under way. -/
def State.sedLanded (s : State) (owner handle landed : Nat) : State :=
  if landed ≠ 0 ∧ s.firmwareBusy 5 (copyArg owner handle) then s
  else
  let s := s.dropFirmware 5 (copyArg owner handle)
  let s := (s.sed.pins.filter fun p => p.owner == owner && p.handle == handle).foldl State.releasePin s
  if owner ≠ s.self then s
  else match s.findHandle handle with
    | none => s
    | some i =>
      let e := s.entry i
      let r := s.req i
      if !e.a.copyIn || r.hitCount == 0 || e.a.state.final || e.a.state == .resuming then s
      else
        let n := min landed r.hitCount
        let s := (List.range n).foldl (fun s j =>
          let va := r.extents.getD j 0
          match s.kvHdr e.a.ctx va with
          | some h => s.putHdr e.a.ctx va { h with handle := handle, ctx := e.a.ctx, page := j, flags := h.flags ||| 8 }
          | none => s.hdrBad i) s
        let s := if e.a.workOut then s else (r.extents.take r.hitCount).foldl (fun s va => s.setXfer e.a.ctx (s.version e.b.version) va false) s
        let s := s.modA i fun (a : EntryA) => { a with copyIn := false }
        if n < r.hitCount then
          let s := (s.bump .SED_COPY_FAIL_COUNT).sedFault 6 0 handle
          s.modReq i fun (r : ReqSt) => { r with copyFail := true, landedHits := n }
        else s.modReq i fun (r : ReqSt) => { r with landedHits := n, landCopy := true }

/-! ### Deposits (R277) -/

/-- One offered page: the entry as it is left or made, or a refusal that ends the offer. -/
def State.offerPage (s : State) (owner handle domain version fmt epoch size hash parent : Nat) : Option State :=
  match s.sedEnt hash with
  | some _ => some s
  | none =>
    let up := parent == 0 || (match s.sedEnt parent with | some p => !p.doomed | none => false)
    if !up then none
    else
      let n := s.getF .SED_CAP_BUCKETS_LOG2
      let (b1, b2) := buckets n hash
      let s := match slotFor s.sed.entries n hash with
        | some _ => s
        | none => match evictNext (s.sed.entries.filter fun e => e.bucket == b1 || e.bucket == b2) with
          | some e => if e.hash = parent then s else s.removeEnt e
          | none => s
      let room := fun (s : State) => match s.storeExtent size with
        | some x => some x
        | none => match evictNext (s.sed.entries.filter fun e => e.hash != parent && decide (size ≤ e.extent)) with
          | some e =>
            let s := s.removeEnt e
            ((List.range (e.extent / 65536)).foldl (fun (s : State) (k : Nat) => s.frameScrubDone (e.addr % 2 ^ 45 / 65536 + k)) s).storeExtent size
          | none => none
      match slotFor s.sed.entries n hash, room s with
      | some b, some (off, s) =>
        let e : SedEnt := { hash := hash, parent := parent, addr := s.dwezin off, extent := size, version := version, domain := domain, kvFmt := fmt,
                            state := 1, epoch := epoch, bucket := b, since := s.now, owner := owner, handle := handle }
        some (s.setSed (s.sed.entries ++ [e]))
      | _, _ => none

/-- The copy of an accepted page of this module's own request to its stored extent (R277); another module copies its own. -/
def State.depositCopy (s : State) (handle hash : Nat) : State :=
  match s.findHandle handle, s.sedEnt hash with
  | some i, some e =>
    let c := (s.entry i).a.ctx
    match (List.range (s.req i).extents.length).find? fun j => ((s.pageHdr i j).map (·.chain)) == some hash with
    | none => s
    | some j =>
      let va := (s.req i).extents.getD j 0
      let g := pageBytes (decide (0x100000 < e.extent))
      let parts := (List.range (e.extent / g)).filterMap fun k => (s.translate c (va + k * g) false).map fun p => (p.1, e.addr + k * g, g)
      s.firmwareStream (i / 2048) c 0 6 hash 0 parts
  | _, _ => s

/-- DEPOSIT_OFFER (R277): pages in chain order, each a hash with its parent's. -/
def State.depositOffer (s : State) (owner handle domain version fmt epoch size : Nat) : List (Nat × Nat) → State
  | [] => s
  | (hash, parent) :: rest =>
    if !s.flag .SED_STATUS_SHARD_ACTIVE || s.fenced then s
    else
      let had := (s.sedEnt hash).isSome
      match s.offerPage owner handle domain version fmt epoch size hash parent with
      | some s =>
        let s := if had then s
          else
            let s := if owner = s.self then s.depositCopy handle hash else s
            s.emit (.message "OFFER_ACCEPT" owner [handle, hash, ((s.sedEnt hash).map (·.addr)).getD 0])
        s.depositOffer owner handle domain version fmt epoch size rest
      | none =>
        let full := parent == 0 || (s.sedEnt parent).isSome
        let s := if full then s.sedFault 5 0 handle else s
        s.emit (.message "OFFER_REFUSE" owner [handle, hash])

/-- One of a request's deposits is over: its page's XFER clears (R277). -/
def State.depositOver (s : State) (handle page : Nat) : State :=
  match s.findHandle handle with
  | none => s
  | some i =>
    let e := s.entry i
    if (s.req i).deposits = 0 then s
    else
      let s := s.setXfer e.a.ctx (s.version e.b.version) ((s.req i).extents.getD page 0) false
      s.modReq i fun (r : ReqSt) => { r with deposits := r.deposits - 1 }

/-- DEPOSIT_LANDED: at the shard the entry becomes VALID and its copy's header names no request; at the owner the page is free of the copy. Nothing has
landed while this module's own copy is under way. -/
def State.depositLanded (s : State) (owner handle page hash : Nat) : State :=
  if s.firmwareBusy 6 hash then s
  else
  let s := match s.sedEnt hash with
    | some e =>
      if e.state = 1 then
        let off := e.addr % 2 ^ 45
        let s := match hdrOf (s.bytesAt off 64) with
          | some h => s.putBytes off { h with handle := 0, flags := h.flags ||| 8 }.bytes
          | none => s
        let s := s.modSed hash fun (x : SedEnt) => { x with state := 2, lastHit := s.now / 1000000000 % 2 ^ 32 }
        let s := s.modSed e.parent fun (x : SedEnt) => { x with children := x.children + 1 }
        s.bump .SED_DEPOSITS_COUNT
      else s
    | none => s
  if owner = s.self then s.depositOver handle page else s

/-- OFFER_TIMEOUT: an accepted page not landed within OFFER_MS is removed; at the owner a refused or removed page's deposit is over. -/
def State.offerTimeout (s : State) (owner handle page hash : Nat) : State :=
  let s := match s.sedEnt hash with
    | some e =>
      if e.state = 1 ∧ e.since + atLeast1 (s.getF .SED_CTRL_OFFER_MS) * 1000000 ≤ s.now then s.removeTree hash else s
    | none => s
  if owner = s.self then s.depositOver handle page else s

/-! ### Generations (R280) -/

/-- INDEX_REBUILD: the other array is being written, for another size or, with `rotate`, another key of a domain. -/
def State.indexRebuild (s : State) (log2 : Nat) (rotate : Option Nat) : State :=
  if !s.flag .SED_STATUS_SHARD_ACTIVE || s.flag .SED_STATUS_REBUILD || s.flag .SED_STATUS_SWAP_PEND || decide (log2 < 10) || decide (28 < log2) then s
  else
    let (k, s) := match rotate with
      | none => (none, s)
      | some d =>
        let (x, s) := s.takeRandom
        (some ({ domain := d, key := x, epoch := (((s.domainKey d).map fun (x : DomainKey) => x.epoch).getD 0 + 1) % 256 } : DomainKey), s)
    let s := { s with sed := { s.sed with otherLog2 := log2, newKey := k } }
    s.setF .SED_STATUS_REBUILD 1

/-- The entries as the new array holds them: hashes of a rotated domain recomputed in chain order from stored token IDs, each placed in one
of its buckets; one that finds no slot is left out. -/
def State.rehash (s : State) (k : Option DomainKey) (n : Nat) : Nat → List (Nat × Nat) → List SedEnt → List SedEnt → List SedEnt
  | 0, _, _, out => out
  | fuel + 1, names, todo, out =>
    let ready := todo.filter fun e => e.parent == 0 || names.any fun p => p.1 == e.parent
    match ready with
    | [] => out
    | e :: _ =>
      let parent := if e.parent = 0 then 0 else ((names.find? fun p => p.1 == e.parent).map (·.2)).getD 0
      let turned := match k with
        | some d => d.domain == e.domain
        | none => false
      let hash := if turned then
          chainHash ((k.map (·.key)).getD 0) parent e.version e.domain e.kvFmt (words32 (s.bytesAt (e.addr % 2 ^ 45 + 1024) 1024))
        else e.hash
      let rest := todo.filter fun x => x.hash != e.hash
      match slotFor out n hash with
      | some b =>
        let x := { e with hash := hash, parent := parent, bucket := b, epoch := if turned then (k.map (·.epoch)).getD 0 else e.epoch }
        s.rehash k n fuel ((e.hash, hash) :: names) rest (out ++ [x])
      | none => s.rehash k n fuel names rest out

/-- Entries with CHILDREN counted anew. -/
def recount (es : List SedEnt) : List SedEnt :=
  es.map fun e => { e with children := (es.filter fun x => x.state == 2 && x.parent == e.hash).length }

/-- The array after a swap: what the rebuild placed, and the pinned entries that it could not, which no lookup finds and which go with their last
pin (R26, R278). -/
def State.swapped (s : State) : List SedEnt :=
  let old := s.sed.entries
  let new := s.rehash s.sed.newKey s.sed.otherLog2 old.length [] old []
  let held := old.filter fun e => e.pins != 0 && !(new.any fun x => x.addr == e.addr)
  recount (new ++ held.map fun e => { e with doomed := true, parent := 0, bucket := 2 ^ 28 })

/-- INDEX_SWAP: the rebuilt array, with every change made meanwhile, becomes the current one; a rotated key comes into force. -/
def State.indexSwap (s : State) : State :=
  if !s.flag .SED_STATUS_REBUILD then s
  else
    let old := s.sed.entries
    let new := s.swapped
    let lost := old.filter fun e => !(new.any fun x => x.addr == e.addr)
    let s := lost.foldl (fun s e => (s.bump .SED_EVICTIONS_COUNT).dropExtent e.addr e.extent) s
    let names := fun (h : Nat) => ((old.find? fun e => e.hash == h).bind fun e => (new.find? fun x => x.addr == e.addr).map (·.hash)).getD h
    let log2 := s.sed.otherLog2
    let keys := match s.sed.newKey with
      | some k => k :: s.sed.keys.filter fun x => x.domain != k.domain
      | none => s.sed.keys
    let s := match s.sed.newKey with
      | some k => s.emit (.message "DOMAIN_KEY" s.self [k.domain, k.epoch])
      | none => s
    let s := { s with sed := { s.sed with
        other := old
        newKey := none
        keys := keys
        swapAt := some s.now
        pins := s.sed.pins.map fun (p : PinSt) => { p with hashes := p.hashes.map names, old := true } } }
    let s := s.setSed new
    let s := s.setF .SED_CAP_BUCKETS_LOG2 log2
    let s := s.setF .SED_STATUS_GEN ((s.getF .SED_STATUS_GEN + 1) % 2)
    (s.setF .SED_STATUS_REBUILD 0).setF .SED_STATUS_SWAP_PEND 1

/-- With the old map gone, the chains whose root belongs to another module's shard go (R271, R280; log 42). -/
def State.dropForeign (s : State) : State :=
  ((s.sed.entries.filter fun e => e.parent == 0 && s.shardOf e.hash != some s.self).map (·.hash)).foldl State.removeTree s

/-- INDEX_RECLAIM: 4 us after the last reply latched to it, the old array or map goes. -/
def State.indexReclaim (s : State) : State :=
  let past := fun (t : Option Nat) => match t with
    | some t => decide (t + 4000 ≤ s.now)
    | none => false
  let s := if past s.sed.swapAt then ({ s with sed := { s.sed with other := [], swapAt := none } }).setF .SED_STATUS_SWAP_PEND 0 else s
  if past s.sed.mapAt then (({ s with sed := { s.sed with oldMap := [], mapAt := none } }).setF .SED_STATUS_MAP_SWAP_PEND 0).dropForeign else s

/-- SHARD_MAP_SWAP: the new map's modules in shard order; a module that comes to hold a shard starts it empty with 2^10 buckets (log 42). -/
def State.mapSwap (s : State) (map : List Nat) : State :=
  if map.length > 256 || s.flag .SED_STATUS_MAP_SWAP_PEND then s
  else
    let was := s.flag .SED_STATUS_SHARD_ACTIVE
    let at_ := map.findIdx? (· == s.self)
    let s := { s with sed := { s.sed with oldMap := s.sed.map, map := map, mapAt := some s.now } }
    let s := s.setF .SED_STATUS_SHARDS map.length
    let s := s.setF .SED_STATUS_MAP_GEN ((s.getF .SED_STATUS_MAP_GEN + 1) % 2)
    let s := s.setF .SED_STATUS_MAP_SWAP_PEND 1
    match at_ with
    | some k =>
      let s := (s.setF .SED_STATUS_SHARD_ACTIVE 1).setF .SED_STATUS_SHARD_ID k
      if was then s else s.setF .SED_CAP_BUCKETS_LOG2 10
    | none => (s.setF .SED_STATUS_SHARD_ACTIVE 0).setF .SED_STATUS_SHARD_ID 0

/-- PATROL_SCRUB, with what poison in a stored extent does (R279). -/
def State.patrolAll (s : State) (off outcome : Nat) : State :=
  let s := s.patrol off outcome
  if outcome < 2 then s
  else match s.sed.entries.find? (fun e => decide (e.addr % 2 ^ 45 ≤ off) && decide (off < e.addr % 2 ^ 45 + e.extent)) with
    | some e => (s.removeTree e.hash).sedFault 4 1
    | none => s

/-! ### Meanings -/

def execSedimentLookup (src : LookupFrom) (handle first epoch domain version fmt : Nat) (pages : List (Nat × List Nat)) (crcBad : List Nat) (s : State) :=
  done (s.sedLookup src.mapGen src.owner handle first epoch domain version fmt pages crcBad)
def execLookupReply (handle first : Nat) (addrs : List Nat) (s : State) := done (s.lookupReply handle first addrs)
def execLookupTimeout (handle : Nat) (s : State) := done (s.lookupTimeout handle)
def execCopyOrder (owner handle : Nat) (what : CopyFor) (dest : List Nat) (s : State) := done (s.copyOrder owner handle what.ctx what.due dest)
def execSedimentCopyLanded (owner handle landed : Nat) (s : State) := done (s.sedLanded owner handle landed)
def execPinTimeout (owner handle : Nat) (s : State) := done (s.pinTimeout owner handle)
def execDepositOffer (owner handle domain version fmt epoch size : Nat) (pages : List (Nat × Nat)) (s : State) :=
  done (s.depositOffer owner handle domain version fmt epoch size pages)
def execDepositLanded (owner handle page hash : Nat) (s : State) := done (s.depositLanded owner handle page hash)
def execOfferTimeout (owner handle page hash : Nat) (s : State) := done (s.offerTimeout owner handle page hash)
def execShardEvict (s : State) := done s.shardEvict
def execIndexRebuild (log2 : Nat) (rotate : Option Nat) (s : State) := done (s.indexRebuild log2 rotate)
def execIndexSwap (s : State) := done s.indexSwap
def execIndexReclaim (s : State) := done s.indexReclaim
def execShardMapSwap (map : List Nat) (s : State) := done (s.mapSwap map)
def execPatrolScrub (off outcome : Nat) (s : State) := done (s.patrolAll off outcome)

end Sys2Proof.Machine
end

