-- ==== Sys2Proof/Machine/StartList.lean ====
section
/-! DEFINITION. The Start List (chapter 11): admission, the commands on a request, notices, pause and resume, holders. -/

namespace Sys2Proof.Machine

/-! ### Faults and acknowledgements -/

/-- SL fault registers. -/
def slRegs : FaultRegs := ⟨0x08, .SL_ERR_FLAGS, Reg.SL_ERR_INFO⟩

/-- The handle of an entry. -/
def State.handle (s : State) (i : Nat) : Nat := handleOf i (s.entry i).a.gen

/-- A Start List fault (Table 11.9); a request-fatal one ends the request with the code given. -/
def State.slFault (s : State) (b sev i code : Nat) : State :=
  let e := s.entry i
  let h := s.handle i
  s.fault slRegs { block := 0x08, fault := b, sev := sev, scope := if sev = 2 then .request h else .none, ctx := some e.a.ctx,
                   info := packBits [(32, h), (8, e.a.ctx), (3, b)], endCode := code }

/-- Complete a command on a request: at once, or when the twin has the change (R317, R494). -/
def State.ackCmd (s : State) (i r q status value : Nat) : State :=
  match (s.ring r).outstanding.find? (fun c => c.seq == q) with
  | none => s
  | some c =>
    if s.mirrored (s.entry i).a.ctx then
      { s with twin := { s.twin with awaiting := s.twin.awaiting ++
        [{ seq := 0, cmd := some c, status := status, value := value, handle := s.handle i, entering := none }] } }
    else s.complete c status value (s.handle i)

/-- What waits for records just sent waits for the last of them. -/
def State.stampAcks (s : State) : State :=
  let n := s.getF .TWIN_SEQ_TX
  { s with twin := { s.twin with awaiting := s.twin.awaiting.map fun (a : Awaiting) => if a.seq = 0 then { a with seq := n } else a } }

/-- Send a changed entry, and let what waits for it wait for that record. -/
def State.mirrorNow (s : State) (i : Nat) : State := (s.mirrorEntry i).stampAcks

/-- The latest record of an entry is not yet acknowledged. -/
def State.mirrorPending (s : State) (i : Nat) : Bool :=
  s.mirrored (s.entry i).a.ctx && s.twin.unacked.any fun u => u.1 == (s.entry i).b.mirrorSeq

/-- End records due are posted after a request's last token record, and after the twin has the entry (R317, R318, R359). -/
def State.postEnds (s : State) : State :=
  s.liveEntries.foldl (fun s i =>
    let r := s.req i
    if r.endDue && r.unposted == [] && !r.takeoverNotice && !s.mirrorPending i then s.postEnd i else s) s

/-! ### Admission (R316, Table 11.2) -/

/-- An entry that an admission waiting for the twin will take. -/
def State.entryTaken (s : State) (i : Nat) : Bool :=
  (s.entry i).a.state != .free || s.twin.awaiting.any fun a => match a.entering with
    | some (k, _, _) => k == i
    | none => false

/-- Where an entry lies (R311): seat, service unit of the seat, slot of the unit. -/
def entryPlace (i : Nat) : Nat × Nat × Nat := (i / 2048, i / 128 % 16, i % 128)

/-- Entries in use in a seat's service units (R311). -/
def State.seatLoad (s : State) (k : Nat) : Nat := (s.liveEntries.filter fun i => (entryPlace i).1 == k).length

/-- The index an admission takes: the least loaded seat, the lower on ties, its lowest free index; no sleeping seat is chosen (R525). -/
def State.freeIndex (s : State) : Option Nat :=
  let seats := orderBy ((List.range 8).filter fun k => !s.asleep k) fun a b => decide (s.seatLoad a ≤ s.seatLoad b)
  seats.findSome? fun k => (List.range 2048).findSome? fun j => if s.entryTaken (2048 * k + j) then none else some (2048 * k + j)

/-- A version's standing for an admission or repin (R480): 0 good, else the status. -/
def State.versionCheck (s : State) (v : Version) (c : Nat) : Nat :=
  if !(v.state == 2 || v.state == 3) || v.ctx != c || (s.mirroring && !s.unpaired && !s.twinHolds v) then 0x04
  else if v.state = 3 then 0x05
  else 0

/-- Token IDs in memory: none where they cannot be read whole. -/
def State.readTokens (s : State) (c va n : Nat) : Option (List Nat) :=
  if n = 0 then some [] else (s.readClean c va (4 * n)).map words32

/-- The pair's live entries number 16,384 (R495). -/
def State.pairFull (s : State) : Bool :=
  s.mirroring && decide (16384 ≤ s.liveEntries.length + (s.twin.awaiting.filter fun (a : Awaiting) => a.entering.isSome).length +
    (s.twin.mirrors.filter fun m => m.2.entry.a.state != .free).length)

/-- What an admission's checks answer: the first status that fails, or the entry and its request. -/
def State.admitCheck (s : State) (c : Cmd) (vi : Nat) : Except Nat (Nat × Entry × ReqSt) :=
  let w := c.fld 16 0 64
  let tokAddr := natBits w 0 56
  let con := natBit w 59
  let hard := natBit w 60
  let dep := natBits w 62 2
  let samp := c.fld 24 0 56
  let cls := c.fld 32 0 56
  let verField := c.fld 40 0 16
  let tq := c.fld 40 16 13
  let deadline := c.fld 48 0 64
  let prompt := c.fld 56 0 25
  let maxLen := c.fld 60 0 25
  let ver := if natBit c.flags 2 then (s.wpkg.live.find? fun p => p.1 == verField).map (·.2) else some verField
  let v := match ver with
    | some k => s.version k
    | none => {}
  let bad := s.versionCheck v c.ctx
  if s.board.poolRole ≠ 2 || s.pairState == 5 then .error 0x01
  else if !s.ctxOf c.ctx vi then .error 0x02
  else if s.getF .SL_VI_QUOTA_ENTRIES (inst vi) ≤ s.slLive vi || s.pairFull then .error 0x03
  else match s.freeIndex with
    | none => .error 0x03
    | some i =>
      if ver.isNone || bad == 0x04 then .error 0x04
      else if bad ≠ 0 then .error bad
      else if prompt = 0 || decide (maxLen < prompt + 1) || decide (2 ^ 24 < maxLen) then .error 0x06
      else match s.readTokens c.ctx tokAddr prompt with
        | none => .error 0x09
        | some toks =>
          if toks.any fun t => decide (v.vocab ≤ t) then .error 0x07
          else if cls = 0 then .error 0x08
          else if !s.mapped c.ctx samp 64 false || !s.mapped c.ctx cls (if con then 64 else 4 * v.vocab) false || s.ownerVi tq != some vi then .error 0x09
          else if hard && deadline != 0 && decide (deadline ≤ s.now) then .error 0x0A
          else if dep = 3 then .error 0x0B
          else match s.readSamp c.ctx samp v.vocab con with
            | .unreadable => .error 0x09
            | .bad => .error 0x0B
            | .good b =>
              match (if con then s.readGrammar c.ctx cls v.vocab else .good {}) with
              | .unreadable => .error 0x09
              | .bad => .error 0x0B
              | .good g =>
                let a : EntryA :=
                  { state := .admitted, priority := natBits w 56 3, constrained := con, hard := hard, dense := natBit w 61,
                    deposit := if (s.vi vi).domain = 0 || s.flag .EXPMAP_CTRL_CAP_LIMITED (inst c.ctx) then 0 else dep, ctx := c.ctx, gen := (s.entry i).a.gen, vi := vi, curLen := prompt,
                    maxLen := maxLen, promptLen := prompt, deadline := deadline, admitTime := s.now }
                let b' : EntryB :=
                  { samplingPtr := samp, penaltyPtr := if con then 0 else cls, grammarPtr := if con then cls else 0, tokenRing := tq,
                    complRing := c.cq, version := v.id, job := 0x8000, delivered := prompt, hostTag := c.tag }
                .ok (i, { a := a, b := b' },
                  { samp := b, grammar := g, tokens := toks, origin := List.replicate prompt false })

/-- An admission takes effect: the entry stands, its prefix lookup leaves (R27). -/
def State.installEntry (s : State) (i : Nat) (e : Entry) (r : ReqSt) : State :=
  let s := (s.setEntry i e).setReq i r
  let s := s.bump .SL_ADMITS_COUNT
  s.sendLookup i 0

/-- The sleeping seat an admission waits for: the lowest-numbered, when no awake seat has a free index (R525). -/
def State.sleeper (s : State) : Option Nat := if s.freeIndex.isSome then none else (List.range 8).find? fun k => s.asleep k

/-- ADMIT. -/
def State.admission (s : State) (r q : Nat) : State :=
  match s.launched r q 0x50 with
  | none => s
  | some c =>
    if s.twin.awaiting.any (fun a => a.cmd.any fun k => k.ring == r && k.seq == q) then s
    else if s.sleeper.isSome then (s.sleeper).elim s fun k => s.setSeat k { s.seat k with wake := true }
    else match s.admitCheck c ((s.ownerVi r).getD 0) with
      | .error st =>
        let s := s.bump .SL_REFUSED_COUNT
        (s.complete c st 0 0).unreserve c.cq
      | .ok (i, e, x) =>
        let h := handleOf i e.a.gen
        if s.mirrored c.ctx then
          let s := s.sendRequest i e x
          let n := s.getF .TWIN_SEQ_TX
          { s with twin := { s.twin with awaiting := s.twin.awaiting ++
            [{ seq := n, cmd := some c, status := 0, value := h, handle := h, entering := some (i, { e with b := { e.b with mirrorSeq := n } }, x) }] } }
        else (s.installEntry i e x).complete c 0 h h

/-! ### Work items and recalls (R328, R333, R334) -/

/-- The next job number of cox firmware (R446). -/
def nextJob (j : Nat) : Nat := 0x8000 + (j + 1) % 0x8000

/-- Void a request's job (R243): a write or a notice that names it is discarded from then on. -/
def State.voidJob (s : State) (i : Nat) : State :=
  let e := s.entry i
  let s := if e.a.workOut then s.emit (.message "RECALL" e.b.workModule [s.handle i, e.b.job]) else s
  let s := s.modA i fun (a : EntryA) => { a with workOut := false }
  let s := s.voidTag e.a.ctx e.b.job false
  s.modB i fun (b : EntryB) => { b with job := nextJob b.job }

/-- Set or clear XFER on the pages `lo` to `hi` - 1 of a request (R199). -/
def State.xferPages (s : State) (i lo hi : Nat) (b : Bool) : State :=
  (((s.req i).extents.take hi).drop lo).foldl (fun s va => s.setXfer (s.entry i).a.ctx (s.version (s.entry i).b.version) va b) s

/-- A page of a request is migrating: addresses of its pages are given out once that has reached M5 (Table 7.6). -/
def State.pagesMoving (s : State) (i : Nat) : Bool :=
  let c := (s.entry i).a.ctx
  let vas := (s.req i).extents.flatMap (s.version (s.entry i).b.version).kvVas
  s.tiers.migs.any fun g => g.ctx == c && vas.contains g.va

/-- The header of a prefill work item (Table 11.7), as bytes. -/
def workHeader (dense : Bool) (ver handle owner c first count job entries due : Nat) : List Nat :=
  let bs := packBytes [(4, 0x4B524F57), (1, 1), (1, bit dense), (2, ver), (4, handle), (2, owner), (1, c), (1, 0), (4, first), (4, count), (2, job), (2, 0),
    (4, entries), (8, due), (20, 0)]
  bs ++ packBytes [(4, crc32c bs)]

/-- Send a request's work item for the positions it lacks, to a module of the pool other than the last where there is one (log 43); with a page of it
migrating it waits for a later boundary (R208). The pages it names carry XFER (R199). -/
def State.sendWork (s : State) (i : Nat) (pool : List Nat) : State :=
  let e := s.entry i
  let r := s.req i
  let others := pool.filter fun m => r.workFails == 0 || m != e.b.workModule
  match (others ++ pool).head? with
  | none => s
  | some m =>
    if s.pagesMoving i then s.modA i fun (a : EntryA) => { a with state := .prefill }
    else
    let pages := (r.workFirst + r.workCount - 1) / 256 + 1
    let s := s.xferPages i 0 pages true
    let s := s.modA i fun (a : EntryA) => { a with workOut := true, state := .prefill }
    let s := s.modB i fun (b : EntryB) => { b with workModule := m }
    let s := s.modReq i fun (r : ReqSt) => { r with workSince := s.now }
    let list := s.extentAddrs i 0 pages
    s.emit (.message "WORK_ITEM" m (workHeader e.a.dense e.b.version (s.handle i) s.self e.a.ctx r.workFirst r.workCount e.b.job list.length
      (Config.workDue (s.handle i) e.b.job).toNat ++ list))

/-- What a request has out is called back: work, copies, the holder's pages (R328); the shard of a sediment copy hears that its order is void
(R26, R281). -/
def State.recall (s : State) (i : Nat) : State :=
  let e := s.entry i
  let s := s.voidJob i
  let s := match (s.req i).hitExtents.head? with
    | some a => if e.a.copyIn && e.a.state != ReqState.resuming then s.emit (.message "COPY_VOID" (a / 2 ^ 45) [s.handle i]) else s
    | none => s
  let s := if e.a.state == .paused || e.a.state == .resuming || e.a.copyOut then s.emit (.message "HOLDER_FREE" e.a.holder [s.handle i]) else s
  let s := (s.dropFirmware 2 (s.handle i)).dropFirmware 3 (s.handle i)
  let s := if e.a.copyOut || e.a.copyIn || e.a.workOut then s.xferPages i 0 (s.req i).extents.length false else s
  let s := s.modA i fun (a : EntryA) => { a with copyIn := false, copyOut := false }
  s.modReq i fun (r : ReqSt) => { r with claimAt := none, copyDue := false }

/-! ### Commands on a request (R328-R337) -/

/-- A queued command. -/
def reqCmd (c : Cmd) (a1 a2 a3 : Nat) (tokens : List Nat) : ReqCmd :=
  { opcode := c.opcode, ring := c.ring, seq := c.seq, arg1 := a1, arg2 := a2, arg3 := a3, tokens := tokens }

/-- Keep a command for the boundary. -/
def State.queueCmd (s : State) (i : Nat) (k : ReqCmd) : State := s.modReq i fun (r : ReqSt) => { r with cmds := r.cmds ++ [k] }

/-- The entry a command names, when it is of its context and interface (R313). -/
def State.cmdEntry (s : State) (c : Cmd) : Option Nat :=
  match s.findHandle (c.fld 32 0 32) with
  | none => none
  | some i => if (s.entry i).a.ctx = c.ctx ∧ s.ownerVi c.ring = some (s.entry i).a.vi then some i else none

/-- A command of a request already kept or waiting for the twin is not taken twice. -/
def State.cmdTaken (s : State) (r q : Nat) : Bool :=
  s.reqs.any (fun p => p.2.cmds.any fun k => k.ring == r && k.seq == q) || s.twin.awaiting.any fun a => a.cmd.any fun k => k.ring == r && k.seq == q

/-- CANCEL (R328). -/
def State.cancel (s : State) (r q : Nat) : State :=
  match s.launched r q 0x51 with
  | none => s
  | some c =>
    if s.cmdTaken r q then s
    else match s.cmdEntry c with
      | none => s.complete c 0x13 0 (c.fld 32 0 32)
      | some i =>
        match (s.entry i).a.state with
        | .done => s.complete c 0x10 0 (s.handle i)
        | .cancelled => s.complete c 0x11 0 (s.handle i)
        | .failed => s.complete c 0x12 0 (s.handle i)
        | _ => ((s.queueCmd i (reqCmd c 0 0 0 [])).modA i fun (a : EntryA) => { a with cancelPend := true }).mirrorNow i

/-- PAUSE (R329, Table 11.6). -/
def State.pause (s : State) (r q : Nat) : State :=
  match s.launched r q 0x52 with
  | none => s
  | some c =>
    let ttl := c.fld 36 0 32
    if s.cmdTaken r q then s
    else match s.cmdEntry c with
      | none => s.complete c 0x13 0 (c.fld 32 0 32)
      | some i =>
        let e := s.entry i
        let badTtl := ttl == 0 || decide (604800 < ttl)
        match e.a.state with
        | .done => s.complete c 0x10 0 (s.handle i)
        | .cancelled => s.complete c 0x11 0 (s.handle i)
        | .failed => s.complete c 0x12 0 (s.handle i)
        | .resuming => s.complete c 0x14 0 (s.handle i)
        | .paused =>
          if !e.a.autoResume then s.complete c 0x14 0 (s.handle i)
          else if badTtl then s.complete c 0x17 0 (s.handle i)
          else
            let s := s.modA i fun (a : EntryA) => { a with autoResume := false, expiry := s.now / 1000000000 + ttl }
            let s := s.modReq i fun (r : ReqSt) => { r with ttl := ttl }
            let s := s.emit (.message "PAUSE_TTL" e.a.holder [s.handle i, ttl])
            (s.ackCmd i r q 0 0).mirrorNow i
        | _ =>
          if badTtl then s.complete c 0x17 0 (s.handle i)
          else
            let s := s.queueCmd i (reqCmd c ttl 0 0 [])
            let s := s.modReq i fun (r : ReqSt) => { r with ttl := ttl }
            (s.modA i fun (a : EntryA) => { a with pausePend := true }).mirrorNow i

/-- The new values of a resume apply (R331). -/
def State.resumeValues (s : State) (i deadline maxLen : Nat) : State :=
  s.modA i fun (a : EntryA) => { a with deadline := if deadline = 0 then a.deadline else deadline, maxLen := if maxLen = 0 then a.maxLen else maxLen }

/-- A resume of a request whose pause copy has not landed: the copy is void, the pages stay (Table 11.6). -/
def State.resumeKept (s : State) (i : Nat) (tokens : List Nat) : State :=
  let e := s.entry i
  let s := s.emit (.message "HOLDER_FREE" e.a.holder [s.handle i])
  let s := s.dropFirmware 2 (s.handle i)
  let s := (s.req i).extents.foldl (fun s va => s.setXfer e.a.ctx (s.version e.b.version) va false) s
  let s := s.modA i fun (a : EntryA) => { a with state := .resuming, copyOut := false, autoResume := false, holder := 0 }
  s.modReq i fun (r : ReqSt) => { r with reserved := false, landCopy := true, appended := tokens, freeDue := false, copyDue := false }

/-- RESUME (R331). -/
def State.resume (s : State) (r q : Nat) : State :=
  match s.launched r q 0x53 with
  | none => s
  | some c =>
    if s.cmdTaken r q then s
    else match s.cmdEntry c with
      | none => s.complete c 0x13 0 (c.fld 32 0 32)
      | some i =>
        let e := s.entry i
        let v := s.version e.b.version
        let n := c.fld 36 0 25
        let deadline := c.fld 48 0 64
        let newMax := c.fld 56 0 25
        let maxLen := if newMax = 0 then e.a.maxLen else newMax
        let say := fun (st : Nat) => s.complete c st 0 (s.handle i)
        match e.a.state with
        | .cancelled => say 0x11
        | .failed => say 0x12
        | _ =>
          if e.a.state != .paused && !e.a.pausePend then say 0x15
          else if (s.req i).claimAt.isSome then say 0x15
          else if maxLen ≤ e.a.curLen + n || decide (2 ^ 24 < maxLen) then say 0x06
          else match s.readTokens c.ctx (c.fld 40 0 56) n with
            | none => say 0x09
            | some toks =>
              if toks.any fun t => decide (v.vocab ≤ t) then say 0x07
              else if e.a.hard && deadline != 0 && decide (deadline ≤ s.now) then say 0x0A
              else if e.a.state != .paused then s.queueCmd i (reqCmd c deadline newMax 0 toks)
              else if e.a.copyOut then
                (((s.resumeKept i toks).resumeValues i deadline newMax).ackCmd i r q 0 0).mirrorNow i
              else
                let s := s.queueCmd i (reqCmd c deadline newMax 0 toks)
                let s := s.modReq i fun (x : ReqSt) => { x with claimAt := some s.now }
                s.emit (.message "CLAIM" e.a.holder [s.handle i])

/-- REPIN (R337). -/
def State.repin (s : State) (r q : Nat) : State :=
  match s.launched r q 0x54 with
  | none => s
  | some c =>
    if s.cmdTaken r q then s
    else match s.cmdEntry c with
      | none => s.complete c 0x13 0 (c.fld 32 0 32)
      | some i =>
        let e := s.entry i
        let ver := c.fld 36 0 16
        let st := s.versionCheck (s.version ver) c.ctx
        if st ≠ 0 then s.complete c st 0 (s.handle i)
        else match e.a.state with
          | .decode => s.queueCmd i (reqCmd c ver 0 0 [])
          | .resuming => s.queueCmd i (reqCmd c ver 0 0 [])
          | .paused =>
            if (s.req i).claimAt.isSome then s.complete c 0x0B 0 (s.handle i)
            else
              let s := s.queueCmd i (reqCmd c ver 0 0 [])
              if e.a.copyOut then s
              else
                let s := s.modReq i fun (x : ReqSt) => { x with claimAt := some s.now }
                s.emit (.message "CLAIM" e.a.holder [s.handle i])
          | _ => s.complete c 0x0B 0 (s.handle i)

/-- A repin takes effect: pages freed, the target pinned, a join of the known positions (R337). -/
def State.repinTo (s : State) (i ver : Nat) : State :=
  let s := s.freePages i
  let s := s.modA i fun (a : EntryA) => { a with state := .admitted, hitLen := 0, held := false, autoResume := false, copyIn := false, pausePend := a.pausePend }
  let s := s.modB i fun (b : EntryB) => { b with version := ver }
  s.modReq i fun (r : ReqSt) =>
    { r with lookup := 2, hitCount := 0, hitExtents := [], landedHits := 0, reserved := false, countsBad := true, landCopy := false, sampled := none,
             inStep := false, workCount := 0, offered := 0, selShapes := [] }

/-! ### Pauses and holders (R329-R331) -/

/-- A firmware stream that copies extents page by page within the context's memory on this module (R224). -/
def State.copyExtents (s : State) (i purpose : Nat) (ps : List (Nat × Nat)) : State :=
  let e := s.entry i
  let v := s.version e.b.version
  let parts := ps.flatMap fun p => (List.range (v.kvExtent / pageBytes v.kvBig)).filterMap fun k =>
    match s.translate e.a.ctx (p.1 + k * pageBytes v.kvBig) false, s.translate e.a.ctx (p.2 + k * pageBytes v.kvBig) true with
    | some (a, _), some (b, _) => some (a, b, pageBytes v.kvBig)
    | _, _ => none
  s.firmwareStream (i / 2048) e.a.ctx 0 purpose (s.handle i) 0 parts

/-- Extents in this module's own Bedrock for a request's pages. -/
def State.holdExtents (s : State) (c : Nat) (v : Version) : Nat → Option (List Nat × State)
  | 0 => some ([], s)
  | n + 1 => match s.holdExtents c v n with
    | none => none
    | some (l, s) => match s.newExtent c 2 v with
      | .error _ => none
      | .ok (va, s) => some (l ++ [va], s)

/-- The cache module that takes a request's pages (R329): the most free Bedrock as last reported, the lowest identifier on ties; slice 0
holds every module (R394; DEDUCED, log 101). -/
def State.cacheHolder (s : State) (i : Nat) : Option Nat :=
  let e := s.entry i
  let need := (s.req i).extents.length * ((s.version e.b.version).kvExtent / 65536)
  let ms := s.tiers.reports.filter fun p => decide (need ≤ p.2) && p.1 != s.self &&
    ((s.ctx e.a.ctx).slice == 0 || (s.sliceOf (s.ctx e.a.ctx).slice).contains p.1)
  ((orderBy ms fun a b => decide (b.2 < a.2) || (a.2 == b.2 && decide (a.1 ≤ b.1))).head?).map (·.1)

/-- The copies of a paused request's pages leave for its holder (R329). -/
def State.pauseCopy (s : State) (i : Nat) : State :=
  let s := s.modReq i fun (r : ReqSt) => { r with copyDue := false }
  let holder := (s.entry i).a.holder
  let r := s.req i
  let s := if holder = s.self then s.copyExtents i 2 (r.extents.zip r.held) else s
  s.emit (.message "PAUSE_COPY" holder (s.handle i :: s.self :: r.ttl :: r.extents.length :: s.extentAddrs i 0 r.extents.length))

/-- A DECODE request leaves the batch PAUSED (R329); none where no holder can take its pages. With a page of it migrating the copies leave at the first
boundary after that (R208). -/
def State.pauseOut (s : State) (i ttl : Nat) (auto : Bool) : Option State :=
  let e := s.entry i
  let v := s.version e.b.version
  let go := fun (s : State) (holder : Nat) (held : List Nat) =>
    let s := s.modA i fun (a : EntryA) =>
      { a with state := .paused, holder := holder, copyOut := true, autoResume := auto, pausePend := false, held := false, pages := (s.req i).extents.length }
    let s := s.modReq i fun (r : ReqSt) => { r with ttl := ttl, held := held, reserved := false, sampled := none, inStep := false, copyDue := true }
    let s := s.xferPages i 0 (s.req i).extents.length true
    if s.pagesMoving i then s else s.pauseCopy i
  match s.cacheHolder i with
  | some m => some (go s m [])
  | none => match s.holdExtents e.a.ctx v (s.req i).extents.length with
    | some (held, s) => some (go s s.self held)
    | none => none

/-- Frames of this module's Bedrock for another module's paused pages. -/
def State.holdFrames (s : State) : Nat → List Nat × State
  | 0 => ([], s)
  | n + 1 => match s.findFrame 2 false with
    | none => ([], s)
    | some f =>
      let (l, s) := (s.setTag f { ctx := sedCtx, kind := 3 }).holdFrames n
      (f :: l, s)

/-- A hold changes: the record goes to the holder's twin (R498). A claimed hold has no EXPIRY_S: its record says all ones (log 112). -/
def State.tellHold (s : State) (h : Hold) (pages : Nat) : State :=
  if s.mirroring then
    s.sendTwin "HOLD" true h.handle 0 (packBytes [(4, h.handle), (2, h.owner), (4, if h.claimed then 2 ^ 32 - 1 else h.expiry), (4, pages)])
  else s

/-- Store or drop a hold. -/
def State.putHold (s : State) (h : Hold) : State := { s with twin := { s.twin with holds := h :: s.twin.holds.filter fun x => x.handle != h.handle } }
def State.findHold (s : State) (handle : Nat) : Option Hold := s.twin.holds.find? fun h => h.handle == handle

/-- Frames of 64 KiB that a hold takes: those of another module's request, or of the extents of its own. -/
def State.holdSize (s : State) (h : Hold) : Nat :=
  if h.owner ≠ s.self then h.pages.length
  else match s.findHandle h.handle with
    | some i => h.pages.length * ((s.version (s.entry i).b.version).kvExtent / 65536)
    | none => 0

/-- The Dwezin addresses of a hold's 64 KiB frames, in order. -/
def State.holdAddrs (s : State) (h : Hold) : List Nat :=
  if h.owner ≠ s.self then h.pages.map fun f => s.dwezin (f * 65536)
  else match s.findHandle h.handle with
    | some i => h.pages.flatMap fun va => (List.range ((s.version (s.entry i).b.version).kvExtent / 65536)).map fun k =>
        ((s.translate (s.entry i).a.ctx (va + 65536 * k) false).map (·.1)).getD 0
    | none => []

/-- The holder frees a request's pages: frames of another module's request, extents of its own. -/
def State.freeHold (s : State) (h : Hold) : State :=
  let s := { s with twin := { s.twin with holds := s.twin.holds.filter fun x => x.handle != h.handle } }
  let s := (s.tellHold h 0).dropFirmware 8 h.handle
  if h.owner ≠ s.self then s.toScrub h.pages
  else match s.findHandle h.handle with
    | none => s
    | some i =>
      let e := s.entry i
      let s := (s.req i).held.foldl (fun s va => s.freeExtent e.a.ctx (s.version e.b.version) va) s
      s.modReq i fun (r : ReqSt) => { r with held := [] }

/-- The holder has reported the pause copy landed (R329): COPY_OUT clears and the pages leave at the next boundary, but a repin that waited for it
claims. -/
def State.ownerLanded (s : State) (i : Nat) : State :=
  let e := s.entry i
  let handle := s.handle i
  let expiry := s.now / 1000000000 + (s.req i).ttl
  let s := if e.a.holder = s.self then s
    else s.chargeBytes (i / 2048) e.a.ctx ((s.req i).extents.length * (s.version e.b.version).kvExtent)
  let s := s.xferPages i 0 (s.req i).extents.length false
  let s := s.modA i fun (a : EntryA) => { a with copyOut := false, expiry := expiry }
  let s := s.modReq i fun (r : ReqSt) => { r with freeDue := true }
  let s := if (s.req i).cmds.any fun k => k.opcode == 0x54 then
      let s := s.modReq i fun (r : ReqSt) => { r with claimAt := some s.now }
      s.emit (.message "CLAIM" e.a.holder [handle])
    else s
  s.mirrorNow i

/-- The holder reports a hold's copy landed to the owner. -/
def State.reportHold (s : State) (h : Hold) : State :=
  if h.owner ≠ s.self then s.emit (.message "PAUSE_COPY_LANDED" h.owner [h.handle])
  else match s.findHandle h.handle with
    | some i => if (s.entry i).a.copyOut && (s.entry i).a.state == .paused then s.ownerLanded i else s
    | none => s

/-- A hold begins: it is told to the holder's twin and reported once the twin's copy holds too (R498); `copy` is 1 while the twin's frames are not
known, 2 while the copy to them runs. -/
def State.beginHold (s : State) (h : Hold) : State :=
  let s := s.putHold { h with copy := bit s.mirroring }
  if s.mirroring then s.tellHold h (s.holdSize h) else s.reportHold h

/-- Frames of a holder's twin for a hold are known from `first` on: with all of them the copy to them leaves (R498). -/
def State.copyHold (s : State) (h : Hold) (first : Nat) (as : List Nat) : State :=
  let as := h.mapped.take first ++ as ++ h.mapped.drop (first + as.length)
  if h.copy ≠ 1 then s
  else if as.length < s.holdSize h then s.putHold { h with mapped := as }
  else
    let s := s.putHold { h with copy := 2, mapped := [] }
    s.firmwareStream 0 (match s.findHandle h.handle with | some i => if h.owner = s.self then (s.entry i).a.ctx else sedCtx | none => sedCtx) 0 8 h.handle 0
      ((s.holdAddrs h).zip as |>.map fun p => (p.1, p.2, 65536))

/-- Both copies of a hold stand. -/
def State.holdCopied (s : State) (h : Hold) : State :=
  if h.copy ≠ 2 || s.firmwareBusy 8 h.handle then s else (s.putHold { h with copy := 0 }).reportHold h

/-- PAUSE_COPY_LANDED (R329, R330): at the holder the hold begins; at the owner COPY_OUT clears. `frames` is the copy's size in 64 KiB, `lines` what it
brought to another module's holder. -/
def State.pauseLanded (s : State) (owner handle ttl frames : Nat) (lines : List (Line × Bool)) : State :=
  if owner ≠ s.self then
    if (s.findHold handle).isSome || s.fenced then s
    else
      let (fs, s) := s.holdFrames frames
      let s := (lines.take (1024 * fs.length)).zipIdx.foldl (fun s p => s.putLine (fs.getD (p.2 / 1024) 0 * 65536 + 64 * (p.2 % 1024)) p.1.1 p.1.2) s
      s.beginHold { handle := handle, owner := owner, expiry := s.now / 1000000000 + ttl, pages := fs }
  else match s.findHandle handle with
    | none => s
    | some i =>
      let e := s.entry i
      if !e.a.copyOut || e.a.state != .paused || (s.req i).copyDue || s.firmwareBusy 2 handle then s
      else if e.a.holder ≠ s.self then s.ownerLanded i
      else if (s.findHold handle).isSome then s
      else s.beginHold { handle := handle, owner := owner, expiry := s.now / 1000000000 + (s.req i).ttl, pages := (s.req i).held }

/-- PAUSE_EXPIRY (R330): the holder frees the pages and tells the owner. -/
def State.pauseExpiry (s : State) (handle : Nat) : State :=
  match s.findHold handle with
  | none => s
  | some h =>
    if h.claimed || decide (s.now / 1000000000 < h.expiry) then s
    else (s.freeHold h).emit (.message "EXPIRED" h.owner [handle])

/-- HOLDER_FREE (R328): the owner no longer needs the pages. -/
def State.holderFree (s : State) (handle : Nat) : State :=
  match s.findHold handle with
  | some h => s.freeHold h
  | none => s

/-- CLAIM (R331): the holder answers CLAIMED, which stops the time-to-live and pins the pages, or EXPIRED. -/
def State.claim (s : State) (handle owner : Nat) : State :=
  match s.findHold handle with
  | none => s.emit (.message "EXPIRED" owner [handle])
  | some h =>
    let h := { h with claimed := true, owner := owner }
    ((s.putHold h).tellHold h h.pages.length).emit (.message "CLAIMED" owner [handle])

/-- Answer every command of an opcode that a request holds. -/
def State.answerCmds (s : State) (i op status : Nat) : State :=
  let ks := (s.req i).cmds.filter fun k => k.opcode == op
  let s := s.modReq i fun (r : ReqSt) => { r with cmds := r.cmds.filter fun k => k.opcode != op }
  ks.foldl (fun s k => s.ackCmd i k.ring k.seq status 0) s

/-- EXPIRED_NOTICE (R330, R331): the request ends FAILED; a resume completes EXPIRED, a repin ALREADY_FAILED. -/
def State.expiredNotice (s : State) (handle : Nat) : State :=
  match s.findHandle handle with
  | none => s
  | some i =>
    let e := s.entry i
    if e.a.state == .paused || (e.a.state == .resuming && (s.req i).claimAt.isSome) then
      let s := s.bump .SL_EXPIRED_COUNT
      let s := s.slFault 4 0 i 0
      let s := s.setEnd i .failed 0x06
      let s := s.modReq i fun (r : ReqSt) => { r with claimAt := none }
      ((s.answerCmds i 0x53 0x16).answerCmds i 0x54 0x12).mirrorNow i
    else s

/-- Return copies leave the holder for the pages reserved (R331). -/
def State.returnCopies (s : State) (i : Nat) : State :=
  let e := s.entry i
  let s := s.xferPages i 0 e.a.pages true
  let s := if e.a.holder = s.self then s.copyExtents i 3 ((s.req i).held.zip (s.req i).extents) else s
  let s := s.modA i fun (a : EntryA) => { a with copyIn := true }
  s.emit (.message "RETURN_COPY" e.a.holder (s.handle i :: s.extentAddrs i 0 e.a.pages))

/-- CLAIMED (R331): a resume makes the request RESUMING; a repin rebuilds it; a reservation under AUTO_RESUME gets its return copies. -/
def State.claimed (s : State) (handle : Nat) : State :=
  match s.findHandle handle with
  | none => s
  | some i =>
    let e := s.entry i
    let r := s.req i
    if r.claimAt.isNone then s
    else
      let s := s.modReq i fun (r : ReqSt) => { r with claimAt := none }
      if e.a.state == .resuming then s.returnCopies i
      else if e.a.state != .paused then s
      else match r.cmds.find? (fun k => k.opcode == 0x53), r.cmds.find? (fun k => k.opcode == 0x54) with
        | some k, _ =>
          let s := s.modA i fun (a : EntryA) => { a with state := .resuming, autoResume := false }
          let s := s.resumeValues i k.arg1 k.arg2
          let s := s.modReq i fun (r : ReqSt) => { r with appended := k.tokens, reserved := false, landCopy := false }
          (s.answerCmds i 0x53 0).mirrorNow i
        | none, some k =>
          let s := s.emit (.message "HOLDER_FREE" e.a.holder [handle])
          ((s.repinTo i k.arg1).answerCmds i 0x54 0).mirrorNow i
        | none, none =>
          -- a rebuilt request that was RESUMING (Table 17.5)
          if e.a.takenOver then
            let s := s.modA i fun (a : EntryA) => { a with state := .resuming }
            s.modReq i fun (r : ReqSt) => { r with reserved := false, landCopy := false }
          else s

/-- Return copies have landed (R331). -/
def State.returnLanded (s : State) (handle : Nat) : State :=
  match s.findHandle handle with
  | none => s
  | some i =>
    let e := s.entry i
    if e.a.state != .resuming || !e.a.copyIn || s.firmwareBusy 3 handle then s
    else
      let s := s.xferPages i 0 e.a.pages false
      let s := s.modA i fun (a : EntryA) => { a with copyIn := false, holder := 0 }
      let s := s.modReq i fun (r : ReqSt) => { r with landCopy := true }
      s.emit (.message "HOLDER_FREE" e.a.holder [handle])

/-- FREE_BEDROCK_REPORT (R329). -/
def State.bedrockReport (s : State) (m units : Nat) : State := { s with tiers := { s.tiers with reports := SMap.put s.tiers.reports m units } }

/-! ### Notices of a work item (R334) -/

/-- The request a notice names, when it names the current job of an item that is out. -/
def State.workEntry (s : State) (handle job : Nat) : Option Nat :=
  match s.findHandle handle with
  | some i => if (s.entry i).a.workOut && (s.entry i).b.job == job then some i else none
  | none => none

/-- PROGRESS. -/
def State.progressNotice (s : State) (handle job : Nat) : State :=
  match s.workEntry handle job with
  | some i => s.modReq i fun (r : ReqSt) => { r with workSince := s.now }
  | none => s

/-- LAST_LAYER: PREFILL passes to SHIPPING on receipt. -/
def State.lastLayer (s : State) (handle job : Nat) : State :=
  match s.workEntry handle job with
  | some i =>
    if (s.entry i).a.state == .prefill then
      let s := s.modReq i fun (r : ReqSt) => { r with workSince := s.now }
      (s.modA i fun (a : EntryA) => { a with state := .shipping }).mirrorNow i
    else s
  | none => s

/-- DONE: the item is no longer out; the request passes to DECODE at the next boundary. -/
def State.doneNotice (s : State) (handle job : Nat) : State :=
  match s.workEntry handle job with
  | some i =>
    let keep := if (s.entry i).a.copyIn then (s.req i).hitCount else 0
    if (s.entry i).a.state == .shipping then
      ((s.xferPages i keep (s.req i).extents.length false).modA i fun (a : EntryA) => { a with workOut := false }).mirrorNow i
    else s
  | none => s

/-- FAILED: acted on at the next boundary. -/
def State.failedNotice (s : State) (handle job : Nat) : State :=
  match s.workEntry handle job with
  | some i => s.modReq i fun (r : ReqSt) => { r with resendDue := true }
  | none => s

/-- WORK_TIMEOUT: silent for WORK_MS. -/
def State.workTimeout (s : State) (handle : Nat) : State :=
  match s.findHandle handle with
  | none => s
  | some i =>
    if (s.entry i).a.workOut && decide ((s.req i).workSince + atLeast1 (s.getF .SL_CTRL_WORK_MS) * 1000000 ≤ s.now) then
      s.modReq i fun (r : ReqSt) => { r with resendDue := true }
    else s

/-- WORK_ITEM (R333, R334, R481): this module, a prefill module, takes an item for another's request, computes it under the version's prefill
rig and ships it (log 43): its notices and its writes leave in order, charged to its context, or FAILED. `due` is its NEED_NS, the time its KV is due,
from which its streams' offset is taken (R235); `good` says that the rig completed it. -/
def State.workItem (s : State) (handle owner c ver first count job due : Nat) (addrs : List Nat) (good : Bool) : State :=
  if s.fenced then s
  else if !good || (s.version ver).state != 2 && (s.version ver).state != 3 || count == 0 || s.board.poolRole != 1 then
    s.emit (.message "FAILED" owner [handle, job])
  else
    let s := s.emit (.message "PROGRESS" owner [handle, job])
    let s := s.emit (.message "LAST_LAYER" owner [handle, job])
    let s := s.emit (.message "SHIP" owner (handle :: c :: first :: count :: job :: needNs due s.now :: addrs))
    let s := s.chargeBytes 0 c (count * (s.version ver).layers * (s.version ver).kvLayer / 256)
    s.emit (.message "DONE" owner [handle, job])

/-! ### Meanings -/

def execAdmitCmd (r q : Nat) (s : State) := done (s.admission r q)
def execCancel (r q : Nat) (s : State) := done (s.cancel r q)
def execPause (r q : Nat) (s : State) := done (s.pause r q)
def execResume (r q : Nat) (s : State) := done (s.resume r q)
def execRepin (r q : Nat) (s : State) := done (s.repin r q)
def execWorkItem (handle owner c ver first count : Nat) (job : WorkJob) (addrs : List Nat) (good : Bool) (s : State) :=
  done (s.workItem handle owner c ver first count job.job job.due addrs good)
def execProgress (handle job : Nat) (s : State) := done (s.progressNotice handle job)
def execLastLayer (handle job : Nat) (s : State) := done (s.lastLayer handle job)
def execDoneNotice (handle job : Nat) (s : State) := done (s.doneNotice handle job)
def execFailedNotice (handle job : Nat) (s : State) := done (s.failedNotice handle job)
def execWorkTimeout (handle : Nat) (s : State) := done (s.workTimeout handle)
def execPauseCopyLanded (owner handle ttl : Nat) (copy : PauseCopy) (s : State) := done (s.pauseLanded owner handle ttl copy.frames copy.lines)
def execPauseExpiry (handle : Nat) (s : State) := done (s.pauseExpiry handle)
def execExpiredNotice (handle : Nat) (s : State) := done (s.expiredNotice handle)
def execClaim (handle owner : Nat) (s : State) := done (s.claim handle owner)
def execClaimed (handle : Nat) (s : State) := done (s.claimed handle)
def execHolderFree (handle : Nat) (s : State) := done (s.holderFree handle)
def execFreeBedrockReport (m units : Nat) (s : State) := done (s.bedrockReport m units)

end Sys2Proof.Machine
end

