-- ==== Sys2Proof/Machine/Takeover.lean ====
section
/-! DEFINITION. Mirrors and their extents, checkpoints, the rebuild of a lost twin's requests, takeover notices, hand-over and re-admission
(R496-R509): what a step boundary does for the pair. -/

namespace Sys2Proof.Machine

/-! ### Faults and pair states -/

def twinRegs : FaultRegs := ⟨0x0E, .TWIN_ERR_FLAGS, Reg.TWIN_ERR_INFO⟩

/-- A pair fault (Table 17.10) that concerns a module. -/
def State.twinFault (s : State) (b sev m : Nat) : State :=
  s.fault twinRegs { block := 0x0E, fault := b, sev := sev, scope := if sev = 4 then .module else .none, whereKind := 8, whereIs := m,
                     info := packBits [(15, m), (4, b)] }

/-- The twin. -/
def State.peer (s : State) : Nat := s.getF .TWIN_ID_PEER

/-- TWIN_ID takes what the Keel names (R488). -/
def State.takeTwinId (s : State) : State :=
  let p := s.getF .KEEL_TWIN_PEER
  let s := s.setF .TWIN_ID_PEER p
  let s := s.setF .TWIN_ID_PAIR_EN (s.getF .KEEL_TWIN_PAIR_EN)
  (s.setF .TWIN_ID_PAIR (min p s.self)).setF .TWIN_ID_LOWER (bit (decide (s.self < p)))

/-- Enter a pair state; a change is logged with the entries rebuilt (Table 19.9a PAIR). -/
def State.setPair (s : State) (st rebuilt : Nat) : State :=
  let old := s.pairState
  let s := s.setF .TWIN_STATUS_STATE st
  if old = st then s else (s.logRec 7 (pairBody old st s.peer rebuilt)).pldmEvent 2 st

/-! ### Mirrors at the twin (R496) -/

/-- A mirror by the sender's index. -/
def State.mirror (s : State) (i : Nat) : Option Mirror := (s.twin.mirrors.find? fun m => m.1 == i).map (·.2)

/-- Store a mirror, indexes rising; TWIN_STATUS.MIRRORED and the GiB held follow. -/
def State.putMirrors (s : State) (ms : List (Nat × Mirror)) : State :=
  let s := { s with twin := { s.twin with mirrors := ms } }
  let s := s.setF .TWIN_STATUS_MIRRORED (ms.filter fun m => m.2.entry.a.state != .free).length
  s.setF .TWIN_MIRROR_GIB_GIB (ms.foldl (fun a m => a + m.2.extents.length * m.2.size) 0 / 2 ^ 30)
def State.setMirror (s : State) (i : Nat) (m : Mirror) : State := s.putMirrors (SMap.put s.twin.mirrors i m)

/-- Frames of an extent go to SCRUB. -/
def State.freeFrames (s : State) (off size : Nat) : State :=
  (List.range (size / 65536)).foldl (fun s k => s.setTag (off / 65536 + k) { s.tag (off / 65536 + k) with kind := 4 }) s

/-- Free a mirror's extents; its checkpoint length is 0 (R498). -/
def State.freeMirrorExtents (s : State) (i : Nat) : State :=
  match s.mirror i with
  | none => s
  | some m =>
    let s := m.extents.foldl (fun s a => s.freeFrames a m.size) s
    s.setMirror i { m with extents := [], ckptLen := 0, full := false }

/-- Drop a mirror, its extents with it. -/
def State.dropMirror (s : State) (i : Nat) : State :=
  let s := s.freeMirrorExtents i
  s.putMirrors (s.twin.mirrors.filter fun m => m.1 != i)

/-- Drop every mirror. -/
def State.dropMirrors (s : State) : State :=
  let s := s.twin.mirrors.foldl (fun s m => s.dropMirror m.1) s
  { s with twin := { s.twin with mirrorHolds := [] } }

/-- The lowest run of frames of this module's Bedrock for an extent, as a module offset (R252, R496; log 18). -/
def State.findExtent (s : State) (size : Nat) : Option Nat :=
  let n := max 1 (size / 65536)
  ((s.tierRanges 2).findSome? fun r => s.findRun n r.2 (s.tiers.frames.length + 1) ((r.1 + 31) / 32 * 32)).map (· * 65536)

/-- Extents for `n` pages more of a mirror, frames of kind SYS; whether all could be had. -/
def State.growMirror (s : State) (i : Nat) : Nat → Bool × State
  | 0 => (true, s)
  | n + 1 =>
    match s.mirror i with
    | none => (false, s)
    | some m => match s.findExtent m.size with
      | none => (false, s)
      | some a =>
        let s := (List.range (m.size / 65536)).foldl (fun s k => s.setTag (a / 65536 + k) { ctx := sedCtx, kind := 3 }) s
        (s.setMirror i { m with extents := m.extents ++ [a] }).growMirror i n

/-- MIRROR_MAP records, at most 507 addresses to a record (Table 17.3). -/
def State.sendMap (s : State) (handle ctx first : Nat) (as : List Nat) : State :=
  (List.range ((as.length + 506) / 507)).foldl (fun s k =>
    let part := (as.drop (507 * k)).take 507
    s.sendTwin "MIRROR_MAP" false handle ctx (packBytes ([(4, first + 507 * k), (4, part.length)] ++ part.map fun a => (8, a)))) s

/-- An ENTRY record applied: the image, extents when PAGES is raised, freed when the pause copy has landed or the entry is FREE. -/
def State.applyEntry (s : State) (handle : Nat) (e : Entry) : State :=
  let i := handle % 2 ^ 14
  if e.a.state == .free then s.dropMirror i
  else
    let m := (s.mirror i).getD {}
    let s := s.setMirror i { m with entry := e, size := (s.version e.b.version).kvExtent }
    if e.a.state == .paused && !e.a.copyOut then s.freeMirrorExtents i
    else if e.a.state.final || e.a.pages ≤ m.extents.length then s
    else
      let (ok, t) := s.growMirror i (e.a.pages - m.extents.length)
      if ok then
        let t := t.setMirror i { (t.mirror i).getD {} with full := false }
        t.sendMap handle e.a.ctx m.extents.length ((((t.mirror i).getD {}).extents.drop m.extents.length).map t.dwezin)
      else
        let s := if m.full then s else s.twinFault 2 1 s.peer
        s.setMirror i { (s.mirror i).getD {} with full := true }

/-! ### Checkpoints at the owner (R497) -/

def State.ckpt (s : State) (i : Nat) : CkptSt := ((s.twin.ckpts.find? fun k => k.1 == i).map (·.2)).getD {}
def State.setCkpt (s : State) (i : Nat) (k : CkptSt) : State := { s with twin := { s.twin with ckpts := SMap.put s.twin.ckpts i k } }

/-- Bytes of a checkpoint: rows of every layer, KV head and half, and the head and summaries of each page completed in its range. -/
def Version.ckptBytes (v : Version) (first count : Nat) : Nat :=
  count * (v.layers * v.kvHeads * 2 * (v.dim * v.kvBits / 8 + v.dim / 32)) +
    ((first + count) / 256 - first / 256) * (0x10000 + v.kvSums)

/-- A range of an extent's bytes as copies to a mirror's extent, by the memory pages it lies in. -/
def State.extentParts (s : State) (c va dst : Nat) (v : Version) (p : Nat × Nat) : List (Nat × Nat × Nat) :=
  let g := pageBytes v.kvBig
  if p.2 = 0 then []
  else (List.range ((p.1 + p.2 - 1) / g - p.1 / g + 1)).filterMap fun k =>
    let lo := max p.1 ((p.1 / g + k) * g)
    let hi := min (p.1 + p.2) ((p.1 / g + k + 1) * g)
    (s.translate c (va + lo) false).map fun t => (t.1, dst + lo, hi - lo)

/-- The copies of a checkpoint of positions `first` on: the rows, and the head and summaries of each page completed (R497). -/
def State.ckptParts (s : State) (i first count : Nat) (to_ : List Nat) : List (Nat × Nat × Nat) :=
  let e := s.entry i
  let v := s.version e.b.version
  (List.range ((first + count + 255) / 256 - first / 256)).flatMap fun k =>
    let j := first / 256 + k
    let va := (s.req i).extents.getD j 0
    let whole := decide (256 * (j + 1) ≤ first + count)
    let ranges := (if whole then [(0, 0x10000), (0x10000, v.kvSums)] else []) ++
      v.rowRanges (first - 256 * j) (min 256 (first + count - 256 * j))
    ranges.flatMap (s.extentParts e.a.ctx va (to_.getD j 0) v)

/-- Issue a checkpoint when one is due (`force`: up to CUR_LEN - 2 whatever the interval) and the twin has mapped its pages; its data leaves
as a firmware stream, unkeyed. -/
def State.checkpoint (s : State) (force : Bool) (i : Nat) : State :=
  let e := s.entry i
  let k := s.ckpt i
  let rows := e.a.curLen - 1
  let due := force || !k.entered || decide (k.ckptLen + clamp 16 1024 (s.getF .TWIN_CTRL_CKPT_TOKENS) ≤ rows)
  if !(s.pairCtx e.a.ctx) || e.a.state != .decode || k.inFlight.isSome || rows ≤ k.ckptLen || !due || k.extents.length < (rows + 255) / 256 then s
  else
    let count := rows - k.ckptLen
    let s := s.bump .TWIN_CKPT_BYTES_COUNT ((s.version e.b.version).ckptBytes k.ckptLen count)
    let s := s.setCkpt i { k with inFlight := some (k.ckptLen, count), entered := true }
    s.firmwareStream (i / 2048) e.a.ctx 0 7 (s.handle i) 0 (s.ckptParts i k.ckptLen count k.extents)

/-- Checkpoints of a boundary (Table 11.4 step 6). -/
def State.checkpoints (s : State) (force : Bool) : State :=
  let due := s.liveEntries.filter fun i => (s.entry i).a.state == .decode && (s.mirrored (s.entry i).a.ctx || force)
  (orderBy due fun a b => decide (a ≤ b)).foldl (fun s i => s.checkpoint force i) s

/-! ### Takeover (R502-R504, Table 17.5) -/

/-- A token to be posted again (R504): LATE follows the entry (log 60). -/
def repost (e : Entry) (toks : List Nat) : List Tok :=
  ((toks.take e.a.curLen).zipIdx.drop e.b.delivered).map fun (p : Nat × Nat) =>
    { id := p.1, pos := p.2, flags := packBits [(1, bit e.a.late), (1, bit (e.a.state == .done && p.2 + 1 == e.a.curLen))], nextState := 0 }

/-- Entry and request as a survivor holds them before their state is set: a new handle's generation, TAKEN_OVER, the mirror's blocks and
tokens; the interface is the context's on this module (R503). -/
def State.rebuildBase (s : State) (j : Nat) (old : Nat) (e : Entry) (r : ReqSt) : Entry × ReqSt :=
  let x := s.ctx e.a.ctx
  let a : EntryA := { e.a with
    gen := (s.entry j).a.gen, takenOver := true, held := false, copyIn := false, copyOut := false, workOut := false, pageList := 0, vi := x.vi }
  let b : EntryB := { e.b with job := 0x8000, workModule := 0 }
  let q : ReqSt :=
    { samp := r.samp, grammar := r.grammar, tokens := r.tokens, origin := r.origin, unposted := repost e r.tokens,
      countsBad := true, ttl := 604800, takeoverNotice := true, oldHandle := old }
  ({ a := a, b := b }, q)

/-- A mirror's token origins: the prompt's are input, the rest count as sampled (log 60). -/
def Mirror.origin (m : Mirror) : List Bool := m.tokens.zipIdx.map fun (p : Nat × Nat) => decide (m.entry.a.promptLen ≤ p.2)

/-- Rebuild one mirrored entry (Table 17.5). -/
def State.rebuild (s : State) (i : Nat) (m : Mirror) : State :=
  match s.freeIndex with
  | none => s
  | some j =>
    let e := m.entry
    let old := handleOf i e.a.gen
    let (f, q) := s.rebuildBase j old e { samp := m.samp, grammar := m.grammar, tokens := m.tokens, origin := m.origin }
    let new := handleOf j f.a.gen
    let hold := if e.a.holder = s.peer then s.self else e.a.holder
    let s := if e.a.workOut then s.emit (.message "RECALL" e.b.workModule [old, e.b.job]) else s
    let s := s.bump .TWIN_TAKEOVERS_COUNT
    let put := fun (s : State) (a : EntryA) (q : ReqSt) => (s.setEntry j { f with a := a }).setReq j q
    let drop := fun (s : State) => m.extents.foldl (fun s a => s.freeFrames a m.size) s
    match e.a.state with
    | .free => s
    | .admitted => (drop (put s { f.a with hitLen := 0, pages := 0 } q)).sendLookup j 0
    | .done | .cancelled | .failed => drop (put s { f.a with pages := 0 } { q with endDue := true })
    | .paused => (drop (put s { f.a with holder := hold } q)).emit (.message "OWNER_MOVED" hold [old, new])
    | st =>
      if st == .resuming && (e.a.copyIn || e.a.holder != 0) then
        let s := (drop (put s { f.a with state := .paused, holder := hold } { q with claimAt := some s.now })).emit (.message "OWNER_MOVED" hold [old, new])
        s.emit (.message "CLAIM" hold [new])
      else
        let ckpt := min m.ckptLen (e.a.curLen - 1)
        let n := (ckpt + 255) / 256
        let s := (m.extents.drop n).foldl (fun s a => s.freeFrames a m.size) s
        let s := s.bump .TWIN_RECOMPUTED_COUNT (e.a.curLen - 1 - ckpt)
        put s { f.a with state := .resuming, holder := s.self, pages := (e.a.curLen + 255) / 256, autoResume := false }
          { q with restore := some (ckpt, m.extents.take n, m.size) }

/-- The first boundary after confirmation, or after HANDOVER: every mirrored entry is rebuilt, in ascending index. -/
def State.takeOver (s : State) : State :=
  match s.twin.takeover with
  | none => s
  | some _ =>
    let ms := s.twin.mirrors
    let s := s.putMirrors []
    let s := { s with twin := { s.twin with takeover := none } }
    let s := ms.foldl (fun s m => s.rebuild m.1 m.2) s
    let s := s.bump .LOG_PAIR_TAKEOVERS
    s.logRec 7 (pairBody s.pairState s.pairState s.peer ms.length)

/-- Pages of the mirror reach the request's own: summaries and rows are copied; the header and the token IDs, written at reservation, stay (R256,
R502). -/
def State.restorePages (s : State) (i : Nat) : State :=
  let e := s.entry i
  let v := s.version e.b.version
  match (s.req i).restore with
  | none => s
  | some (_, src, size) =>
    let s := ((s.req i).extents.zip src).foldl (fun s p =>
      (List.range (v.kvExtent / pageBytes v.kvBig)).foldl (fun s k =>
        match s.translate e.a.ctx (p.1 + k * pageBytes v.kvBig) true with
        | some (a, _) =>
          let head := s.bytesAt (a % 2 ^ 45) 2048
          let s := s.copyPage (p.2 + k * pageBytes v.kvBig) (a % 2 ^ 45) (pageBytes v.kvBig)
          if k = 0 then s.putBytes (a % 2 ^ 45) head else s
        | none => s) s) s
    let s := s.modReq i fun (r : ReqSt) => { r with restore := r.restore.map fun q => (q.1, [], size) }
    src.foldl (fun s a => s.freeFrames a size) s

/-- RETURN_COPY_LANDED (R331, R502): the holder's copies, or a mirror's pages, have landed. -/
def State.returnCopyLanded (s : State) (handle : Nat) : State :=
  match s.findHandle handle with
  | none => s
  | some i =>
    if (s.req i).restore.isNone then s.returnLanded handle
    else if (s.entry i).a.state != .resuming || !(s.entry i).a.copyIn then s
    else
      let s := (s.restorePages i).modA i fun (a : EntryA) => { a with copyIn := false }
      s.modReq i fun (r : ReqSt) => { r with landCopy := true }

/-- The rings of a rebuilt request are enabled rings of the right type. -/
def State.ringIs (s : State) (r ty : Nat) : Bool := s.ringState r == 1 && s.getF .RING_CFG_TYPE (ringOff r) == ty
def State.ringWait (s : State) (i : Nat) : Bool :=
  (s.req i).takeoverNotice || ((s.entry i).a.takenOver && !s.ringIs (s.entry i).b.tokenRing 2)

/-- Post a rebuilt request's takeover notice (R503), not before 20 us after confirmation (R500); a ring not ready makes it wait, and so does a CQ with no
unreserved record for the notice and the request's end record, which it reserves (R443, R453; log 112). -/
def State.postNotice (s : State) (i : Nat) : State :=
  let e := s.entry i
  let r := s.req i
  if !s.ringWait i || decide (s.now < (s.twin.confirmedAt.getD 0) + 20000 && s.twin.confirmedAt.isSome) then s
  else
    let cqOk := s.ringIs e.b.complRing 1
    let tqOk := s.ringIs e.b.tokenRing 2
    let s := if (cqOk && tqOk) || r.ringLogged then s
      else (s.twinFault 9 0 s.peer).modReq i fun (r : ReqSt) => { r with ringLogged := true }
    let s := if cqOk && tqOk then s else s.bump .TWIN_RING_WAITS_COUNT
    if !cqOk || !r.takeoverNotice || decide (s.cqRoom e.b.complRing < 2) then s
    else
      let s := s.modReq i fun (r : ReqSt) => { r with takeoverNotice := false }
      let s := s.setRing e.b.complRing { s.ring e.b.complRing with reserved := (s.ring e.b.complRing).reserved + 1 }
      s.postRecord e.b.complRing
        { kind := 4, status := 0, sq := 0, sqHead := 0, opcode := 0, tag := e.b.hostTag, handle := s.handle i, endCode := 0, ctx := e.a.ctx, job := 0,
          value := r.oldHandle % 2 ^ 32 + e.b.delivered * 2 ^ 32 }

/-! ### Re-admission (R506) -/

/-- Keep the images of a spread context's requests that still live, for READMIT_S seconds. -/
def State.keepImages (s : State) (c : Nat) : State :=
  let t := s.getF .TWIN_CTRL_READMIT_S
  if t = 0 then s
  else
    let imgs := ((s.ctxRequests c).filter fun i => !(s.entry i).a.state.final).map fun i =>
      ({ handle := s.handle i, entry := s.entry i, req := s.req i, until_ := s.now + t * 1000000000 } : Image)
    { s with twin := { s.twin with images := s.twin.images ++ imgs } }

/-- An image's version is RESIDENT with a serving context that the same interface holds. -/
def State.readmitCtx (s : State) (x : Image) : Option Nat :=
  let v := s.version x.entry.b.version
  if v.state == 2 && (s.ctx v.ctx).valid && (s.ctx v.ctx).held && (s.ctx v.ctx).vi == x.entry.a.vi then some v.ctx else none

/-- Take a request in again: a join of its known positions from its token IDs, as for a repin, with a takeover notice (R337, R506). -/
def State.readmit (s : State) (x : Image) : State :=
  match s.readmitCtx x, s.freeIndex with
  | some c, some j =>
    let e := { x.entry with a := { x.entry.a with ctx := c } }
    let (f, q) := s.rebuildBase j x.handle e x.req
    let s := s.setEntry j { f with a := { f.a with state := .admitted, hitLen := 0, pages := 0, autoResume := false } }
    let s := s.setReq j { q with lookup := 2 }
    { s with twin := { s.twin with images := s.twin.images.filter fun y => y.handle != x.handle } }
  | _, _ => s

/-- Re-admissions of a boundary. -/
def State.readmits (s : State) : State := (s.twin.images.filter fun x => decide (s.now < x.until_)).foldl State.readmit s

/-! ### What waits for the twin (R317) -/

/-- What waits for a record that is acknowledged takes effect (R317). -/
def State.releaseAcks (s : State) : State :=
  let ready := s.twin.awaiting.filter fun a => a.seq != 0 && !(s.twin.unacked.any fun u => u.1 == a.seq)
  let s := { s with twin := { s.twin with awaiting := s.twin.awaiting.filter fun a => !ready.contains a } }
  let s := ready.foldl (fun s a =>
    let s := match a.entering with
      | some (i, e, r) => s.installEntry i e r
      | none => s
    match a.cmd with
    | some c => if (s.ring c.ring).outstanding.any fun k => k.seq == c.seq then s.complete c a.status a.value a.handle else s
    | none => s) s
  s.postEnds.settleVersions

/-! ### Pair states (R489) -/

/-- Suspicion is over. -/
def State.clearSuspect (s : State) : State :=
  { s.setF .TWIN_STATUS_SUSPECT 0 with twin := { s.twin with suspectAt := none, answered := false, witness := [] } }

/-- What waits for an acknowledgement takes effect when the pair no longer mirrors (R494), a hold that waited for the twin's copy too. -/
def State.releaseAll (s : State) : State :=
  let s := if s.mirroring then s else (s.twin.holds.filter fun (h : Hold) => h.copy != 0).foldl (fun (s : State) (h : Hold) =>
    ((s.putHold { h with copy := 0 }).dropFirmware 8 h.handle).reportHold h) s
  { s with twin := { s.twin with unacked := [], awaiting := s.twin.awaiting.map fun (a : Awaiting) => { a with seq := max 1 a.seq } } }.releaseAcks

/-- JOINING: mirrors of each other are discarded, the record counts restart, and every entry is sent, ascending, between RESYNC_BEGIN and
RESYNC_END (R507, R508; log 61: one event). -/
def State.startResync (s : State) : State :=
  let s := (s.clearSuspect).dropMirrors
  let s := s.setPair 1 0
  let s := ({ s with twin := { s.twin with began := false, handover := false, detach := none } }).releaseAll
  let s := (s.setF .TWIN_SEQ_TX 0).setF .TWIN_SEQ_ACKED 0
  let s := { s with twin := { s.twin with
      rxSeq := 0, ckpts := [], joinedAt := s.now, began := true, peerBegan := false, ownSynced := false, peerSynced := false, resyncEnd := none } }
  let s := s.sendTwin "RESYNC_BEGIN" false 0 0 (controlBody 5 0)
  let mine := orderBy (s.liveEntries.filter fun i => s.pairCtx (s.entry i).a.ctx) fun a b => decide (a ≤ b)
  let s := mine.foldl (fun s i => s.sendRequest i (s.entry i) (s.req i)) s
  let s := s.sendVersions []
  let s := s.sendTwin "RESYNC_END" true 0 0 (controlBody 6 0)
  { s with twin := { s.twin with resyncEnd := some (s.getF .TWIN_SEQ_TX) } }

/-- ACTIVE once both directions are in step (Table 17.1). -/
def State.checkActive (s : State) : State :=
  if s.pairState == 1 && s.twin.ownSynced && s.twin.peerSynced then s.setPair 2 0 else s

/-- The pairing that the Keel names is judged (R488): `names` is what the peer's own Keel partition names, where it is known. -/
def State.pairUp (s : State) (names : Option Nat) : State :=
  let peer := s.peer
  let sameTray := peer / 64 == s.getF .FAB_ID_RACK && peer % 64 / 2 == s.getF .FAB_ID_TRAY
  let bad := peer == s.self || sameTray || names.any fun n => n != s.self
  if s.pairState == 6 then s
  else if !s.flag .TWIN_ID_PAIR_EN then
    let s := (s.clearSuspect).dropMirrors
    let s := { s with twin := { s.twin with mismatch := false, began := false, ckpts := [], detach := none, handover := false } }
    (s.setPair 0 0).releaseAll
  else if bad then
    let s := { s with twin := { s.twin with mismatch := true, began := false } }
    (s.setPair 1 0).twinFault 0 1 peer
  else { s with twin := { s.twin with mismatch := false } }.startResync

/-! ### Hand-over (R509) -/

/-- HANDOVER is sent once every checkpoint has been acknowledged: what was handed over goes without an end record, and the tray controller is
asked to clear PAIR_EN on both modules. -/
def State.handOver (s : State) : State :=
  if !s.twin.handover || s.twin.ckpts.any (fun k => k.2.inFlight.isSome) then s
  else
    let mine := s.liveEntries.filter fun i => s.pairCtx (s.entry i).a.ctx
    let s := s.sendTwin "HANDOVER" false 0 0 (controlBody 4 0)
    let s := mine.foldl (fun s i =>
      let e := s.entry i
      let s := (s.req i).cmds.foldl (fun s k => match (s.ring k.ring).outstanding.find? (fun c => c.seq == k.seq) with
        | some c => s.complete c 0x13 0 0
        | none => s) s
      let s := s.freePages i
      let s := if (s.req i).takeoverNotice then s else s.unreserve e.b.complRing
      let s := { s with seals := s.seals.filter fun p => p.entry != i }
      let g := e.a.gen
      (s.setReq i {}).setEntry i { a := { gen := if g + 1 < 2 ^ 18 then g + 1 else 1 } }) s
    let s := s.dropMirrors
    let s := { s with twin := { s.twin with handover := false, detach := none, ckpts := [], unacked := [], awaiting := [], began := false } }
    let s := (s.setPair 0 0).emit (.message "CLEAR_PAIR_EN" s.peer [s.self])
    let s := if s.getF .TWIN_ID_PEER == s.getF .KEEL_TWIN_PEER then s else s.takeTwinId.pairUp none
    -- a detach that a sustained alarm asked for is followed by M1 (R536)
    if s.pwr.handed then { s with pwr := { s.pwr with handed := false } }.wantM 1 true else s

/-- What a boundary does for a detach: HAND checkpoints every request to CUR_LEN - 1; FINISH waits for the last one. -/
def State.detachStep (s : State) : State :=
  let go := match s.twin.detach with
    | some true => true
    | some false => s.liveEntries == []
    | none => false
  if s.pairState != 5 || !go || s.twin.handover then s
  else
    let s := s.checkpoints true
    { s with twin := { s.twin with handover := true } }.handOver

/-! ### Meanings -/

def execReturnCopyLanded (handle : Nat) (s : State) := done (s.returnCopyLanded handle)

end Sys2Proof.Machine
end

