-- ==== Sys2Proof/Machine/Boundary.lean ====
section
/-! DEFINITION. The step boundary (R319-R327, Table 11.4), step launch and sub-batches (R336). -/

namespace Sys2Proof.Machine

/-! ### Step 1: commits (R326, R327) -/

/-- A nonzero deadline has passed. -/
def State.lateNow (s : State) (i : Nat) : Bool := (s.entry i).a.deadline != 0 && decide ((s.entry i).a.deadline < s.now)

/-- A committed token's place: the list, the page head, CUR_LEN, STEPS, counts or grammar state (R256, R350, R352, R354). -/
def State.placeToken (s : State) (i : Nat) (t : Tok) (late : Bool) : State :=
  let e := s.entry i
  let pos := e.a.curLen
  let s := s.modReq i fun (r : ReqSt) => { r with tokens := r.tokens ++ [t.id], origin := r.origin ++ [true], sampled := none, inStep := false }
  let s := match (s.req i).extents[pos / 256]? with
    | some va => s.putTokens e.a.ctx va (pos % 256) [t.id]
    | none => s
  let s := s.modA i fun (a : EntryA) => { a with curLen := pos + 1, late := a.late || late }
  let s := s.modB i fun (b : EntryB) => { b with steps := (b.steps + 1) % 2 ^ 32 }
  let s := s.pmc 0x0D 1 (some e.a.ctx)
  if !e.a.constrained then s.countToken i t.id
  else
    let s := s.modReq i fun (r : ReqSt) => { r with grammar := { r.grammar with state := t.nextState } }
    s.writeVa e.a.ctx (e.b.grammarPtr + 4) (leBytes 4 t.nextState)

/-- The final-token and deadline tests after a commit (R326, R327, R357); the token's record waits for step 2. -/
def State.testFinal (s : State) (i : Nat) (t : Tok) (late : Bool) : State :=
  let e := s.entry i
  let stop := stopMatch (s.req i)
  let code : Nat := if t.id == (s.version e.b.version).eos then 1 else if stop then 2 else if e.a.curLen == e.a.maxLen then 3 else 0
  let s := if stop then s.bump .SAMP_STOPS_COUNT else s
  let flags := t.flags ||| packBits [(1, bit late), (1, bit (code != 0)), (1, bit stop)]
  let rec_ : Tok := { id := t.id, pos := e.a.curLen - 1, flags := flags, nextState := code }
  let s := s.modReq i fun (r : ReqSt) => { r with unposted := r.unposted ++ [rec_] }
  if code != 0 then s.setEnd i .done code
  else if late && e.a.hard then (s.recall i).setEnd i .cancelled 5
  else s

/-- Commit a request's sampled token. -/
def State.commitToken (s : State) (i : Nat) (t : Tok) : State :=
  let late := s.lateNow i
  match s.fillPage i ((s.entry i).a.curLen - 1) with
  | (false, s) => s.hdrBad i
  | (true, s) => (s.placeToken i t late).testFinal i t late

/-- Step 1 for one entry: its token, or a HARD deadline that passed while it made none. -/
def State.commitEntry (s : State) (i : Nat) : State :=
  let e := s.entry i
  let r := s.req i
  match e.a.state with
  | .decode => match r.sampled with
    | some t => if r.inStep then s.commitToken i t else s
    | none => if e.a.held && e.a.hard && s.lateNow i then (s.recall i).setEnd i .cancelled 5 else s
  | .admitted | .prefill | .shipping | .resuming => if e.a.hard && s.lateNow i then (s.recall i).setEnd i .cancelled 5 else s
  | _ => s

/-! ### Step 2: token records (R358, R359) -/

/-- Post a request's records in order while its ring has room. -/
def State.postTokens (s : State) (i : Nat) : List Tok → State
  | [] => s
  | t :: ts =>
    let e := s.entry i
    let tq := e.b.tokenRing
    if s.ringState tq = 1 ∧ 0 < s.ringFree tq then
      let s := s.emit (.token tq (s.handle i) t.pos t.id (t.flags + t.nextState * 2 ^ 16))
      let s := s.ringWritten tq 1
      let s := if natBit t.flags 0 then s.bump .SL_LATE_TOKENS_COUNT else s
      let s := s.modReq i fun (r : ReqSt) => { r with unposted := r.unposted.drop 1 }
      let s := s.modB i fun (b : EntryB) => { b with delivered := t.pos + 1 }
      s.postTokens i ts
    else s

/-! ### Step 3: notices and commands (R328-R337) -/

/-- FILL of pages whose positions a work item computed; full pages come sealed from where they were made (R262). -/
def State.fillRange (s : State) (i first last : Nat) : State :=
  (List.range (last / 256 + 1)).foldl (fun s j =>
    if last < first ∨ j < first / 256 then s
    else match s.pageHdr i j with
      | none => s.hdrBad i
      | some h =>
        let fill := max h.fill (min 256 (last + 1 - 256 * j))
        let full := decide (fill = 256)
        let h := { h with fill := fill, flags := if full then h.flags ||| 1 else h.flags, sealTime := if full && !hdrFull h then s.now else h.sealTime }
        let s := s.putHdr (s.entry i).a.ctx ((s.req i).extents.getD j 0) h
        if full && !hdrSealed h then s.sealPage i j false else s) s

/-- A work item failed or was silent (R334): its job is void; the first time it is sent again, the second ends the request. -/
def State.resend (s : State) (i : Nat) (pool : List Nat) : State :=
  let s := s.modReq i fun (r : ReqSt) => { r with resendDue := false, workFails := r.workFails + 1 }
  let s := s.voidJob i
  if (s.req i).workFails ≥ 2 then s.slFault 1 2 i 0x0C
  else
    let s := s.slFault 1 1 i 0
    let s := s.bump .SL_RESENDS_COUNT
    let s := s.modA i fun (a : EntryA) => { a with state := .prefill }
    s.sendWork i pool

/-- Positions to compute from `first` on: PREFILL with its item, or none to compute. -/
def State.prefillFrom (s : State) (i first : Nat) (pool : List Nat) : State :=
  let n := (s.entry i).a.curLen
  if n ≤ first + 1 then s.modReq i fun (r : ReqSt) => { r with workCount := 0 }
  else
    let s := s.modReq i fun (r : ReqSt) => { r with workFirst := first, workCount := n - 1 - first }
    let s := s.modA i fun (a : EntryA) => { a with state := .prefill }
    s.sendWork i pool

/-- A sediment copy failed, or has not landed within PIN_MS (R276): the pages landed whole stay, one new item covers the rest. -/
def State.copyFailed (s : State) (i : Nat) (pool : List Nat) : State :=
  let n := (s.req i).landedHits
  let s := if (s.entry i).a.workOut then s.voidJob i else s
  let s := s.xferPages i 0 (s.req i).extents.length false
  let s := s.modA i fun (a : EntryA) => { a with hitLen := 256 * n, copyIn := false }
  let s := s.modReq i fun (r : ReqSt) => { r with copyFail := false, hitCount := n }
  s.prefillFrom i (256 * n) pool

/-- A rebuilt request's pages hold positions 0 to `ckpt` - 1: a work item covers the rest, or it passes to DECODE (Table 17.5). -/
def State.restored (s : State) (i ckpt : Nat) (pool : List Nat) : State :=
  let s := s.modReq i fun (r : ReqSt) => { r with restore := none }
  let s := if ckpt = 0 then s else s.fillRange i 0 (ckpt - 1)
  let s := s.prefillFrom i ckpt pool
  if (s.req i).workCount == 0 then s.modA i fun (a : EntryA) => { a with state := .decode } else s

/-- What a request's notices and landed copies let it pass to (Table 11.3). -/
def State.progress (s : State) (i : Nat) (pool : List Nat) : State :=
  let e := s.entry i
  let r := s.req i
  if e.a.state.final then s
  else if r.resendDue then s.resend i pool
  else if r.copyFail then s.copyFailed i pool
  else if e.a.copyIn && e.a.state != .resuming && decide (r.tokensAt + s.pinNs ≤ s.now) then
    ((s.bump .SED_COPY_FAIL_COUNT).sedFault 6 0 (s.handle i)).modReq i (fun (r : ReqSt) => { r with landedHits := 0 }) |>.copyFailed i pool
  else match e.a.state with
    | .admitted => if r.reserved && !e.a.copyIn then s.modA i fun (a : EntryA) => { a with state := .decode } else s
    | .shipping =>
      if !e.a.workOut && !e.a.copyIn then
        let s := s.fillRange i r.workFirst (r.workFirst + r.workCount - 1)
        let s := s.modReq i fun (r : ReqSt) => { r with workFails := 0, workCount := 0 }
        s.modA i fun (a : EntryA) => if a.state == .shipping then { a with state := .decode } else a
      else s
    | .resuming =>
      if !r.reserved || !r.landCopy || e.a.copyIn || r.claimAt.isSome then s
      else if r.restore.isSome then s.restored i ((r.restore.map (·.1)).getD 0) pool
      else if r.appended = [] then s.modA i fun (a : EntryA) => { a with state := .decode }
      else
        let ids := r.appended
        let s := s.modReq i fun (r : ReqSt) => { r with
          tokens := r.tokens ++ ids
          origin := r.origin ++ List.replicate ids.length false
          appended := []
          landCopy := false }
        let s := if r.samp.penInput then ids.foldl (fun s t => s.countToken i t) s else s
        let s := s.modA i fun (a : EntryA) => { a with curLen := a.curLen + ids.length }
        s.prefillFrom i (e.a.curLen - 1) pool
    | _ => s

/-- The status of a command on a request in a final state. -/
def finalStatus (st : ReqState) (op : Nat) : Nat :=
  match st with
  | .done => if op = 0x53 then 0x15 else if op = 0x54 then 0x0B else 0x10
  | .cancelled => if op = 0x54 then 0x0B else 0x11
  | _ => 0x12

/-- Commands observed at a boundary for one request (R328, R329, R331, R332, R337). -/
def State.observe (s : State) (i : Nat) : State :=
  let e := s.entry i
  let r := s.req i
  let all := [0x51, 0x52, 0x53, 0x54]
  if e.a.state.final then all.foldl (fun s op => s.answerCmds i op (finalStatus e.a.state op)) s
  else if (e.a.cancelPend && e.a.takenOver) || (r.cmds.any fun k => k.opcode == 0x51) then
    let s := (s.recall i).setEnd i .cancelled 4
    let s := s.answerCmds i 0x51 0
    ((s.answerCmds i 0x52 0x11).answerCmds i 0x53 0x11).answerCmds i 0x54 0x0B
  else
    -- a resume withdraws the pauses that came before it
    let s := if e.a.state == .paused then s
      else r.cmds.foldl (fun (s : State) k =>
        if k.opcode ≠ 0x53 then s
        else
          let before := (s.req i).cmds.takeWhile fun x => x != k
          let s := (before.filter fun x => x.opcode == 0x52).foldl (fun s x => s.ackCmd i x.ring x.seq 0x18 0) s
          let s := s.ackCmd i k.ring k.seq 0 0
          let s := s.modReq i fun (r : ReqSt) => { r with
            cmds := r.cmds.filter fun x => x != k && !(x.opcode == 0x52 && before.contains x)
            appended := r.appended ++ k.tokens
            withdrawn := r.withdrawn || k.tokens != [] }
          let s := s.resumeValues i k.arg1 k.arg2
          s.modA i fun (a : EntryA) => { a with pausePend := (s.req i).cmds.any fun x => x.opcode == 0x52 }) s
    let e := s.entry i
    let r := s.req i
    match r.cmds.find? (fun k => k.opcode == 0x54) with
    | some k =>
      if e.a.state == .decode || (e.a.state == .resuming && r.reserved && r.landCopy && !e.a.copyIn && r.claimAt.isNone) then
        let st := s.versionCheck (s.version k.arg1) e.a.ctx
        if st ≠ 0 then s.answerCmds i 0x54 st else (s.repinTo i k.arg1).answerCmds i 0x54 0
      else s
    | none =>
      if e.a.state == .decode && r.withdrawn then
        let s := s.modA i fun (a : EntryA) => { a with state := .resuming, held := false }
        s.modReq i fun (r : ReqSt) => { r with withdrawn := false, reserved := false, landCopy := true, sampled := none, inStep := false }
      else if e.a.state == .decode && e.a.pausePend then
        match s.pauseOut i r.ttl false with
        | some s => s.answerCmds i 0x52 0
        | none => (s.modA i fun (a : EntryA) => { a with pausePend := false }).answerCmds i 0x52 0x0B
      else s

/-! ### Step 4: leaves (Table 11.3, R321) -/

/-- Extents of a request, freed; its page list stays. -/
def State.freeExtents (s : State) (i : Nat) : State :=
  let e := s.entry i
  let s := (s.req i).extents.foldl (fun s va => s.freeExtent e.a.ctx (s.version e.b.version) va) s
  s.modReq i fun (r : ReqSt) => { r with extents := [] }

/-- Nothing of a request in a final state is outstanding. -/
def State.mayLeave (s : State) (i : Nat) : Bool :=
  let e := s.entry i
  let r := s.req i
  e.a.state.final && !e.a.copyIn && !e.a.copyOut && !e.a.workOut && r.deposits == 0 && r.unposted == [] && r.endPosted && !s.mirrorPending i

/-- The entry returns to FREE: its pages are freed and GEN advances, 2^18 - 1 to 1 (R313). -/
def State.freeEntry (s : State) (i : Nat) : State :=
  let s := s.freePages i
  let g := (s.entry i).a.gen
  let s := { s with seals := s.seals.filter fun p => p.entry != i }
  let s := s.setReq i {}
  let e : Entry := { a := { gen := if g + 1 < 2 ^ 18 then g + 1 else 1 } }
  s.setEntry i e

/-- Step 4 for one entry. -/
def State.leave (s : State) (i : Nat) : State :=
  let e := s.entry i
  let s := if e.a.state.final && (e.a.copyIn || e.a.copyOut || e.a.workOut) then s.recall i else s
  if s.mayLeave i then s.freeEntry i
  else if e.a.state == .paused && (s.req i).freeDue then (s.freeExtents i).modReq i fun (r : ReqSt) => { r with freeDue := false }
  else s

/-! ### Steps 5 and 6: reservations (R321-R325) -/

/-- The order in which requests reserve. -/
def State.rank (s : State) (is : List Nat) : List Nat :=
  orderBy is fun i j =>
    let a := (s.entry i).a
    let b := (s.entry j).a
    decide (b.priority < a.priority) ||
      (a.priority == b.priority && (decide (a.admitTime < b.admitTime) || (a.admitTime == b.admitTime && decide (i ≤ j))))

/-- Entries in a state. -/
def State.inState (s : State) (st : ReqState) : List Nat := s.liveEntries.filter fun i => (s.entry i).a.state == st

/-- A running sequence whose next input position has no page. -/
def State.needsPage (s : State) (i : Nat) : Bool := decide ((s.req i).extents.length ≤ ((s.entry i).a.curLen - 1) / 256)

/-- The victim of a failed reservation (R322): the lowest priority, the youngest. -/
def State.victim (s : State) (why : NoFrame) (i : Nat) (chosen : List Nat) : Option Nat :=
  let vs := (s.inState .decode).filter fun j => !chosen.contains j && (why != .quota || (s.entry j).a.ctx == (s.entry i).a.ctx)
  (s.rank vs).getLast?

/-- One running sequence (R321, R322, R323). -/
def State.reserveRunning (acc : State × List Nat) (i : Nat) : State × List Nat :=
  let (s, chosen) := acc
  if chosen.contains i || (s.entry i).a.state != .decode || !s.needsPage i then acc
  else match s.reservePage i with
    | .ok s => (s.modA i fun (a : EntryA) => { a with held := false }, chosen)
    | .error why =>
      let hold := fun (s : State) => s.modA i fun (a : EntryA) => { a with held := true }
      match s.victim why i chosen with
      | none => (hold s, chosen)
      | some v => match s.pauseOut v 604800 true with
        | some s =>
          let s := s.bump .SL_PREEMPTS_COUNT
          (if v = i then s else hold s, v :: chosen)
        | none =>
          let s := s.slFault 2 2 v 0x0A
          let s := s.freePages v
          if v = i then (s, v :: chosen)
          else match s.reservePage i with
            | .ok s => (s.modA i fun (a : EntryA) => { a with held := false }, v :: chosen)
            | .error _ => (hold s, v :: chosen)

/-- Joins of a boundary (R321). -/
def State.isJoin (s : State) (i : Nat) : Bool :=
  let e := s.entry i
  let r := s.req i
  match e.a.state with
  | .admitted => !r.reserved && r.lookup == 2
  | .resuming => !r.reserved
  | .paused => e.a.autoResume && !e.a.copyOut && !r.freeDue && r.claimAt.isNone && r.cmds == []
  | _ => false

/-- Requests that count toward a version's sub-batch (R324): those with pages reserved (log 43). -/
def State.batchOf (s : State) (ver : Nat) : Nat :=
  (s.liveEntries.filter fun i => (s.entry i).b.version == ver && (s.req i).reserved && !(s.entry i).a.state.final && (s.entry i).a.state != .paused).length

/-- Pages a join needs in all. -/
def State.joinPages (s : State) (i : Nat) : Nat :=
  let a := (s.entry i).a
  let n := (s.req i).appended.length
  match a.state with
  | .admitted => (a.curLen + 255) / 256
  | _ => if n = 0 then a.pages else max a.pages ((a.curLen + n + 255) / 256)

/-- A join that has reserved: hits are ordered, positions are prefilled, return copies leave (R27, R28, R274, R331). -/
def State.joined (s : State) (i : Nat) (pool : List Nat) : State :=
  let e := s.entry i
  let r := s.req i
  let first := !r.reserved && e.a.state == .admitted
  let s := s.modReq i fun (r : ReqSt) => { r with reserved := true }
  match e.a.state with
  | .admitted =>
    let s := if first && !r.countsBad then s.writeCounts i (countedTokens r) else s
    let hits := min r.hitCount ((e.a.curLen + 255) / 256)
    let s := if hits = 0 then s
      else
        let v := s.version e.b.version
        let shard := ((s.domainKey (s.vi e.a.vi).domain).bind fun k => s.shardOf (chainOf k.key v.id k.domain v.kvFmt r.tokens 0)).getD 0
        let s := s.xferPages i 0 hits true
        let s := s.modA i fun (a : EntryA) => { a with copyIn := true, hitLen := 256 * hits }
        let s := s.modReq i fun (r : ReqSt) => { r with tokensAt := s.now, copyFail := false, landCopy := false }
        s.emit (.message "COPY_ORDER" shard (s.handle i :: e.a.ctx :: (Config.workDue (s.handle i) 0).toNat :: s.extentAddrs i 0 hits))
    let s := s.prefillFrom i (256 * hits) pool
    if hits = 0 && (s.req i).workCount == 0 then s.modA i fun (a : EntryA) => { a with state := .decode } else s
  | .paused =>
    let s := s.modA i fun (a : EntryA) => { a with state := .resuming, autoResume := false }
    let s := s.modReq i fun (r : ReqSt) => { r with claimAt := some s.now, landCopy := false, appended := [] }
    s.emit (.message "CLAIM" e.a.holder [s.handle i])
  | _ =>
    let s := (r.appended.zip (List.range r.appended.length)).foldl (fun s p =>
      let pos := e.a.curLen + p.2
      s.putTokens e.a.ctx ((s.req i).extents.getD (pos / 256) 0) (pos % 256) [p.1]) s
    if r.landCopy then s
    else match r.restore with
      | some (_, [], _) => s.modReq i fun (r : ReqSt) => { r with landCopy := true }
      | some (c, src, _) =>
        let s := s.modA i fun (a : EntryA) => { a with copyIn := true }
        s.emit (.message "RESTORE_COPY" s.self (s.handle i :: c :: src))
      | none => s.returnCopies i

/-- Joins one at a time (R324): a full sub-batch or the join's own quota skips it, physical exhaustion ends the joins. -/
def State.joinOne (pool : List Nat) (acc : State × Bool) (i : Nat) : State × Bool :=
  let (s, stop) := acc
  let e := s.entry i
  if stop || !s.isJoin i then acc
  else if s.getF .SL_VER_BATCH_MAX (inst e.b.version) ≤ s.batchOf e.b.version then acc
  else match s.reservePages i (s.joinPages i - (s.req i).extents.length) with
    | .error .quota => acc
    | .error .physical => (s, true)
    | .ok s => (s.joined i pool, false)

/-- Offer newly eligible sealed pages of a request to its root's shard (R277). -/
def State.offerPages (s : State) (i : Nat) : State :=
  let e := s.entry i
  let r := s.req i
  let v := s.version e.b.version
  let dom := (s.vi e.a.vi).domain
  let top := if e.a.deposit = 1 then e.a.promptLen / 256 else if e.a.deposit = 2 then e.a.curLen / 256 else 0
  if dom = 0 || e.a.state != .decode || top ≤ r.offered then s
  else
    let hdrs := ((List.range top).drop r.offered).map fun j => (j, s.pageHdr i j)
    let ready := hdrs.takeWhile fun p => match p.2 with
      | some h => hdrSealed h && !hdrPoisoned h && !s.pagesMoving i
      | none => false
    if ready = [] then s
    else match (s.pageHdr i 0).bind fun h => s.shardOf h.chain with
      | none => s
      | some m =>
        let s := ready.foldl (fun s p => s.setXfer e.a.ctx v (r.extents.getD p.1 0) true) s
        let s := s.modReq i fun (r : ReqSt) => { r with offered := r.offered + ready.length, deposits := r.deposits + ready.length }
        s.emit (.message "DEPOSIT_OFFER" m (s.handle i :: dom :: v.id :: v.kvFmt :: v.kvExtent :: ready.flatMap fun p => [p.1, (p.2.map (·.chain)).getD 0]))

/-- Launch the seal pass of a page that became FULL at this boundary (R262). -/
def State.launchSeal (s : State) (i page : Nat) : State :=
  match s.pageHdr i page with
  | none => s
  | some h =>
    let p : SealPass := { entry := i, gen := (s.entry i).a.gen, page := page }
    if hdrFull h && !hdrSealed h && !s.seals.contains p then
      { s with seals := s.seals ++ [p] }.emit (.message "SEAL_PASS" (s.entry i).a.ctx [s.handle i, page])
    else s

/-! ### Step 7: shape words (R263, R266) -/

/-- A rig's SEL_THRESHOLD and W are in their ranges (R263, R264, Table 9.10). -/
def ShapeSite.ok (x : ShapeSite) : Bool :=
  x.threshold % 256 == 0 && decide (256 ≤ x.threshold) && decide (x.threshold ≤ 2 ^ 24) && decide (1 ≤ x.window) && decide (x.window ≤ 64)

/-- A request's shape words: its length, its candidate count, and VALID 0 in the selection words of the last step. -/
def State.writeShapes (s : State) (x : ShapeSite) : State :=
  let e := s.entry x.entry
  if e.a.state != .decode || !x.ok then s
  else
    let p := e.a.curLen - 1
    let sel := decide (x.threshold < e.a.curLen) && !e.a.dense
    let n := if sel then candidates (pagesTo p) x.window else 0
    let s := s.writeVa e.a.ctx x.lenAddr (leBytes 8 (e.a.curLen + 2 ^ 63))
    let s := s.writeVa e.a.ctx x.candAddr (leBytes 8 (n + 2 ^ 63))
    let s := (s.req x.entry).selShapes.foldl (fun s a => s.writeVa e.a.ctx a (leBytes 8 0)) s
    s.modReq x.entry fun (r : ReqSt) => { r with selShapes := [] }

/-! ### The boundary -/

/-- Step 8: a record for every entry changed since `old`, its new tokens first (R494). -/
def State.mirrorChanges (s old : State) : State :=
  let is := (s.entries.keys ++ old.entries.keys).eraseDups
  let s := is.foldl (fun s i =>
    let e := s.entry i
    let c := if e.a.state == .free then (old.entry i).a.ctx else e.a.ctx
    if s.entry i = old.entry i || !s.mirrored c then s
    else
      let h := s.handle i
      let was := (old.req i).tokens.length
      let toks := (s.req i).tokens
      let s := if was < toks.length ∧ e.a.gen = (old.entry i).a.gen then s.sendTokens h c was (toks.drop was) else s
      if e.a.state == .free then s.sendEntry (handleOf i (old.entry i).a.gen) { e with a := { e.a with ctx := c } } else s.mirrorEntry i) s
  s.stampAcks

/-- The events of Table 11.4, steps 1 to 8. `bad` are entries whose CRC failed (R315), `pool` the prefill modules that can be sent work, `sites`
where the rigs read shape words. -/
def State.boundary (s : State) (bad pool : List Nat) (sites : List ShapeSite) : State :=
  let old := s
  let s := s.takeOver
  let s := { s with coll := { s.coll with recent := [], subst := [] } }
  let s := (bad.filter fun i => (s.entry i).a.state != .free && !(s.entry i).a.state.final).foldl (fun s i => s.slFault 0 2 i 0x0E) s
  let live := s.liveEntries
  let s := live.foldl State.commitEntry s
  let fulls := live.filterMap fun i => if (s.entry i).a.curLen ≠ (old.entry i).a.curLen ∧ ((s.entry i).a.curLen - 1) % 256 = 0 then
      some (i, ((s.entry i).a.curLen - 1) / 256 - 1) else none
  let s := live.foldl State.postNotice s
  let s := live.foldl (fun s i => if s.ringWait i then s else s.postTokens i (s.req i).unposted) s
  let s := live.foldl (fun s i => s.progress i pool) s
  let s := live.foldl State.observe s
  let s := (live.filter fun i => !s.mirrored (s.entry i).a.ctx && (s.req i).endDue && (s.req i).unposted == [] && !(s.req i).takeoverNotice).foldl State.postEnd s
  let s := live.foldl State.leave s
  let s := s.readmits
  let (s, _) := (s.rank (s.inState .decode)).foldl State.reserveRunning (s, [])
  let s := (s.inState .paused).foldl (fun s i => if (s.req i).copyDue && !s.pagesMoving i then s.pauseCopy i else s) s
  let (s, _) := (s.rank (s.liveEntries.filter s.isJoin)).foldl (State.joinOne pool) (s, false)
  let s := (s.inState .prefill).foldl (fun s i => if !(s.entry i).a.workOut && (s.req i).workCount != 0 then s.sendWork i pool else s) s
  let s := fulls.foldl (fun s p => if (s.entry p.1).a.state == .decode then s.launchSeal p.1 p.2 else s) s
  let s := (s.inState .decode).foldl State.offerPages s
  let s := (s.checkpoints false).detachStep
  let s := sites.foldl State.writeShapes s
  let s := s.freeVersions
  let s := s.mirrorChanges old
  s.releaseAcks.applyM

/-- Requests that take part in a step: DECODE, not HELD, every token posted (R325, R359). -/
def State.mayStep (s : State) (i : Nat) : Bool := (s.entry i).a.state == .decode && !(s.entry i).a.held && (s.req i).unposted == [] && !s.needsPage i && !s.ringWait i &&
  !(s.twin.handover && s.pairCtx (s.entry i).a.ctx)

/-- Boundaries launch steps: not while stalled, nor in M1 (R519, R550). -/
def State.mayLaunch (s : State) : Bool := !s.stalled && s.getF .PWRCLK_STATE_MSTATE == 0

/-- STEP_BOUNDARY: the step is done, its boundary runs. -/
def State.stepBoundary (s : State) (bad pool : List Nat) (sites : List ShapeSite) : State :=
  if s.step.phase ≠ 3 || s.fenced then s
  else
    let s := s.boundary bad pool sites
    { s with step := { s.step with phase := 1, lastEnd := s.now } }

/-- IDLE_BOUNDARY (R320): a DECODE module with no step under way. -/
def State.idleBoundary (s : State) (bad pool : List Nat) (sites : List ShapeSite) : State :=
  if s.step.phase ≠ 0 || s.board.poolRole != 2 || s.fenced then s
  else
    let s := s.boundary bad pool sites
    { s with step := { s.step with phase := 1, lastEnd := s.now } }

/-- Make a sub-batch's rig current by a wave (R482): launched when its rig is loaded; else its load begins. -/
def State.switchTo (s : State) (b : SubBatch) : State :=
  let is := fun (k : Option Nat) => match k with
    | some k => (s.rig k).rigId == b.rigId
    | none => false
  let x := s.ctx b.ctx
  if b.rigId = 0 || is x.currentRig || s.waves.any (fun w => w.ctx == b.ctx) then s
  else match x.currentRig, is x.incomingRig with
    | some o, true => (s.launchWave b.ctx o x.incomingRig none).bump .WPKG_SWITCHES_COUNT
    | _, _ => s.firmwareRig b.ctx b.rigId b.ver

/-- The run of a sub-batch's rig (R224, R336): its streams start with it, or once the wave that brings the rig in is complete. -/
def State.runSub (s : State) (b : SubBatch) : State :=
  match s.currentRig b.ctx with
  | some g => if b.rigId = 0 || g.rigId == b.rigId then s.firmwareRun g else s.awaitRun b.ctx
  | none => if b.rigId = 0 then s else s.awaitRun b.ctx

/-- The streams of a sub-batch's run are under way. -/
def State.subBusy (s : State) (b : SubBatch) : Bool := s.firmwareBusy 4 b.ctx

/-- The sub-batches of a step (R336): one a version with a request that takes part, in ascending version. -/
def State.buildSubs (s : State) : List SubBatch :=
  let is := s.liveEntries.filter s.mayStep
  let vers := orderBy ((is.map fun i => (s.entry i).b.version).eraseDups) fun a b => decide (a ≤ b)
  vers.map fun v => { ver := v, ctx := (s.version v).ctx, rigId := (s.version v).decodeRig, entries := is.filter fun i => (s.entry i).b.version == v }

/-- STEP_LAUNCH (R336): once the boundary's records are acknowledged the version table is read, counts due are rebuilt and the step starts; a
boundary with nothing to run launches none (R320). -/
def State.stepLaunch (s : State) : State :=
  if s.step.phase ≠ 1 || s.fenced || (s.mirroring && s.twin.unacked != []) then s
  else if !s.mayLaunch then { s with step := { s.step with phase := 0, subs := [] } }
  else
    let due := s.liveEntries.filter fun i => s.mayStep i && (s.req i).countsBad
    let s := due.foldl State.rebuildCounts s
    let s := (s.inState .decode).foldl (fun s i =>
      let s := if (s.entry i).a.held then s.bump .SL_HELD_STEPS_COUNT else s
      if (s.req i).unposted != [] then s.bump .SAMP_RING_WAITS_COUNT else s) s
    match s.buildSubs with
    | [] => { s with step := { s.step with phase := 0, subs := [] } }
    | b :: rest =>
      let subs := b :: rest
      let n := subs.foldl (fun a x => a + x.entries.length) 0
      let s := subs.foldl (fun s x => x.entries.foldl (fun s i => s.modReq i fun (r : ReqSt) => { r with inStep := true, sampled := none }) s) s
      let s := s.bump .SL_STEP_STEPS
      let s := s.setF .SL_STEP_BATCH n
      let s := s.setF .SL_STEP_SUBBATCHES subs.length
      let s := s.setF .SL_STEP_T_LAUNCH s.now
      let s := { s with step := { s.step with phase := 2, subs := subs, replay := false } }
      let s := s.resetRounds (subs.map fun (x : SubBatch) => x.ctx)
      let s := (s.switchTo b).runSub b
      match rest.head? with
      | some x => if x.ctx = b.ctx then s.firmwareRig x.ctx x.rigId x.ver else s.switchTo x
      | none => s

/-- SUB_BATCH_COMPLETE (R336, R482): the next sub-batch's rig is switched in; the last ends the step, unless it must be run again (R307). -/
def State.subComplete (s : State) : State :=
  if s.step.phase ≠ 2 || s.step.subs.any (fun (x : SubBatch) => s.roundOpen x.ctx) || (s.step.subs.take 1).any s.subBusy then s
  else match s.step.subs with
    | _ :: b :: rest =>
      let s := { s with step := { s.step with subs := b :: rest } }
      let s := (s.switchTo b).runSub b
      match rest.head? with
      | some x => s.firmwareRig x.ctx x.rigId x.ver
      | none => s
    | _ =>
      if s.step.replay then
        let subs := s.buildSubs
        let s := s.resetRounds (subs.map fun (x : SubBatch) => x.ctx)
        let s := { s with step := { s.step with subs := subs, replay := false, phase := if subs = [] then 3 else 2 } }
        match subs with
        | b :: _ => s.runSub b
        | [] => s
      else ({ s with step := { s.step with phase := 3, subs := [] } }).settleVersions

/-! ### Meanings -/

def execStepBoundary (bad pool : List Nat) (sites : List ShapeSite) (s : State) := done (s.stepBoundary bad pool sites)
def execIdleBoundary (bad pool : List Nat) (sites : List ShapeSite) (s : State) := done (s.idleBoundary bad pool sites)
def execStepLaunch (s : State) := done s.stepLaunch
def execSubBatchComplete (s : State) := done s.subComplete

end Sys2Proof.Machine
end

