-- ==== Sys2Proof/Machine/Fec.lean ====
section
/-! DEFINITION. What a port sends as bits: the Reed-Solomon code of an FEC block, its marker and lanes (R364), the flit stream (R365), the decoder (R366), a
flit's header and payload (R367, Table 13.1). Polynomials are lists of coefficients, lowest first. -/

namespace Sys2Proof.Machine

/-! ### GF(2^10), primitive polynomial x^10 + x^3 + 1 (R364) -/

/-- Times α. -/
def gfAlpha (a : Nat) : Nat := if a < 512 then 2 * a else (2 * a - 1024) ^^^ 9

/-- A product, by Horner's rule over the bits of `b`. -/
def gfMul (a b : Nat) : Nat := if b = 0 then 0 else (List.range 10).foldr (fun i acc => gfAlpha acc ^^^ (if natBit b i then a else 0)) 0

/-- α^n. -/
def gfPow : Nat → Nat
  | 0 => 1
  | n + 1 => gfAlpha (gfPow n)

/-- The inverse, a^1022: the product of the squares a^2, a^4 to a^512. -/
def gfInv (a : Nat) : Nat := ((List.range 9).foldl (fun (x : Nat × Nat) _ => let q := gfMul x.1 x.1; (q, gfMul x.2 q)) (a, 1)).2

/-- A sum of polynomials. -/
def polyAdd (a b : List Nat) : List Nat := (List.range (max a.length b.length)).map fun i => a.getD i 0 ^^^ b.getD i 0
def polyScale (k : Nat) (a : List Nat) : List Nat := a.map (gfMul k)
def polyEval (a : List Nat) (x : Nat) : Nat := a.foldr (fun c acc => c ^^^ gfMul acc x) 0

/-! ### RS(447,425) (R364, R366) -/

/-- The generator, roots α^0 to α^21. -/
def rsGen : List Nat := (List.range 22).foldl (fun g i => polyAdd (0 :: g) (polyScale (gfPow i) g)) [1]

/-- The 22 parity symbols of 425 data symbols, highest power first: the remainder of the data times x^22. -/
def rsParity (data : List Nat) : List Nat :=
  let taps := (rsGen.take 22).reverse
  data.foldl (fun r d => let fb := d ^^^ r.headD 0; List.zipWith (· ^^^ ·) (r.drop 1 ++ [0]) (taps.map (gfMul fb))) (List.replicate 22 0)

/-- The 22 syndromes of a received codeword, its first symbol of the highest power. -/
def rsSyndromes (r : List Nat) : List Nat := (List.range 22).map fun i => polyEval r.reverse (gfPow i)

/-- The state of the search for the error locator (Berlekamp and Massey): locator, last locator, its discrepancy, length, shift. -/
structure Locator where
  cur : List Nat := [1]
  last : List Nat := [1]
  disc : Nat := 1
  len : Nat := 0
  shift : Nat := 1
deriving DecidableEq, Repr

/-- One syndrome taken in. -/
def Locator.next (x : Locator) (syn : List Nat) (n : Nat) : Locator :=
  let d := (List.range (x.len + 1)).foldl (fun a i => a ^^^ gfMul (x.cur.getD i 0) (syn.getD (n - i) 0)) 0
  let fix := polyAdd x.cur (List.replicate x.shift 0 ++ polyScale (gfMul d (gfInv x.disc)) x.last)
  if d = 0 then { x with shift := x.shift + 1 }
  else if 2 * x.len ≤ n then { cur := fix, last := x.cur, disc := d, len := n + 1 - x.len, shift := 1 }
  else { x with cur := fix, shift := x.shift + 1 }

/-- The decoder (R366): the symbols corrected, at most 11, and the 425 data symbols; none for a block it cannot correct. -/
def rsDecode (r : List Nat) : Option (Nat × List Nat) :=
  let syn := rsSyndromes r
  let loc := (List.range 22).foldl (fun x n => x.next syn n) ({} : Locator)
  let xs := (List.range 447).map fun j => gfPow ((577 + j) % 1023)
  let bad := (List.range 447).filter fun j => polyEval loc.cur (xs.getD j 0) == 0
  let omega := (List.range 22).map fun i => (List.range (i + 1)).foldl (fun a k => a ^^^ gfMul (syn.getD k 0) (loc.cur.getD (i - k) 0)) 0
  let slope := (List.range loc.cur.length).drop 1 |>.map fun i => if i % 2 = 1 then loc.cur.getD i 0 else 0
  let size := fun (j : Nat) => let x := xs.getD j 0; gfMul (gfMul (gfInv x) (polyEval omega x)) (gfInv (polyEval slope x))
  let fixed := bad.foldl (fun l j => l.set j (l.getD j 0 ^^^ size j)) r
  if r.length ≠ 447 then none
  else if syn.all (· == 0) then some (0, r.take 425)
  else if loc.len ≤ 11 ∧ bad.length = loc.len ∧ (rsSyndromes fixed).all (· == 0) then some (loc.len, fixed.take 425)
  else none

/-! ### Blocks and lanes (R363, R364) -/

/-- An FEC block of 448 symbols: the block count mod 1,024, the 425 data symbols of the next 4,250 bits of the flit stream, the parity. -/
def fecBlock (count stream : Nat) : List Nat :=
  let data := (List.range 425).map fun i => natBits stream (10 * i) 10
  count % 1024 :: (data ++ rsParity data)

/-- The symbols of a block that go on the `k`-th of `n` active lanes: symbol i goes on lane i mod n. -/
def laneSymbols (n k : Nat) (block : List Nat) : List Nat := ((List.range 448).filter fun i => i % n == k).map fun i => block.getD i 0

/-- The lanes of a port that work, of those that trained: all four, or two adjacent ones, or none (R376). -/
def activeLanes (mask : Nat) : List Nat :=
  if mask % 16 = 15 then [0, 1, 2, 3] else if mask % 4 = 3 then [0, 1] else if mask / 4 % 4 = 3 then [2, 3] else []

/-- The flits of the stream that overlap a block, numbered from the flit that begins at marker 0; 1,024 blocks carry 2,125 (R365, R366). -/
def blockFlits (count : Nat) : List Nat :=
  let b := count % 1024
  ((List.range 4).map fun i => 4250 * b / 2048 + i).filter fun f => decide (2048 * f < 4250 * (b + 1))

/-- The first bit of a block at which a flit begins (R365): bit 0 where the marker is 0. -/
def firstFlitBit (count : Nat) : Nat := (2048 - 4250 * (count % 1024) % 2048) % 2048

/-! ### Flits (R367, R368, Table 13.1) -/

/-- CRC-8, polynomial 0x07, initial value 0, most significant bit of each byte first. -/
def crc8Bit (c : Nat) : Nat := if c / 128 % 2 = 1 then (c * 2 % 256) ^^^ 7 else c * 2 % 256
def crc8 (bs : List Nat) : Nat := bs.foldl (fun c b => (List.range 8).foldl (fun c _ => crc8Bit c) (c ^^^ (b % 256))) 0

/-- Bits [119:0] of a flit's header: a FOLLOW flit repeats its head's, with its own KIND, INDEX, LPOISON and LAST; TRUNC stands in a last FOLLOW flit (R398). -/
def Flit.fields (f : Flit) : Nat :=
  let m := f.msg
  let last := f.index + 1 == m.flits
  packBits [(4, if f.index = 0 then m.kind else 10), (2, m.cls), (1, bit m.esc), (1, bit last), (15, m.dst), (15, m.src), (12, m.slice), (1, m.rgen), (4, m.hops),
    (1, bit (m.trunc && last)), (16, m.birth / 16), (12, f.seq), (8, m.ctx), (16, m.tag), (5, m.lpoison.getD f.index 0),
    (7, if f.index = 0 then m.flits - 1 else f.index)]

/-- A flit as 2,048 bits, byte 0 and in each byte bit 0 lowest: header, HCRC, 240 payload bytes. -/
def Flit.bits (f : Flit) : Nat :=
  let h := f.fields
  packBits [(120, h), (8, crc8 (packBytes [(15, h)])), (1920, leNat ((f.msg.data.drop (240 * f.index)).take 240))]

/-- HCRC of a flit's bytes. -/
def hcrcOk (bs : List Nat) : Bool := bs.getD 15 0 == crc8 (bs.take 15)

/-- The flit that fills a slot when there is nothing to send. -/
def idleFlit : Flit :=
  { seq := 0, index := 0, msg := { kind := 0, cls := 0, esc := false, dst := 0, src := 0, slice := 0, rgen := 0, hops := 0, birth := 0, ctx := 0, tag := 0, flits := 1, trunc := false } }

end Sys2Proof.Machine
end

