-- ==== Sys2Proof/Machine/Link.lean ====
section
/-! DEFINITION. The router and the lines of the Tenith ports (chapter 13): faults, ports, lookup, messages on their way to a port and across seat bridges, the
order in which a port's flits leave, flits into FEC blocks. -/

namespace Sys2Proof.Machine

/-! ### Faults and ports -/

def fabRegs : FaultRegs := ⟨0x0A, .FAB_ERR_FLAGS, Reg.FAB_ERR_INFO⟩

/-- A fabric fault (Table 13.13). -/
def State.fabFault (s : State) (b sev port src slice ctx : Nat) : State :=
  s.fault fabRegs
    { block := 0x0A, fault := b, sev := sev, scope := if sev = 3 then .context ctx else .none, ctx := if sev = 3 then some ctx else none,
      whereKind := 4, whereIs := port, info := packBits [(5, port), (15, src), (12, slice), (8, ctx), (4, b)] }

def State.port (s : State) (p : Nat) : PortFab := SMap.get {} s.fab.ports p
def State.setPort (s : State) (p : Nat) (x : PortFab) : State := { s with fab := { s.fab with ports := SMap.set {} s.fab.ports p x } }
def State.modPort (s : State) (p : Nat) (f : PortFab → PortFab) : State := s.setPort p (f (s.port p))

/-- STATE of a physical port (Table 13.12). -/
def State.portState (s : State) (p : Nat) : Nat := s.getF .FAB_PORT_STAT_STATE (inst p)
def State.setPortState (s : State) (p v : Nat) : State := s.setF .FAB_PORT_STAT_STATE v (inst p)
/-- UP or DEGRADED. -/
def State.portUp (s : State) (p : Nat) : Bool := s.portState p == 2 || s.portState p == 3

/-- A logical port's role, dimension, members; the logical port of a physical one. -/
def State.lpRole (s : State) (l : Nat) : Nat := s.getF .FAB_LPORT_ROLE (inst l)
def State.lpDim (s : State) (l : Nat) : Nat := s.getF .FAB_LPORT_DIM (inst l)
def State.lpMembers (s : State) (l : Nat) : List Nat := (List.range 32).filter fun p => natBit (s.getF .FAB_LPORT_MEMBERS (inst l)) p
def State.lpUp (s : State) (l : Nat) : Bool := s.flag .FAB_LPORT_UP (inst l)
def State.lportOf (s : State) (p : Nat) : Option Nat := (List.range 32).find? fun l => natBit (s.getF .FAB_LPORT_MEMBERS (inst l)) p
/-- Members that are UP; one that drains for a retrain is chosen no more (R375). -/
def State.upMembers (s : State) (l : Nat) : List Nat := (s.lpMembers l).filter fun p => s.portUp p && (s.port p).drain.isNone

/-- This module's rack and coordinate. -/
def State.rack (s : State) : Nat := s.getF .FAB_ID_RACK
def State.coord (s : State) : Nat := 2 * s.getF .FAB_ID_TRAY + s.getF .FAB_ID_SLOT

/-! ### Messages at the router (R385, R392, R395, R397) -/

/-- Membership of a slice; slice 0 holds every module (R394). -/
def State.inSlice (s : State) (sl : Nat) : Bool := sl == 0 || s.flag .FAB_SLICE_MEMBER (inst sl)

/-- Why a flit is discarded at this module, as its fault bit (R397): its age in 16 ns units modulo 2^16, its stamp ahead, its hops. -/
def State.stampFault (s : State) (birth hops : Nat) : Option Nat :=
  let age := (s.now / 16 + (65536 - birth / 16 % 65536)) % 65536
  if age < 32768 then (if 4000 < 16 * age then some 7 else if 15 ≤ hops then some 8 else none)
  else if 1000 < 16 * (65536 - age) then some 14 else if 15 ≤ hops then some 8 else none

/-- Discard a message (R395, R397): counted and logged; a transit discard is reported to its sender, a lost BEAT message too; a message of
this module's own costs its context. -/
def State.discard (s : State) (m : FabMsg) (b : Nat) : State :=
  let s := s.bump .FAB_DROPS_COUNT
  let own := m.src == s.self
  let s := s.fabFault b (if own && m.kind == 9 then 3 else 0) 0 m.src m.slice m.ctx
  if own then s
  else
    let s := if s.inSlice m.slice then s else s.emit (.message "TRANSIT_FAULT" m.src [m.slice, m.ctx, b])
    if m.kind = 9 then s.emit (.message "FLIT_LOSS" m.src [m.slice, m.ctx]) else s

/-- Virtual channel of a class, adaptive or escape (Table 13.2). -/
def vcOf (cls : Nat) (esc : Bool) : Nat := cls % 4 + (if esc then 4 else 0)

/-- The next input holds credit for all of a message's flits, reserved or shared (R392). -/
def PortFab.credit (x : PortFab) (vc n : Nat) : Bool :=
  let used := x.used.set vc (x.used.getD vc 0 + n)
  decide (used.foldl (fun a u => a + (u - 24)) 0 ≤ 320)
def PortFab.free (x : PortFab) (vc : Nat) : Nat :=
  (24 - x.used.getD vc 0) + (320 - x.used.foldl (fun a u => a + (u - 24)) 0)

/-- KIND CTL and BEAT are ordered (R369). -/
def FabMsg.ordered (m : FabMsg) : Bool := m.kind == 4 || m.kind == 9

/-- The channel a message leaves by. -/
def OutMsg.vc (o : OutMsg) (esc : Bool) : Nat := vcOf o.msg.cls (o.msg.esc || esc)

/-- A message's input buffer gives up flits: credit for them is owed to the peer (R392). -/
def State.freeInput (s : State) (o : OutMsg) (n : Nat) : State :=
  match o.inPort with
  | none => s
  | some p => s.modPort p fun x => { x with back := x.back.set o.inVc (x.back.getD o.inVc 0 + n), owed := some (x.owed.getD s.now) }

/-- A message that waited here is discarded whole. -/
def State.discardOut (s : State) (o : OutMsg) (b : Nat) : State := (s.discard o.msg b).freeInput o (o.msg.flits - o.sent)

/-- The member a message goes onto (R372): an ordered one by its hash, another the one with most free credits, lowest number on ties. -/
def State.memberFor (s : State) (m : FabMsg) (l : Nat) (esc : Bool) : Option Nat :=
  let ups := s.upMembers l
  if m.ordered then ups[Config.flowHash m.src m.dst m.cls m.tag % max 1 ups.length]?
  else ups.foldl (fun (b : Option Nat) p => match b with
    | none => some p
    | some q => if (s.port q).free (vcOf m.cls esc) < (s.port p).free (vcOf m.cls esc) then some p else some q) none

/-- What a router answers for a message: delivered here, out by a port, held for tables, waiting for credit, unreachable. -/
inductive RouteTo where
  | here
  | out (port : Nat) (esc : Bool)
  | noRoute
  | noCredit
  | unreach
deriving DecidableEq, Repr

/-- The lookup of R385 in a copy. -/
def State.route (s : State) (m : FabMsg) (copy : Nat) : RouteTo :=
  if m.dst = s.self then .here
  else
    let t := if m.slice = 0 then 0 else s.getF .FAB_SLICE_TABLE (inst m.slice)
    let e := s.getF .FAB_RT_DATA_ENTRY (inst ((if m.dst / 64 != s.rack then m.dst / 64 else 512 + m.dst % 64) + t * 2 ^ 10 + copy * 2 ^ 14))
    let escOk := natBit e 37 && s.lpUp (natBits e 32 5) && s.upMembers (natBits e 32 5) != []
    let adapt := (List.range 32).filter fun l => natBit e l && s.lpUp l && s.upMembers l != []
    let can := fun (l : Nat) (esc : Bool) => (s.memberFor m l esc).bind fun p => if (s.port p).credit (vcOf m.cls esc) m.flits then some p else none
    if natBit e 38 then .here
    else if natBit e 39 then .unreach
    else if m.ordered || m.esc then
      if !escOk then .noRoute else match can (natBits e 32 5) true with
        | some p => .out p true
        | none => .noCredit
    else match adapt.findSome? fun l => can l false with
      | some p => .out p false
      | none => if escOk then (match can (natBits e 32 5) true with
          | some p => .out p true
          | none => .noCredit)
        else if adapt = [] then .noRoute else .noCredit

/-- A copy that may still be read: the one injected under, or the old one until it is reclaimed (R389). -/
def State.copyLive (s : State) (copy : Nat) : Bool := copy == s.getF .FAB_STATUS_INJ_COPY || s.fab.oldUntil.isSome

/-- A message joins the queue of a port. -/
def State.queueOut (s : State) (o : OutMsg) (p : Nat) : State := s.modPort p fun x => { x with outq := x.outq ++ [o] }

/-- A message takes the credit of a port's channel and goes to it: at once on the port's own seat (R31), else over the bridges (R396). -/
def State.sendOut (s : State) (o : OutMsg) (seat p : Nat) (esc : Bool) : State :=
  let o := { o with msg := { o.msg with esc := o.msg.esc || esc } }
  let s := s.modPort p fun x => { x with used := x.used.set (o.vc false) (x.used.getD (o.vc false) 0 + o.msg.flits) }
  if seat = p / 4 then s.queueOut o p else { s with fab := { s.fab with cross := s.fab.cross ++ [{ out := o, seat := seat, port := p, left := o.msg.flits }] } }

/-- Route a message at a seat: on its way, held, or delivered (its own command then acts). -/
def State.routeMsg (s : State) (o : OutMsg) (seat copy : Nat) : State :=
  match s.route o.msg copy with
  | .here => s.freeInput o o.msg.flits
  | .unreach => s.discardOut o 8
  | .out p esc => s.sendOut o seat p esc
  | .noCredit => { s with fab := { s.fab with held := s.fab.held ++ [({ out := o, seat := seat, forTables := false } : HeldMsg)] } }
  | .noRoute =>
    let s := { s with fab := { s.fab with held := s.fab.held ++ [({ out := o, seat := seat, forTables := true } : HeldMsg)] } }
    let s := s.bump .FAB_HELD_COUNT
    if s.fab.escLogged then s
    else ({ s with fab := { s.fab with escLogged := true } }).fabFault 12 1 0 o.msg.src o.msg.slice o.msg.ctx

/-- A head flit's entry: flits from a port are counted and owed an acknowledgement; a message injected here takes its stamps (R388). -/
def State.enter (s : State) (m : FabMsg) (e : Ingress) : OutMsg × State :=
  let o : OutMsg := { msg := m, inPort := none, inVc := vcOf m.cls m.esc, transit := m.src != s.self && !s.inSlice m.slice }
  match e with
  | .port p => ({ o with inPort := some p }, (s.bump .FAB_RX_FLITS_COUNT m.flits).modPort p fun x =>
      { x with rxSeq := (x.rxSeq + m.flits) % 4096, owed := some (x.owed.getD s.now) })
  | .seat _ => ({ o with msg := { m with src := s.self, rgen := s.getF .FAB_STATUS_INJ_COPY, birth := s.now, hops := 0 }, transit := false }, s)

/-- An entry with its port or seat in range. -/
def Ingress.norm : Ingress → Ingress
  | .port p => .port (p % 32)
  | .seat k => .seat (k % 8)

/-- The seat at which a message enters (R31). -/
def Ingress.at_ : Ingress → Nat
  | .port p => p / 4
  | .seat k => k

/-- The port of an entry is up. -/
def State.open_ (s : State) : Ingress → Bool
  | .port p => s.portUp p
  | .seat _ => true

/-- Why a message is discarded on entry. One cut short is discarded at its destination and passed on elsewhere (R398). -/
def State.ingressFault (s : State) (m : FabMsg) : Option Nat :=
  match s.stampFault m.birth m.hops with
  | some b => some b
  | none =>
    if m.trunc && m.dst == s.self then some 9
    else if !s.copyLive m.rgen then some 10
    else if m.dst == s.self && !s.inSlice m.slice then some 11
    else none

/-- MESSAGE_FORWARD (R385): a message that arrived on a port, or is injected by a seat. -/
def State.forward (s : State) (m : FabMsg) (e : Ingress) : State :=
  if !s.open_ e || !s.flag .FAB_STATUS_ROUTED then s
  else
    let x := s.enter m e
    match x.2.ingressFault x.1.msg with
    | some b => x.2.discardOut x.1 b
    | none => x.2.routeMsg x.1 e.at_ x.1.msg.rgen

/-- Held messages are looked up again: all after a swap, those waiting for credit when credit returns. -/
def State.retryHeld (s : State) (tables : Bool) : State :=
  let hs := s.fab.held
  let s := { s with fab := { s.fab with held := [] } }
  hs.foldl (fun s (h : HeldMsg) =>
    if (h.forTables && !tables) then { s with fab := { s.fab with held := s.fab.held ++ [h] } }
    else match s.stampFault h.out.msg.birth h.out.msg.hops with
      | some b => s.discardOut h.out b
      | none => match s.route h.out.msg (s.getF .FAB_STATUS_INJ_COPY) with
        | .noRoute => { s with fab := { s.fab with held := s.fab.held ++ [h] } }
        | _ => s.routeMsg h.out h.seat (s.getF .FAB_STATUS_INJ_COPY)) s

/-- A message's age exceeds its lifetime (R397). -/
def State.aged (s : State) (m : FabMsg) : Bool := s.stampFault m.birth 0 == some 7

/-- HELD_EXPIRY (R390, R397): messages held, or on their way across bridges, that reached their lifetime. -/
def State.heldExpiry (s : State) : State :=
  let old := (s.fab.held.map (·.out) ++ s.fab.cross.map (·.out)).filter fun o => s.aged o.msg
  let s := { s with fab := { s.fab with held := s.fab.held.filter (fun h => !s.aged h.out.msg), cross := s.fab.cross.filter fun c => !s.aged c.out.msg } }
  old.foldl (fun s o => s.discardOut o 7) s

/-- TRANSIT_FAULT (R395): charged to the context named; a violation tears it down, the other causes have the effects of R397, which time-outs
and FLIT_LOSS bring. -/
def State.transitFault (s : State) (slice ctx cause : Nat) : State :=
  if !(s.ctx ctx).valid || cause != 11 then s else s.fabFault 11 3 0 s.self slice ctx

/-- FLIT_LOSS (R397). -/
def State.flitLoss (s : State) (slice ctx : Nat) : State := if (s.ctx ctx).valid then s.fabFault 7 3 0 s.self slice ctx else s

/-! ### Across the seat bridges (R31, R138, R193, R396) -/

/-- The switch and output port of channel 0 of the bridge from a seat to another, on the gateway chains' lines (R138). -/
def bridgeChannel (a b : Nat) : Option (Nat × Nat) :=
  if rowNeighbour a 2 = some b then some (31, 2)
  else if rowNeighbour a 4 = some b then some (0, 4)
  else if colNeighbour a = b then some (992 + (if a < 4 then 0 else 31), 3)
  else none

/-- Gateway slots a stroke of that channel. -/
def State.gatewaySlots (s : State) (a b : Nat) : Nat :=
  match bridgeChannel a b with
  | none => 0
  | some (sw, out) => ((List.range 32).filter fun k => let w := s.slotAt a sw out k; slotValid w && slotGateway w && !slotDown w).length

/-- Seats that a seat's attached bridges lead to. -/
def State.seatsBy (s : State) (a : Nat) : List Nat :=
  ((List.range 8).filter fun b => (bridgeChannel a b).isSome && s.bridgeUp a b)

/-- Bridges from each seat to a seat, over attached ones; 99 is unreached. -/
def State.seatHops (s : State) (goal : Nat) : List Nat :=
  (List.range 8).foldl (fun d _ => (List.range 8).map fun a => (s.seatsBy a).foldl (fun m b => min m (d.getD b 99 + 1)) (d.getD a 99))
    ((List.range 8).map fun a => if a = goal then 0 else 99)

/-- The next seat of a message towards its port: by a shortest way, the lowest number on ties. -/
def State.nextSeat (s : State) (c : CrossMsg) : Option Nat :=
  let d := s.seatHops (c.port / 4)
  (s.seatsBy c.seat).find? fun b => d.getD b 99 + 1 == d.getD c.seat 99

/-- CTL and transit messages cross in the gateway groups first (R396). -/
def CrossMsg.first (c : CrossMsg) : Bool := c.out.msg.kind == 4 || c.out.transit

/-- One flit of a message crosses its bridge; the last one brings the message to the next seat, or to its port. -/
def State.crossFlit (s : State) (i b : Nat) : State :=
  match s.fab.cross[i]? with
  | none => s
  | some c =>
    if 1 < c.left then { s with fab := { s.fab with cross := s.fab.cross.set i { c with left := c.left - 1 } } }
    else if b = c.port / 4 then ({ s with fab := { s.fab with cross := s.fab.cross.eraseIdx i } }).queueOut c.out c.port
    else { s with fab := { s.fab with cross := s.fab.cross.set i { c with seat := b, left := c.out.msg.flits } } }

/-- Flits of one bridge in a nanosecond, up to `n`: what its gateway slots can carry goes to CTL and transit messages, what its memory share can carry to
any, oldest first. A flit takes 256 bytes of slots, or 272 of the memory share, of which 240 are data (R193). -/
def State.crossOn (s : State) (a b : Nat) : Nat → Nat → Nat → Nat × Nat × State
  | 0, g, m => (g, m, s)
  | n + 1, g, m =>
    let on := fun (c : CrossMsg) => c.seat == a && s.nextSeat c == some b
    match s.fab.cross.findIdx? (fun c => on c && c.first && decide (256 ≤ g)) with
    | some i => (s.crossFlit i b).crossOn a b n (g - 256) m
    | none => match s.fab.cross.findIdx? (fun c => on c && decide (272 ≤ m)) with
      | some i => (s.crossFlit i b).crossOn a b n g (m - 272)
      | none => (g, m, s)

/-- A nanosecond on every bridge in use: 64 bytes a gateway slot in a stroke of 25.6 ns, 680 bytes of memory share (R193). -/
def State.crossNs (s : State) : State :=
  let used := (s.fab.cross.filterMap fun c => (s.nextSeat c).map fun b => (c.seat, b)).eraseDups
  let old := s.fab.shares
  used.foldl (fun s e =>
    let was := ((old.find? fun x => x.1 == e.1 && x.2.1 == e.2).map (·.2.2)).getD (0, 0)
    let r := s.crossOn e.1 e.2 4 (min 512 (was.1 + s.gatewaySlots e.1 e.2 * 5 / 2)) (min 951 (was.2 + 680))
    { r.2.2 with fab := { r.2.2.fab with shares := r.2.2.fab.shares ++ [(e.1, e.2, r.1, r.2.1)] } }) { s with fab := { s.fab with shares := [] } }

/-! ### The lines of the ports (R364, R365, R370, R393) -/

/-- A LINK, BEACON or TIME flit. -/
def linkMsg (kind : Nat) (data : List Nat) : FabMsg :=
  { idleFlit.msg with kind := kind, data := data.map fun b => BitVec.ofNat 8 b }
def State.queueLink (s : State) (p : Nat) (m : FabMsg) : State := s.modPort p fun x => { x with linkq := x.linkq ++ [m] }

/-- A LINK flit (Table 13.2): the last good sequence, NAK, the credits owed. -/
def State.sendLink (s : State) (p : Nat) (nak : Bool) : State :=
  let x := s.port p
  let s := s.modPort p fun x => { x with owed := none, back := List.replicate 8 0 }
  s.queueLink p (linkMsg 1 (packBytes ((2, (x.rxSeq + 4095) % 4096 + 4096 * bit nak) :: (List.range 8).map fun v => (2, x.back.getD v 0))))

/-- The message of a channel that goes next: the one under way, else the oldest. -/
def PortFab.headOf (x : PortFab) (v : Nat) : Option Nat :=
  (x.outq.findIdx? fun o => o.vc false == v && decide (0 < o.sent)).orElse fun _ => x.outq.findIdx? fun o => o.vc false == v

/-- The oldest transit message that no other message under way holds up in its channel. -/
def PortFab.transitHead (x : PortFab) : Option Nat :=
  x.outq.findIdx? fun o => o.transit && (decide (0 < o.sent) || !x.outq.any fun q => q.vc false == o.vc false && decide (0 < q.sent))

/-- The message whose turn it is among RSP, REQ and BULK: the one under way, else round-robin by class, the escape channel first. -/
def PortFab.turnHead (x : PortFab) : Option Nat :=
  let order := match x.lastCls with
    | 2 => [1, 3, 2]
    | 1 => [3, 2, 1]
    | _ => [2, 1, 3]
  let under := x.cur.bind fun v => x.outq.findIdx? fun o => o.vc false == v && decide (0 < o.sent)
  under.orElse fun _ => order.findSome? fun c => (x.headOf (4 + c)).orElse fun _ => x.headOf c

/-- What a flit slot carries: nothing, a flit replayed, a link flit, the next flit of a message of the queue (by its turn or not). -/
inductive FlitSlot where
  | idle
  | again (f : Flit)
  | link (m : FabMsg)
  | next (i : Nat) (turn : Bool)
deriving DecidableEq, Repr

/-- The choice of R393: flits replayed go before all (R370); then a LINK or TIME flit that is due, at most 1 slot in 32 while others wait; a CTL flit, escape channel
first, at most 1 in 4 while other classes wait; a transit flit after 15 slots without one; the message whose turn it is. -/
def PortFab.choose (x : PortFab) : FlitSlot :=
  let others := x.outq.any fun o => o.msg.cls % 4 != 0
  let again := x.replay.head?.map FlitSlot.again
  let link := (x.linkq.head?.filter fun _ => x.outq.isEmpty || decide (31 ≤ x.sinceLink)).map FlitSlot.link
  let ctl := (((x.headOf 4).orElse fun _ => x.headOf 0).filter fun _ => !others || decide (3 ≤ x.sinceCtl)).map fun i => FlitSlot.next i false
  let transit := (x.transitHead.filter fun _ => decide (15 ≤ x.sinceTransit)).map fun i => FlitSlot.next i false
  let turn := x.turnHead.map fun i => FlitSlot.next i true
  ((((again.orElse fun _ => link).orElse fun _ => ctl).orElse fun _ => transit).orElse fun _ => turn).getD .idle

/-- A flit as it goes out: one more module passed, but for the module that sends it. -/
def OutMsg.flit (o : OutMsg) (seq : Nat) : Flit :=
  { seq := seq, index := o.sent, msg := { o.msg with hops := o.msg.hops + (if o.inPort.isNone then 0 else 1) } }

/-- A flit's bits join the flit stream (R365). -/
def PortFab.put (x : PortFab) (f : Flit) : PortFab := { x with stream := x.stream + f.bits * 2 ^ x.streamLen, streamLen := x.streamLen + 2048 }

/-- A flit sent for the first time: it takes the next sequence and stays in the replay buffer, the last 256 (R370); the slots since are counted. -/
def PortFab.sendNew (x : PortFab) (f : Flit) (isLink isCtl isTransit : Bool) : PortFab :=
  { x.put f with
    txSeq := (x.txSeq + 1) % 4096, unacked := (x.unacked ++ [f]).drop (x.unacked.length - 255)
    sinceLink := if isLink then 0 else min 31 (x.sinceLink + 1), sinceCtl := if isCtl then 0 else min 3 (x.sinceCtl + 1)
    sinceTransit := if isTransit then 0 else min 15 (x.sinceTransit + 1) }

/-- The next flit of message `i` of a port's queue leaves. -/
def PortFab.sendNext (x : PortFab) (i : Nat) (turn : Bool) (o : OutMsg) : PortFab :=
  let ends := o.sent + 1 == o.msg.flits || o.msg.flits == 0
  let y := x.sendNew (o.flit x.txSeq) false (o.msg.cls % 4 == 0) o.transit
  let y := { y with outq := if ends then x.outq.eraseIdx i else x.outq.set i { o with sent := o.sent + 1 } }
  if turn then { y with lastCls := o.msg.cls % 4, cur := if ends then none else some (o.vc false) } else y

/-- A flit slot of a port (R393). -/
def State.flitSlot (s : State) (p : Nat) : State :=
  let x := s.port p
  let count := fun (s : State) => (s.bump .FAB_TX_FLITS_COUNT).pmc 0x0B 1 none
  match x.choose with
  | .idle => s.setPort p { x.put idleFlit with sinceLink := min 31 (x.sinceLink + 1), sinceCtl := min 3 (x.sinceCtl + 1), sinceTransit := min 15 (x.sinceTransit + 1) }
  | .again f => count (s.setPort p { x.put f with replay := x.replay.drop 1 })
  | .link m => count (s.setPort p { x.sendNew { seq := x.txSeq, msg := m, index := 0 } true false false with linkq := x.linkq.drop 1 })
  | .next i turn => match x.outq[i]? with
    | none => s
    | some o =>
      let s := count ((s.setPort p (x.sendNext i turn o)).freeInput o 1)
      if o.transit then (s.bump .FAB_TRANSIT_FLITS_COUNT).pmc 0x0C 1 none else s

/-- Once 4,250 bits of the flit stream are there a block leaves, dealt over the lanes that work (R364). -/
def State.sendBlock (s : State) (p : Nat) : State :=
  let x := s.port p
  if x.streamLen < 4250 then s
  else
    let block := fecBlock x.block x.stream
    let n := if s.getF .FAB_PORT_STAT_LANES (inst p) = 2 then 2 else 4
    let s := s.setPort p { x with stream := x.stream / 2 ^ 4250, streamLen := x.streamLen - 4250, block := (x.block + 1) % 1024 }
    (List.range n).foldl (fun s k => s.emit (.port p "LANE" ((4 * p + x.lane0 + k) :: laneSymbols n k block))) s

/-- A nanosecond of a port's line: 850 bits of the flit stream on four lanes, 425 on two (R364, R376); an acknowledgement or credit owed for 64 ns is due
(R370). -/
def State.lineNs (s : State) (p : Nat) : State :=
  let s := if (s.port p).owed.any fun t => decide (t + 64 ≤ s.now) then s.sendLink p false else s
  let x := s.port p
  let phase := x.phase + if s.getF .FAB_PORT_STAT_LANES (inst p) = 2 then 425 else 850
  let s := s.setPort p { x with phase := phase % 2048 }
  if phase < 2048 then s else (s.flitSlot p).sendBlock p

/-- A nanosecond of the router: the bridges, then each port whose link layer runs. -/
def State.routerNs (s : State) : State :=
  (List.range 32).foldl (fun s p => if (s.port p).trained && s.portState p != 0 && s.portState p != 5 then s.lineNs p else s) s.crossNs

/-- A port's link layer begins anew (Table 13.4, step 5): sequences, credits, queues, the stream from marker 0. -/
def PortFab.fresh (x : PortFab) : PortFab :=
  { fails := x.fails, conflict := x.conflict, peerSerial := x.peerSerial, lane0 := x.lane0, uncorr := x.uncorr, uncorrSince := x.uncorrSince,
    beaconAt := x.beaconAt, timeAt := x.timeAt, echo := x.echo, asym := x.asym }

/-- Messages of a port that is lost (R373, R398): those not yet sent move to another member, or wait for tables; one sent in part is lost. -/
def State.moveQueue (s : State) (p : Nat) (q : List OutMsg) : State :=
  let way := s.fab.cross.filter fun c => c.port == p
  let s := { s with fab := { s.fab with cross := s.fab.cross.filter fun c => c.port != p } }
  let on := fun (s : State) (o : OutMsg) (seat : Nat) =>
    if 0 < o.sent then s.discardOut o 9 else s.routeMsg o seat (s.getF .FAB_STATUS_INJ_COPY)
  way.foldl (fun s c => on s c.out c.seat) (q.foldl (fun s o => on s o (p / 4)) s)

/-! ### The link layer (R370, R392) -/

/-- Flits left after those acknowledged up to and with a sequence, when it is one in flight. -/
def ackTo (l : List Flit) (ack : Nat) : List Flit := if l.any (fun f => f.seq == ack) then (l.dropWhile fun f => f.seq != ack).drop 1 else l

end Sys2Proof.Machine
end

