-- ==== Sys2Proof/Machine/Fabric.lean ====
section
/-! DEFINITION. Tenith links and the Dwezin fabric (chapter 13): the twisted cube, routing tables and their swaps, training, beacons, the link layer,
memory messages at their destination, fabric time. -/

namespace Sys2Proof.Machine

/-! ### The cube (R381) -/

/-- `n` with bit `i` flipped. -/
def flipBit (n i : Nat) : Nat := if natBit n i then n - 2 ^ i else n + 2 ^ i

/-- N_d(c). -/
def cubeN (d c : Nat) : Nat :=
  (List.range 3).foldl (fun n i => if decide (2 * i + 1 < d - d % 2) && natBit c (2 * i) then flipBit n (2 * i + 1) else n) (flipBit c d)

/-- The highest bit in which two coordinates differ. -/
def topDiff (a b : Nat) : Nat := ((List.range 6).foldl (fun (m : Option Nat) i => if natBit a i != natBit b i then some i else m) none).getD 0

/-- A cube link of the rack is live: neither end of it is known down, neither module gone, and this module's own port is up. -/
def State.cubeLive (s : State) (c d : Nat) : Bool :=
  let m := fun (x : Nat) => s.rack * 64 + x
  let n := cubeN d c
  let own := fun (x : Nat) => x != s.coord || natBit (s.getF .FAB_STATUS_CUBE_UP) d
  !s.fab.down.contains (m c, d) && !s.fab.down.contains (m n, d) && !s.fab.gone.contains (m c) && !s.fab.gone.contains (m n) && own c && own n

/-- One relaxation of hop counts over live links; 99 is unreached. -/
def State.relax (s : State) (dist : List Nat) : List Nat :=
  (List.range 64).map fun c =>
    (List.range 6).foldl (fun m d => if s.cubeLive c d then min m (dist.getD (cubeN d c) 99 + 1) else m) (dist.getD c 99)

/-- Hop counts of the rack's coordinates to the nearest of a set, up to 15 hops (Table 13.14). -/
def State.hopsTo (s : State) (goal : Nat → Bool) : List Nat :=
  (List.range 15).foldl (fun d _ => s.relax d) ((List.range 64).map fun c => if goal c then 0 else 99)

/-- A module of the rack with a live uplink. -/
def State.hasUplink (s : State) (c : Nat) : Bool :=
  if c = s.coord then s.getF .FAB_STATUS_UPLINK_UP != 0
  else !s.fab.gone.contains (s.rack * 64 + c) && (List.range 6).any fun u => !s.fab.down.contains (s.rack * 64 + c, 6 + u)

/-! ### Routing tables (R384-R387) -/

/-- The logical ports of a role, up. -/
def State.uplinks (s : State) : List Nat := (List.range 32).filter fun l => s.lpRole l == 2 && s.lpUp l
def State.cubePort (s : State) (d : Nat) : Option Nat := (List.range 32).find? fun l => s.lpRole l == 1 && s.lpDim l == d

/-- An entry word (Table 13.7). -/
def routeWord (adapt esc : Nat) (escOk local_ unreach : Bool) : Nat :=
  packBits [(32, adapt), (5, esc), (1, bit escOk), (1, bit local_), (1, bit unreach)]

/-- Cube ports whose peer is one hop nearer by hop counts; a table of slices keeps to their members where such a port leads to one (R394). -/
def State.nearer (s : State) (dist : List Nat) (members : List Nat) : List Nat :=
  let ds := (List.range 6).filter fun d => s.cubeLive s.coord d && dist.getD (cubeN d s.coord) 99 + 1 == dist.getD s.coord 99
  let inside := ds.filter fun d => members.contains (s.rack * 64 + cubeN d s.coord)
  (if inside = [] then ds else inside).filterMap s.cubePort

def maskOfPorts (ls : List Nat) : Nat := ls.foldl (fun a l => if natBit a l then a else a + 2 ^ l) 0

/-- Entry of a coordinate of the rack. -/
def State.coordEntry (s : State) (members : List Nat) (c : Nat) : Nat :=
  if c = s.coord then routeWord 0 0 false true false
  else
    let dist := s.hopsTo fun x => x == c
    let esc := s.cubePort (topDiff s.coord c)
    let up := esc.any fun l => s.lpUp l && s.cubeLive s.coord (topDiff s.coord c)
    routeWord (maskOfPorts (s.nearer dist members)) (if up then esc.getD 0 else 0) up false (decide (15 < dist.getD s.coord 99))

/-- Entry of another rack. -/
def State.rackEntry (s : State) (members : List Nat) : Nat :=
  let dist := s.hopsTo s.hasUplink
  let ups := s.uplinks
  routeWord (maskOfPorts (ups ++ s.nearer dist members)) (ups.headD 0) (ups != []) false (decide (15 < dist.getD s.coord 99))

/-- Tables in use: 0, and those that a slice with members names, each with its slices' members. -/
def State.tablesUsed (s : State) : List (Nat × List Nat) :=
  let used := (s.slices.map fun p => (s.getF .FAB_SLICE_TABLE (inst p.1), p.2)).filter fun p => p.1 != 0
  (0, []) :: (used.map (·.1)).eraseDups.map fun t => (t, (used.filter fun p => p.1 == t).flatMap (·.2))

/-- Write every table of a copy from the link state (R386). -/
def State.writeTables (s : State) (copy : Nat) : State :=
  s.tablesUsed.foldl (fun s t =>
    let k := fun (e : Nat) => inst (e + t.1 * 2 ^ 10 + copy * 2 ^ 14)
    let far := s.rackEntry t.2
    let near := (List.range 64).map fun c => (512 + c, s.coordEntry t.2 c)
    (((List.range 512).map fun r => (r, if r = s.rack then 0 else far)) ++ near).foldl (fun s e => s.setF .FAB_RT_DATA_ENTRY e.2 (k e.1)) s) s

/-- Plan a swap at a time (R391): tables are written to the idle copy now, unless a swap is pending. -/
def State.planSwap (s : State) (at_ : Nat) : State :=
  let cur := s.getF .FAB_RT_SWAP_AT
  if s.fab.oldUntil.isSome || (cur != 0 && (cur != at_ || decide (cur < s.now + 34000))) then
    let after := max at_ ((if cur = 0 then s.fab.oldUntil.getD 0 - 5000 else cur) + 40000)
    { s with fab := { s.fab with later := if s.fab.later.contains after then s.fab.later else s.fab.later ++ [after] } }
  else
    let s := s.writeTables (1 - s.getF .FAB_STATUS_INJ_COPY)
    (s.setF .FAB_STATUS_SWAP_PEND 1).setF .FAB_RT_SWAP_AT at_

/-! ### Notices (R391) -/

/-- Modules a notice is flooded to: cube neighbours by ports that are up, the same coordinate in racks one bit away. -/
def State.floodTo (s : State) : List Nat :=
  ((List.range 6).filter fun d => natBit (s.getF .FAB_STATUS_CUBE_UP) d).map (fun d => s.rack * 64 + cubeN d s.coord) ++
    (List.range 9).map fun i => flipBit s.rack i * 64 + s.coord

def State.flood (s : State) (kind : String) (args : List Nat) : State := s.floodTo.foldl (fun s m => s.emit (.message kind m args)) s

/-- A notice is taken once, by origin and sequence. -/
def State.newNotice (s : State) (origin seq : Nat) : Bool := !s.fab.seen.contains (origin, seq)
def State.sawNotice (s : State) (origin seq : Nat) : State := { s with fab := { s.fab with seen := ((origin, seq) :: s.fab.seen).take 4096 } }

/-- Take a link's new state into the link state and plan the swap (R386, R391). -/
def State.learnLink (s : State) (x : LinkChange) : State :=
  let rest := s.fab.down.filter fun y => y != (x.module, x.lport)
  let s := { s with fab := { s.fab with down := if x.up then rest else rest ++ [(x.module, x.lport)] } }
  s.planSwap x.at_

/-- This module issues LINK_STATE for one of its logical ports: AT is the next 10 µs plus 40 µs. -/
def State.issueLink (s : State) (l : Nat) (up : Bool) : State :=
  let at_ := (s.now + 9999) / 10000 * 10000 + 40000
  let n := s.fab.noticeSeq + 1
  let s := { s with fab := { s.fab with noticeSeq := n } }
  let s := (s.sawNotice s.self n).flood "LINK_STATE" [s.self, n, s.self, l, bit up, at_]
  s.learnLink { module := s.self, lport := l, up := up, at_ := at_ }

/-- GONE (R391): this module leaves the fabric; every module is told. -/
def State.sendGone (s : State) : State :=
  let at_ := (s.now + 9999) / 10000 * 10000 + 40000
  let n := s.fab.noticeSeq + 1
  let s := { s with fab := { s.fab with noticeSeq := n } }
  (s.sawNotice s.self n).flood "GONE" [s.self, n, s.self, at_]

/-- LINK_STATE (R391). -/
def State.linkState (s : State) (origin seq : Nat) (x : LinkChange) : State :=
  if !s.newNotice origin seq || s.getF .FAB_CTRL_EN == 0 then s
  else (((s.sawNotice origin seq).flood "LINK_STATE" [origin, seq, x.module, x.lport, bit x.up, x.at_])).learnLink x

/-! ### Logical ports (R373) -/

/-- Bits of FAB_STATUS and the moment the last cube port went down (R501) from the logical ports. -/
def State.statusUp (s : State) : State :=
  let cube := maskOfPorts (((List.range 32).filter fun l => s.lpRole l == 1 && s.lpUp l).map s.lpDim)
  let s := s.setF .FAB_STATUS_CUBE_UP cube
  let s := s.setF .FAB_STATUS_UPLINK_UP (maskOfPorts ((s.uplinks.filter fun l => decide (6 ≤ l) && decide (l < 12)).map fun l => l - 6))
  let s := s.setF .FAB_STATUS_TWIN_UP (bit ((List.range 32).any fun l => s.lpRole l == 3 && s.lpUp l))
  let s := s.setF .TWIN_STATUS_FABRIC_PATH (bit (s.flag .TWIN_ID_PAIR_EN && !s.flag .FAB_STATUS_TWIN_UP))
  let s := { s with fab := { s.fab with linksUp := s.fab.linksUp || cube != 0 } }
  { s with fab := { s.fab with cubeDown := if cube != 0 || !s.fab.linksUp then none else some (s.fab.cubeDown.getD s.now) } }

/-- A member's state changed: the logical port is up with a member UP, and first comes up when no member is still training. -/
def State.refreshLport (s : State) (p : Nat) : State :=
  match s.lportOf p with
  | none => s
  | some l =>
    let was := s.lpUp l
    let some_ := s.upMembers l != []
    let up := some_ && (was || (s.lpMembers l).all fun q => s.portState q != 1)
    if up == was then s
    else
      let s := (s.setF .FAB_LPORT_UP (bit up) (inst l)).statusUp
      let s := if up then s else s.fabFault 4 1 p 0 0 0
      -- a change in service is told to every module (R391); TW is in no table (R383)
      if s.flag .FAB_STATUS_DISCOVERED && s.lpRole l != 3 then s.issueLink l up else s

/-- A port leaves service in a state: its flits in flight are lost, its messages move on (R373, R398). -/
def State.dropPort (s : State) (p state : Nat) : State :=
  let q := (s.port p).outq
  let s := s.modPort p PortFab.fresh
  (((s.setPortState p state).setF .FAB_PORT_STAT_LANES 0 (inst p)).refreshLport p).moveQueue p q

/-- A port goes DOWN and is logged (R370, R374). -/
def State.portLost (s : State) (p : Nat) : State := (s.dropPort p 0).fabFault 2 1 p 0 0 0

/-! ### Training, beacons, discovery (R374-R380) -/

/-- A port begins to train. -/
def State.startTraining (s : State) (p state : Nat) : State :=
  (s.modPort p PortFab.fresh).setPortState p state

/-- In service once every port is confirmed, MISWIRED or DOWN and a cube port or an uplink is up (R379); the tables are then installed. -/
def State.tryDiscover (s : State) : State :=
  let settled := (List.range 32).all fun p => s.portState p != 1 && s.portState p != 6
  if s.flag .FAB_STATUS_DISCOVERED || !settled || (s.getF .FAB_STATUS_CUBE_UP == 0 && s.getF .FAB_STATUS_UPLINK_UP == 0) then s
  else
    let s := s.setF .FAB_STATUS_DISCOVERED 1
    (s.writeTables (s.getF .FAB_STATUS_INJ_COPY)).setF .FAB_STATUS_ROUTED 1

/-- PORT_TRAIN (Table 13.4, R376): `lanes` is the mask of those that trained; steps 1 to 5 are done with all four or two adjacent ones. -/
def State.portTrain (s : State) (p lanes : Nat) (asym : Int) : State :=
  if s.portState p != 1 && s.portState p != 6 then s
  else if activeLanes lanes ≠ [] then
    let n := (activeLanes lanes).length
    let s := s.modPort p fun x => { x.fresh with trained := true, fails := 0, lane0 := (activeLanes lanes).headD 0, asym := asym }
    let s := s.setF .FAB_PORT_STAT_LANES n (inst p)
    if n = 2 then s.fabFault 3 1 p 0 0 0 else s
  else
    let n := (s.port p).fails + 1
    let s := s.modPort p fun x => { x with fails := if n < 3 then n else 0 }
    if n < 3 then s else (s.portLost p).tryDiscover

/-- A peer agrees with what the port's role requires (R379). -/
def State.peerAgrees (s : State) (p : Nat) (b : Beacon) : Bool :=
  match s.lportOf p with
  | none => false
  | some l =>
    match s.lpRole l with
    | 1 => !b.isSwitch && b.rack == s.rack && 2 * b.tray + b.slot == cubeN (s.lpDim l) s.coord && b.role == 1 && b.dim == s.lpDim l
    | 2 => b.isSwitch
    | 3 => !b.isSwitch && b.idValid && b.moduleId == s.getF .TWIN_ID_PEER
    | _ => false

/-- The beacon claims this module's identifier, or another serial than the peer confirmed on that coordinate before (R380). -/
def State.idConflict (s : State) (b : Beacon) : Bool :=
  !b.isSwitch && b.idValid && (b.moduleId == s.self || s.fab.serials.any fun x => x.1 == b.moduleId && x.2 != b.serial)

/-- Confirm a port's peer. -/
def State.confirmPort (s : State) (p : Nat) (b : Beacon) : State :=
  let s := s.modPort p fun x => { x with confirmed := true, peerSerial := b.serial }
  let s := { s with fab := { s.fab with serials := if b.isSwitch then s.fab.serials else SMap.put s.fab.serials b.moduleId b.serial } }
  let s := s.setF .FAB_PORT_STAT_PEER_ID (if b.isSwitch then b.switchId else b.moduleId) (inst p)
  let s := s.setF .FAB_PORT_STAT_PEER_PORT b.port (inst p)
  let s := s.setF .FAB_PORT_STAT_PEER_SWITCH (bit b.isSwitch) (inst p)
  let s := s.setF .FAB_PORT_STAT_LPORT ((s.lportOf p).getD 0) (inst p)
  let s := s.setPortState p (if s.getF .FAB_PORT_STAT_LANES (inst p) = 2 then 3 else 2)
  (s.refreshLport p).tryDiscover

/-- A port whose peer does not agree (R379). -/
def State.miswire (s : State) (p : Nat) (b : Beacon) : State :=
  let s := if s.portUp p then s.dropPort p 4 else s.setPortState p 4
  (s.fabFault 5 1 p b.moduleId 0 0).tryDiscover

/-- BEACON (R379, R380). -/
def State.beacon (s : State) (p : Nat) (b : Beacon) : State :=
  let x := s.port p
  if !x.trained || s.portState p == 0 || s.portState p == 5 || s.portState p == 4 || x.conflict then s
  else if s.board.excluded == some b.serial then (s.dropPort p 0).modPort p fun x => { x with conflict := true, peerSerial := b.serial }
  else if s.idConflict b then
    ((s.dropPort p 0).modPort p fun x => { x with conflict := true, peerSerial := b.serial }).fabFault 6 1 p b.moduleId 0 0
  else if x.confirmed then
    let same := s.getF .FAB_PORT_STAT_PEER_ID (inst p) == (if b.isSwitch then b.switchId else b.moduleId) % 2 ^ 15 &&
      s.flag .FAB_PORT_STAT_PEER_SWITCH (inst p) == b.isSwitch
    if same then s else s.miswire p b
  else if s.peerAgrees p b then s.confirmPort p b
  else s.miswire p b

/-- BEACON_SEND (R377, Table 13.5). -/
def State.beaconSend (s : State) (p : Nat) : State :=
  let x := s.port p
  let period := atLeast1 (s.getF .FAB_CTRL_BEACON_US) * 1000
  if !x.trained || s.portState p == 0 || s.portState p == 5 || decide (s.now < x.beaconAt + period) then s
  else
    let l := (s.lportOf p).getD 0
    let role := if 3 < s.lpRole l then 0 else s.lpRole l
    (s.modPort p fun x => { x with beaconAt := s.now }).queueLink p (linkMsg 2 (packBytes
      [(8, s.getF .IDENT_SERIAL_0_SERIAL_LO), (8, s.getF .IDENT_SERIAL_1_SERIAL_HI), (2, s.getF .FAB_ID_MODULE_ID + 2 ^ 15 * s.getF .FAB_ID_VALID), (2, s.rack),
        (1, s.getF .FAB_ID_TRAY), (1, s.getF .FAB_ID_SLOT), (1, p), (1, role + (if role = 1 then 16 * s.lpDim l else 0)), (4, 0)]))

/-- A port begins its retrain: it trains again; LINK_RETRAIN is logged, RETRAINS counts, saturating. -/
def State.retrainNow (s : State) (p : Nat) : State :=
  let rate := (s.port p).uncorr
  let s := if s.portUp p then s.dropPort p 6 else s
  let s := (s.startTraining p 6).modPort p fun x => { x with uncorr := 0 }
  let s := s.setF .FAB_PORT_STAT_RETRAINS (min 65535 (s.getF .FAB_PORT_STAT_RETRAINS (inst p) + 1)) (inst p)
  let s := (s.bump .LOG_CYCLES_RETRAINS).logRec 6 (packBytes [(1, 0x80 + p), (1, 0), (2, rate)])
  s.fabFault 1 1 p 0 0 0

/-- A port is retrained (R375): it leaves member selection and its queued messages leave first, for at most 1 µs. -/
def State.retrain (s : State) (p : Nat) : State :=
  let x := s.port p
  if s.portState p == 5 || s.portState p == 1 || s.portState p == 6 then s
  else if !s.portUp p || (x.outq = [] && x.unacked = []) then s.retrainNow p
  else s.modPort p fun x => { x with drain := some (x.drain.getD s.now) }

/-- Ports that drain for a retrain: once their messages have left, or after 1 µs, they train. -/
def State.drainNs (s : State) : State :=
  (s.fab.ports.filter fun x => x.2.drain.any fun t => (x.2.outq = [] && x.2.unacked = []) || decide (t + 1000 ≤ s.now)).foldl (fun s x => s.retrainNow x.1) s

/-- RETRAIN (W1S) by cox firmware. -/
def State.retrainWrite (s : State) (m : Master) (p v : Nat) : State :=
  s.fieldWrite m Reg.FAB_PORT_CTRL fun s => if v % 2 = 1 then s.retrain p else s

/-- DISABLE by cox firmware: the port is held DISABLED, or trains again. -/
def State.disableWrite (s : State) (m : Master) (p v : Nat) : State :=
  s.fieldWrite m Reg.FAB_PORT_CTRL fun s =>
    let s := s.setF .FAB_PORT_CTRL_DISABLE v (inst p)
    if v % 2 = 1 then (if s.portState p == 5 then s else s.dropPort p 5) else if s.portState p == 5 then s.startTraining p 1 else s

/-- LINK_RETRAIN: more than 16 uncorrectable blocks in 1 ms. -/
def State.linkRetrain (s : State) (p : Nat) : State :=
  let x := s.port p
  if s.portUp p && decide (16 < x.uncorr) && decide (s.now ≤ x.uncorrSince + 1000000) then s.retrain p else s

/-- LINK_LOSS (R370, R391): block lock lost for 1 µs, or eight replays in a row failed. -/
def State.linkLoss (s : State) (p : Nat) (lock : Bool) : State :=
  if s.portUp p && (lock || decide (8 ≤ (s.port p).replays)) then s.portLost p else s

/-- TRANSMITTER_FFE_STEP (R375): over 100 µs a lane's corrected symbols average more than 4 a block. -/
def State.ffeStep (s : State) (p lane corrected : Nat) : State :=
  if !s.portUp p then s
  else
    let blocks : Nat := if s.portState p == 3 then 10000 else 20000
    let s := s.setF .FAB_PORT_FEC_CORR_SYMBOLS (s.getF .FAB_PORT_FEC_CORR_SYMBOLS (inst p) + corrected) (inst p)
    if 4 * blocks < corrected then s.emit (.port p "FFE_STEP" [lane]) else s

/-! ### The link layer (R370, R392) -/

/-- LINK (R370): acknowledgements, a NAK, credit returns. The flits after the last good one are sent again. -/
def State.linkFlit (s : State) (p ack : Nat) (nak : Bool) (credits : List Nat) : State :=
  if !s.portUp p then s
  else
    let x := s.port p
    let left := ackTo x.unacked ack
    let used := (List.range 8).map fun v => x.used.getD v 0 - credits.getD v 0
    let moved := left.length != x.unacked.length
    let s := s.setPort p { x with
      unacked := left, used := used, replay := if nak then left else x.replay.filter left.contains
      replays := if nak then (if moved then 1 else x.replays + 1) else if moved then 0 else x.replays }
    if !nak then s
    else
      let s := (s.bump .FAB_PORT_FEC_REPLAYS 1 (inst p)).fabFault 0 1 p 0 0 0
      if (s.port p).replays ≥ 8 then s.portLost p else s

/-- FLIT_DAMAGED (R366, R370): a block is decoded, the symbols it corrects are counted; one it cannot correct, or a flit whose HCRC fails, has flits from the first
damaged one on discarded and NAK sent with the last good sequence. -/
def State.flitDamaged (s : State) (p : Nat) (d : Damage) : State :=
  if !s.portUp p then s
  else match d with
    | .flit bytes => if hcrcOk bytes then s else s.sendLink p true
    | .block symbols => match rsDecode (symbols.drop 1) with
      | some r => s.setF .FAB_PORT_FEC_CORR_SYMBOLS (s.getF .FAB_PORT_FEC_CORR_SYMBOLS (inst p) + r.1) (inst p)
      | none =>
        let s := s.setF .FAB_PORT_FEC_UNCORR_BLOCKS (s.getF .FAB_PORT_FEC_UNCORR_BLOCKS (inst p) + 1) (inst p)
        let s := s.modPort p fun x =>
          if x.uncorr = 0 || decide (x.uncorrSince + 1000000 < s.now) then { x with uncorr := 1, uncorrSince := s.now } else { x with uncorr := x.uncorr + 1 }
        (s.emit (.port p "DISCARD" (blockFlits (symbols.headD 0)))).sendLink p true

/-! ### Swaps (R388, R389) -/

/-- ROUTE_SWAP: at AT injection flips to the new copy; memberships that came with it take effect; held messages are looked up again. -/
def State.routeSwap (s : State) : State :=
  let at_ := s.getF .FAB_RT_SWAP_AT
  if at_ = 0 || decide (s.now < at_) then s
  else
    let s := s.setF .FAB_STATUS_INJ_COPY (1 - s.getF .FAB_STATUS_INJ_COPY)
    let s := s.bump .FAB_SWAPS_COUNT
    let s := s.setF .FAB_RT_SWAP_AT 0
    let ms := s.fab.members
    let s := { s with fab := { s.fab with oldUntil := some (at_ + 5000), escLogged := false, members := [] } }
    let s := ms.foldl (fun s x =>
      let s := { s with slices := s.slices.set [] x.1 x.2.1 }
      let s := s.setF .FAB_SLICE_MEMBER (bit (x.2.1.contains s.self)) (inst x.1)
      s.setF .FAB_SLICE_TABLE x.2.2 (inst x.1)) s
    s.retryHeld true

/-- ROUTE_RECLAIM: at AT + 5 µs the old copy is reclaimed; a swap that waited is then prepared. -/
def State.routeReclaim (s : State) : State :=
  match s.fab.oldUntil with
  | none => s
  | some t =>
    if s.now < t then s
    else
      let s := { s with fab := { s.fab with oldUntil := none } }
      let s := s.setF .FAB_STATUS_SWAP_PEND 0
      match s.fab.later with
      | [] => s
      | a :: r => { s with fab := { s.fab with later := r } }.planSwap (max a s.now)

/-! ### Memory messages (R368, R369, R395) -/

/-- What a message meets at its destination: a fault bit when it is discarded there. -/
def State.arrives (s : State) (h : MemHdr) (trunc : Bool) : Option Nat :=
  match s.stampFault h.birth h.hops with
  | some b => some b
  | none => if trunc then some 9 else if s.inSlice h.slice then none else some 11

def MemHdr.msg (h : MemHdr) (kind self : Nat) : FabMsg :=
  { kind := kind, cls := 1, esc := false, dst := self, src := h.src, slice := h.slice, rgen := 0, hops := h.hops, birth := h.birth, ctx := h.ctx,
    tag := h.tag, flits := 0, trunc := false }

/-- A reservation names a handle and the address (R29): a request's reserved pages while its work item is out and of its job, the pages that a
copy for it is bringing (the hit pages, or all of them where it resumes or leaves), a held request's pages, a mirror's extents, the extent of a
pending sediment entry for the deposit it awaits. -/
def State.reservedFor (s : State) (h : MemHdr) : Bool :=
  let off := h.addr % 2 ^ 45
  let frame := off / 65536
  let within := fun (c : Nat) (vas : List Nat) (v : Version) =>
    (vas.flatMap fun va => v.kvVas va).any fun va => match s.findLeaf c va with
      | some (_, p) => p.addr / 2 ^ 45 == s.self && decide (p.addr % 2 ^ 45 ≤ off) && decide (off + h.len ≤ p.addr % 2 ^ 45 + pageBytes p.big)
      | none => false
  let mine := match s.findHandle h.handle with
    | none => false
    | some i =>
      let e := s.entry i
      let r := s.req i
      let v := s.version e.b.version
      let back := e.a.copyOut || e.a.state == .resuming
      (e.a.workOut && e.b.job == h.job && within e.a.ctx r.extents v) ||
        ((e.a.copyIn || e.a.copyOut) && within e.a.ctx (if back then r.extents else r.extents.take r.hitCount) v)
  let held := (s.twin.holds ++ s.twin.mirrorHolds).any fun (x : Hold) => x.handle == h.handle && x.pages.contains frame
  let mirror := s.twin.mirrors.any fun m => handleOf m.1 m.2.entry.a.gen == h.handle &&
    m.2.extents.any fun a => decide (a ≤ off) && decide (off + h.len ≤ a + m.2.size)
  let stored := s.sed.entries.any fun (x : SedEnt) => x.state == 1 && x.owner == h.src && x.handle == h.handle && decide (x.addr ≤ off) && decide (off + h.len ≤ x.addr + x.extent)
  mine || held || mirror || stored

/-- RD_REQ (R197, R199, R368): the bytes asked for, or REFUSED with every line poisoned. -/
def State.rdReq (s : State) (h : MemHdr) : State :=
  match s.arrives h false with
  | some b => s.discard (h.msg 5 s.self) b
  | none =>
    let off := h.addr % 2 ^ 45
    let why := if h.handle != 0 then (if s.reservedFor h then none else some 6) else s.tagCheck h.ctx off h.gen false
    let why := if h.addr / 2 ^ 45 != s.self then some 8 else why
    match why with
    | some b =>
      let s := if h.handle != 0 then s.notice 0x08 nStaleWrite h.addr else s.tiersFault b 3 (some h.ctx) h.addr h.gen
      s.emit (.message "RD_RSP" h.src [h.tag, 1, h.len])
    | none =>
      let s := s.sampleLines off h.len h.src false
      let lines := (List.range ((off % 64 + h.len + 63) / 64)).map fun i => bit (s.poisonAt (off / 64 * 64 + 64 * i) || s.portDead off)
      s.emit (.message "RD_RSP" h.src ([h.tag, 0, h.len] ++ lines ++ (s.bytesAt off h.len).map (·.toNat)))

/-- WR_REQ (R29, R197, R368): applied whole once its last flit is there; `poison` marks the lines touched. -/
def State.wrReq (s : State) (h : MemHdr) (trunc : Bool) (data : List Byte) (poison : List Bool) : State :=
  match s.arrives h trunc with
  | some b => s.discard (h.msg 6 s.self) b
  | none =>
    let off := h.addr % 2 ^ 45
    let bs := data.take h.len
    if h.handle != 0 && !s.reservedFor h then (s.notice 0x08 nStaleWrite h.addr).emit (.message "WR_ACK" h.src [h.tag, 1, 0])
    else
      let why := if h.addr / 2 ^ 45 != s.self then some 8 else if h.handle != 0 then none else s.tagCheck h.ctx off h.gen true
      match why with
      | some b => (s.tiersFault b 3 (some h.ctx) h.addr h.gen).emit (.message "WR_ACK" h.src [h.tag, 1, 0])
      | none =>
        if s.portDead off then s.emit (.message "WR_ACK" h.src [h.tag, 0, bs.length])
        else
        let s := (s.putBytes off bs).sampleLines off bs.length h.src true
        let s := (List.range ((off % 64 + bs.length + 63) / 64)).foldl (fun s i =>
          if poison.getD i false then s.putLine (off / 64 * 64 + 64 * i) (s.lineAt (off / 64 * 64 + 64 * i)) true else s) s
        s.emit (.message "WR_ACK" h.src [h.tag, 0, bs.length])

/-- RD_RSP (R368): the request with the tag lands its lines; a REFUSED read lands poisoned. -/
def State.rdRsp (s : State) (tag : Nat) (refused : Bool) (lines : List (Line × Bool)) : State :=
  match s.streams.insts.findSome? fun (x : StreamInst) =>
      (x.reqs.find? fun (r : StreamReq) => r.tag == tag && !r.landed).map fun r => (x.id, r.elem, r.first) with
  | none => s
  | some (id, e, f) => s.streamComplete id e f (if refused then [] else lines)

/-- WR_ACK (R368): the write with the tag waits no more. -/
def State.wrAck (s : State) (tag : Nat) : State :=
  { s with fab := { s.fab with writes := s.fab.writes.filter fun (w : RemoteWrite) => w.tag != tag } }

/-- BEAT (R180): up to three beats of a spread circuit land at the destination gateway and leave by its group; credits returned serve the
record's reverse direction. -/
def State.beatMsg (s : State) (h : MemHdr) (trunc : Bool) (beats : List Beat) (credits : Nat) : State :=
  match s.arrives h trunc with
  | some b => s.discard (h.msg 9 s.self) b
  | none =>
    s.segmentMsg h.ctx h.tag (beats.take 3) credits

/-! ### Fabric time (R399, R400) -/

/-- The module counts as its own root: ROOT_OK, a locked tray reference, and no lower root heard. -/
def State.rootNow (s : State) (locked : Bool) : Bool :=
  s.flag .FAB_CTRL_ROOT_OK && locked && !(s.fab.times.any fun (t : TimePeer) => decide (t.root < s.self))

/-- The parent: the peer on an UP port with the lowest depth, ties to the lower root, then to the lower logical port. -/
def State.bestPeer (s : State) : Option TimePeer :=
  let better := fun (a b : TimePeer) => decide (a.depth < b.depth) || (a.depth == b.depth && (decide (a.root < b.root) || (a.root == b.root && decide (a.lport < b.lport))))
  pickBest better (s.fab.times.filter fun (t : TimePeer) => s.lpUp t.lport)

/-- FAB_TIME_STAT.SYNC is set; the first since input power returned makes the calendar clock valid (R564). -/
def State.synced (s : State) : State :=
  let s := s.setF .FAB_TIME_STAT_SYNC 1
  if s.log.calBase.isSome then s else { s.setF .LOG_STATUS_CAL_VALID 1 with log := { s.log with calBase := some s.now } }

/-- The count moves toward a reference `ns` ahead: it slews, but steps forward once before device-ready (R399). -/
def State.adjust (s : State) (ready : Bool) (ns : Int) : State :=
  if ready || s.fab.stepped then { s with fab := { s.fab with slew := ns } }
  else { s with now := (max (s.now : Int) ((s.now : Int) + ns)).toNat, fab := { s.fab with stepped := true, slew := 0 } }

/-- Take the parent and what follows from it: DEPTH, PARENT, TIME_ROOT. -/
def State.chooseParent (s : State) (locked : Bool) : State :=
  if s.rootNow locked then
    let s := (s.setF .FAB_STATUS_TIME_ROOT 1).setF .FAB_TIME_STAT_DEPTH 0
    { s with fab := { s.fab with parentLost := none } }.synced
  else match s.bestPeer with
    | none => { s.setF .FAB_STATUS_TIME_ROOT 0 with fab := { s.fab with parentLost := some (s.fab.parentLost.getD s.now) } }
    | some t =>
      let s := (s.setF .FAB_STATUS_TIME_ROOT 0).setF .FAB_TIME_STAT_DEPTH (t.depth + 1)
      { s.setF .FAB_TIME_STAT_PARENT t.lport with fab := { s.fab with parentLost := none } }

/-- TIME (R399): stamps of a TIME flit on a port; the offset from the parent sets how far the count must slew, at no more than 100 ppm of the
10 µs to the next exchange. Before device-ready the count steps once. -/
def State.timeFlit (s : State) (p tTx tEcho : Nat) (corr : Int) (depth root : Nat) (locked : Bool) : State :=
  match s.lportOf p with
  | none => s
  | some l =>
    if !s.portUp p then s
    else
      let t : TimePeer := { lport := l, depth := depth, root := root, heard := s.now }
      let s := { s with fab := { s.fab with times := t :: s.fab.times.filter fun (x : TimePeer) => x.lport != l } }
      let s := (s.modPort p fun x => { x with echo := (s.now + 2 ^ 64 - tTx % 2 ^ 64) % 2 ^ 64 }).chooseParent locked
      if s.flag .FAB_STATUS_TIME_ROOT || s.getF .FAB_TIME_STAT_PARENT != l then s
      else
        -- forward and reverse differences; half their difference is the peer's lead
        let fwd : Int := (s.now : Int) - (tTx : Int)
        let back : Int := if tEcho % 2 ^ 64 < 2 ^ 63 then (tEcho % 2 ^ 64 : Nat) else (tEcho % 2 ^ 64 : Nat) - 2 ^ 64
        let lead : Int := (back * 1000 - fwd * 1000 + corr - (s.port p).asym) / 2
        let s := s.setF .FAB_TIME_STAT_OFFSET_PS ((lead % 2 ^ 32).toNat)
        let ready := s.getF .HOSTVI_DEV_STATUS_READY == 1
        let ns : Int := lead / 1000
        let s := s.adjust ready ns
        (s.setF .FAB_TIME_STAT_HOLDOVER 0).synced

/-- TIME_SEND: every 10 µs on each UP port. -/
def State.timeSend (s : State) (p : Nat) : State :=
  if !s.portUp p || decide (s.now < (s.port p).timeAt + 10000) then s
  else (s.modPort p fun x => { x with timeAt := s.now }).queueLink p
    (linkMsg 3 (packBytes [(8, s.now), (8, (s.port p).echo), (8, 0), (2, s.getF .FAB_TIME_STAT_DEPTH), (2, s.self)]))

/-- PARENT_LOSS (R400): no TIME flit from the parent for 100 µs. -/
def State.parentLoss (s : State) (locked : Bool) : State :=
  let p := s.getF .FAB_TIME_STAT_PARENT
  match s.fab.times.find? fun (t : TimePeer) => t.lport == p with
  | none => s
  | some t =>
    if s.flag .FAB_STATUS_TIME_ROOT || decide (s.now < t.heard + 100000) then s
    else { s with fab := { s.fab with times := s.fab.times.filter fun (x : TimePeer) => x.lport != p } }.chooseParent locked

/-- TIME_HOLDOVER (R400): no parent for 10 ms. -/
def State.holdover (s : State) : State :=
  match s.fab.parentLost with
  | none => s
  | some t =>
    if decide (s.now < t + 10000000) || s.flag .FAB_TIME_STAT_HOLDOVER then s
    else ((s.setF .FAB_TIME_STAT_SYNC 0).setF .FAB_TIME_STAT_HOLDOVER 1).fabFault 13 1 0 0 0 0

/-- A tick of fabric time: 1 ns; while a slew is due, one tick in 10 us makes 2 ns or none, 100 ppm; never backwards (R399). -/
def State.tickNs (s : State) : State :=
  if s.fab.slew = 0 || decide (s.now < s.fab.slewAt + 10000) then { s with now := s.now + 1 }
  else if 0 < s.fab.slew then { s with now := s.now + 2, fab := { s.fab with slew := s.fab.slew - 1, slewAt := s.now } }
  else { s with fab := { s.fab with slew := s.fab.slew + 1, slewAt := s.now } }

/-- A tick: the time is charged to the units' contexts (R169); bridges and ports carry what a nanosecond carries; a second that ends with the power stages on counts in POWER_ON_S (R565). -/
def State.tick (s : State) : State :=
  let t := ((s.chargeNs (s.tickNs.now - s.now)).tickNs).routerNs.drainNs
  if t.now / 1000000000 = s.now / 1000000000 then t else if s.pwr.off then t else t.bump .LOG_POWER_ON_S_S

/-! ### Meanings -/

def execLink (port ack : Nat) (nak : Bool) (credits : List Nat) (s : State) := done ((s.linkFlit (port % 32) ack nak credits).retryHeld false)
def execFlitDamaged (port : Nat) (what : Damage) (s : State) := done (s.flitDamaged (port % 32) what)
def execRdReq (h : MemHdr) (s : State) := done (s.rdReq h)
def execWrReq (h : MemHdr) (trunc : Bool) (data : List Byte) (poison : List Bool) (s : State) := done (s.wrReq h trunc data poison)
def execRdRsp (tag : Nat) (refused : Bool) (lines : List (Line × Bool)) (s : State) := done (s.rdRsp tag refused lines)
def execBeat (h : MemHdr) (trunc : Bool) (beats : List Beat) (credits : Nat) (s : State) := done (s.beatMsg h trunc beats credits)
def execMessageForward (m : FabMsg) (e : Ingress) (s : State) := done (s.forward m e.norm)
def execHeldExpiry (s : State) := done s.heldExpiry
def execTransitFault (slice ctx cause : Nat) (s : State) := done (s.transitFault slice ctx cause)
def execFlitLoss (slice ctx : Nat) (s : State) := done (s.flitLoss slice ctx)
def execBeaconSend (port : Nat) (s : State) := done (s.beaconSend (port % 32))
def execBeacon (port : Nat) (b : Beacon) (s : State) := done (s.beacon (port % 32) b)
def execPortTrain (port lanes : Nat) (asym : Int) (s : State) := done (s.portTrain (port % 32) lanes asym)
def execRetrain (m : Master) (port v : Nat) (s : State) := done (s.retrainWrite m (port % 32) v)
def execDisable (m : Master) (port v : Nat) (s : State) := done (s.disableWrite m (port % 32) v)
def execLinkRetrain (port : Nat) (s : State) := done (s.linkRetrain (port % 32))
def execLinkLoss (port : Nat) (lock : Bool) (s : State) := done (s.linkLoss (port % 32) lock)
def execTransmitterFfeStep (port lane corrected : Nat) (s : State) := done (s.ffeStep (port % 32) lane corrected)
def execLinkState (origin seq : Nat) (x : LinkChange) (s : State) := done (s.linkState origin seq x)
def execRouteReclaim (s : State) := done s.routeReclaim
def execTime (port tTx tEcho : Nat) (corr : Int) (depth root : Nat) (s : State) :=
  done (s.timeFlit (port % 32) tTx tEcho corr depth root (s.flag .REF_STAT_PPS_LOCK))
def execTimeSend (port : Nat) (s : State) := done (s.timeSend (port % 32))
def execParentLoss (s : State) := done (s.parentLoss (s.flag .REF_STAT_PPS_LOCK))
def execTimeHoldover (s : State) := done s.holdover

end Sys2Proof.Machine
end

