-- ==== Sys2Proof/Machine/Collective.lean ====
section
/-! DEFINITION. Collectives in fixed order (chapter 14): descriptors, scatter under release, the fold in ascending rank, gather under join,
completion, lost members. -/

namespace Sys2Proof.Machine

/-! ### Faults and formats -/

def collRegs : FaultRegs := ⟨0x0B, .COLL_FAULT_FLAGS, Reg.COLL_FAULT_INFO⟩

/-- A collective fault (Table 14.8) on a seat. -/
def State.collFault (s : State) (seat b sev c collId rank module : Nat) : State :=
  s.fault collRegs
    { block := 0x0B, fault := b, sev := sev, scope := if sev = 3 then .context c else .none, ctx := some c, whereKind := 2, whereIs := seat,
      info := packBits [(16, collId), (8, c), (8, rank), (15, module)] } (seatOff seat)

/-- Bytes of an element of a format code (Table 14.3). -/
def collBytes (code : Nat) : Nat := if code = 0 then 4 else if code = 1 then 2 else if code = 9 then 20 else 16
/-- The formats a collective takes. -/
def collFmt (code : Nat) : Bool := code == 0 || code == 1 || code == 9 || code == 15

/-- The pairings of Table 14.3. -/
def collPair (op redop dtype out : Nat) : Bool :=
  match op with
  | 2 | 4 => redop == 0 && collFmt dtype && out == dtype
  | 0 | 1 | 3 =>
    if decide (dtype ≤ 1) then decide (redop ≤ 2) && decide (out ≤ 1)
    else if dtype = 9 then redop == 0 && (out == 9 || out == 0)
    else dtype == 15 && redop == 3 && out == 15
  | _ => false

/-- A reducing operation. -/
def CollDesc.reduces (d : CollDesc) : Bool := d.op == 0 || d.op == 1 || d.op == 3
/-- Chunk c: its first element and length (R411). -/
def CollDesc.chunkAt (d : CollDesc) (c : Nat) : Nat := c * d.count / d.n
def CollDesc.chunkLen (d : CollDesc) (c : Nat) : Nat := d.chunkAt (c + 1) - d.chunkAt c
/-- Bytes and elements of a segment (R419); segments of a chunk. -/
def CollDesc.seg (d : CollDesc) : Nat := d.segKib * 1024
def CollDesc.segElems (d : CollDesc) : Nat := d.seg / collBytes d.dtype
def CollDesc.segs (d : CollDesc) (c : Nat) : Nat := if d.reduces then (d.chunkLen c + d.segElems - 1) / d.segElems else 0
/-- Elements of segment j of a chunk. -/
def CollDesc.segLen (d : CollDesc) (c j : Nat) : Nat := min d.segElems (d.chunkLen c - j * d.segElems)
def CollDesc.member (d : CollDesc) (r : Nat) : Member := d.members.getD r default
/-- Places in rank r's landing area (R419). -/
def CollDesc.scatHdrVa (d : CollDesc) (r bank q : Nat) : Nat := (d.member r).land + (bank * d.n + q) * 64
def CollDesc.gathHdrVa (d : CollDesc) (r bank q : Nat) : Nat := (d.member r).land + 128 * d.n + (bank * d.n + q) * 64
def CollDesc.slotVa (d : CollDesc) (r bank q : Nat) : Nat := (d.member r).land + 256 * d.n + (bank * d.n + q) * d.seg
def CollDesc.landBytes (d : CollDesc) : Nat := 256 * d.n + 2 * d.n * d.seg
/-- Bytes of rank r's result area that the operation writes (R411). -/
def CollDesc.dstBytes (d : CollDesc) (r : Nat) : Nat :=
  match d.op with
  | 0 => d.count * collBytes d.outFmt
  | 1 => d.chunkLen r * collBytes d.outFmt
  | 2 => d.n * d.count * collBytes d.outFmt
  | 3 => if r = d.root then d.count * collBytes d.outFmt else 0
  | _ => d.count * collBytes d.outFmt

/-! ### The descriptor (R409) -/

/-- A member entry from its 32 bytes, none with a reserved field set or an address out of line. -/
def memberOf (w : Nat) : Option Member :=
  if natBit w 31 || natBits w 32 32 != 0 || natBits w 120 8 != 0 || natBits w 184 72 != 0 || natBits w 64 12 != 0 || natBits w 128 6 != 0 then none
  else some { module := natBits w 0 15, altValid := natBit w 15, alt := natBits w 16 15, land := natBits w 64 56, dst := natBits w 128 56 }

/-- A descriptor's fields from its 128 bytes, without its members; none when one is invalid. -/
def collHead (w : Nat) : Option CollDesc :=
  let f := fun (lo len : Nat) => natBits w lo len
  let ok := collPair (f 0 4) (f 4 4) (f 8 4) (f 12 4) && !natBit w 23 && f 41 7 == 0 && f 24 9 != 0 && decide (f 24 9 ≤ 256) &&
    (if f 0 4 == 3 || f 0 4 == 4 then decide (f 33 8 < f 24 9) else f 33 8 == 0) && f 64 32 != 0 && decide (f 64 32 ≤ 2 ^ 28) &&
    f 96 16 % 64 == 0 && decide (64 ≤ f 96 16) && decide (f 96 16 ≤ 4096) && f 112 16 == 0 && f 184 8 == 0 && f 248 8 == 0 && f 312 8 == 0 &&
    f 376 8 == 0 && f 384 640 == 0 && f 128 6 == 0 && f 192 6 == 0 && f 256 3 == 0
  if ok then
    some { op := f 0 4, redop := f 4 4, dtype := f 8 4, outFmt := f 12 4, narrow := f 16 2, silentEn := natBit w 18, replayOk := natBit w 19,
           seat := f 20 3, n := f 24 9, root := f 33 8, collId := f 48 16, count := f 64 32, segKib := f 96 16, src := f 128 56, list := f 192 56,
           silentAddr := f 256 56, needNs := f 320 32, timeoutUs := f 352 24, members := [], crc := 0, rank := 0 }
  else none

/-- A clean number in a context's memory. -/
def State.cleanNum (s : State) (c va n : Nat) : Option Nat :=
  match s.readVa c va n with
  | some (bs, false) => some (leNat bs)
  | _ => none

/-- Read and check a descriptor and its list (R406, R409). -/
def State.collDesc (s : State) (c va : Nat) : Option CollDesc :=
  match (s.cleanNum c va 128).bind collHead with
  | none => none
  | some d =>
    match s.cleanNum c d.list (32 * d.n) with
    | none => none
    | some l =>
      match (List.range d.n).mapM fun r => memberOf (natBits l (256 * r) 256) with
      | none => none
      | some ms =>
        let mods := ms.map (·.module)
        let crc := crc32c ((List.range (32 * d.n)).map fun i => natBits l (8 * i) 8)
        let d := { d with members := ms, crc := crc, rank := mods.findIdx fun m => m == s.self }
        let me := d.member d.rank
        let slice := s.sliceOf (s.ctx c).slice
        let src := !(d.op == 4 && d.rank != d.root)
        if mods.count s.self == 1 && mods.eraseDups.length == d.n && (d.n == 1 || mods.all slice.contains) &&
            (!src || s.mapped c d.src (d.count * collBytes d.dtype) false) && s.mapped c me.land d.landBytes true &&
            (d.dstBytes d.rank == 0 || s.mapped c me.dst (d.dstBytes d.rank) true) then some d
        else none

/-! ### Writing runs of bytes -/

/-- Write bytes at a virtual address line by line, each line poisoned where `poison` says so of it (R423). -/
def State.writeRun (s : State) (c va : Nat) (bs : List Byte) (poison : Nat → Bool) : State :=
  (List.range ((va % 64 + bs.length + 63) / 64)).foldl (fun s i =>
    let lo := if i = 0 then 0 else i * 64 - va % 64
    let hi := (i + 1) * 64 - va % 64
    s.lineWrite { ctx := c, va := va + lo, data := (bs.take hi).drop lo, poison := poison i, tag := none }) s

/-- Copy bytes of the context to another of its addresses with the poison of the lines read. -/
def State.copyRun (s : State) (c src dst n : Nat) : State :=
  match s.readVa c src n with
  | none => s
  | some (bs, _) => s.writeRun c dst bs fun i => ((s.readVa c (src + 64 * i) 1).map (·.2)).getD false

/-! ### Instances -/

def State.collKey (s : State) (c id : Nat) : Option CollKey := s.coll.keys.find? fun (k : CollKey) => k.ctx == c && k.desc.key == id
def State.collInst (s : State) (c id : Nat) : Option CollInst := s.coll.insts.find? fun (x : CollInst) => x.ctx == c && x.desc.key == id
def State.setColl (s : State) (x : CollInst) : State :=
  { s with coll := { s.coll with insts := s.coll.insts.map fun (y : CollInst) => if y.ctx == x.ctx && y.desc.key == x.desc.key then x else y } }
def State.setKey (s : State) (k : CollKey) : State :=
  { s with coll := { s.coll with keys := k :: s.coll.keys.filter fun (y : CollKey) => !(y.ctx == k.ctx && y.desc.key == k.desc.key) } }

/-- A count kept by rank. -/
def cnt (l : List (Nat × Nat)) (r : Nat) : Nat := SMap.get 0 l r

/-- The header of a frame of an instance. -/
def CollInst.hdr (x : CollInst) (phase : Nat) (zero : Bool) (segment dst first elems : Nat) : CollHdr :=
  let d := x.desc
  { magic := 0x4C4C4F43, collId := d.collId, phase := phase, zero := zero, ctx := x.ctx, seq := x.seq, segment := segment, src := d.rank, dst := dst,
    crc := d.crc, count := d.count, types := d.dtype + 16 * d.redop, ops := d.op + 16 * d.outFmt, n := d.n, first := first,
    elems := if zero then 0 else elems }

/-- A frame header's bytes, its CRC last. -/
def CollHdr.bytes (h : CollHdr) : List Nat :=
  let b := packBytes [(4, h.magic), (2, h.collId), (1, h.phase + (if h.zero then 4 else 0)), (1, h.ctx), (4, h.seq), (4, h.segment), (2, h.src),
    (2, h.dst), (4, h.crc), (4, h.count), (1, h.types), (1, h.ops), (2, h.n), (4, h.first), (4, h.elems), (20, 0)]
  b ++ packBytes [(4, crc32c b)]

/-- The header in 64 bytes, when its CRC holds. -/
def hdrIn (bs : List Nat) : Option CollHdr :=
  let f := fun (byte len : Nat) => natOfBytes ((bs.drop byte).take len)
  if crc32c (bs.take 60) == f 60 4 then
    some { magic := f 0 4, collId := f 4 2, phase := natBits (f 6 1) 0 2, zero := natBit (f 6 1) 2, ctx := f 7 1, seq := f 8 4, segment := f 12 4,
           src := natBits (f 16 2) 0 9, dst := natBits (f 18 2) 0 9, crc := f 20 4, count := f 24 4, types := f 28 1, ops := f 29 1,
           n := natBits (f 30 2) 0 9, first := f 32 4, elems := f 36 4 }
  else none

/-- R420's checks against the key's own descriptor and its current or next SEQ. -/
def CollHdr.okFor (h : CollHdr) (k : CollKey) (cur : Nat) : Bool :=
  let d := k.desc
  h.magic == 0x4C4C4F43 && h.ctx == k.ctx && h.crc == d.crc && h.count == d.count && h.types == d.dtype + 16 * d.redop &&
    h.ops == d.op + 16 * d.outFmt && h.n == d.n && (h.seq == cur || h.seq == cur + 1) && h.dst == d.rank && decide (h.src < d.n)

/-- Headers whose data are acknowledged leave (R418). -/
def State.sendHeaders (s : State) (c id : Nat) : State :=
  match s.collInst c id with
  | none => s
  | some x =>
    let ready := fun (y : CollSend) => !s.fab.writes.any fun (w : RemoteWrite) => w.ctx == c && decide (y.lo ≤ w.va) && decide (w.va < y.hi)
    let go := x.sends.filter ready
    let s := s.setColl { x with sends := x.sends.filter fun y => !ready y }
    go.foldl (fun s (y : CollSend) => s.emit (.message "COLL_FRAME" y.dest (y.va :: y.hdr.bytes))) s

/-- Send the next segment to an owner, if its bank is free (R421). -/
def State.sendSeg (s : State) (c id owner : Nat) : State :=
  match s.collInst c id, s.collKey c id with
  | some x, some k =>
    let d := x.desc
    let j := cnt x.sent owner
    if d.segs owner ≤ j || decide (cnt x.released owner + 2 ≤ j) then s
    else
      let n := cnt k.sent owner + j
      let len := d.segLen owner j
      let first := d.chunkAt owner + j * d.segElems
      let slot := d.slotVa owner (n % 2) d.rank
      let bytes := len * collBytes d.dtype
      let s := if x.silent then s.bump .COLL_ZERO_FRAMES_COUNT 1 (seatOff d.seat)
        else (s.copyRun c (d.src + first * collBytes d.dtype) slot bytes).bump .COLL_TX_BYTES_COUNT bytes (seatOff d.seat)
      let h := x.hdr 0 x.silent n owner first len
      let y : CollSend := { dest := (d.member owner).module, va := d.scatHdrVa owner (n % 2) d.rank, hdr := h, lo := slot, hi := slot + bytes }
      s.setColl { x with sent := SMap.put x.sent owner (j + 1), sends := x.sends ++ [y] }
  | _, _ => s

/-- One step of the fold on bits (R412): the first is copied (BF16 widened). -/
def collOp (d : CollDesc) (acc : Option Nat) (x : Nat) : Nat :=
  if d.dtype ≤ 1 then
    let v := widen d.dtype x
    match acc with
    | none => v
    | some a => if d.redop = 0 then (f32Add a v).bits else if d.redop = 1 then (f32Max a v).bits else (f32Min a v).bits
  else match acc with
    | none => x
    | some a => if d.dtype = 9 then (wideAdd a x).bits
      else (statMergeRead (StatRec.ofBits a) (StatRec.ofBits x)).r.toBits

/-- The identity where every rank is silent (R413), and finish. -/
def collFinish (d : CollDesc) (acc : Option Nat) : Nat :=
  if d.dtype ≤ 1 then
    let a := acc.getD (if d.redop = 0 then 0 else if d.redop = 1 then nInf else pInf)
    (narrowTo d.outFmt d.narrow a).bits
  else if d.dtype = 9 then
    let a := acc.getD 0
    if d.outFmt = 9 then (if wideSpecial a = 3 then packWide 0 0 3 else a) else (wideToF32 a).bits
  else acc.getD 0

/-- A rank's part of the elements up to `upto` of the own chunk is folded. -/
def CollInst.foldedTo (x : CollInst) (r upto : Nat) : Bool := decide (upto ≤ min (cnt x.folded r * x.desc.segElems) (x.desc.chunkLen x.desc.rank))

/-- Fold segment j of a rank whose data stands at an address into the accumulators. -/
def State.foldAt (s : State) (x : CollInst) (j va : Nat) : List (Option Nat × Bool) :=
  let d := x.desc
  let w := collBytes d.dtype
  let len := d.segLen d.rank j
  let first := j * d.segElems
  let num := ((s.readVa x.ctx va (len * w)).map fun r => leNat r.1).getD 0
  x.acc.mapIdx fun i a =>
    if decide (first ≤ i) && decide (i < first + len) then
      let v := natBits num (8 * w * (i - first)) (8 * w)
      (some (collOp d a.1 v), a.2 || ((s.readVa x.ctx (va + (i - first) * w) w).map (·.2)).getD false)
    else a

/-- SEGMENT_FOLD (R421): a rank's next segment is folded once every lower rank's same elements are, and released. -/
def State.segFold (s : State) (c id rank : Nat) : State :=
  match s.collInst c id, s.collKey c id with
  | some x, some k =>
    let d := x.desc
    let j := cnt x.folded rank
    let upto := min ((j + 1) * d.segElems) (d.chunkLen d.rank)
    let lower := (List.range rank).all fun r => x.foldedTo r upto
    if !decide (rank < d.n) || d.segs d.rank ≤ j || !lower then s
    else if rank = d.rank then
      let s' := if x.silent then x.acc else s.foldAt x j (d.src + (d.chunkAt rank + j * d.segElems) * collBytes d.dtype)
      s.setColl { x with folded := SMap.put x.folded rank (j + 1), acc := s' }
    else match s.coll.frames.find? fun (h : CollHdr) => h.ctx == c && h.key == id && h.phase == 0 && h.seq == x.seq && h.src == rank && h.segment == k.folded + j with
      | none => s
      | some h =>
        let acc := if h.zero then x.acc else s.foldAt x j (d.slotVa d.rank ((k.folded + j) % 2) rank)
        let s := { s with coll := { s.coll with frames := s.coll.frames.erase h } }
        let s := s.setColl { x with folded := SMap.put x.folded rank (j + 1), acc := acc }
        let s := if h.zero then s else s.bump .COLL_RX_BYTES_COUNT (d.segLen d.rank j * collBytes d.dtype) (seatOff d.seat)
        s.emit (.message "COLL_RELEASE" (d.member rank).module [c, d.collId, d.crc, d.rank, h.segment])
  | _, _ => s

/-- The chunk this member owns is folded from every rank. -/
def CollInst.chunkDone (x : CollInst) : Bool := (List.range x.desc.n).all fun r => decide (x.desc.segs x.desc.rank ≤ cnt x.folded r)

/-- The ranks whose DST this member writes (R411), and those it expects a GATHER header from. -/
def CollDesc.targets (d : CollDesc) : List Nat :=
  match d.op with
  | 0 => if d.chunkLen d.rank = 0 then [] else List.range d.n
  | 1 => []
  | 2 => List.range d.n
  | 3 => if d.chunkLen d.rank = 0 then [] else [d.root]
  | _ => if d.rank = d.root then List.range d.n else []
def CollDesc.expects (d : CollDesc) : List Nat :=
  let others := (List.range d.n).filter fun r => r != d.rank
  match d.op with
  | 0 => others.filter fun r => d.chunkLen r != 0
  | 1 => []
  | 2 => others
  | 3 => if d.rank = d.root then others.filter fun r => d.chunkLen r != 0 else []
  | _ => if d.rank = d.root then [] else [d.root]

/-- Bytes of this member's result or contribution in the gather phase, with the poison of each element's bytes; offset in a DST. -/
def State.gatherData (s : State) (x : CollInst) : List Byte × List Bool :=
  let d := x.desc
  let w := collBytes d.outFmt
  if d.reduces then
    (x.acc.flatMap fun a => leBytes w (collFinish d a.1), x.acc.flatMap fun a => List.replicate w a.2)
  else
    let n := d.count * w
    if x.silent then (List.replicate n 0, List.replicate n false)
    else match s.readVa x.ctx d.src n with
      | none => ([], [])
      | some (bs, _) => (bs, (List.range n).map fun i => ((s.readVa x.ctx (d.src + i) 1).map (·.2)).getD false)
def CollDesc.gatherOff (d : CollDesc) : Nat :=
  match d.op with
  | 0 => d.chunkAt d.rank * collBytes d.outFmt
  | 2 => d.rank * d.count * collBytes d.outFmt
  | 3 => d.chunkAt d.rank * collBytes d.outFmt
  | _ => 0

/-- Write a rank's DST with this member's data. -/
def State.writeDst (s : State) (x : CollInst) (r : Nat) : State :=
  let d := x.desc
  let (bs, ps) := s.gatherData x
  let va := (d.member r).dst + d.gatherOff
  s.writeRun x.ctx va bs fun i =>
    ((ps.take ((i + 1) * 64 - va % 64)).drop (if i = 0 then 0 else i * 64 - va % 64)).any id

/-- Gather data goes to a joined rank, its header after it (R422). -/
def State.sendGather (s : State) (c id r : Nat) : State :=
  match s.collInst c id with
  | none => s
  | some x =>
    let d := x.desc
    if !x.wrote || x.gatherSent.contains r || !x.joins.contains r then s
    else
      let zero := x.silent && !d.reduces
      let va := (d.member r).dst + d.gatherOff
      let elems := if d.reduces then d.chunkLen d.rank else d.count
      let bytes := elems * collBytes d.outFmt
      let s := if zero then s.bump .COLL_ZERO_FRAMES_COUNT 1 (seatOff d.seat) else (s.writeDst x r).bump .COLL_TX_BYTES_COUNT bytes (seatOff d.seat)
      let h := x.hdr 1 zero 0 r (if d.op == 0 || d.op == 3 then d.chunkAt d.rank else 0) elems
      let y : CollSend := { dest := (d.member r).module, va := d.gathHdrVa r (x.seq % 2) d.rank, hdr := h, lo := va, hi := va + bytes }
      s.setColl { x with gatherSent := x.gatherSent ++ [r], sends := x.sends ++ [y] }

/-- This member's own part of the result, once it is there. -/
def State.writeOwn (s : State) (c id : Nat) : State :=
  match s.collInst c id with
  | none => s
  | some x =>
    if x.wrote || !x.chunkDone then s
    else
      let d := x.desc
      let s := if d.targets.contains d.rank || (d.op == 1 && d.chunkLen d.rank != 0) then s.writeDst x d.rank else s
      s.setColl { x with wrote := true }

/-- All that an instance can do now: segments, its own result, gathers, headers. -/
def State.collPump (s : State) (c id : Nat) : State :=
  match s.collInst c id with
  | none => s
  | some x =>
    let others := (List.range x.desc.n).filter fun r => r != x.desc.rank
    let s := others.foldl (fun s r => (s.sendSeg c id r).sendSeg c id r) s
    let s := s.writeOwn c id
    let s := (x.desc.targets.filter fun r => r != x.desc.rank).foldl (fun s r => s.sendGather c id r) s
    s.sendHeaders c id

/-- Every instance goes on after a write was acknowledged. -/
def State.pumpAll (s : State) : State := s.coll.insts.foldl (fun s (x : CollInst) => s.collPump x.ctx x.desc.key) s

/-! ### Launch (R407, R409, R416, R422, R424) -/

/-- A virtual address lies among the headers of the member's own landing area under a key (R419). -/
def CollKey.lands (k : CollKey) (va : Nat) : Bool :=
  decide ((k.desc.member k.desc.rank).land ≤ va) && decide (va < (k.desc.member k.desc.rank).land + 256 * k.desc.n)

/-- Frames that came before the key was known are checked now: those of it, and those in its landing area that name another. -/
def State.checkFrames (s : State) (k : CollKey) (cur : Nat) : State :=
  match s.coll.frames.find? fun (h : CollHdr) => h.ctx == k.ctx && (h.key == k.desc.key || (k.lands h.at_ && (s.collKey k.ctx h.key).isNone)) && !h.okFor k cur with
  | none => s
  | some h => s.collFault k.desc.seat 1 3 k.ctx h.collId h.src (k.desc.member h.src).module

/-- Begin an instance: SEQ taken, joins sent, the first segments under way. -/
def State.startColl (s : State) (c : Cmd) (d : CollDesc) (silent : Bool) : State :=
  let old := s.collKey c.ctx d.key
  let k : CollKey := match old with
    | some k => { k with desc := d }
    | none => { ctx := c.ctx, desc := d }
  let joins := (s.coll.joins.filter fun j => j.1 == c.ctx && j.2.1 == d.key && j.2.2.1 == k.seq).map (·.2.2.2)
  let x : CollInst :=
    { ctx := c.ctx, desc := d, seq := k.seq, ring := c.ring, cmd := c.seq, at_ := s.now, silent := silent,
      acc := if d.reduces then List.replicate (d.chunkLen d.rank) (none, false) else [], joins := joins }
  let s := (s.setKey { k with seq := k.seq + 1 })
  let s := { s with coll := { s.coll with
      insts := s.coll.insts ++ [x]
      joins := s.coll.joins.filter fun j => !(j.1 == c.ctx && j.2.1 == d.key && j.2.2.1 == k.seq)
      waits := s.coll.waits.filter fun (w : CollWait) => !(w.ring == c.ring && w.cmd == c.seq)
      subst := s.coll.subst.filter fun (p : Nat × CollDesc) => !(p.1 == c.ctx && p.2.collId == d.collId) } }
  let s := ((List.range d.n).filter fun r => r != d.rank).foldl (fun s r =>
    s.emit (.message "COLL_JOIN" (d.member r).module [c.ctx, d.collId, d.crc, k.seq, d.rank])) s
  (s.checkFrames k x.seq).collPump c.ctx d.key

/-- A silent shape word that is not VALID (R416): read again after 1 us, up to the wait bound of the seat's streams. -/
def State.silentWait (s : State) (c : Cmd) (d : CollDesc) : State :=
  match s.coll.waits.find? fun (w : CollWait) => w.ring == c.ring && w.cmd == c.seq with
  | none => { s with coll := { s.coll with waits := s.coll.waits ++ [{ ctx := c.ctx, ring := c.ring, cmd := c.seq, since := s.now, last := s.now }] } }
  | some w =>
    if w.since + s.waitNs d.seat ≤ s.now then s.collFault d.seat 0 3 c.ctx d.collId d.rank s.self
    else { s with coll := { s.coll with waits := s.coll.waits.map fun (y : CollWait) => if y == w then { y with last := s.now } else y } }

/-- COLLECTIVE (R409): a launched command whose key is idle and whose engine has room; a silent word not yet VALID is waited for. -/
def State.collective (s : State) (r q : Nat) : State :=
  match s.launched r q 0x31 with
  | none => s
  | some c =>
    if s.coll.insts.any (fun (x : CollInst) => x.ring == r && x.cmd == q) ||
      s.coll.waits.any (fun (w : CollWait) => w.ring == r && w.cmd == q && decide (s.now < w.last + 1000)) then s
    else match s.collDesc c.ctx (c.fld 32 0 56) with
      | none => s.collFault 0 0 3 c.ctx 0 0 s.self
      | some d =>
        let busy := (s.collInst c.ctx d.key).isSome || decide (16 ≤ (s.coll.insts.filter fun (x : CollInst) => x.desc.seat == d.seat).length)
        if busy then s
        else if !d.silentEn || s.flag .STREAM_MODE_FORCE_STATIC (seatOff d.seat) then s.startColl c d false
        else match s.readVa c.ctx d.silentAddr 8 with
          | none => s.collFault d.seat 0 3 c.ctx d.collId d.rank s.self
          | some (bs, poison) =>
            let w := leNat bs
            if poison then s.collFault d.seat 0 3 c.ctx d.collId d.rank s.self
            else if !natBit w 63 then s.silentWait c d
            else s.startColl c d (natBits w 0 32 == 0)

/-! ### What arrives -/

/-- COLL_JOIN (R422): kept for the instance it names. -/
def State.collJoin (s : State) (c collId crc seq rank : Nat) : State :=
  let id := keyOf collId crc
  match s.collInst c id with
  | some x =>
    if x.seq == seq then
      (s.setColl { x with joins := if x.joins.contains rank then x.joins else x.joins ++ [rank] }).collPump c id
    else { s with coll := { s.coll with joins := s.coll.joins ++ [(c, id, seq, rank)] } }
  | none => if (s.ctx c).valid then { s with coll := { s.coll with joins := s.coll.joins ++ [(c, id, seq, rank)] } } else s

/-- COLL_RELEASE (R421): the owner folded a segment. -/
def State.collRelease (s : State) (c collId crc owner segment : Nat) : State :=
  let id := keyOf collId crc
  match s.collInst c id, s.collKey c id with
  | some x, some k =>
    let n := cnt x.released owner
    if segment == cnt k.sent owner + n then
      (s.setColl { x with released := SMap.put x.released owner (n + 1) }).collPump c id
    else s
  | _, _ => s

/-- A GATHER header: its sender's part of DST is valid, or zero (R417). -/
def State.gatherIn (s : State) (x : CollInst) (h : CollHdr) : State :=
  let d := x.desc
  let n := (if d.op == 0 || d.op == 3 then d.chunkLen h.src else d.count) * collBytes d.outFmt
  let off := if d.op == 2 then h.src * n else if d.op == 0 || d.op == 3 then d.chunkAt h.src * collBytes d.outFmt else 0
  let s := if h.zero then s.writeRun x.ctx ((d.member d.rank).dst + off) (List.replicate n 0) fun _ => false
    else s.bump .COLL_RX_BYTES_COUNT n (seatOff d.seat)
  s.setColl { x with gatherGot := if x.gatherGot.contains h.src then x.gatherGot else x.gatherGot ++ [h.src] }

/-- COLL_FRAME (R420): a header lands at an address of a context and is checked against the key it names, at once where it is known; one that names no
key that is known, in the landing area of another, is a mismatch. -/
def State.collFrame (s : State) (c va : Nat) (bs : List Nat) : State :=
  if !(s.ctx c).valid then s
  else match hdrIn bs with
    | none => s.collFault 0 2 3 c (natOfBytes ((bs.drop 4).take 2)) 0 s.self
    | some h =>
      let h := { h with at_ := va }
      match s.collKey c h.key with
      | none => (match s.coll.keys.find? fun (k : CollKey) => k.ctx == c && k.lands va with
        | some k => s.collFault k.desc.seat 1 3 c h.collId h.src (k.desc.member h.src).module
        | none =>
          let s := s.writeVa c va (bs.map fun b => BitVec.ofNat 8 b)
          { s with coll := { s.coll with frames := s.coll.frames ++ [h] } })
      | some k =>
        let cur := ((s.collInst c h.key).map (·.seq)).getD k.seq
        if !h.okFor k cur then s.collFault k.desc.seat 1 3 c h.collId h.src (k.desc.member h.src).module
        else
          let d := k.desc
          let s := s.writeVa c va (bs.map fun b => BitVec.ofNat 8 b)
          match s.collInst c h.key with
          | none => { s with coll := { s.coll with frames := s.coll.frames ++ [h] } }
          | some x =>
            if h.phase = 1 then s.gatherIn x h
            else
              let upto := min ((cnt x.folded h.src + 1) * d.segElems) (d.chunkLen d.rank)
              let waits := h.seq == x.seq && !(List.range h.src).all fun r => x.foldedTo r upto
              let s := { s with coll := { s.coll with frames := s.coll.frames ++ [h] } }
              if waits then s.bump .COLL_ORDER_WAITS_COUNT 1 (seatOff d.seat) else s

/-! ### Completion, bound, loss (R423, R425, R426) -/

/-- An instance has done all it must. -/
def State.collDone (s : State) (x : CollInst) : Bool :=
  let d := x.desc
  let others := (List.range d.n).filter fun r => r != d.rank
  others.all (fun r => decide (d.segs r ≤ cnt x.released r)) && x.chunkDone && x.wrote && x.sends == [] &&
    (d.targets.filter fun r => r != d.rank).all x.gatherSent.contains && d.expects.all x.gatherGot.contains

/-- COLLECTIVE_COMPLETE. -/
def State.collComplete (s : State) (c id : Nat) : State :=
  match s.collInst c id, s.collKey c id with
  | some x, some k =>
    if !s.collDone x then s
    else
      let d := x.desc
      let k := { k with sent := (List.range d.n).foldl (fun l r => SMap.put l r (cnt l r + d.segs r)) k.sent, folded := k.folded + d.segs d.rank }
      let s := s.setKey k
      let s := { s with coll := { s.coll with
          insts := s.coll.insts.filter fun (y : CollInst) => !(y.ctx == c && y.desc.key == id)
          recent := (c, id) :: s.coll.recent } }
      let s := s.bump .COLL_DONE_COUNT 1 (seatOff d.seat)
      match s.launched x.ring x.cmd 0x31 with
      | some m => s.complete m 0 0 0
      | none => s
  | _, _ => s

/-- COLL_TIMEOUT (R423). -/
def State.collTimeout (s : State) (c id : Nat) : State :=
  match s.collInst c id with
  | none => s
  | some x =>
    let us := if x.desc.timeoutUs = 0 then s.getF .COLL_CTRL_TIMEOUT_US (seatOff x.desc.seat) else x.desc.timeoutUs
    if s.now < x.at_ + clamp 1 100000 us * 1000 then s else s.collFault x.desc.seat 3 3 c x.desc.collId x.desc.rank s.self

/-- Give the substitute the lost rank's pages (R426): here where this module is the substitute, by notice elsewhere. -/
def State.substitute (s : State) (c : Nat) (d : CollDesc) (r : Nat) : State :=
  let m := d.member r
  let pages := fun (va n : Nat) => (List.range ((va + n + 65535) / 65536 - va / 65536)).map fun i => (va / 65536 + i) * 65536
  let all := pages m.land d.landBytes ++ (if d.dstBytes r = 0 then [] else pages m.dst (d.dstBytes r))
  if m.alt ≠ s.self then s.emit (.message "SUBSTITUTE" m.alt [c, d.collId, r])
  else all.foldl (fun s va => match s.allocPage c 1 false 0 with
    | .error _ => s
    | .ok (off, s) => s.editLeaf c va fun (p : Pte) => { p with addr := s.dwezin off }) s

/-- Rewrite the member list for lost ranks (R426), and remember it until the replay. -/
def State.rewriteList (s : State) (c : Nat) (d : CollDesc) (lost : List Nat) : State :=
  let s := lost.foldl (fun s r => (s.writeVa c (d.list + 32 * r) (leBytes 2 (d.member r).alt)).substitute c d r) s
  let ms := d.members.mapIdx fun r (m : Member) => if lost.contains r then { m with module := m.alt, altValid := false } else m
  { s with coll := { s.coll with subst := (c, { d with members := ms }) :: s.coll.subst.filter fun (p : Nat × CollDesc) =>
      !(p.1 == c && p.2.collId == d.collId && p.2.list == d.list) } }

/-- The ranks of a list that a module holds. -/
def CollDesc.ranksOf (d : CollDesc) (m : Nat) : List Nat := (List.range d.n).filter fun r => (d.member r).module == m

/-- A member of a list rewritten since the last boundary is lost before the replay (Table 14.6): substituted as well, or the context is torn down. -/
def State.substLost (s : State) (m : Nat) : State :=
  s.coll.subst.foldl (fun s (p : Nat × CollDesc) =>
    let lost := p.2.ranksOf m
    if lost = [] || !(s.ctx p.1).valid then s
    else if lost.all fun r => (p.2.member r).altValid then s.rewriteList p.1 p.2 lost
    else s.collFault p.2.seat 5 3 p.1 p.2.collId (lost.headD 0) m) s

/-- A member is lost to the module's collectives (R425): instances since the last step boundary end COLL_LOST and the step is a replay step,
or the context is torn down. -/
def State.collLost (s : State) (m : Nat) : State :=
  let s := s.substLost m
  s.coll.keys.foldl (fun s (k : CollKey) =>
    let d := k.desc
    let lost := d.ranksOf m
    let running := s.collInst k.ctx d.key
    let recent := s.coll.recent.filter fun (r : Nat × Nat) => r == (k.ctx, d.key)
    if lost = [] || !(s.ctx k.ctx).valid || (running.isNone && recent == []) then s
    else if d.replayOk && lost.all fun r => (d.member r).altValid then
      let n := bit running.isSome + recent.length
      let s := (s.bump .COLL_LOST_COUNT n (seatOff d.seat)).collFault d.seat 4 1 k.ctx d.collId (lost.headD 0) m
      let s := { s with coll := { s.coll with
          insts := s.coll.insts.filter fun (y : CollInst) => !(y.ctx == k.ctx && y.desc.key == d.key)
          keys := s.coll.keys.filter fun (y : CollKey) => !(y.ctx == k.ctx && y.desc.key == d.key)
          frames := s.coll.frames.filter fun (h : CollHdr) => !(h.ctx == k.ctx && h.key == d.key)
          recent := s.coll.recent.filter fun (r : Nat × Nat) => r != (k.ctx, d.key) } }
      let s := match running.bind fun x => s.launched x.ring x.cmd 0x31 with
        | some c => s.complete c 0x07 0 0
        | none => s
      let s := if s.board.poolRole == 2 && s.step.phase == 2 then { s with step := { s.step with replay := true } } else s
      s.rewriteList k.ctx d lost
    else s.collFault d.seat 5 3 k.ctx d.collId (lost.headD 0) m) s

/-- WR_ACK also lets collectives go on. -/
def execWrAck (tag : Nat) (s : State) := done (s.wrAck tag).pumpAll
/-- ROUTE_SWAP; members that the new tables mark unreachable are lost (R425). -/
def execRouteSwap (s : State) :=
  let swapped := s.getF .FAB_STATUS_INJ_COPY
  let s := s.routeSwap
  let far := fun (m : Nat) =>
    let e := s.getF .FAB_RT_DATA_ENTRY (inst ((if m / 64 != s.rack then m / 64 else 512 + m % 64) + s.getF .FAB_STATUS_INJ_COPY * 2 ^ 14))
    m != s.self && natBit e 39
  let mods := (s.coll.keys.flatMap fun (k : CollKey) => k.desc.members.map (·.module)).eraseDups
  done (if s.getF .FAB_STATUS_INJ_COPY == swapped then s else (mods.filter far).foldl (fun s m => s.collLost m) s)
def execCollective (r q : Nat) (s : State) := done (s.collective r q)
def execCollJoin (c collId crc seq rank : Nat) (s : State) := done (s.collJoin c collId crc seq rank)
def execCollFrame (c : Nat) (frame : FrameIn) (s : State) := done (s.collFrame c frame.va frame.bytes)
/-- An instance is named by its context and its key (COLL_ID and LIST_CRC, R407). -/
def execSegmentFold (c key rank : Nat) (s : State) := done ((s.segFold c key rank).collPump c key)
def execCollRelease (c collId crc owner segment : Nat) (s : State) := done (s.collRelease c collId crc owner segment)
def execCollectiveComplete (c key : Nat) (s : State) := done (s.collComplete c key)
def execCollTimeout (c key : Nat) (s : State) := done (s.collTimeout c key)

end Sys2Proof.Machine
end

