-- ==== Sys2Proof/Machine/Twin.lean ====
section
/-! DEFINITION. The pair (chapter 17): records received, acknowledgement, resync, suspicion and confirmation, fences of the twin, checkpoints
acknowledged; a module that leaves the fabric (R391). -/

namespace Sys2Proof.Machine

/-! ### Records received (R492, R493) -/

/-- A sequence is at or before another, both of 32 bits. -/
def seqLe (a b : Nat) : Bool := decide ((b + 2 ^ 32 - a) % 2 ^ 32 < 2 ^ 31)

/-- ACK_SEQ of a record: what it acknowledges takes effect (R317). -/
def State.ackTwin (s : State) (n : Nat) : State :=
  if n = 0 || !seqLe n (s.getF .TWIN_SEQ_TX) then s
  else
    let s := s.setF .TWIN_SEQ_ACKED n
    let s := { s with twin := { s.twin with unacked := s.twin.unacked.filter fun u => !seqLe u.1 n } }
    let s := match s.twin.resyncEnd with
      | some e => if seqLe e n then { s with twin := { s.twin with ownSynced := true } } else s
      | none => s
    s.releaseAcks.checkActive

/-- A HEARTBEAT (Table 17.3). -/
def State.sendHeartbeat (s : State) : State := s.sendTwin "HEARTBEAT" false 0 0 (packBytes [(8, s.now), (1, s.pairState), (2, s.liveEntries.length)])

/-- Any record counts as a heartbeat (R499). -/
def State.heard (s : State) : State :=
  let s := s.setF .TWIN_HB_T_T s.now
  { s with twin := { s.twin with answered := s.twin.answered || s.twin.suspectAt.isSome } }

/-- The sender is the twin, and the pair may take its records. -/
def State.fromTwin (s : State) (sender : Nat) : Bool := !s.fenced && s.flag .TWIN_ID_PAIR_EN && sender == s.peer && !s.twin.mismatch && s.pairState != 0

/-- A record of the twin: applied in SEQ order; a CRC that fails or a SEQ that skips sends both modules to JOINING; a SYNC record is
acknowledged by a HEARTBEAT at once (R493). A SPLIT module that hears its twin joins again (R507). -/
def State.recvTwin (s : State) (h : TwinHdr) (apply : State → State) : State :=
  if !s.fromTwin h.sender then s
  else
    let s := s.heard
    if s.pairState == 3 then s.startResync
    else if !s.mirroring || (s.pairState == 1 && !s.twin.peerBegan) then s
    else if !h.crcOk || h.seq != (s.twin.rxSeq + 1) % 2 ^ 32 then (s.twinFault 1 1 s.peer).startResync
    else
      let s := s.ackTwin h.ack
      let s := { s with twin := { s.twin with rxSeq := h.seq } }
      let s := apply s
      if h.sync && s.mirroring then s.sendHeartbeat else s

/-- RESYNC_BEGIN (R508): the twin's stream restarts; this module's own resync begins unless it has. -/
def State.resyncBegin (s : State) (h : TwinHdr) : State :=
  if !s.fromTwin h.sender || s.pairState == 4 then s
  else
    let s := s.heard
    if !h.crcOk then (s.twinFault 1 1 s.peer).startResync
    else
      let s := if s.pairState == 1 && s.twin.began && !s.twin.peerBegan then s else s.startResync
      { s.dropMirrors with twin := { s.dropMirrors.twin with rxSeq := h.seq, peerBegan := true, peerSynced := false } }

/-- RESYNC_END. -/
def State.resyncEnds (s : State) : State := { s with twin := { s.twin with peerSynced := true } }.checkActive

/-- ADMIT_DATA: the latched blocks of a request, whose mirror begins. -/
def State.admitData (s : State) (h : TwinHdr) (samp : SampBlk) (g : Grammar) : State :=
  let i := h.handle % 2 ^ 14
  (s.dropMirror i).setMirror i { entry := { a := { gen := h.handle / 2 ^ 14 } }, samp := samp, grammar := g }

/-- TOKENS: IDs of positions from `first` on. -/
def State.mirrorTokens (s : State) (h : TwinHdr) (first : Nat) (ids : List Nat) : State :=
  let i := h.handle % 2 ^ 14
  match s.mirror i with
  | some m => s.setMirror i { m with tokens := m.tokens.take first ++ ids ++ m.tokens.drop (first + ids.length) }
  | none => s

/-- MIRROR_MAP: addresses of the extents of pages from `first` on, or of the frames for a hold (log 112). -/
def State.mirrorMap (s : State) (h : TwinHdr) (first : Nat) (as : List Nat) : State :=
  if (s.findHold h.handle).any fun x => x.copy == 1 then ((s.findHold h.handle).map fun x => s.copyHold x first as).getD s
  else match s.findHandle h.handle with
  | none => s
  | some i =>
    let k := s.ckpt i
    s.setCkpt i { k with extents := k.extents.take first ++ as ++ k.extents.drop (first + as.length) }

/-- CKPT: CKPT_LEN advances (R497). -/
def State.mirrorCkpt (s : State) (h : TwinHdr) (first count : Nat) : State :=
  let i := h.handle % 2 ^ 14
  match s.mirror i with
  | some m => if handleOf i m.entry.a.gen = h.handle then s.setMirror i { m with ckptLen := first + count } else s
  | none => s

/-- CKPT is taken until the request is rebuilt, also from a twin that leaves (R510). -/
def State.ckptRec (s : State) (h : TwinHdr) (first count : Nat) : State :=
  if s.pairState == 4 && s.twin.takeover.isSome && s.fromTwin h.sender && h.crcOk then s.heard.mirrorCkpt h first count
  else s.recvTwin h fun s => s.mirrorCkpt h first count

/-- HOLD: the holder's record of a paused request, and its copies' frames; PAGES 0 releases them (R498). -/
def State.mirrorHold (s : State) (h : TwinHdr) (owner expiry pages : Nat) (claimed : Bool) : State :=
  let old := s.twin.mirrorHolds.find? fun x => x.handle == h.handle
  let rest := s.twin.mirrorHolds.filter fun x => x.handle != h.handle
  match old with
  | some x =>
    if pages = 0 then { x.pages.foldl (fun s f => s.setTag f { s.tag f with kind := 4 }) s with twin := { s.twin with mirrorHolds := rest } }
    else { s with twin := { s.twin with mirrorHolds := rest ++ [{ x with owner := owner, expiry := expiry, claimed := claimed }] } }
  | none =>
    if pages = 0 then s
    else
      let (fs, t) := s.holdFrames pages
      if fs.length < pages then s.twinFault 2 1 s.peer
      else
        let t := { t with twin := { t.twin with mirrorHolds := rest ++ [({ handle := h.handle, owner := owner, expiry := expiry, pages := fs, claimed := claimed } : Hold)] } }
        t.sendMap h.handle 0 0 (fs.map fun f => t.dwezin (f * 65536))

/-- OWNER_MOVED (Table 17.5): a hold's request has a new handle and a new owner. -/
def State.ownerMoved (s : State) (owner old new : Nat) : State :=
  match s.findHold old with
  | none => s
  | some h =>
    let s := { s with twin := { s.twin with holds := s.twin.holds.filter fun x => x.handle != old } }
    let s := s.tellHold h 0
    let h := { h with handle := new, owner := owner }
    (s.putHold h).tellHold h h.pages.length

/-! ### Checkpoints (R497) -/

/-- CHECKPOINT_ACKED: every write of a checkpoint is acknowledged: CKPT is sent; a hand-over that waited for the last one goes on, with what was
committed meanwhile. Of a holder's copy to its twin: both copies stand (R498). -/
def State.ckptAcked (s : State) (handle : Nat) : State :=
  if (s.findHold handle).any fun h => h.copy == 2 then ((s.findHold handle).map s.holdCopied).getD s
  else if s.firmwareBusy 7 handle then s
  else match s.findHandle handle with
  | none => s
  | some i =>
    let k := s.ckpt i
    match k.inFlight with
    | none => s
    | some (f, n) =>
      if !s.mirroring && !s.twin.leaving then s
      else
        let s := s.sendTwin "CKPT" false handle (s.entry i).a.ctx (packBytes [(4, f), (4, n)])
        let s := s.setCkpt i { k with ckptLen := f + n, inFlight := none }
        if s.fenced then s
        else if s.twin.handover then (s.checkpoint true i).handOver
        else s

/-! ### Suspicion and confirmation (R500) -/

/-- The twin's six cube neighbours (R381). -/
def State.twinNeighbours (s : State) : List Nat := (List.range 6).map fun d => s.peer / 64 * 64 + cubeN d (s.peer % 64)

/-- Whether this module's cube port to a neighbour is down; none where it is not a neighbour. -/
def State.downTo (s : State) (m : Nat) : Option Bool :=
  if m / 64 ≠ s.rack then none
  else ((List.range 6).find? fun d => cubeN d s.coord == m % 64).map fun d => match s.cubePort d with
    | some l => !s.lpUp l
    | none => true

/-- Suspicion begins. -/
def State.suspectTwin (s : State) : State :=
  if !s.mirroring || s.twin.suspectAt.isSome then s
  else
    let s := s.setF .TWIN_STATUS_SUSPECT 1
    let own := if s.twinNeighbours.contains s.self then (s.downTo s.peer).toList.map fun d => (s.self, d) else []
    let s := { s with twin := { s.twin with suspectAt := some s.now, answered := false, witness := own } }
    let s := s.twinFault 3 0 s.peer
    let s := s.sendTwin "SUSPECT" false 0 0 (controlBody 1 0)
    (s.twinNeighbours.filter fun m => m != s.self).foldl (fun s m => s.emit (.message "WITNESS_QUERY" m [s.self, s.peer])) s

/-- MIRROR_ACK_TIMEOUT (R493): a SYNC record unacknowledged for 10 us. -/
def State.ackTimeout (s : State) : State :=
  if s.twin.unacked.any fun u => decide (u.2 + 10000 ≤ s.now) then s.suspectTwin else s

/-- TWIN_SILENCE: nothing received for 10 us. -/
def State.twinSilence (s : State) : State :=
  if max (s.getF .TWIN_HB_T_T) s.twin.joinedAt + 10000 ≤ s.now then s.suspectTwin else s

/-- WITNESS_QUERY: a cube neighbour of the module asked about answers with the state of its port to it. -/
def State.witnessQuery (s : State) (from_ m : Nat) : State :=
  match s.downTo m with
  | some d => s.emit (.message "WITNESS_ANSWER" from_ [s.self, m, bit d])
  | none => s

/-- WITNESS_ANSWER. -/
def State.witnessAnswer (s : State) (from_ m : Nat) (down : Bool) : State :=
  if s.twin.suspectAt.isNone || m != s.peer || !s.twinNeighbours.contains from_ then s
  else { s with twin := { s.twin with witness := SMap.put s.twin.witness from_ down } }

/-- The twin is lost: SURVIVOR, takeover at the next boundary; holds mirrored for it are answered from here (Table 17.6). A SPLIT module has
no mirror to take over (R507). -/
def State.twinLost (s : State) : State :=
  if s.mirroring then
    let s := (s.clearSuspect).twinFault 4 1 s.peer
    let s := { s with twin := { s.twin with
        confirmedAt := some s.now, takeover := some false, holds := s.twin.holds ++ s.twin.mirrorHolds, mirrorHolds := [], began := false,
        detach := none, handover := false } }
    ((s.setPair 4 0).releaseAll).raiseRegions
  else if s.pairState == 3 then
    let s := ((s.clearSuspect).twinFault 4 1 s.peer).dropMirrors
    { s.setPair 4 0 with twin := { (s.setPair 4 0).twin with confirmedAt := some s.now } }
  else s

/-- The pair is split: each serves alone, mirrors are frozen (R507). -/
def State.twinSplit (s : State) : State :=
  let s := (s.clearSuspect).twinFault 5 1 s.peer
  let s := { s with twin := { s.twin with began := false, detach := none, handover := false } }
  (s.setPair 3 0).releaseAll

/-- CONFIRMATION_TIMEOUT: 8 us after SUSPECT: LOST when it went unanswered and every neighbour reports its port DOWN; else SPLIT. -/
def State.confirm (s : State) : State :=
  match s.twin.suspectAt with
  | none => s
  | some t =>
    if s.now < t + 8000 || s.fenced then s
    else
      let down := s.twinNeighbours.all fun m => s.twin.witness.contains (m, true)
      if !s.twin.answered && down then s.twinLost else s.twinSplit

/-- Both modules fence within one confirmation window (Table 17.8): PAIR_LOST here too. -/
def State.bothFenced (s : State) : State :=
  if s.twin.pairLost || !(s.err.fenceAt.any fun t => decide (s.now ≤ t + 8000)) then s
  else
    let s := (s.twinBit 8).endAll.loseMirrors
    let s := s.place { time := s.now, sev := 5, raw := 5, block := 0x0E, fault := 8, scope := .pair, whereKind := 8, whereIs := s.peer,
                       info := packBits [(15, s.peer), (4, 8)] }
    { s.bump .ERR_RAISED_S_COUNT 1 40 with twin := { s.twin with pairLost := true } }

/-- FENCE and LEAVING: the twin is confirmed lost; with PAIR_LOST its mirrored requests end MODULE_LOST (R554). -/
def State.twinGone (s : State) (sender : Nat) (lost : Bool) : State :=
  if sender != s.peer || !s.flag .TWIN_ID_PAIR_EN || s.twin.mismatch then s
  else if s.fenced then s.bothFenced
  else
    let was := s.mirroring
    let s := s.heard.twinLost
    if lost && was then
      let s := s.loseMirrors
      let s := s.putMirrors []
      { s with twin := { s.twin with takeover := none } }
    else s

/-- SUSPECT: the module answers (R500; log 62: by a HEARTBEAT). -/
def State.suspectRec (s : State) (h : TwinHdr) : State := s.recvTwin h fun s => s.sendHeartbeat

/-- HANDOVER (R509): every mirrored entry is rebuilt under R502, and the module serves unpaired. -/
def State.handoverRec (s : State) : State :=
  let s := { s with twin := { s.twin with takeover := some true, confirmedAt := none, began := false, unacked := [] } }
  ((s.setPair 0 0).releaseAll).emit (.message "CLEAR_PAIR_EN" s.peer [s.self])

/-- HEARTBEAT_SEND: no record sent for 2 us. -/
def State.heartbeatDue (s : State) : State :=
  if s.mirroring && decide (s.twin.lastSent + 2000 ≤ s.now) then s.sendHeartbeat else s

/-- ISOLATED: every cube port down for 10 us (R501). -/
def State.isolated (s : State) : State :=
  match s.fab.cubeDown with
  | some t => if decide (t + 10000 ≤ s.now) && s.flag .FAB_CTRL_EN && !s.fenced then s.twinFault 7 4 s.self else s
  | none => s

/-- READMIT_EXPIRY (R506). -/
def State.readmitExpiry (s : State) : State := { s with twin := { s.twin with images := s.twin.images.filter fun x => decide (s.now < x.until_) } }

/-! ### A module leaves (R391, Table 17.6) -/

/-- Pages paused at a lost holder: its twin answers for it; a copy still on its way is void and the owner pauses again; pages lost by both end
the request HOLDER_LOST (R330). -/
def State.holderLost (s : State) (m : Nat) (twin : Option Nat) (i : Nat) : State :=
  let e := s.entry i
  if e.a.holder ≠ m || m = s.self || !(e.a.state == .paused || (e.a.state == .resuming && (s.req i).restore.isNone)) then s
  else if e.a.copyOut then
    let s := (s.req i).extents.foldl (fun s va => s.setXfer e.a.ctx (s.version e.b.version) va false) s
    let s := s.modA i fun (a : EntryA) => { a with state := .decode, copyOut := false, autoResume := false, pausePend := true, holder := 0 }
    (s.modReq i fun (r : ReqSt) => { r with reserved := true }).mirrorNow i
  else match twin with
    | some t =>
      let s := s.modA i fun (a : EntryA) => { a with holder := t }
      let s := if (s.req i).claimAt.isSome then s.emit (.message "CLAIM" t [s.handle i])
        else if e.a.copyIn then s.emit (.message "RETURN_COPY" t (s.handle i :: s.extentAddrs i 0 e.a.pages))
        else s
      s.mirrorNow i
    | none =>
      let s := (s.answerCmds i 0x53 0x12).answerCmds i 0x54 0x12
      (s.modReq i fun (r : ReqSt) => { r with claimAt := none }).slFault 3 2 i 0x0B

/-- A spanning context whose table master is lost: the twin takes it when the context is mirrored there, else it is torn down (S3). -/
def State.masterLost (s : State) (m : Nat) (twin : Option Nat) (c : Nat) : State :=
  let x := s.ctx c
  if !x.valid || !x.span || x.master ≠ m then s
  else match twin with
    | some t => if (s.sliceOf x.slice).contains t then s.setCtx c { x with master := t } else s.teardown c 1 none true
    | none => s.teardown c 1 none true

/-- A context with a rig spread over a module that is lost: images are kept, it is torn down (R181, R506). -/
def State.rankLost (s : State) (m : Nat) (c : Nat) : State :=
  let x := s.ctx c
  let on := s.rigs.any fun r => r.2.ctx == c && !r.2.closing && decide (1 < r.2.ranks) && r.2.rankMap.contains m
  if !x.valid || !on then s else (s.keepImages c).teardown c 1 none true

/-- GONE (R391): the notice is flooded on, ports that face the module are down at once, the swap is planned; what the module held for this one
passes on or is lost (Tables 10.11, 17.6, R181, R208, R307, R425). `twin` is the lost module's twin, `queues` its queue for each queue lost. -/
def State.goneLinks (s : State) (origin seq m at_ : Nat) : State :=
  let s := (s.sawNotice origin seq).flood "GONE" [origin, seq, m, at_]
  let s := { s with fab := { s.fab with gone := if s.fab.gone.contains m then s.fab.gone else s.fab.gone ++ [m] } }
  let facing := (List.range 32).filter fun p => s.portUp p && s.getF .FAB_PORT_STAT_PEER_ID (inst p) == m && !s.flag .FAB_PORT_STAT_PEER_SWITCH (inst p)
  let s := facing.foldl (fun s p => s.dropPort p 0) s
  s.planSwap at_

def State.goneRoles (s : State) (m : Nat) (twin : Option Nat) (queues : List (Nat × Nat)) : State :=
  let s := (s.tiers.migs.filter fun (g : Migration) => g.newAddr / 2 ^ 45 == m && decide (g.phase < 4)).foldl State.abortMig s
  let s := s.loseHome m
  let s := match twin with
    | some t => s.remapHomes m t queues
    | none => s
  let s := (s.loseSource m).collLost m
  let ctxs := List.range 256
  let s := ctxs.foldl (State.rankLost · m) s
  let s := ctxs.foldl (State.masterLost · m twin) s
  let s := s.liveEntries.foldl (State.holderLost · m twin) s
  s.liveEntries.foldl (fun s i =>
    if (s.entry i).a.workOut && (s.entry i).b.workModule == m then s.modReq i fun (r : ReqSt) => { r with resendDue := true } else s) s

def State.goneNotice (s : State) (origin seq m at_ : Nat) (twin : Option Nat) (queues : List (Nat × Nat)) : State :=
  if !s.newNotice origin seq || s.getF .FAB_CTRL_EN == 0 || m == s.self then s
  else
    let s := s.goneLinks origin seq m at_
    let s := if s.flag .TWIN_ID_PAIR_EN && m == s.peer && !s.twin.mismatch && !s.fenced then s.twinLost else s
    if s.fenced then s else s.goneRoles m twin queues

/-! ### Meanings -/

def execGone (origin seq m at_ : Nat) (twin : Option Nat) (queues : List (Nat × Nat)) (s : State) := done (s.goneNotice origin seq m at_ twin queues)
def execEntry (h : TwinHdr) (e : Entry) (s : State) := done (s.recvTwin h fun s => s.applyEntry h.handle e)
def execAdmitData (h : TwinHdr) (samp : SampBlk) (g : Grammar) (s : State) := done (s.recvTwin h fun s => s.admitData h samp g)
def execTokens (h : TwinHdr) (first : Nat) (ids : List Nat) (s : State) := done (s.recvTwin h fun s => s.mirrorTokens h first ids)
def execMirrorMap (h : TwinHdr) (first : Nat) (addrs : List Nat) (s : State) := done (s.recvTwin h fun s => s.mirrorMap h first addrs)
def execCkpt (h : TwinHdr) (first count : Nat) (s : State) := done (s.ckptRec h first count)
def execHeartbeat (h : TwinHdr) (s : State) := done (s.recvTwin h id)
def execHold (h : TwinHdr) (owner expiry pages : Nat) (claimed : Bool) (s : State) := done (s.recvTwin h fun s => s.mirrorHold h owner expiry pages claimed)
def execVersions (h : TwinHdr) (es : List (Nat × Nat × Nat)) (s : State) := done (s.recvTwin h fun s => s.versionsRec es)
def execSuspect (h : TwinHdr) (s : State) := done (s.suspectRec h)
def execFence (sender : Nat) (lost : Bool) (s : State) := done (s.twinGone sender lost)
def execLeaving (sender : Nat) (lost : Bool) (s : State) := done (s.twinGone sender lost)
def execHandover (h : TwinHdr) (s : State) := done (s.recvTwin h State.handoverRec)
def execResyncBegin (h : TwinHdr) (s : State) := done (s.resyncBegin h)
def execResyncEnd (h : TwinHdr) (s : State) := done (s.recvTwin h State.resyncEnds)
def execOwnerMoved (owner old new : Nat) (s : State) := done (s.ownerMoved owner old new)
def execMirrorAckTimeout (s : State) := done s.ackTimeout
def execTwinSilence (s : State) := done s.twinSilence
def execWitnessQuery (from_ m : Nat) (s : State) := done (s.witnessQuery from_ m)
def execWitnessAnswer (from_ m : Nat) (down : Bool) (s : State) := done (s.witnessAnswer from_ m down)
def execConfirmationTimeout (s : State) := done s.confirm
def execHeartbeatSend (s : State) := done s.heartbeatDue
def execIsolated (s : State) := done s.isolated
def execCheckpointAcked (handle : Nat) (s : State) := done (s.ckptAcked handle)
def execReadmitExpiry (s : State) := done s.readmitExpiry

end Sys2Proof.Machine
end

