-- ==== Sys2Proof/Machine/Power.lean ====
section
/-! DEFINITION. Island loops, alarms, the power cap, the throttle, power states and standby (R515-R540); the tray pull (R510). -/

namespace Sys2Proof.Machine

/-! ### Island loops (R515-R517) -/

/-- DEMAND_STEP: up one step a µs while the engines run, down one every 10 µs after an idle half. -/
def State.demandStep (s : State) (u : Nat) (idle : Bool) : State :=
  let x := s.unit u
  if s.asleep (seatOf u) then s
  else if idle then
    (if s.now < x.demandAt + 10000 then s else s.setUnit u { x with demandAt := s.now, demandMHz := max 600 (x.demandMHz - 25) })
  else if s.now < x.demandAt + 1000 || s.engBusy u == 0 then s
  else s.setUnit u { x with demandAt := s.now, demandMHz := min 1500 (x.demandMHz + 25) }

/-- DROOP_TRIP: cycles stretched while the droop lasts count (R516). -/
def State.droopTrip (s : State) (u cycles : Nat) : State :=
  if s.asleep (seatOf u) then s else (s.bump .UNIT_STRETCH_STRETCHED cycles (unitOff u)).pmc 0x10 cycles none

/-- Alarms that keep a module in M1 (Table 18.4): an alert in force or not yet clear, or a junction at the trip, or below it for less than
CLEAR_MS. -/
def State.alarmed (s : State) : Bool :=
  s.pwr.alertSince.isSome || natBit (s.getF .KEEL_STATUS_ALARMS) 4 ||
    s.pwr.tripGone.any fun t => decide (s.now < t + s.getF .KEEL_ALARM_CLEAR_MS * 1000000)

/-- The hottest junction moved: peaks and thermal cycles (R565); the TRIP alarm and the throttle's end (R539). -/
def State.junctions (s : State) : State :=
  let t := s.maxTj
  let l := s.log
  let lo := min ((l.tjMin).getD t) t
  let l := { l with tjPeak := max l.tjPeak t }
  let fell := l.tjRisen && decide (t + 40 ≤ max l.tjMax t)
  let l := if fell then { l with tjRisen := false, tjMin := some t, tjMax := t }
    else if l.tjRisen then { l with tjMax := max l.tjMax t }
    else if lo + 40 ≤ t then { l with tjRisen := true, tjMin := some lo, tjMax := t }
    else { l with tjMin := some lo }
  let s := { s with log := l }
  let s := if fell then s.bump .LOG_CYCLES_THERMAL else s
  let s := if t < s.getF .KEEL_THERM_TRIP_C then
      let gone := if natBit (s.getF .KEEL_STATUS_ALARMS) 4 then some s.now else s.pwr.tripGone
      let s := s.alarm 4 false
      { s with pwr := { s.pwr with tripSince := none, tripGone := gone } }
    else s
  let cool := decide (t < s.getF .KEEL_THERM_THROTTLE_C)
  let s := { s with pwr := { s.pwr with coolSince := if cool then some (s.pwr.coolSince.getD s.now) else none } }
  let s := if s.pwr.emergTherm && s.pwr.coolSince.any (fun c => decide (c + s.getF .KEEL_ALARM_CLEAR_MS * 1000000 ≤ s.now)) then
      { s with pwr := { s.pwr with emergTherm := false } }.emergUpdate
    else s
  if s.mstate == 1 && s.flag .PWRCLK_STATE_BY_ALARM && s.pwr.want.isNone && !s.alarmed then s.wantM 0 false else s

/-- A junction reading of an island, or of the cox die. -/
def State.setTj (s : State) (u : Option Nat) (tj : Nat) : State :=
  let s := match u with
    | some u => s.setUnit u { s.unit u with tj := tj }
    | none => { s with pwr := { s.pwr with coxTj := tj } }
  (s.regPut Reg.PWRCLK_THERM s.tjMax).junctions

/-- THERMAL_READ (R517). -/
def State.thermalRead (s : State) (u tj : Nat) : State :=
  if s.asleep (seatOf u) then s
  else
    let s := s.setTj (some u) tj
    let x := s.unit u
    let hot := s.getF .KEEL_THERM_THROTTLE_C
    if hot ≤ tj then
      (if x.thermalMHz ≤ 600 then s
      else (s.setUnit u { x with thermalMHz := max 600 (min x.thermalMHz 1500 - 25) }).pwrFault 2 0)
    else if tj < hot - 2 && decide (x.thermalMHz < 1500) && decide (x.raisedAt + 100000 ≤ s.now) then
      s.setUnit u { x with thermalMHz := min 1500 (x.thermalMHz + 25), raisedAt := s.now }
    else s

/-! ### Lifetime records (Table 19.9a) -/

/-- The body of a PERIODIC record. -/
def State.periodicBody (s : State) : List Nat :=
  packBytes [(8, s.getF .LOG_ENERGY_KJ_KJ), (8, s.getF .LOG_HBM_CE_COUNT), (4, s.getF .LOG_HBM_UE_COUNT), (4, s.getF .LOG_CYCLES_RETRAINS),
    (4, s.getF .LOG_PAIR_RETIRED), (4, s.getF .LOG_CYCLES_THERMAL), (2, s.getF .LOG_PAIR_TAKEOVERS), (2, s.getF .LOG_PAIR_FENCES),
    (1, s.log.tjPeak), (1, s.board.inletMax)]

/-- Registers of the ledger (Table 19.10). -/
def ledgerRegs : List Nat :=
  [Reg.LOG_POWER_ON_S, Reg.LOG_ENERGY_KJ, Reg.LOG_CYCLES, Reg.LOG_PAIR, Reg.LOG_HBM_CE, Reg.LOG_HBM_UE] ++ (List.range 8).map fun k => Reg.LOG_AGING + 8 * k

/-- Write the ledger (R565). -/
def State.saveLedger (s : State) : State :=
  { s with log := { s.log with ledger := ledgerRegs.map fun r => (r, s.regAt r), ledgerSaves := s.log.ledgerSaves + 1, tjPeak := s.maxTj },
           board := { s.board with inletMax := s.getF .COOLANT_INLET_C } }

/-- A FINAL record: ahead of every buffered record, which are DEFERRED and counted (R566). Causes: 1 TRAY_LEAVE_N, 2 INPUT_LOSS, 3 THERM_TRIP. -/
def State.finalRec (s : State) (cause : Nat) : State :=
  let n := s.log.buffered.length
  let r : LogRec := { seq := s.log.nextSeq, powerOn := s.getF .LOG_POWER_ON_S_S, calendar := s.calendar, calValid := s.log.calBase.isSome,
                      deferred := false, kind := 8, body := packBytes [(1, cause)] ++ s.periodicBody ++ packBytes [(2, n)] }
  { s with log := { s.log with nextSeq := s.log.nextSeq + 1, buffered := r :: s.log.buffered.map fun (x : LogRec) => { x with deferred := true } } }.saveLedger

/-! ### Reset and M4 (Table 18.1, R575, R584) -/

/-- What a reset leaves: the Keel and the always-on domain with fabric time, the logbook and the boathouse; retired units and frames stay known
until they are tested again or repaired. -/
def State.bare (s : State) : State :=
  let s' : State :=
    { regs := s.regs.filter fun p => retainedReg p.1
      units := s.units.filterMap fun (p : Nat × UnitSt) => if p.2.retired then some (p.1, { retired := true }) else none
      tiers := { frames := s.tiers.frames.filterMap fun (p : Nat × FrameTag) => if p.2.retired then some (p.1, { retired := true }) else none }
      log := { s.log with fetch := [], fetched := [] }
      snap := { count := s.snap.count }
      pwr := { s.pwr with want := none, handed := false, leavingM3 := false, wake := false }
      seats := s.seats.map fun (p : Nat × SeatPwr) => (p.1, { copyA := p.2.copyA, copyB := p.2.copyB })
      board := { s.board with booting := false, stages := 0, eidI3c := 0, eidPcie := 0, vfEnable := false, linkUp := false,
                              poolRole := 0, testRuns := 0 }
      out := s.out
      now := s.now
      fresh := s.fresh
      pending := s.pending }
  let s' := (s'.setF .PWRCLK_STATE_MSTATE 0).setF .PWRCLK_STATE_BY_ALARM 0
  (s'.setF .PWRCLK_REQ_TARGET 0).setF .PWRCLK_REQ_SEAT_SLEEP_REQ 0 |>.seatBits

/-- The rails of order 3 to 8 by their RAIL_SEL numbers. -/
def upperRails : List Nat := (List.range 22).map (· + 3)

/-- Rails 3 to 8 off. -/
def State.railsOff (s : State) : State :=
  upperRails.foldl (fun s r => s.regPut (Reg.RAIL_STAT + inst r) 0) s

/-- M4: the power stages are off. -/
def State.powerOff (s : State) : State :=
  let s := (s.bare.railsOff).faultPin false
  { s with pwr := { s.pwr with off := true } }

/-! ### Standby (R521, R524, R526) -/

/-- Registers the module saves for M3 (Table 18.3). -/
def savedModuleReg (off : Nat) : Bool :=
  let c := canonReg off
  [Reg.RING_BASE, Reg.RING_CFG, Reg.RING_SHADOW, Reg.RING_CTRL, Reg.SL_CTRL, Reg.SL_VI_QUOTA, Reg.FAB_LPORT, Reg.FAB_CTRL, Reg.TIERS_TILLER_CTRL,
    Reg.TIERS_TILLER_LEVELS, Reg.TIERS_SCRUB, Reg.TIERS_BR_CTRL].contains c ||
    (snapRegs.contains c && decide (0x00800000 ≤ c) && decide (c < 0x08000000))

/-- Registers that M3 keeps: the always-on ones, the host link's, the identifiers, the state of stacks and Bedrock devices, which stay as they
are, and the seats', which each seat's own entry saves. -/
def keptInM3 (key : Nat) : Bool :=
  let o := key % instStride
  let c := canonReg (canonOff o)
  retainedReg key || decide (seatBase ≤ o) || msixRegion o ||
    [Reg.HOSTVI_DEV_STATUS, Reg.HOSTVI_LINK, Reg.FAB_ID, Reg.TWIN_ID, Reg.TIERS_CAP, Reg.TIERS_HBM_STAT, Reg.TIERS_BR_STAT].contains c

/-- Enter M3: READY clears, GONE is sent, the fabric is left, the module area is saved, every seat begins its entry (R521). -/
def State.enterM3 (s : State) : State :=
  let s := s.setReady false
  let s := if s.flag .FAB_CTRL_EN then s.sendGone else s
  let s := s.setF .FAB_CTRL_EN 0
  let keep := s.regs.filter fun p => savedModuleReg (p.1 % instStride)
  let (a, b) := nextSave s.pwr.copyA s.pwr.copyB keep
  let s : State :=
    { s with
      regs := s.regs.filter fun p => keptInM3 p.1
      sel := []
      twin := {}
      rigs := []
      waves := []
      ctxs := []
      rings := []
      reqs := []
      wpkg := {}
      step := {}
      sed := {}
      seals := []
      scat := {}
      fab := {}
      coll := {}
      slices := []
      err := {}
      streams := {}
      tiers := { frames := s.tiers.frames, hbmTrainTemp := s.tiers.hbmTrainTemp }
      snap := { count := s.snap.count, slots := s.snap.slots, newest := s.snap.newest }
      pwr := { s.pwr with copyA := a, copyB := b, want := none, leavingM3 := false } }
  let s := (s.setF .PWRCLK_STATE_MSTATE 3).setF .PWRCLK_STATE_BY_ALARM 0
  (List.range 8).foldl (fun s k => if s.asleep k then s else s.sleepStart k) s

/-- A wake source of M3 (Table 18.6): seats before E3 stay awake, the others are to wake. -/
def State.wakeM3 (s : State) : State :=
  if s.mstate ≠ 3 || s.pwr.leavingM3 then s
  else
    let s := { s with pwr := { s.pwr with leavingM3 := true, wake := true } }
    (List.range 8).foldl State.wakeSeat (s.bump .PWRCLK_WAKES_COUNT)

/-- An identifier from KEEL_LOCATION (R378, R588); without a valid location the module claims none. -/
def State.claimId (s : State) (ok : Bool) : State :=
  let rack := s.getF .KEEL_LOCATION_RACK
  let tray := s.getF .KEEL_LOCATION_TRAY
  let slot := s.getF .KEEL_LOCATION_SLOT
  let s := s.setF .FAB_ID_MODULE_ID (if ok then 64 * rack + 2 * tray + slot else 0)
  let s := s.setF .FAB_ID_VALID (bit ok)
  let s := s.setF .FAB_ID_RACK (if ok then rack else 0)
  (s.setF .FAB_ID_TRAY (if ok then tray else 0)).setF .FAB_ID_SLOT (if ok then slot else 0)

/-- Every port that is not disabled begins to train (R374). -/
def State.trainAll (s : State) : State :=
  (List.range 32).foldl (fun s p => if s.portState p == 5 || s.flag .FAB_PORT_CTRL_DISABLE (inst p) then s else s.startTraining p 1) s

/-- STANDBY_EXIT_COMPLETE: the module area is restored and the ports train; once the module is in its fabric, or needs none, it is ready (Table
18.2). -/
def State.standbyExit (s : State) (okA okB : Bool) : State :=
  if s.mstate ≠ 3 || !s.pwr.leavingM3 || (List.range 8).any s.asleep then s
  else
    let alone := s.flag .BOOT_STATUS_STANDALONE
    let s := if !s.pwr.wake then s
      else
        let s := match newestSave s.pwr.copyA s.pwr.copyB okA okB with
          | some c => c.regs.foldl (fun (s : State) (p : Nat × Word) => s.regPut p.1 p.2) s
          | none => { s with vis := [] }.pwrFault 5 1
        let s := { s with pwr := { s.pwr with wake := false } }
        if alone then s else (s.claimId (s.flag .KEEL_LOCATION_VALID)).trainAll
    if !alone && !s.flag .FAB_STATUS_DISCOVERED then s
    else
      let s := s.setF .FAB_CTRL_EN (bit (!alone))
      let s := (s.setF .PWRCLK_STATE_MSTATE 0).setF .PWRCLK_HOST_WAKE_WAKE 0
      { s with pwr := { s.pwr with leavingM3 := false } }.setReady true

/-! ### Requests (R518, Table 18.4) -/

/-- The code that refuses M3. -/
def State.m3Refusal (s : State) : Nat :=
  if s.ctxs.any fun p => p.2.valid || p.2.scrubbing || p.2.tearing then 0xA
  else if s.pairState ≠ 0 then 0xB
  else if s.board.poolRole ≠ 0 then 0xC
  else 0

/-- A request for M0, M1 or M3: the refusal code and the state. -/
def State.requestM (s : State) (t : Nat) : Nat × State :=
  if s.mstate = 3 then (0, s)
  else match t with
    | 0 => if s.mstate = 0 then (0, { s with pwr := { s.pwr with want := none } })
      else if s.alarmed then (0xD, s.refuseM 0xD 0) else (0, s.wantM 0 false)
    | 1 => if s.mstate = 1 then (0, { s with pwr := { s.pwr with want := none } }) else (0, s.wantM 1 false)
    | 3 =>
      let c := s.m3Refusal
      if c = 0 then (0, s.enterM3) else (c, s.refuseM c 0)
    | _ => (0, s)

/-- A request for seats to sleep or wake, as a mask: the first refusal code and the state (R518, R520). -/
def State.requestSeats (s : State) (mask : Nat) : Nat × State :=
  let s := s.setF .PWRCLK_REQ_SEAT_SLEEP_REQ mask
  if s.mstate = 3 then (0, s)
  else (List.range 8).foldl (fun (acc : Nat × State) k =>
    let (c, s) := acc
    if !natBit mask k then (c, s.wakeSeat k)
    else if s.asleep k then acc
    else
      let r := s.sleepRefusal k
      if r = 0 then (c, s.sleepStart k) else (if c = 0 then r else c, s.refuseM r k)) (0, s)

/-- SEAT_SLEEP_ENTRY: the entry completes; edges that came within an M3 entry's window are lost and counted (R524). -/
def State.seatEntry (s : State) (k edges : Nat) : State :=
  if (s.seat k).phase != .entering then s
  else
    let s := if s.mstate = 3 then s.bump .PWRCLK_WAKE_LOST_COUNT edges else s
    s.sleepEnter k

/-- The host's wake of M3 is asked for, or WAKE_AT is reached. -/
def State.hostWake (s : State) (m : Master) : State :=
  match m with
  | .pf => (s.setF .PWRCLK_HOST_WAKE_WAKE 1).wakeM3
  | .vf _ => if s.reached m then s.notice 0 nAccessHole Reg.PWRCLK_HOST_WAKE else s
  | _ => s

/-- TIMED_WAKE. -/
def State.timedWake (s : State) : State :=
  let t := s.getF .PWRCLK_WAKE_AT_T
  if t ≠ 0 && decide (t ≤ s.now) then s.wakeM3 else s

/-! ### Alerts (R532-R537) -/

/-- An alert source asserted at this moment. -/
def State.alertNow (s : State) : Bool := s.pwr.sources != 0 || s.pwr.flowLow

/-- The alarm bit of a source; the flow alarm has two. -/
def State.sourceOn (s : State) (b : Nat) : Bool := natBit s.pwr.sources b || (b == 2 && s.pwr.flowLow)

/-- The cap in force. -/
def State.capW (s : State) : Nat :=
  if s.pwr.alertSince.isSome then min (s.getF .KEEL_CAP_MODULE_W) (s.getF .KEEL_CAP_ALERT_W) else s.getF .KEEL_CAP_MODULE_W

/-- ALERT_ASSERT: sources 0 VIN_LOW, 1 PWR_ALERT_N, 2 FLOW_ALERT_N, 3 INLET_HOT; `sensor` says that the cold plate's own flow sensor asserts
the flow alarm (R577). -/
def State.alertAssert (s : State) (b : Nat) (sensor : Bool) : State :=
  let flow := sensor && b == 2
  let p := s.pwr
  let s := { s with pwr := { p with
      sources := if flow || natBit p.sources b then p.sources else p.sources + 2 ^ b
      flowLow := p.flowLow || flow
      clearSince := none } }
  let s := if b = 1 || (b = 2 && !flow) then s.setBit .SIDEBAND_LEVELS (b - 1) false else s
  let s := if flow && !p.flowLow then s.boardFault 8 1 0 else s
  let s := s.alarm b true
  let s := if p.alertSince.isSome then s
    else
      let s := { s with pwr := { s.pwr with alertSince := some s.now } }
      let s := (s.setF .PWRCLK_CAP_CAP_W s.capW).setStretch 3
      s.pwrFault 0 1
  if b = 1 || b = 2 then s.wakeM3 else s

/-- ALERT_DEASSERT: the clear count starts when every source has gone (R535). -/
def State.alertDeassert (s : State) (b : Nat) (sensor : Bool) : State :=
  let flow := sensor && b == 2
  let p := s.pwr
  let s := { s with pwr := { p with
      sources := if flow || !natBit p.sources b then p.sources else p.sources - 2 ^ b
      flowLow := p.flowLow && !flow } }
  let s := if b = 1 || (b = 2 && !flow) then s.setBit .SIDEBAND_LEVELS (b - 1) true else s
  let s := if s.sourceOn b then s else s.alarm b false
  if s.alertNow || s.pwr.alertSince.isNone || s.pwr.clearSince.isSome then s else { s with pwr := { s.pwr with clearSince := some s.now } }

/-- ALERT_CLEAR: every source gone for CLEAR_MS: the cap is MODULE_W; a module in M1 by alarm returns to M0 (R535, R536). -/
def State.alertClear (s : State) : State :=
  match s.pwr.alertSince, s.pwr.clearSince with
  | some _, some t =>
    if s.alertNow || s.now < t + s.getF .KEEL_ALARM_CLEAR_MS * 1000000 then s
    else
      let s := { s with pwr := { s.pwr with alertSince := none, clearSince := none, handed := false } }
      let s := (s.setF .KEEL_STATUS_SUSTAINED 0).setF .PWRCLK_CAP_CAP_W s.capW
      if ((s.mstate == 1 && s.flag .PWRCLK_STATE_BY_ALARM) || s.pwr.want == some (1, true)) && !s.alarmed then s.wantM 0 false else s
  | _, _ => s

/-- Begin a detach (R509): DETACHING; `hand` hands over at the next boundary. A module of no DECODE role runs no boundary. -/
def State.startDetach (s : State) (hand : Bool) : State :=
  let s := { s with twin := { s.twin with detach := some hand, detachAt := s.now } }
  let s := s.setPair 5 0
  if s.board.poolRole = 2 then s else s.detachStep

/-- SUSTAINED (R536). -/
def State.alertSustained (s : State) : State :=
  match s.pwr.alertSince with
  | none => s
  | some t =>
    if s.flag .KEEL_STATUS_SUSTAINED || s.now < t + s.getF .KEEL_ALARM_SUSTAIN_MS * 1000000 then s
    else
      let s := (s.setF .KEEL_STATUS_SUSTAINED 1).pwrFault 1 1
      if s.pairState = 2 then { s with pwr := { s.pwr with handed := true } }.startDetach true else s

/-- Time under a cap and the throttle, and energy (R542, R565). -/
def State.capTime (s : State) : State :=
  let s := if s.pwr.alertSince.isSome then s.bump .PWRCLK_CAP_NS_NS 1000 else s
  let s := if s.emergency then s.bump .PWRCLK_EMERG_NS_NS 1000 else s
  let ms := s.now / 1000000
  if ms = s.log.energyMs then s
  else
    let e := s.log.energyMj + s.getF .PWRCLK_INPUT_PIN_W
    { s.bump .LOG_ENERGY_KJ_KJ (e / 1000000) with log := { (s.bump .LOG_ENERGY_KJ_KJ (e / 1000000)).log with energyMs := ms, energyMj := e % 1000000 } }

/-- The cold plate's sensors as the Keel reads them (R577): flow in 0.1 L/min, inlet and outlet in C. -/
def State.coolant (s : State) (r : Option (Nat × Nat × Nat)) : State :=
  match r with
  | none => s
  | some (flow, inlet, outlet) =>
    let s := ((s.setF .COOLANT_FLOW_DL flow).setF .COOLANT_INLET_C inlet).setF .COOLANT_OUTLET_C outlet
    { s with board := { s.board with inletMax := max s.board.inletMax (inlet % 256) } }

/-- CAP_CONTROL_TICK (R533), with the Keel's telemetry of that microsecond. -/
def State.capTick (s : State) (vin iin pin : Nat) (plate : Option (Nat × Nat × Nat)) : State :=
  if s.now < s.pwr.capAt + 1000 then s
  else
    let s := { s with pwr := { s.pwr with capAt := s.now } }.coolant plate
    let s := ((s.setF .PWRCLK_INPUT_VIN_MV vin).setF .PWRCLK_INPUT_IIN_DA iin).setF .PWRCLK_INPUT_PIN_W pin
    let cap := s.capW
    let s := s.setF .PWRCLK_CAP_CAP_W cap
    let st := s.getF .PWRCLK_CAP_STRETCH
    let ceil := s.getF .PWRCLK_CAP_CEIL_MHZ
    let us := fun (t n : Nat) => decide (t + n * 1000 ≤ s.now)
    let setCeil := fun (s : State) (v : Nat) => { s.setF .PWRCLK_CAP_CEIL_MHZ v with pwr := { s.pwr with ceilAt := s.now } }
    let s :=
      if cap < pin then
        let s := if st < 3 then s.setStretch (st + 1) else s
        if us s.pwr.ceilAt 5 then setCeil s (max (ceil - 25) 600) else s
      else if pin * 100 ≤ 97 * cap then
        (if 0 < st then (if us s.pwr.stretchAt 10 then s.setStretch (st - 1) else s)
        else if us s.pwr.ceilAt 50 then setCeil s (min (ceil + 25) 1500) else s)
      else s
    let s := if s.emergency then s.setF .PWRCLK_CAP_STRETCH 3 else s
    s.capTime

/-! ### Trips (R538, R539) -/

/-- JUNCTION_TRIP: an island's or the cox die's junction (`u` none) reads at or above TRIP_C. -/
def State.junctionTrip (s : State) (u : Option Nat) (tj : Nat) : State :=
  if tj < s.getF .KEEL_THERM_TRIP_C then s
  else
    let s := (s.setTj u tj).alarm 4 true
    { s with pwr := { s.pwr with emergTherm := true, coolSince := none, tripSince := some (s.pwr.tripSince.getD s.now) } }.emergUpdate

/-- THERM_TRIP: still at TRIP_C 1 ms later: the module fences, a FINAL record is written, the power stages go off. -/
def State.thermTrip (s : State) : State :=
  match s.pwr.tripSince with
  | none => s
  | some t =>
    if s.now < t + 1000000 || decide (s.maxTj < s.getF .KEEL_THERM_TRIP_C) then s
    else ((s.pwrFault 3 4).finalRec 3).powerOff

/-- A module that leaves its rack (Table 17.7): fenced with LEAVING, final checkpoints where the tray gave warning, GONE, FINAL. -/
def State.leaveRack (s : State) (fault : State → State) (warned : Bool) (cause : Nat) : State :=
  let paired := s.mirroring
  let inFabric := s.flag .FAB_CTRL_EN || natBit s.board.stages 5
  let s := fault { s with twin := { s.twin with leaving := true }, board := { s.board with booting := false } }
  let s := if warned && paired then s.checkpoints true else s
  let s := if inFabric then s.sendGone else s
  s.finalRec cause

/-- TRAY_LEAVE_N (R510, R573). -/
def State.trayLeave (s : State) : State :=
  let s := { s.setBit .SIDEBAND_LEVELS 2 false with board := { s.board with trayLow := true, trayHigh := none } }
  let s := s.wakeM3
  if s.twin.leaving then s else s.leaveRack (fun s => s.twinFault 6 4 s.peer) true 1

/-- INPUT_LOSS (R538). -/
def State.inputLoss (s : State) : State :=
  let s := { s with pwr := { s.pwr with inputLost := true } }
  if s.twin.leaving then s else s.leaveRack (fun s => s.pwrFault 4 4) false 2

/-! ### Detach (R509) and pool roles (R23) -/

/-- DRAIN_TIMEOUT: a FINISH detach has lasted DRAIN_S seconds: it goes on as HAND. -/
def State.drainTimeout (s : State) : State :=
  if s.pairState == 5 && s.twin.detach == some false && decide (s.twin.detachAt + atLeast1 (s.getF .TWIN_CTRL_DRAIN_S) * 1000000000 ≤ s.now) then
    { s with twin := { s.twin with detach := some true } }
  else s

/-! ### Meanings -/

def execDemandStep (uid : Nat) (idle : Bool) (s : State) := done (s.demandStep (uid % 16384) idle)
def execDroopTrip (uid cycles : Nat) (s : State) := done (s.droopTrip (uid % 16384) cycles)
def execThermalRead (uid tj : Nat) (s : State) := done (s.thermalRead (uid % 16384) (tj % 256))
def execDrainTimeout (s : State) := done s.drainTimeout
def execTrayLeaveN (s : State) := done s.trayLeave
def execCapControlTick (vin iin pin : Nat) (plate : Option (Nat × Nat × Nat)) (s : State) := done (s.capTick vin iin pin plate)
def execAlertAssert (source : Nat) (sensor : Bool) (s : State) := done (s.alertAssert (source % 4) sensor)
def execAlertDeassert (source : Nat) (sensor : Bool) (s : State) := done (s.alertDeassert (source % 4) sensor)
def execAlertClear (s : State) := done s.alertClear
def execSustained (s : State) := done s.alertSustained
def execInputLoss (s : State) := done s.inputLoss
def execJunctionTrip (uid : Option Nat) (tj : Nat) (s : State) := done (s.junctionTrip (uid.map (· % 16384)) (tj % 256))
def execThermTrip (s : State) := done s.thermTrip
def execTarget (m : Master) (t : Nat) (s : State) :=
  done (s.fieldWrite m Reg.PWRCLK_REQ fun s => ((s.setF .PWRCLK_REQ_TARGET t).requestM (t % 4)).2)
def execSeatSleepReq (m : Master) (mask : Nat) (s : State) := done (s.fieldWrite m Reg.PWRCLK_REQ fun s => (s.requestSeats (mask % 256)).2)
def execSeatSleepEntry (seat edges : Nat) (s : State) := done (s.seatEntry (seat % 8) edges)
def execWake (m : Master) (s : State) := done (s.hostWake m)
def execTimedWake (s : State) := done s.timedWake
def execStandbyExitComplete (okA okB : Bool) (s : State) := done (s.standbyExit okA okB)

end Sys2Proof.Machine
end

