-- ==== Sys2Proof/Machine/Keel.lean ====
section
/-! DEFINITION. The Keel partition: orders, their tests and commits, its lockstep (R527-R531, R541); a message's arrival at the management
endpoint (R591, R592). -/

namespace Sys2Proof.Machine

/-! ### Management messages -/

/-- Over I3C. -/
def MgmtSource.overI3c : MgmtSource → Bool
  | .busOwner => true
  | .i3c => true
  | _ => false

/-- A source from which operator operations are accepted (R592). -/
def MgmtSource.operator : MgmtSource → Bool
  | .busOwner => true
  | .function0 => true
  | _ => false

/-- A message arrives: counted; in M3 its edge wakes the module (Table 18.6). -/
def State.mgmtArrives (s : State) : State := (s.bump .MGMT_RX_COUNT).wakeM3

/-- The answer to an operation (R592). -/
def State.answerOp (s : State) (op : Nat) (q : Ask) (status detail : Nat) (body : List Nat) : State := s.emit (.answer op q.seq status detail body)

/-! ### An order's parts (Tables 18.7, 18.8) -/

/-- A field of an order's header. -/
def HeldOrder.fld (o : HeldOrder) (byte len : Nat) : Nat := bytesNum o.bytes byte len
def HeldOrder.signer (o : HeldOrder) : Nat := o.fld 6 1
def HeldOrder.kind (o : HeldOrder) : Nat := o.fld 7 1
def HeldOrder.orderSeq (o : HeldOrder) : Nat := o.fld 32 8
/-- The body. -/
def HeldOrder.body (o : HeldOrder) : List Nat := (o.bytes.drop 64).take (o.fld 12 4)
/-- The certificate: 256 bytes unless the anchor signs. -/
def HeldOrder.cert (o : HeldOrder) : List Nat := if o.signer = 2 then [] else (o.bytes.drop (64 + o.fld 12 4)).take 256
/-- Everything before the signature. -/
def HeldOrder.signed (o : HeldOrder) : List Nat := o.bytes.take (o.bytes.length - 96)
/-- The signature. -/
def HeldOrder.signature (o : HeldOrder) : List Nat := o.bytes.drop (o.bytes.length - 96)
/-- The writes of a WRITES order: offset and value. -/
def HeldOrder.writes (o : HeldOrder) : List (Nat × Nat) :=
  (List.range (o.fld 8 1)).map fun i => (bytesNum o.body (16 * i) 4, bytesNum o.body (16 * i + 8) 8)
/-- The slot of a KEY_INSTALL order. -/
def HeldOrder.slot (o : HeldOrder) : Nat := bytesNum o.body 0 1
/-- The anchor an ANCHOR_SET order installs. -/
def HeldOrder.newAnchor (o : HeldOrder) : List Nat := o.body.take 97

/-! ### Tests (Table 18.9) -/

/-- BODY_LEN that a kind and count ask for. -/
def bodyLen (kind count : Nat) : Nat := if kind = 0 then 16 * count else if kind = 1 then 2608 else 128

/-- The format: MAGIC, FORMAT, SIGNER, KIND, COUNT, BODY_LEN, reserved fields, and the length they give (DEDUCED: a length that differs is a wrong
BODY_LEN). -/
def HeldOrder.formatOk (o : HeldOrder) : Bool :=
  let count := o.fld 8 1
  o.fld 0 4 == 0x4C45454B && o.fld 4 2 == 1 && decide (o.signer ≤ 2) && decide (o.kind ≤ 2) &&
    (if o.kind = 0 then decide (1 ≤ count) && decide (count ≤ 16) else count == 0) &&
    zeroPart o.bytes 9 3 && o.fld 12 4 == bodyLen o.kind count && zeroPart o.bytes 48 16 &&
    o.bytes.length == 64 + o.fld 12 4 + (if o.signer = 2 then 0 else 256) + 96 &&
    (match o.kind with
      | 0 => (List.range count).all fun i => zeroPart o.body (16 * i + 4) 4
      | 1 => zeroPart o.body 1 7
      | _ => zeroPart o.body 97 31)

/-- The module's serial (Table 20.14). -/
def State.serial (s : State) : Nat := s.getF .IDENT_SERIAL_0_SERIAL_LO + 2 ^ 64 * s.getF .IDENT_SERIAL_1_SERIAL_HI

/-- The calendar clock has passed a time; while it is not set, no expiry is tested (R529). -/
def State.expired (s : State) (t : Nat) : Bool := s.log.calBase.isSome && decide (t < s.calendar)

/-- The certificate (Table 18.8): a reserved field set, a wrong MAGIC, a false signature, an expiry, a subject that does not govern this module. -/
def State.certOk (s : State) (o : HeldOrder) : Bool :=
  let c := o.cert
  let f := bytesNum c
  let reserved := decide (32 ≤ f 5 1) || decide (512 ≤ f 6 2) || decide (64 ≤ f 40 4) || !zeroPart c 149 11
  f 0 4 == 0x54524543 && Config.sigVerifies 3 s.pwr.anchor (c.take 160) (c.drop 160) && f 4 1 == o.signer && !reserved && !s.expired (f 44 8) &&
    (if o.signer = 0 then f 8 16 == s.serial || f 24 16 == s.serial
    else s.flag .KEEL_LOCATION_VALID && f 6 2 == s.getF .KEEL_LOCATION_RACK && !natBit (f 40 4) 5 && f 5 1 == 0 && zeroPart c 8 32)

/-- The scope bit of a WK register of the KEEL block (Table 18.8); none for what BAD_VALUE tests. -/
def keelScope (off : Nat) : Option Nat :=
  let r := Reg.KEEL_STATUS + off
  if r = Reg.KEEL_CAP ∨ r = Reg.KEEL_THERM ∨ r = Reg.KEEL_ALARM then some 0
  else if r = Reg.KEEL_EMERG ∨ r = Reg.KEEL_POWER then some 1
  else if r = Reg.KEEL_TWIN then some 2
  else if r = Reg.KEEL_LOG_POLICY then some 4
  else if r = Reg.KEEL_LOCATION then some 5
  else if 0x100 ≤ off ∧ off < 0x200 ∧ off % 8 = 0 then some 3
  else none

/-- Within scope; the anchor holds every scope, and ANCHOR_SET is the anchor's alone once one is set. -/
def State.inScope (s : State) (o : HeldOrder) : Bool :=
  let has := fun (b : Nat) => o.signer == 2 || natBit (bytesNum o.cert 40 4) b
  match o.kind with
  | 0 => o.writes.all fun w => (keelScope w.1).all has
  | 1 => has 3
  | _ => o.signer == 2 || s.pwr.anchor == []

/-- A value's field is in its range (Table 18.10); bit 63 of KEEL_LOG_POLICY is the erase request. -/
def keelValueOk (off v : Nat) : Bool :=
  let r := Reg.KEEL_STATUS + off
  let f := natBits v
  let within := fun (x lo hi : Nat) => decide (lo ≤ x) && decide (x ≤ hi)
  if r = Reg.KEEL_CAP then within (f 0 13) 2150 4600 && within (f 13 13) 2150 (f 0 13) && f 26 38 == 0
  else if r = Reg.KEEL_THERM then within (f 0 7) 80 100 && within (f 7 7) 90 105 && within (f 14 6) 30 45 && decide (f 0 7 < f 7 7) && f 20 44 == 0
  else if r = Reg.KEEL_ALARM then within (f 0 14) 1 10000 && within (f 14 16) 1 60000 && f 30 34 == 0
  else if r = Reg.KEEL_TWIN ∨ r = Reg.KEEL_LOCATION then f 16 48 == 0
  else if r = Reg.KEEL_EMERG ∨ r = Reg.KEEL_POWER then f 1 63 == 0
  else if r = Reg.KEEL_LOG_POLICY then within (f 0 16) 60 65535 && decide (f 16 3 ≤ 5) && f 20 43 == 0
  else if 0x100 ≤ off ∧ off < 0x200 ∧ off % 16 = 0 then true
  else if 0x100 ≤ off ∧ off < 0x200 ∧ off % 16 = 8 then f 2 62 == 0
  else false

/-- The first failing code of an order, 0 when it passes every test (R529). A first ANCHOR_SET comes over I3C and is signed by the key it installs. -/
def State.keelCode (s : State) (o : HeldOrder) : Nat :=
  let first := s.pwr.anchor == []
  let key := if o.signer ≠ 2 then (o.cert.drop 52).take 97 else if first then o.newAnchor else s.pwr.anchor
  let signedBy := fun (k : List Nat) => Config.sigVerifies 3 k o.signed o.signature
  if !o.formatOk then 0x01
  else if o.fld 16 16 ≠ s.serial then 0x02
  else if first && o.kind ≠ 2 then 0x03
  else if first && (!o.ask.src.overI3c || o.signer ≠ 2 || !signedBy o.newAnchor) then 0x04
  else if o.signer ≠ 2 && !s.certOk o then 0x05
  else if !s.inScope o then 0x06
  else if !signedBy key then 0x07
  else if o.orderSeq ≤ s.getF .KEEL_ORDER_SEQ_SEQ then 0x08
  else if (s.log.calBase.isNone && o.signer == 1) || s.expired (o.fld 40 8) then 0x09
  else match o.kind with
    | 0 => if o.writes.all fun w => keelValueOk w.1 w.2 then 0 else 0x0A
    | 1 => if o.slot ≤ 15 then 0 else 0x0A
    | _ => 0

/-! ### Answers -/

/-- The receipt: the code and ORDER_SEQ. -/
def receipt (code seq : Nat) : List Nat := packBytes [(1, code), (8, seq)]

/-- An order is refused: counted, logged, answered. -/
def State.refuseOrder (s : State) (o : HeldOrder) (code : Nat) : State :=
  let s := s.bump .KEEL_ORDERS_REFUSED
  let s := (s.setF .KEEL_LAST_REFUSE_CODE code).setF .KEEL_LAST_REFUSE_SEQ o.orderSeq
  (s.pwrFault 6 0).answerOp 0x20 o.ask (if code = 0x0B then 2 else 4) code (receipt code o.orderSeq)

/-- Treat the head of the queue: refused orders go, and the next is treated; one that passes every test stays until it commits. -/
def State.keelHead : Nat → State → State
  | 0, s => s
  | n + 1, s =>
    match s.pwr.keelQueue with
    | [] => s
    | o :: r =>
      let code := s.keelCode o
      if code = 0 then s else (({ s with pwr := { s.pwr with keelQueue := r } }).refuseOrder o code).keelHead n

/-- Orders are treated: during a boot, after B2 (Table 20.13). -/
def State.keelAwake (s : State) : Bool := !s.board.booting || natBit s.board.stages 2

/-- KEEL_ORDER (R529): one order is treated, four more wait. -/
def State.keelOrder (s : State) (q : Ask) (bs : List Nat) : State :=
  let s := s.mgmtArrives
  let o : HeldOrder := { ask := q, bytes := bs }
  if 5 ≤ s.pwr.keelQueue.length then s.refuseOrder o 0x0B
  else
    let alone := s.pwr.keelQueue == []
    let s := { s with pwr := { s.pwr with keelQueue := s.pwr.keelQueue ++ [o] } }
    if alone && s.keelAwake then s.keelHead 5 else s

/-- The head of the queue, when it has passed every test and is of the kind. -/
def State.acceptedOrder (s : State) (kind : Nat) : Option HeldOrder := s.pwr.keelQueue.head?.filter fun o => o.kind == kind && s.keelAwake

/-- An accepted order commits: KEEL_ORDER_SEQ, its ORDER record, what it does, the receipt; then the next is treated. -/
def State.commitOrder (s : State) (o : HeldOrder) (firstOff : Nat) (act : State → State) : State :=
  let s := { s with pwr := { s.pwr with keelQueue := s.pwr.keelQueue.tail } }
  let s := (s.setF .KEEL_ORDER_SEQ_SEQ o.orderSeq).bump .KEEL_ORDERS_ACCEPTED
  let s := s.logRec 9 (packBytes [(8, o.orderSeq), (1, o.kind), (1, o.signer), (4, firstOff)])
  ((act s).answerOp 0x20 o.ask 0 0 (receipt 0 o.orderSeq)).keelHead 5

/-! ### What writes do (R531) -/

/-- The strap and the location agree (R582); without a valid location there is no place to compare. -/
def State.strapOk (s : State) : Bool :=
  s.flag .KEEL_LOCATION_VALID && natBit (s.getF .SIDEBAND_LEVELS) 5 == s.flag .KEEL_LOCATION_SLOT

/-- Discovery is held for want of an identifier (R582). -/
def State.discoveryHeld (s : State) : Bool :=
  s.board.booting && natBit s.board.stages 5 && !natBit s.board.stages 10 && !s.flag .FAB_ID_VALID && !s.flag .BOOT_STATUS_STANDALONE

/-- A write of KEEL_TWIN (R488, R509): a change of PEER while ACTIVE detaches in HAND mode, and the identity follows the handover. `names` is the
module that the peer names, where it is known. -/
def State.twinWritten (s : State) (names : Option Nat) : State :=
  let same := s.getF .TWIN_ID_PEER == s.getF .KEEL_TWIN_PEER && s.getF .TWIN_ID_PAIR_EN == s.getF .KEEL_TWIN_PAIR_EN
  let en := s.flag .KEEL_TWIN_PAIR_EN
  if s.board.booting || s.pwr.off then s
  else if en && s.pairState == 2 && s.getF .TWIN_ID_PEER != s.getF .KEEL_TWIN_PEER then s.startDetach true
  else if en && s.pairState == 5 then s
  else if same && s.pairState != 0 && s.pairState != 4 then s
  else s.takeTwinId.pairUp names

/-- What a committed write of a register does. -/
def State.keelWritten (s : State) (seq : Nat) (names : Option Nat) (w : Nat × Nat) : State :=
  let r := Reg.KEEL_STATUS + w.1
  if r = Reg.KEEL_EMERG then s.emergUpdate
  else if r = Reg.KEEL_TWIN then s.twinWritten names
  else if r = Reg.KEEL_LOCATION then (if s.discoveryHeld && s.strapOk then (s.claimId true).trainAll else s)
  else if r = Reg.KEEL_LOG_POLICY then
    (if natBit w.2 63 then
      let s := s.logRec 13 (packBytes [(8, seq)])
      { s with log := { s.log with journal := [] } }
    else s)
  else if 0x100 ≤ w.1 then s.keyChanged ((w.1 - 0x100) / 16)
  else s

/-- WRITES: every write is applied together, then each acts; a power-off comes last. -/
def State.keelWrites (s : State) (names : Option Nat) : State :=
  match s.acceptedOrder 0 with
  | none => s
  | some o =>
    let ws := o.writes
    let was := s
    s.commitOrder o (ws.headD (0, 0)).1 fun s =>
      let s := ws.foldl (fun (s : State) (w : Nat × Nat) => s.regPut (Reg.KEEL_STATUS + w.1) (BitVec.ofNat 64 (if Reg.KEEL_STATUS + w.1 = Reg.KEEL_LOG_POLICY then w.2 % 2 ^ 63 else w.2))) s
      let acts := ws.filter fun w => Reg.KEEL_STATUS + w.1 != Reg.KEEL_POWER &&
        (decide (w.1 < 0x100) || was.regAt (Reg.KEEL_STATUS + w.1) != s.regAt (Reg.KEEL_STATUS + w.1))
      let s := acts.foldl (fun (s : State) (w : Nat × Nat) => s.keelWritten o.orderSeq names w) s
      if s.flag .KEEL_POWER_OFF && !was.flag .KEEL_POWER_OFF && !s.pwr.off then s.powerOff else s

/-- KEY_INSTALL: the slot takes its identifier and key and is valid, not revoked (R472). -/
def State.keyInstall (s : State) : State :=
  match s.acceptedOrder 1 with
  | none => s
  | some o =>
    let k := o.slot
    s.commitOrder o (0x100 + 16 * k) fun s =>
      let s := s.setF .KEEL_KEY_ID_KEY_ID (bytesNum o.body 8 8) (keySlotOff k)
      let s := (s.setF .KEEL_KEY_STATE_VALID 1 (keySlotOff k)).setF .KEEL_KEY_STATE_REVOKED 0 (keySlotOff k)
      let s := (List.range 324).foldl (fun (s : State) (i : Nat) =>
        s.setF .KEEL_KEY_DATA_KEY (bytesNum o.body (16 + 8 * i) 8) (0x1000 * k + 8 * i)) s
      s.keyChanged k

/-- ANCHOR_SET: the anchor and its identifier. -/
def State.anchorSet (s : State) : State :=
  match s.acceptedOrder 2 with
  | none => s
  | some o =>
    s.commitOrder o 0x010 fun s =>
      let s := { s with pwr := { s.pwr with anchor := o.newAnchor } }
      (s.setF .KEEL_ANCHOR_ID_ID (digestNum o.newAnchor)).setF .KEEL_STATUS_ANCHOR_SET 1

/-- KEEL_LOCKSTEP (Table 18.10): the Keel is reset and reloads its WK state from flash, which every commit wrote; orders that wait are gone. -/
def State.lockstep (s : State) : State :=
  let s := { s with pwr := { s.pwr with keelQueue := [] } }
  let s := (s.regPut Reg.KEEL_ORDERS 0).regPut Reg.KEEL_LAST_REFUSE 0
  s.pwrFault 7 4

/-! ### Meanings -/

def execKeelOrder (q : Ask) (bs : List Nat) (s : State) := done (s.keelOrder q bs)
def execWrites (names : Option Nat) (s : State) := done (s.keelWrites names)
def execKeyInstall (s : State) := done s.keyInstall
def execAnchorSet (s : State) := done s.anchorSet
def execKeelLockstep (s : State) := done s.lockstep

end Sys2Proof.Machine
end

