-- ==== Sys2Proof/Machine/Board.lean ====
section
/-! DEFINITION. Board and bring-up (chapter 20): references and time, resets, rails, the stages of a full boot. -/

namespace Sys2Proof.Machine

/-! ### Rails (R574, R575) -/

/-- A rail's nominal millivolts by its RAIL_SEL number (Table 20.3); the bulk and the HBM rails have none of their own. -/
def railMv (r : Nat) : Nat :=
  if r = 0 then 750 else if r = 1 then 800 else if r = 3 then 1800 else if r = 4 then 750
  else if 5 ≤ r ∧ r ≤ 12 then 800 else if 13 ≤ r ∧ r ≤ 20 then 900 else if r = 24 then 900 else 0

/-- A rail is good at its nominal voltage; one with none keeps the voltage it shows. -/
def State.railGood (s : State) (r : Nat) : State :=
  let s := if railMv r = 0 then s else s.setF .RAIL_STAT_MV (railMv r) (inst r)
  s.setF .RAIL_STAT_STATE 2 (inst r)

/-- The host link no longer works: nothing is posted over it (R5). -/
def State.hostLinkDead (s : State) : State := (s.setF .HOSTVI_LINK_WIDTH 0).setF .HOSTVI_LINK_RATE 0

/-- RAIL_FAULT (R575): the module fences and turns its rails off as in M4; its host link goes with the rail (R5). -/
def State.railFault (s : State) (r : Nat) : State :=
  ((s.hostLinkDead.boardFault 3 4 r).powerOff).setF .RAIL_STAT_STATE 3 (inst r)

/-- Registers that a loss of input power leaves: the Keel's flash region, the firmware flash's parameters, the identity. -/
def flashReg (key : Nat) : Bool :=
  let r := canonReg (key % instStride)
  [Reg.KEEL_ORDER_SEQ, Reg.KEEL_ANCHOR_ID, Reg.KEEL_CAP, Reg.KEEL_THERM, Reg.KEEL_ALARM, Reg.KEEL_TWIN, Reg.KEEL_LOCATION, Reg.KEEL_EMERG,
    Reg.KEEL_POWER, Reg.KEEL_LOG_POLICY, Reg.KEEL_KEY_ID, Reg.KEEL_KEY_STATE, Reg.KEEL_KEY_DATA, Reg.BOOT_PARAM, Reg.BOOT_TIME,
    Reg.IDENT_PART, Reg.IDENT_SERIAL_0, Reg.IDENT_SERIAL_1].contains r

/-- Every rail is off: what no flash holds is lost, records not yet programmed with it (Table 19.11); the ledger is read back (R565). -/
def State.inputGone (s : State) : State :=
  let s := s.powerOff
  let l := s.log
  let s : State :=
    { regs := s.regs.filter fun p => flashReg p.1
      units := s.units
      tiers := s.tiers
      log := { journal := l.journal, nextSeq := l.nextSeq, badSectors := l.badSectors, ledger := l.ledger, ledgerSaves := l.ledgerSaves, lastDaily := l.lastDaily }
      pwr := { off := true, anchor := s.pwr.anchor, inputLost := s.pwr.inputLost }
      board := { bankA := s.board.bankA, bankB := s.board.bankB }
      out := s.out
      fresh := s.fresh
      pending := s.pending }
  let s := l.ledger.foldl (fun (s : State) (p : Nat × Word) => s.regPut p.1 p.2) s
  (s.setF .KEEL_STATUS_ANCHOR_SET (bit (s.pwr.anchor != []))).setF .LOG_STATUS_WRITE_FAIL (bit (l.badSectors != 0))

/-- HOLDUP_END: the bulk capacitance is below 32 V: rails 3 to 8 go down, VAON and VKEEL too when the input is below 32 V. -/
def State.holdupEnd (s : State) (inputGone : Bool) : State :=
  if !s.pwr.inputLost then s else if inputGone then s.inputGone else s.powerOff

/-! ### References (R578) -/

/-- A reference is lost: counted, the module fences; before B12 device-ready is withheld (Table 20.13). -/
def State.refLost (s : State) (f : Fld) (b : Nat) : State :=
  let s := s.setF f 0
  let s := s.setF .REF_STAT_LOSSES (min 65535 (s.getF .REF_STAT_LOSSES + 1))
  let was := s.board.booting
  let s := s.boardFault b 4 0
  if was then
    let s := (s.setF .BOOT_STATUS_FAILED 1).setF .BOOT_STATUS_FAIL_CODE 6
    { s with board := { s.board with booting := false } }
  else s

/-- REF100_LOST: the host link runs from this reference (Table 20.5), so it no longer works (R5). -/
def State.ref100Lost (s : State) : State := s.hostLinkDead.refLost .REF_STAT_REF100_OK 0

/-- REF156_LOST: every port loses lock with it. -/
def State.ref156Lost (s : State) : State :=
  (List.range 32).foldl (fun (s : State) (p : Nat) => if s.portUp p then s.portLost p else s) (s.refLost .REF_STAT_REF156_OK 1)

/-! ### The time reference (R581, R399) -/

/-- TIME_PPS: an edge; three in a row, each announced and 10^9 ± 200 ns after the one before, lock the reference. A root follows it. -/
def State.timePps (s : State) : State :=
  let b := s.board
  let gap := s.now - b.ppsLast
  let inRow := decide (0 < b.ppsEdges) && decide (999999800 ≤ gap) && decide (gap ≤ 1000000200)
  let edges := if b.ppsAnnounced.isNone then 0 else if inRow then min 3 (b.ppsEdges + 1) else 1
  let s := { s with board := { b with ppsEdges := edges, ppsLast := s.now, ppsAnnounced := none } }
  let s := if edges = 3 && !s.flag .REF_STAT_PPS_LOCK then
      let s := s.setF .REF_STAT_PPS_LOCK 1
      let s := if s.board.rootAllow then s.setF .FAB_CTRL_ROOT_OK 1 else s
      if s.flag .BOOT_STATUS_STANDALONE then s else s.chooseParent true
    else s
  match b.ppsAnnounced with
  | some sec =>
    if s.flag .REF_STAT_PPS_LOCK && s.flag .FAB_STATUS_TIME_ROOT then
      let s := s.adjust (s.getF .HOSTVI_DEV_STATUS_READY == 1) ((sec * 1000000000 : Nat) - (s.now : Int))
      { s with board := { s.board with ppsLast := s.now } }
    else s
  | none => s

/-- PPS_LOST: no edge for 2 s. -/
def State.ppsLost (s : State) : State :=
  if !s.flag .REF_STAT_PPS_LOCK || decide (s.now < s.board.ppsLast + 2000000000) then s
  else
    let s := { s.setF .REF_STAT_PPS_LOCK 0 with board := { s.board with ppsEdges := 0 } }
    let s := s.boardFault 2 1 0
    if s.flag .BOOT_STATUS_STANDALONE then s else s.chooseParent false

/-! ### Resets (R583, R584) -/

/-- PERST_N: asserted, it acts as DL_Down. -/
def State.perst (s : State) (asserted : Bool) : State :=
  let s := { s.setBit .SIDEBAND_LEVELS 3 (!asserted) with board := { s.board with perst := asserted } }
  if !asserted then s
  else
    let s := s.wakeM3.dlDown
    { s with board := { s.board with vfEnable := false } }

/-- MOD_RESET_N asserted: the module fences and everything but the Keel and the always-on domain is reset; ignored in hold-up. -/
def State.modReset (s : State) : State :=
  if s.pwr.inputLost && s.fenced then s
  else
    let s := ((s.setBit .SIDEBAND_LEVELS 4 false).fence "FENCE" false).bare
    { s with board := { s.board with resetHeld := true } }

/-- Causes of a full boot (Table 20.14 BOOT_CAUSE): 0 power-on, 1 release of MOD_RESET_N, 2 input restored, 3 a Keel reset. -/
def State.bootMay (s : State) (cause : Nat) : Bool := if cause = 1 then s.board.resetHeld else if cause = 2 then s.pwr.inputLost else true

/-- FULL_BOOT: B0 is complete. `slotOpen` is the SLOT_ID strap. -/
def State.fullBoot (s : State) (cause : Nat) (slotOpen : Bool) : State :=
  if !s.bootMay cause then s
  else
    let off := s.pwr.off || cause != 1
    let s := s.bare
    let s := { s with
        pwr := { s.pwr with off := off, inputLost := if cause = 2 then false else s.pwr.inputLost }
        board := { s.board with booting := true, bootSince := s.now, stages := 1, resetHeld := false, rootAllow := s.flag .BOOT_PARAM_ROOT_ALLOW } }
    let s := ((s.regPut Reg.BOOT_STATUS 0).setF .BOOT_STATUS_STAGE 1).setF .BOOT_STATUS_STANDALONE (s.getF .BOOT_PARAM_STANDALONE)
    let s := (s.setF .BOOT_CAUSE_CAUSE cause).bump .BOOT_TIME_BOOTS
    let s := if cause = 1 then s.setBit .SIDEBAND_LEVELS 4 true else s
    (s.setBit .SIDEBAND_LEVELS 5 slotOpen).faultPin (!off)

/-- Device-ready is withheld (R586, Table 20.10): the first failing code stays. -/
def State.bootFail (s : State) (code : Nat) : State :=
  let s := (s.setF .BOOT_STATUS_FAILED 1).setF .BOOT_STATUS_FAIL_CODE code
  let s := { s with board := { s.board with booting := false } }
  (s.boardFault 5 4 0).faultPin false

/-! ### Stages (Table 20.8) -/

/-- The stages that must be complete before a stage can be: those named as its start. -/
def State.bootStarts (s : State) (stage : Nat) : List Nat :=
  match stage with
  | 1 => [0]
  | 2 => [1]
  | 3 => [2]
  | 4 => [3]
  | 5 => [4]
  | 6 => [5]
  | 7 => [6]
  | 8 => [7]
  | 9 => [4]
  | 10 => [5]
  | 11 => [10]
  | 12 => if s.flag .BOOT_STATUS_STANDALONE then [8, 9] else [8, 9, 11]
  | _ => [0]

/-- The standard logical ports (Table 13.3): members, role 1 cube, 2 uplink, 3 twin, dimension. -/
def standardPorts : List (Nat × Nat × Nat) :=
  [(0xF, 1, 0), (0xF0, 1, 1), (0xF00, 1, 2), (0xF000000, 1, 3), (0xF00000, 1, 4), (0xF0000, 1, 5), (0x1000, 2, 0), (0x2000, 2, 0), (0x4000, 2, 0),
    (0x8000, 2, 0), (0x10000000, 2, 0), (0x20000000, 2, 0), (0xC0000000, 3, 0)]

/-- B10 begins: FAB_LPORT, the identity by location and strap (R582), training. A standalone module takes its number and trains nothing (R588). -/
def State.beginFabric (s : State) : State :=
  if s.flag .BOOT_STATUS_STANDALONE then s.claimId (s.flag .KEEL_LOCATION_VALID)
  else
    let s := ((List.range 13).zip standardPorts).foldl (fun (s : State) (x : Nat × Nat × Nat × Nat) =>
      ((s.setF .FAB_LPORT_MEMBERS x.2.1 (inst x.1)).setF .FAB_LPORT_ROLE x.2.2.1 (inst x.1)).setF .FAB_LPORT_DIM x.2.2.2 (inst x.1)) s
    if s.strapOk then ((s.claimId true).takeTwinId).trainAll else (s.claimId false).boardFault 7 1 0

/-- B4: the bank with the higher version whose images verify, as written and as the flash gives them (`okA`, `okB`); the other when that one fails. -/
def State.chooseBank (s : State) (okA okB : Bool) : State :=
  let b := s.board
  let second := decide (b.bankA.cox.version < b.bankB.cox.version)
  let good := fun (k : Bank) => k.cox.verifies && k.phy.verifies
  let ok := fun (second : Bool) => if second then okB && good b.bankB else okA && good b.bankA
  if !ok false && !ok true then s.bootFail 1
  else
    let run := if ok second then second else !second
    let v := (if run then b.bankB else b.bankA).cox.version
    let s := ((s.setF .IDENT_FW_MAJOR (v / 65536)).setF .IDENT_FW_MINOR v).setF .IDENT_FW_BANK (bit run)
    let s := { s with board := { s.board with running := run } }
    if ok second then s else s.boardFault 4 1 0

/-- B6: each stack's training; a stack that is down withholds device-ready; repaired frames are FREE. -/
def State.trainStacks (s : State) (x : BootReport) : State :=
  let rate := fun (k : Nat) => x.hbm.getD k 0
  let s := (List.range 24).foldl (fun (s : State) (k : Nat) =>
    let s := { s with tiers := { s.tiers with hbmTrainTemp := SMap.put s.tiers.hbmTrainTemp k (s.getF .TIERS_HBM_STAT_TEMP_C (stackOff k)) } }
    if rate k < 2 then s.hbmTrained k (rate k) else s.setF .TIERS_HBM_STAT_STATE 3 (stackOff k)) s
  let s := s.setF .TIERS_CAP_STACKS_UP ((List.range 24).filter fun k => rate k < 2).length
  let s := { s with tiers := { s.tiers with frames := s.tiers.frames.filter fun p => !(p.2.retired && x.repaired.contains p.1) } }
  if (List.range 24).any fun k => 2 ≤ rate k then s.bootFail 2 else s

/-- B8: every unit is tested; one that fails is retired, one retired before and good now returns to service (R589, R590). -/
def State.testUnits (s : State) (x : BootReport) : State :=
  let s := { s with board := { s.board with testRuns := (s.board.testRuns + 1) % 65536 },
                    units := s.units.map fun (p : Nat × UnitSt) => (p.1, { p.2 with retired := false }) }
  let s := (x.failed.eraseDups.filter fun u => decide (u < 16384)).foldl State.retireUnit s
  let beyond := fun (k : Nat) =>
    let bad := s.units.filter fun p => seatOf p.1 == k && p.2.retired
    decide (64 < (bad.filter fun p => !isService p.1).length) || decide (2 < (bad.filter fun p => isService p.1).length)
  if x.seatsFailed != [] || (List.range 8).any beyond then s.bootFail 3 else s

/-- B9: CXL ports come online; frames their poison lists name are retired. -/
def State.bootCxl (s : State) (x : BootReport) : State :=
  x.cxl.foldl (fun (s : State) (c : CxlFound) =>
    let s := (s.brHotAdd c.port c.width c.rate c.flit256 c.lopt c.single c.gib).brOnline .cox c.port
    c.poison.foldl (fun (s : State) (o : Nat) => s.dueRetire ((portBase (c.port % 4) + o) / 65536) 1) s) s

/-- FORCE_STATIC of every unit and of every seat's stream engines is cleared (R55, R230). -/
def State.clearStatic (s : State) : State :=
  let keys := (List.range 8).flatMap fun k => (Reg.STREAM_MODE + seatOff k) :: (List.range 1024).map fun i => Reg.SEQ_MODE + unitOff (2048 * k + i)
  { s with regs := (keys.map fun k => (k, putBits (s.regAt k) 0 1 0)) ++
      s.regs.filter fun p => let c := canonReg (canonOff (p.1 % instStride)); c != Reg.SEQ_MODE && c != Reg.STREAM_MODE }

/-- A standalone module is its own time root (R588): without a locked reference it counts from 0, and what it measured from an earlier count is
measured afresh. -/
def State.ownRoot (s : State) : State :=
  let s := (s.setF .FAB_STATUS_TIME_ROOT 1).setF .FAB_TIME_STAT_DEPTH 0
  if s.flag .REF_STAT_PPS_LOCK then s.synced
  else
    { s with
      now := 0
      pwr := { s.pwr with alertSince := s.pwr.alertSince.map fun _ => 0, clearSince := s.pwr.clearSince.map fun _ => 0, capAt := 0, ceilAt := 0, stretchAt := 0,
                          tripSince := s.pwr.tripSince.map fun _ => 0, coolSince := s.pwr.coolSince.map fun _ => 0 }
      board := { s.board with ppsLast := 0, ppsEdges := 0, trayHigh := s.board.trayHigh.map fun _ => 0 }
      log := { s.log with lastPeriodic := 0, second := 0, energyMs := 0 } }

/-- The BOOT record (Table 19.9a). -/
def State.bootRec (s : State) : State :=
  s.logRec 1 (packBytes [(1, 16 * s.getF .IDENT_PART_STEP_MAJOR + s.getF .IDENT_PART_STEP_MINOR), (1, s.getF .IDENT_FW_MAJOR), (1, s.getF .BOOT_CAUSE_CAUSE),
    (16, s.serial)])

/-- B12: gateway groups, dynamic rate, the Tiller, the fabric, the BOOT record, READY. -/
def State.bootReady (s : State) : State :=
  let alone := s.flag .BOOT_STATUS_STANDALONE
  let ms := (s.now - s.board.bootSince) / 1000000
  let s := s.loadGateways.clearStatic
  let s := (s.setF .TIERS_TILLER_CTRL_EN 1).setF .FAB_CTRL_EN (bit (!alone))
  let s := if alone then s.ownRoot else s
  let s := s.bootRec
  let s := (s.setF .BOOT_STATUS_STAGE 12).setF .BOOT_TIME_MS ms
  let s := { s with board := { s.board with booting := false } }
  let s := (s.setF .PWRCLK_HOST_WAKE_WAKE 0).setReady true
  if s.flag .KEEL_TWIN_PAIR_EN then s.takeTwinId.pairUp none else s

/-- A stage's conditions beside its start: rails 3 to 8 wait for 44 V, the tray, the order and the junctions (R574; the bulk is at
the input's voltage by then, log 125); B5 ends once every seat's network has come READY
by its marker barrier (SEAT_NET_READY, R130); discovery waits for a first cube port or
uplink (R587), the tables for discovery. -/
def State.stageMay (s : State) (stage : Nat) : Bool :=
  match stage with
  | 3 => decide (44000 ≤ s.getF .PWRCLK_INPUT_VIN_MV) && !s.flag .KEEL_POWER_OFF && s.board.trayHigh.isSome && !s.board.trayLow && decide (s.maxTj < s.getF .KEEL_THERM_TRIP_C)
  | 5 => (List.range 8).all fun k => s.flag .NET_STATUS_READY (seatOff k)
  | 10 => s.flag .FAB_ID_VALID && (s.getF .FAB_STATUS_CUBE_UP != 0 || s.getF .FAB_STATUS_UPLINK_UP != 0 || (s.fab.ports.any fun p => p.2.conflict))
  | 11 => s.flag .FAB_STATUS_DISCOVERED
  | _ => true

/-- What a completed stage does. -/
def State.stageDone (s : State) (stage : Nat) (x : BootReport) : State :=
  match stage with
  | 1 => ((s.railGood 0).railGood 1).railGood 2
  | 2 => if x.keelOk then s.keelHead 5 else s.bootFail 5
  | 3 =>
    let s := (upperRails.foldl State.railGood s).faultPin true
    { (s.setF .REF_STAT_REF100_OK 1).setF .REF_STAT_REF156_OK 1 with pwr := { s.pwr with off := false } }
  | 4 => s.chooseBank x.okA x.okB
  | 5 => s.beginFabric
  | 6 => s.trainStacks x
  | 7 => s.zeroRange 0 0x022000000000
  | 8 => s.testUnits x
  | 9 => s.bootCxl x
  | 10 => if s.fab.ports.any fun p => p.2.conflict then s.bootFail 4 else s
  | 12 => s.bootReady
  | _ => s

/-- The stage BOOT_STATUS shows: the lowest in progress. -/
def State.stageShown (s : State) : Nat :=
  ((List.range 13).find? fun k => !natBit s.board.stages k && (s.bootStarts k).all fun j => natBit s.board.stages j).getD 12

/-- BOOT_STAGE_COMPLETE (R585). -/
def State.bootStage (s : State) (stage : Nat) (x : BootReport) : State :=
  let skipped := s.flag .BOOT_STATUS_STANDALONE && (stage == 10 || stage == 11)
  if !s.board.booting || natBit s.board.stages stage || !(s.bootStarts stage).all (natBit s.board.stages ·) || skipped || !s.stageMay stage then s
  else
    let s := { s with board := { s.board with stages := s.board.stages + 2 ^ stage } }
    let s := s.stageDone stage x
    if s.board.booting then s.setF .BOOT_STATUS_STAGE s.stageShown else s

/-- PORT_RETRY (R587): in rack mode a port that is DOWN, neither disabled, miswired nor in conflict, is retrained every second. -/
def State.portRetry (s : State) : State :=
  let rack := natBit s.board.stages 5 && !s.flag .BOOT_STATUS_STANDALONE && !s.pwr.off && !s.fenced
  if !rack then s
  else
    let down := (List.range 32).filter fun p => s.portState p == 0 && !(s.port p).conflict && !s.flag .FAB_PORT_CTRL_DISABLE (inst p)
    let s := s.setF .BOOT_STATUS_RETRYING (bit (down != []))
    if s.flag .FAB_ID_VALID then down.foldl State.retrain s else s

/-- TRAY_LEAVE_N_RELEASE: deasserted for 100 ms. -/
def State.trayRelease (s : State) : State :=
  { s.setBit .SIDEBAND_LEVELS 2 true with board := { s.board with trayLow := false, trayHigh := some s.now } }

/-! ### Meanings -/

def execRailFault (rail : Nat) (s : State) := done (s.railFault (rail % 25))
def execHoldupEnd (inputGone : Bool) (s : State) := done (s.holdupEnd inputGone)
def execRef100Lost (s : State) := done s.ref100Lost
def execRef156Lost (s : State) := done s.ref156Lost
def execTimePps (s : State) := done s.timePps
def execPpsLost (s : State) := done s.ppsLost
def execPerstN (asserted : Bool) (s : State) := done (s.perst asserted)
def execModResetN (s : State) := done s.modReset
def execFullBoot (cause : Nat) (slotOpen : Bool) (s : State) := done (s.fullBoot (cause % 4) slotOpen)
def execBootStageComplete (stage : Nat) (x : BootReport) (s : State) := done (s.bootStage (stage % 13) x)
def execPortRetry (s : State) := done s.portRetry
def execTrayLeaveNRelease (s : State) := done s.trayRelease

end Sys2Proof.Machine
end

