-- ==== Sys2Proof/Machine/Observe.lean ====
section
/-! DEFINITION. The host driver's side of the error ring, photo-finish snapshots, performance counters and the logbook (chapter 19). -/

namespace Sys2Proof.Machine

/-- A field write of the ERROBS block, which the PF host driver makes: a virtual interface's window does not hold it. -/
def State.pfWrite (s : State) (m : Master) (off : Nat) (act : State → State) : State :=
  match m with
  | .vf _ => if s.reached m then s.notice 0 nAccessHole off else s
  | _ => act s

/-! ### The error ring (R549, R550) -/

/-- Backlog records enter the ring in order as it has room. -/
def State.drainBacklog : Nat → State → State
  | 0, s => s
  | n + 1, s =>
    match s.err.backlog with
    | [] => s
    | r :: t => if s.errHeld < 1024 then ({ s with err := { s.err with backlog := t } }.ringPlace r).drainBacklog n else s

/-- ERR_RING_CONS: CONS moves forward, not past PROD. -/
def State.writeCons (s : State) (m : Master) (v : Nat) : State :=
  s.pfWrite m Reg.ERR_RING_CONS fun s =>
    let fwd := (v % 2 ^ 32 + 2 ^ 32 - s.getF .ERR_RING_CONS_CONS) % 2 ^ 32
    if s.errHeld < fwd then s.notice 0x10 nAccessState Reg.ERR_RING_CONS
    else (s.setF .ERR_RING_CONS_CONS v).drainBacklog 1024

/-! ### Photo finish (R557-R560) -/

/-- Destination code of a notice to every module of the system slice. -/
def everyModule : Nat := 2 ^ 15

/-- Whether this module is named by a trigger's scope. -/
def State.inScopeOf (s : State) (scope slice : Nat) : Bool := scope != 1 || (s.sliceOf slice).contains s.self

/-- Start a trigger: number it, tell the modules its scope names, schedule it here. -/
def State.startTrigger (s : State) (target scope slice source : Nat) : State :=
  let (t, s) := s.newTrigger target scope slice source
  let args := [t.id, target, scope, slice]
  let s := if scope = 1 then (s.sliceOf slice).foldl (fun (s : State) (m : Nat) => if m = s.self then s else s.emit (.message "PHOTO_FINISH" m args)) s
    else if scope = 2 then s.emit (.message "PHOTO_FINISH" everyModule args)
    else s
  if s.inScopeOf scope slice then s.schedule t else s

/-- GO: SCOPE 3 is reserved, and GO is then discarded. -/
def State.snapGo (s : State) (m : Master) : State :=
  s.pfWrite m Reg.SNAP_CTRL fun s =>
    let scope := s.getF .SNAP_CTRL_SCOPE
    if scope = 3 then s else s.startTrigger (s.getF .SNAP_TARGET_T) scope (s.getF .SNAP_CTRL_SLICE) 0

/-- PHOTO_FINISH from another module; one outside the named slice ignores it. -/
def State.photoFinish (s : State) (id target scope slice : Nat) : State :=
  if s.inScopeOf scope slice then s.schedule { id := id % 2 ^ 32, target := target, scope := scope, slice := slice, source := 3, late := false } else s

/-- Insert a trigger by its target. -/
def insertTrigger (t : Trigger) : List Trigger → List Trigger
  | [] => [t]
  | u :: r => if t.target < u.target then t :: u :: r else u :: insertTrigger t r

/-- SNAPSHOT_LATCH: triggers whose target has come, the earliest first. -/
def State.snapshotLatch (s : State) : State :=
  let due := (s.snap.scheduled.filter fun t => decide (t.target ≤ s.now)).foldl (fun l t => insertTrigger t l) []
  let s := { s with snap := { s.snap with scheduled := s.snap.scheduled.filter fun t => decide (s.now < t.target) } }
  due.foldl State.latch s

/-- SNAPSHOT_PACK: the oldest latch goes to the next slot, over the oldest snapshot, and to the host when asked. -/
def State.snapshotPack (s : State) : State :=
  match s.snap.shadows with
  | [] => s
  | sh :: r =>
    let slot := if s.snap.slots = [] then 0 else (s.snap.newest + 1) % 4
    let copy := s.flag .SNAP_CTRL_HOST_COPY && s.getF .HOSTVI_LINK_WIDTH != 0
    let room := s.getF .SNAP_HOST_LEN_BYTES / 64
    let x : Snapshot := { shadow := sh, trunc := copy && decide (room < sh.records) }
    let s := { s with snap := { s.snap with shadows := r, slots := SMap.put s.snap.slots slot x, newest := slot } }
    if copy then
      s.emit (.hostData (s.getF .SNAP_HOST_ADDR_ADDR / 64 * 64)
        (((List.range (min room sh.records)).flatMap fun n => x.record n s.self).map fun b => BitVec.ofNat 8 b) false)
    else s

/-! ### Performance counters (R561) -/

/-- PMC_SEL.CLEAR. -/
def State.pmcClear (s : State) (m : Master) (k : Nat) : State :=
  s.pfWrite m (Reg.PMC_SEL + 16 * k) fun s => s.setF .PMC_COUNT 0 (16 * k)

/-! ### Logbook (R562-R567) -/

/-- LOG_SEL: the master's copy of the selector takes the value, and the record is to be fetched for it (R567, R605). -/
def State.logSelect (s : State) (m : Master) (q : Nat) : State :=
  s.pfWrite m Reg.LOG_SEL fun s =>
    { s with sel := s.sel.set 0 (selKey m Reg.LOG_SEL) (q % 2 ^ 32) }.logFetch m q

/-- LOG_READY: the fetch that has waited longest ends. -/
def State.logReady (s : State) : State :=
  match s.log.fetch with
  | [] => s
  | (m, q) :: rest =>
    let r := s.log.journal.find? fun (x : LogRec) => x.seq % 2 ^ 32 == q
    { s with log := { s.log with fetch := rest, fetched := (s.log.fetched.filter fun p => p.1 != m) ++ [(m, r)] } }

/-- LOG_PERIODIC. -/
def State.logPeriodic (s : State) : State :=
  if s.now < s.log.lastPeriodic + s.getF .KEEL_LOG_POLICY_PERIODIC_S * 1000000000 then s
  else
    let s := s.logRec 2 s.periodicBody
    let s := { s with log := { s.log with lastPeriodic := s.now } }
    s.saveLedger

/-- LOG_DAILY: every 24 h of power-on, each seat's worst island delay drift as measured and the errors of each stack since the last records. -/
def State.logDaily (s : State) (drifts : List Nat) : State :=
  let on := s.getF .LOG_POWER_ON_S_S
  if on < s.log.lastDaily + 86400 then s
  else
    let s := (List.range 8).foldl (fun (s : State) (k : Nat) => s.setF .LOG_AGING_DRIFT (drifts.getD k 0) (8 * k)) s
    let s := s.logRec 10 (packBytes ((List.range 8).map fun k => (4, s.getF .LOG_AGING_DRIFT (8 * k))))
    let hbm := fun (first : Nat) => packBytes ((1, first) :: (List.range 12).flatMap fun k =>
      [(2, min 65535 (SMap.get 0 s.log.stackCe (first + k))), (1, min 255 (SMap.get 0 s.log.stackUe (first + k)))])
    let s := (s.logRec 11 (hbm 0)).logRec 11 (hbm 12)
    { s with log := { s.log with lastDaily := on, stackCe := [], stackUe := [] } }

/-- Records that the journal holds with one erased sector ahead. -/
def State.journalRoom (s : State) : Nat := (4078 - s.log.badSectors - 1) * 1023

/-- LOG_PROGRAM: the record at the head of the buffer is programmed; a sector that fails is bad and skipped, and the record waits. -/
def State.logProgram (s : State) (ok : Bool) : State :=
  match s.log.buffered with
  | [] => s
  | r :: t =>
    if ok then
      let j := s.log.journal ++ [r]
      { s with log := { s.log with buffered := t, journal := if s.journalRoom < j.length then j.drop 1023 else j } }
    else
      let s := { s with log := { s.log with badSectors := s.log.badSectors + 1 } }
      (s.setF .LOG_STATUS_WRITE_FAIL 1).errobs 4 1

/-- LOG_SUPPRESSED: one record for a second in which records were not written, by kind, three bytes to a kind. -/
def State.logSuppressed (s : State) : State :=
  if s.log.suppressed = [] then s
  else
    let body := packBytes ((List.range 13).map fun k => (3, SMap.get 0 s.log.suppressed (k + 1)))
    let s := { s with log := { s.log with suppressed := [], accepted := min s.log.accepted 63 } }
    (s.logRec 12 body).errobs 5 0

/-! ### Meanings -/

def execErrRingCons (m : Master) (v : Nat) (s : State) := done (s.writeCons m v)
def execGo (m : Master) (s : State) := done (s.snapGo m)
def execPhotoFinish (id target scope slice : Nat) (s : State) := done (s.photoFinish id target (scope % 3) slice)
def execSnapshotLatch (s : State) := done s.snapshotLatch
def execSnapshotPack (s : State) := done s.snapshotPack
def execClear (m : Master) (k : Nat) (s : State) := done (s.pmcClear m (k % 16))
def execLogSel (m : Master) (seq : Nat) (s : State) := done (s.logSelect m seq)
def execLogReady (s : State) := done s.logReady
def execLogPeriodic (s : State) := done s.logPeriodic
def execLogDaily (drifts : List Nat) (s : State) := done (s.logDaily drifts)
def execLogProgram (ok : Bool) (s : State) := done (s.logProgram ok)
def execLogSuppressed (s : State) := done s.logSuppressed

end Sys2Proof.Machine
end

