-- ==== Sys2Proof/Machine/Mgmt.lean ====
section
/-! DEFINITION. The management endpoint: MCTP control, Kartevi operations (Table 20.9), PLDM, SPDM (R591-R595), pool roles (R23), and the test port
(R598). -/

namespace Sys2Proof.Machine

/-! ### The endpoint -/

/-- The endpoint is up: not while the power stages are off nor in reset; during a boot once B4 is complete. -/
def State.endpointUp (s : State) : Bool := !s.pwr.off && !s.board.resetHeld && (!s.board.booting || natBit s.board.stages 4)

/-- An operation (R592): the message arrives; an operator operation from another source is answered NOT_PERMITTED. -/
def State.mgmtOp (s : State) (op : Nat) (q : Ask) (oper : Bool) (act : State → State) : State :=
  if !s.endpointUp then s
  else
    let s := s.mgmtArrives
    if oper && !q.src.operator then s.answerOp op q 3 0 [] else act s

/-- Answers: OK with a body, BAD_REQUEST, REFUSED with the reason in DETAIL. -/
def State.opOk (s : State) (op : Nat) (q : Ask) (body : List Nat) : State := s.answerOp op q 0 0 body
def State.opBad (s : State) (op : Nat) (q : Ask) : State := s.answerOp op q 1 0 []
def State.opRefused (s : State) (op : Nat) (q : Ask) (detail : Nat) : State := s.answerOp op q 4 detail []
/-- OK, or REFUSED by a code that is not 0. -/
def State.opCode (s : State) (op : Nat) (q : Ask) (code : Nat) : State := if code = 0 then s.opOk op q [] else s.opRefused op q code

/-- A message of no type of Table 20.11, or one that fails its own checks (R591). -/
def State.mgmtReject (s : State) (op : Nat) (q : Ask) : State := ((s.boardFault 9 0 0).bump .MGMT_REJECTS_COUNT).opBad op q

/-- MCTP_CONTROL: a message by its type; of control, 1 sets the transport's endpoint identifier, 2 reads it, 4 gives the version, 5 the types. -/
def State.mctp (s : State) (q : Ask) (type : Nat) (good : Bool) (cmd eid : Nat) : State :=
  if !s.endpointUp then s
  else
    let s := s.mgmtArrives
    if !good || !(List.contains [0x00, 0x01, 0x05, 0x7F] type) then s.mgmtReject 0 q
    else if type ≠ 0 then s
    else
      let i3c := q.src.overI3c
      match cmd with
      | 1 =>
        if !q.src.operator then s.mgmtReject 0 q
        else
          let b := if i3c then { s.board with eidI3c := eid % 256 } else { s.board with eidPcie := eid % 256 }
          { s with board := b }.opOk 0 q [eid % 256]
      | 2 => s.opOk 0 q [if i3c then s.board.eidI3c else s.board.eidPcie]
      | 4 => s.opOk 0 q [1]
      | 5 => s.opOk 0 q [0x00, 0x01, 0x05, 0x7F]
      | _ => s.mgmtReject 0 q

/-! ### Kartevi operations (Table 20.9) -/

/-- GET_INFO. -/
def State.getInfo (s : State) (q : Ask) : State :=
  s.mgmtOp 0x01 q false fun s =>
    let bank := if s.board.running then s.board.bankB else s.board.bankA
    s.opOk 0x01 q (packBytes [(8, (s.regAt Reg.IDENT_PART).toNat), (16, s.serial), (8, (s.regAt Reg.IDENT_FW).toNat), (4, bank.phy.version),
      (8, (s.regAt Reg.BOOT_STATUS).toNat), (1, s.pairState), (1, s.board.poolRole)])

/-- BUSY among the statuses of Table 15.9, the DETAIL of a refused role (R23). -/
def roleBusy : Nat := 0xE7

/-- SET_POOL_ROLE (R23): both modules of a pair, in whatever state but UNPAIRED, change, or neither. `twinBusy` is whether the twin holds live work; none
says that the twin's cox firmware, which asked and was answered, applies the change here. -/
def State.setRole (s : State) (q : Ask) (role : Nat) (twinBusy : Option Bool) : State :=
  match twinBusy with
  | none => if s.pairState = 0 || 4 ≤ role then s else { s with board := { s.board with poolRole := role } }
  | some twinBusy => s.mgmtOp 0x10 q true fun s =>
    let paired := s.pairState != 0
    let live := s.liveEntries.any fun i => !(s.entry i).a.state.final
    if 4 ≤ role then s.opBad 0x10 q
    else if live || (paired && twinBusy) then s.opRefused 0x10 q roleBusy
    else
      let s := { s with board := { s.board with poolRole := role } }
      (if paired then s.emit (.message "POOL_ROLE" s.peer [role]) else s).opOk 0x10 q []

/-- SET_SLICE (R394): members and table take effect with the swap at AT. -/
def State.setSlice (s : State) (q : Ask) (slice table at_ : Nat) (members : List Nat) : State :=
  s.mgmtOp 0x11 q true fun s =>
    if slice = 0 || 4096 ≤ slice || 16 ≤ table || members.any (fun m => decide (2 ^ 15 ≤ m)) then s.opBad 0x11 q
    else
      let rest := s.fab.members.filter fun x => x.1 != slice
      ({ s with fab := { s.fab with members := rest ++ [(slice, members, table)] } }.planSwap at_).opOk 0x11 q []

/-- SET_VI (R436): the payload of VI_SETUP, as the descriptor that would carry it. -/
def State.setViOp (s : State) (q : Ask) (payload : Descriptor) : State :=
  s.mgmtOp 0x12 q true fun s =>
    let c : Cmd := { opcode := 0x70, desc := payload }
    if !c.payloadClear || !c.inRange then s.opBad 0x12 q
    else
      let (st, s') := s.viSetup c
      s'.opCode 0x12 q st

/-- SET_DOMAIN (R269): a domain's first assignment makes its key, here or, with `key`, on the module that sent it. -/
def State.setDomain (s : State) (q : Ask) (vi domain : Nat) (key : Option Nat) : State :=
  s.mgmtOp 0x13 q true fun s =>
    if 256 ≤ vi || 65536 ≤ domain then s.opBad 0x13 q
    else
      let s := s.setVi vi { s.vi vi with domain := domain }
      let s :=
        if domain = 0 || (s.sed.keys.any fun (x : DomainKey) => x.domain == domain) then s
        else match key with
          | some k => { s with sed := { s.sed with keys := s.sed.keys ++ [(DomainKey.mk domain k 0)] } }
          | none =>
            let (k, s) := s.takeRandom
            let s := { s with sed := { s.sed with keys := s.sed.keys ++ [(DomainKey.mk domain k 0)] } }
            let dests := ((s.sliceOf (s.vi vi).slice).filter fun m => m != s.self) ++ (if s.mirroring then [s.peer] else [])
            dests.eraseDups.foldl (fun (s : State) (m : Nat) => s.emit (.message "DOMAIN_KEY" m [domain, k, 0])) s
      s.opOk 0x13 q []

/-- DETACH (R509): an ACTIVE module begins in FINISH or HAND mode; in another pair state the request is refused with that state. -/
def State.detachOp (s : State) (q : Ask) (hand : Bool) : State :=
  s.mgmtOp 0x14 q true fun s => if s.pairState = 2 then (s.startDetach hand).opOk 0x14 q [] else s.opRefused 0x14 q s.pairState

/-- POWER_REQ (R518): M0, M1 or M3 (`mask` none), or the seats to sleep. -/
def State.powerReq (s : State) (q : Ask) (t : Nat) (mask : Option Nat) : State :=
  s.mgmtOp 0x15 q true fun s =>
    match mask with
    | some m => let (c, s') := s.requestSeats (m % 256); s'.opCode 0x15 q c
    | none =>
      if t = 2 || 4 ≤ t then s.opBad 0x15 q
      else
        let (c, s') := (s.setF .PWRCLK_REQ_TARGET t).requestM t
        s'.opCode 0x15 q c

/-- SNAPSHOT (R557). -/
def State.snapshotOp (s : State) (q : Ask) (target scope slice : Nat) : State :=
  s.mgmtOp 0x16 q true fun s => if 3 ≤ scope then s.opBad 0x16 q else (s.startTrigger target scope slice 2).opOk 0x16 q []

/-- RETIRED_UNITS (R590). -/
def State.retiredUnits (s : State) (q : Ask) (seat : Nat) : State :=
  s.mgmtOp 0x17 q false fun s =>
    if 8 ≤ seat then s.opBad 0x17 q else s.opOk 0x17 q (packBytes ((List.range 16).map fun w => (8, s.bistWord seat w)))

/-- RESOLVE_ID (R380): a serial excluded stays out of service, ports held for other serials train again; or the exclusion is cleared. -/
def State.resolveId (s : State) (q : Ask) (serial : Option Nat) : State :=
  s.mgmtOp 0x18 q true fun s =>
    let s := { s with board := { s.board with excluded := serial },
                      fab := { s.fab with serials := s.fab.serials.filter fun x => some x.2 != serial } }
    let again := (List.range 32).filter fun p => (s.port p).conflict && some (s.port p).peerSerial != serial
    let s := again.foldl (fun (s : State) (p : Nat) => (s.modPort p fun x => { x with conflict := false }).startTraining p 1) s
    let s := match serial with
      | some n => if n = s.serial then s.claimId false else s
      | none => s
    s.opOk 0x18 q []

/-- BEDROCK_PORT (R215): refused with the port's state when that allows no change. -/
def State.bedrockPort (s : State) (q : Ask) (port : Nat) (online : Bool) : State :=
  s.mgmtOp 0x19 q true fun s =>
    let st := s.getF .TIERS_BR_STAT_STATE (8 * port)
    if 4 ≤ port then s.opBad 0x19 q
    else if online then (if st = 4 then (s.brOnline .cox port).opOk 0x19 q [] else s.opRefused 0x19 q st)
    else if st = 2 then (s.brOffline .cox port).opOk 0x19 q []
    else s.opRefused 0x19 q st

/-- SET_BOOT. -/
def State.setBoot (s : State) (q : Ask) (standalone rootAllow : Bool) : State :=
  s.mgmtOp 0x1A q true fun s =>
    ((s.setF .BOOT_PARAM_STANDALONE (bit standalone)).setF .BOOT_PARAM_ROOT_ALLOW (bit rootAllow)).opOk 0x1A q []

/-- LOG_READ: up to 64 records from a SEQ on. -/
def State.logRead (s : State) (q : Ask) (first count : Nat) : State :=
  s.mgmtOp 0x21 q false fun s =>
    if 64 < count then s.opBad 0x21 q
    else s.opOk 0x21 q (((s.log.journal.filter fun (r : LogRec) => decide (first ≤ r.seq)).take count).flatMap logBytes)

/-- SNAP_READ (R560): up to 64 records of a slot. -/
def State.snapRead (s : State) (q : Ask) (slot first count : Nat) : State :=
  s.mgmtOp 0x22 q false fun s =>
    if 64 < count || 4 ≤ slot then s.opBad 0x22 q
    else match s.snap.slots.find? (fun p => p.1 == slot) with
      | none => s.opOk 0x22 q []
      | some p =>
        let n := min count (p.2.shadow.records - first)
        s.opOk 0x22 q ((List.range n).flatMap fun i => p.2.record (first + i) s.self)

/-- TIME_OF_DAY (R581): from the I3C bus owner alone. -/
def State.timeOfDay (s : State) (q : Ask) (second utc : Nat) : State :=
  s.mgmtOp 0x30 q false fun s =>
    if q.src != .busOwner then s.answerOp 0x30 q 3 0 []
    else { s with board := { s.board with ppsAnnounced := some second, utcOffset := utc % 65536 } }.opOk 0x30 q []

/-! ### PLDM (R593, R594) -/

/-- What a PLDM answer is told apart by: PLDM type in the second byte of the answer's OP, above the Kartevi operations. -/
def pldmOp (type : Nat) : Nat := 0x10000 + type

/-- A sensor's value by the model's own numbers (log 81): input voltage, current, power; inlet, outlet, flow; junctions of seats 0 to 7; stacks 0 to
23; alarms; READY; pair state; power state. -/
def State.sensor (s : State) (n : Nat) : Option Nat :=
  match n with
  | 0 => some (s.getF .PWRCLK_INPUT_VIN_MV)
  | 1 => some (s.getF .PWRCLK_INPUT_IIN_DA)
  | 2 => some (s.getF .PWRCLK_INPUT_PIN_W)
  | 3 => some (s.getF .COOLANT_INLET_C)
  | 4 => some (s.getF .COOLANT_OUTLET_C)
  | 5 => some (s.getF .COOLANT_FLOW_DL)
  | 38 => some (s.getF .KEEL_STATUS_ALARMS)
  | 39 => some (s.getF .HOSTVI_DEV_STATUS_READY)
  | 40 => some s.pairState
  | 41 => some s.mstate
  | n => if n < 14 then some (s.seatTj (n - 6)) else if n < 38 then some (s.getF .TIERS_HBM_STAT_TEMP_C (stackOff (n - 14))) else none

/-- PLDM_MONITORING: a sensor's reading, or with none the list of sensors the PDRs describe; a sensor that is not there fails its check. -/
def State.pldmMonitor (s : State) (q : Ask) (n : Option Nat) : State :=
  s.mgmtOp (pldmOp 2) q false fun s =>
    match n with
    | none => s.opOk (pldmOp 2) q (List.range 42)
    | some n => match s.sensor n with
      | some v => s.opOk (pldmOp 2) q (packBytes [(4, v)])
      | none => s.mgmtReject (pldmOp 2) q

/-- The inactive bank's component changes. -/
def State.setInactive (s : State) (f : Bank → Bank) : State :=
  if s.board.running then { s with board := { s.board with bankA := f s.board.bankA } } else { s with board := { s.board with bankB := f s.board.bankB } }
def State.inactiveBank (s : State) : Bank := if s.board.running then s.board.bankA else s.board.bankB

/-- PLDM_FIRMWARE_UPDATE (R594): a component's image, its key and ML-DSA-87 signature are written to the inactive bank and verified: the key's SHA-384
is the fused one. A bank holds 64 MiB. -/
def State.fwUpdate (s : State) (q : Ask) (component version : Nat) (image key sig : List Nat) : State :=
  s.mgmtOp (pldmOp 5) q false fun s =>
    let x : FwImage := { version := version, verifies := Config.sha384 key == Config.firmwareKeyDigest && Config.sigVerifies 1 key image sig }
    if 0x4000000 < image.length then s.mgmtReject (pldmOp 5) q
    else match component with
      | 1 => (s.setInactive fun b => { b with cox := x }).opOk (pldmOp 5) q [bit x.verifies]
      | 2 => (s.setInactive fun b => { b with phy := x }).opOk (pldmOp 5) q [bit x.verifies]
      | _ => s.mgmtReject (pldmOp 5) q

/-- ACTIVATE_FIRMWARE: accepted once the component written verifies; it takes effect at the next full boot. Self-contained activation is not
offered. -/
def State.fwActivate (s : State) (q : Ask) (component : Nat) (selfContained : Bool) : State :=
  s.mgmtOp (pldmOp 5) q false fun s =>
    let b := s.inactiveBank
    let ok := if component = 1 then b.cox.verifies else component == 2 && b.phy.verifies
    if selfContained || !ok then s.opRefused (pldmOp 5) q 0 else s.opOk (pldmOp 5) q []

/-! ### SPDM (R595) -/

/-- SPDM answers are told apart so. -/
def spdmOp : Nat := 0x10105

/-- The 48 bytes of a value. -/
def bytes48 (n : Nat) : List Nat := packBytes [(48, n)]

/-- The next bytes that the device identity makes: which request and of what. -/
def State.identityBytes (s : State) (what : Nat) : List Nat × State := (bytes48 (Config.spdmAnswer s.fresh what).toNat, { s with fresh := s.fresh + 1 })

/-- GET_CERTIFICATE: slot 0's chain; other slots are not offered. -/
def State.spdmCert (s : State) (q : Ask) (slot : Nat) : State :=
  s.mgmtOp spdmOp q false fun s =>
    if slot ≠ 0 then s.mgmtReject spdmOp q
    else s.opOk spdmOp q (bytes48 (Config.spdmAnswer 0 0).toNat ++ packBytes [(16, s.serial)])

/-- CHALLENGE: a signature of the device identity. -/
def State.spdmChallenge (s : State) (q : Ask) (slot : Nat) : State :=
  s.mgmtOp spdmOp q false fun s =>
    if slot ≠ 0 then s.mgmtReject spdmOp q
    else
      let (bs, s) := s.identityBytes 1
      s.opOk spdmOp q bs

/-- A measurement block (Table 20.12): ROMs and images by the maker's values, the Keel's and the version table's by what they hold. -/
def State.measured (s : State) (k : Nat) : Nat :=
  let fw := 2 * s.getF .IDENT_FW_MAJOR * 65536 + 2 * s.getF .IDENT_FW_MINOR + bit s.board.running
  match k with
  | 5 => digestNum s.pwr.anchor
  | 6 => digestNum ((List.range 16).flatMap fun i =>
      packBytes [(8, s.getF .KEEL_KEY_ID_KEY_ID (keySlotOff i)), (8, (s.regAt (Reg.KEEL_KEY_STATE + keySlotOff i)).toNat)] ++ s.slotKey i)
  | 7 => digestNum (packBytes [(8, (s.regAt Reg.KEEL_TWIN).toNat), (8, (s.regAt Reg.KEEL_LOCATION).toNat)])
  | 8 => digestNum ((s.wpkg.versions.filter fun (v : Version) => v.state != 0).flatMap fun v => packBytes [(2, v.id), (1, v.state), (48, v.root)])
  | 2 => (Config.spdmAnswer 2 fw).toNat
  | 3 => (Config.spdmAnswer 3 (if s.board.running then s.board.bankB else s.board.bankA).phy.version).toNat
  | k => (Config.spdmAnswer k 0).toNat

/-- GET_MEASUREMENTS: the number of blocks (0), one of them, or all (0xFF), signed. -/
def State.spdmMeasure (s : State) (q : Ask) (k : Nat) : State :=
  s.mgmtOp spdmOp q false fun s =>
    if k = 0 then s.opOk spdmOp q [8]
    else if 8 < k ∧ k ≠ 0xFF then s.mgmtReject spdmOp q
    else
      let ks := if k = 0xFF then (List.range 8).map (· + 1) else [k]
      let (sig, s) := s.identityBytes 2
      s.opOk spdmOp q ((ks.flatMap fun k => bytes48 (s.measured k)) ++ sig)

/-! ### The test port (R598) -/

/-- The IDCODE: version 0x1, part 0x0008, the maker's code, 1. -/
def idcode : Nat := 0x10008001 + 2 * Config.manufacturer.toNat

/-- TAP_INSTRUCTION: EXTEST and the 1687 network act only while MOD_RESET_N is held; what does not act selects BYPASS. -/
def State.tap (s : State) (i : TapInstr) : State :=
  let act := match i with
    | .idcode => true
    | .bypass => true
    | .sample => true
    | .extest => s.board.resetHeld
    | .network => s.board.resetHeld
    | .other => false
  let i := if act then i else .bypass
  let s := { s with board := { s.board with tapIr := i } }
  match i with
  | .idcode => s.emit (.message "TAP_IDCODE" 0 [idcode])
  | .sample => s.emit (.message "TAP_SAMPLE" 0 [s.getF .SIDEBAND_LEVELS])
  | .extest => s.emit (.message "TAP_EXTEST" 0 [])
  | .network => s.emit (.message "TAP_NETWORK" 0 [])
  | _ => s

/-! ### Meanings -/

def execMctpControl (q : Ask) (type : Nat) (good : Bool) (cmd eid : Nat) (s : State) := done (s.mctp q type good cmd eid)
def execGetInfo (q : Ask) (s : State) := done (s.getInfo q)
def execSetPoolRole (q : Ask) (role : Nat) (twinBusy : Option Bool) (s : State) := done (s.setRole q role twinBusy)
def execSetSlice (q : Ask) (slice table at_ : Nat) (members : List Nat) (s : State) := done (s.setSlice q slice table at_ members)
def execSetVi (q : Ask) (payload : Descriptor) (s : State) := done (s.setViOp q payload)
def execSetDomain (q : Ask) (vi domain : Nat) (key : Option Nat) (s : State) := done (s.setDomain q vi domain key)
def execDetach (q : Ask) (hand : Bool) (s : State) := done (s.detachOp q hand)
def execPowerReq (q : Ask) (t : Nat) (mask : Option Nat) (s : State) := done (s.powerReq q t mask)
def execSnapshot (q : Ask) (target scope slice : Nat) (s : State) := done (s.snapshotOp q target scope slice)
def execRetiredUnits (q : Ask) (seat : Nat) (s : State) := done (s.retiredUnits q seat)
def execResolveId (q : Ask) (serial : Option Nat) (s : State) := done (s.resolveId q serial)
def execBedrockPort (q : Ask) (port : Nat) (online : Bool) (s : State) := done (s.bedrockPort q port online)
def execSetBoot (q : Ask) (standalone rootAllow : Bool) (s : State) := done (s.setBoot q standalone rootAllow)
def execLogRead (q : Ask) (first count : Nat) (s : State) := done (s.logRead q first count)
def execSnapRead (q : Ask) (slot first count : Nat) (s : State) := done (s.snapRead q slot first count)
def execTimeOfDay (q : Ask) (second utc : Nat) (s : State) := done (s.timeOfDay q second utc)
def execPldmMonitoring (q : Ask) (sensor : Option Nat) (s : State) := done (s.pldmMonitor q sensor)
def execPldmFirmwareUpdate (q : Ask) (component version : Nat) (image key sig : List Nat) (s : State) := done (s.fwUpdate q component version image key sig)
def execActivateFirmware (q : Ask) (component : Nat) (selfContained : Bool) (s : State) := done (s.fwActivate q component selfContained)
def execGetCertificate (q : Ask) (slot : Nat) (s : State) := done (s.spdmCert q slot)
def execChallenge (q : Ask) (slot : Nat) (s : State) := done (s.spdmChallenge q slot)
def execGetMeasurements (q : Ask) (index : Nat) (s : State) := done (s.spdmMeasure q index)
def execTapInstruction (instr : TapInstr) (s : State) := done (s.tap instr)

end Sys2Proof.Machine
end

