-- ==== Sys2Proof/Machine/Dispatch.lean ====
section
/-! DEFINITION. The meaning of each command: one arm for each constructor of Instr. -/

namespace Sys2Proof.Machine

def exec (i : Instr) (s : State) : Host.Outcome State Fault Refusal :=
  match i with
  | .registerWrite m off size v => Sys2Proof.Machine.execRegisterWrite m off size v s
  | .readClear m off size => Sys2Proof.Machine.execReadClear m off size s
  | .viewSelectorWrite m off size v => Sys2Proof.Machine.execViewSelectorWrite m off size v s
  | .setPoolRole q role twinBusy => Sys2Proof.Machine.execSetPoolRole q role twinBusy s
  | .beatArrive uid plane port b => Sys2Proof.Machine.execBeatArrive uid plane port b s
  | .entrySkip uid => Sys2Proof.Machine.execEntrySkip uid s
  | .nop uid => Sys2Proof.Machine.execNop uid s
  | .mpass uid => Sys2Proof.Machine.execMpass uid s
  | .passComplete uid => Sys2Proof.Machine.execPassComplete uid s
  | .vecAdd uid => Sys2Proof.Machine.execVecAdd uid s
  | .vecSub uid => Sys2Proof.Machine.execVecSub uid s
  | .vecMul uid => Sys2Proof.Machine.execVecMul uid s
  | .vecFma uid => Sys2Proof.Machine.execVecFma uid s
  | .vecMax uid => Sys2Proof.Machine.execVecMax uid s
  | .vecMin uid => Sys2Proof.Machine.execVecMin uid s
  | .vecCmpLt uid => Sys2Proof.Machine.execVecCmpLt uid s
  | .vecCmpEq uid => Sys2Proof.Machine.execVecCmpEq uid s
  | .vecCvt uid => Sys2Proof.Machine.execVecCvt uid s
  | .vecReduceSum uid => Sys2Proof.Machine.execVecReduceSum uid s
  | .vecReduceMax uid => Sys2Proof.Machine.execVecReduceMax uid s
  | .vecScaleExp uid => Sys2Proof.Machine.execVecScaleExp uid s
  | .sfnExp2 uid => Sys2Proof.Machine.execSfnExp2 uid s
  | .sfnExp uid => Sys2Proof.Machine.execSfnExp uid s
  | .sfnLog2 uid => Sys2Proof.Machine.execSfnLog2 uid s
  | .sfnRcp uid => Sys2Proof.Machine.execSfnRcp uid s
  | .sfnRsqrt uid => Sys2Proof.Machine.execSfnRsqrt uid s
  | .sfnSqrt uid => Sys2Proof.Machine.execSfnSqrt uid s
  | .sfnTanh uid => Sys2Proof.Machine.execSfnTanh uid s
  | .sfnSigmoid uid => Sys2Proof.Machine.execSfnSigmoid uid s
  | .sfnSilu uid => Sys2Proof.Machine.execSfnSilu uid s
  | .sfnGelu uid => Sys2Proof.Machine.execSfnGelu uid s
  | .sfnMicroprogram uid => Sys2Proof.Machine.execSfnMicroprogram uid s
  | .tsLoad uid => Sys2Proof.Machine.execTsLoad uid s
  | .tsStore uid => Sys2Proof.Machine.execTsStore uid s
  | .select uid => Sys2Proof.Machine.execSelect uid s
  | .forward uid => Sys2Proof.Machine.execForward uid s
  | .send uid => Sys2Proof.Machine.execSend uid s
  | .recv uid => Sys2Proof.Machine.execRecv uid s
  | .scatterRoute uid => Sys2Proof.Machine.execScatterRoute uid s
  | .scatterClose uid => Sys2Proof.Machine.execScatterClose uid s
  | .scatterCombine uid => Sys2Proof.Machine.execScatterCombine uid s
  | .scatterReturn uid => Sys2Proof.Machine.execScatterReturn uid s
  | .statAcc uid => Sys2Proof.Machine.execStatAcc uid s
  | .statRmsAcc uid => Sys2Proof.Machine.execStatRmsAcc uid s
  | .statMerge uid => Sys2Proof.Machine.execStatMerge uid s
  | .statFinish uid => Sys2Proof.Machine.execStatFinish uid s
  | .streamingBeatConsume uid id => Sys2Proof.Machine.execStreamingBeatConsume uid id s
  | .beatEmit uid plane port => Sys2Proof.Machine.execBeatEmit uid plane port s
  | .engineComplete uid id x => Sys2Proof.Machine.execEngineComplete uid id x s
  | .shapeLoadComplete uid plane ctr => Sys2Proof.Machine.execShapeLoadComplete uid plane ctr s
  | .shapeReread uid plane ctr => Sys2Proof.Machine.execShapeReread uid plane ctr s
  | .shapeTimeout uid plane ctr => Sys2Proof.Machine.execShapeTimeout uid plane ctr s
  | .halt m uid v => Sys2Proof.Machine.execHalt m uid v s
  | .offline m uid v => Sys2Proof.Machine.execOffline m uid v s
  | .forceStatic m uid v => Sys2Proof.Machine.execForceStatic m uid v s
  | .foldAdvance uid yielded => Sys2Proof.Machine.execFoldAdvance uid yielded s
  | .foldCommit m uid => Sys2Proof.Machine.execFoldCommit m uid s
  | .foldInstall uid yielded => Sys2Proof.Machine.execFoldInstall uid yielded s
  | .foldRebuild seat => Sys2Proof.Machine.execFoldRebuild seat s
  | .demandStep uid idle => Sys2Proof.Machine.execDemandStep uid idle s
  | .droopTrip uid cycles => Sys2Proof.Machine.execDroopTrip uid cycles s
  | .thermalRead uid tj => Sys2Proof.Machine.execThermalRead uid tj s
  | .strokeBegin seat sw => Sys2Proof.Machine.execStrokeBegin seat sw s
  | .markTimeout seat sw port => Sys2Proof.Machine.execMarkTimeout seat sw port s
  | .seatNetReady seat => Sys2Proof.Machine.execSeatNetReady seat s
  | .switchForward seat sw port slot word err => Sys2Proof.Machine.execSwitchForward seat sw port slot word err s
  | .sideWord seat sw link credits err => Sys2Proof.Machine.execSideWord seat sw link credits err s
  | .slotTableWrite m seat v => Sys2Proof.Machine.execSlotTableWrite m seat v s
  | .groupTeardown rig seat idx => Sys2Proof.Machine.execGroupTeardown rig seat idx s
  | .creditStall uid plane port => Sys2Proof.Machine.execCreditStall uid plane port s
  | .joinStall uid plane => Sys2Proof.Machine.execJoinStall uid plane s
  | .circuitDeadlock uid plane port dir => Sys2Proof.Machine.execCircuitDeadlock uid plane port dir s
  | .rigLoad r q others copyOk => Sys2Proof.Machine.execRigLoad r q others copyOk s
  | .planeRecordLand uid plane ok => Sys2Proof.Machine.execPlaneRecordLand uid plane ok s
  | .rigLoadComplete r q => Sys2Proof.Machine.execRigLoadComplete r q s
  | .rigUnstage r q => Sys2Proof.Machine.execRigUnstage r q s
  | .rigSwitch r q => Sys2Proof.Machine.execRigSwitch r q s
  | .planeFlip uid plane => Sys2Proof.Machine.execPlaneFlip uid plane s
  | .circuitRelease c seat idx => Sys2Proof.Machine.execCircuitRelease c seat idx s
  | .waveComplete c others => Sys2Proof.Machine.execWaveComplete c others s
  | .waveStall c => Sys2Proof.Machine.execWaveStall c s
  | .rigRun r q => Sys2Proof.Machine.execRigRun r q s
  | .map r q => Sys2Proof.Machine.execMap r q s
  | .unmap r q => Sys2Proof.Machine.execUnmap r q s
  | .mapShared r q => Sys2Proof.Machine.execMapShared r q s
  | .translationWalk tu c va write => Sys2Proof.Machine.execTranslationWalk tu c va write s
  | .tierAccess c off gen seat module write first bs check => Sys2Proof.Machine.execTierAccess c off gen seat module write first bs check s
  | .accessTimeout c addr gen => Sys2Proof.Machine.execAccessTimeout c addr gen s
  | .rootSel m c v => Sys2Proof.Machine.execRootSel m c v s
  | .rootSwapDrain c => Sys2Proof.Machine.execRootSwapDrain c s
  | .shootdown m v => Sys2Proof.Machine.execShootdown m v s
  | .shootdownComplete => Sys2Proof.Machine.execShootdownComplete s
  | .shootdownDrainEnd => Sys2Proof.Machine.execShootdownDrainEnd s
  | .tillerPeriod => Sys2Proof.Machine.execTillerPeriod s
  | .migrationWriteDrain id => Sys2Proof.Machine.execMigrationWriteDrain id s
  | .migrationCopyDone id ue => Sys2Proof.Machine.execMigrationCopyDone id ue s
  | .migrationReadDrain id => Sys2Proof.Machine.execMigrationReadDrain id s
  | .frameScrubDone f => Sys2Proof.Machine.execFrameScrubDone f s
  | .hbmTempChange k temp => Sys2Proof.Machine.execHbmTempChange k temp s
  | .hbmRetrain k rate outcome => Sys2Proof.Machine.execHbmRetrain k rate outcome s
  | .patrolScrub off outcome => Sys2Proof.Machine.execPatrolScrub off outcome s
  | .cxlEventPoll p recs => Sys2Proof.Machine.execCxlEventPoll p recs s
  | .bedrockOffline m p => Sys2Proof.Machine.execBedrockOffline m p s
  | .evacuationDone p => Sys2Proof.Machine.execEvacuationDone p s
  | .bedrockOnline m p => Sys2Proof.Machine.execBedrockOnline m p s
  | .bedrockSurpriseRemoval p => Sys2Proof.Machine.execBedrockSurpriseRemoval p s
  | .bedrockHotAdd p width gts flit256 lopt single gib => Sys2Proof.Machine.execBedrockHotAdd p width gts flit256 lopt single gib s
  | .streamReach id => Sys2Proof.Machine.execStreamReach id s
  | .streamShapeRead id w poison => Sys2Proof.Machine.execStreamShapeRead id w poison s
  | .streamShapeTimeout id => Sys2Proof.Machine.execStreamShapeTimeout id s
  | .streamRequestIssue seat path => Sys2Proof.Machine.execStreamRequestIssue seat path s
  | .streamRequestComplete id elem first remote => Sys2Proof.Machine.execStreamRequestComplete id elem first remote s
  | .feedTimeout uid vbase => Sys2Proof.Machine.execFeedTimeout uid vbase s
  | .streamJobVoid m seat v => Sys2Proof.Machine.execStreamJobVoid m seat v s
  | .selectionRequest u c req beats => Sys2Proof.Machine.execSelectionRequest u c req beats s
  | .sealPassComplete handle page poisoned => Sys2Proof.Machine.execSealPassComplete handle page poisoned s
  | .sedimentLookup src handle first epoch domain version fmt pages crcBad => Sys2Proof.Machine.execSedimentLookup src handle first epoch domain version fmt pages crcBad s
  | .lookupReply handle first addrs => Sys2Proof.Machine.execLookupReply handle first addrs s
  | .lookupTimeout handle => Sys2Proof.Machine.execLookupTimeout handle s
  | .copyOrder owner handle what dest => Sys2Proof.Machine.execCopyOrder owner handle what dest s
  | .sedimentCopyLanded owner handle landed => Sys2Proof.Machine.execSedimentCopyLanded owner handle landed s
  | .pinTimeout owner handle => Sys2Proof.Machine.execPinTimeout owner handle s
  | .depositOffer owner handle domain version fmt epoch size pages => Sys2Proof.Machine.execDepositOffer owner handle domain version fmt epoch size pages s
  | .depositLanded owner handle page hash => Sys2Proof.Machine.execDepositLanded owner handle page hash s
  | .offerTimeout owner handle page hash => Sys2Proof.Machine.execOfferTimeout owner handle page hash s
  | .shardEvict => Sys2Proof.Machine.execShardEvict s
  | .indexRebuild log2 rotate => Sys2Proof.Machine.execIndexRebuild log2 rotate s
  | .indexSwap => Sys2Proof.Machine.execIndexSwap s
  | .indexReclaim => Sys2Proof.Machine.execIndexReclaim s
  | .shardMapSwap map => Sys2Proof.Machine.execShardMapSwap map s
  | .mapInstall r q agree => Sys2Proof.Machine.execMapInstall r q agree s
  | .expmapReclaim c => Sys2Proof.Machine.execExpmapReclaim c s
  | .countHeaderSend c round expert => Sys2Proof.Machine.execCountHeaderSend c round expert s
  | .countHeaderArrive c queue h => Sys2Proof.Machine.execCountHeaderArrive c queue h s
  | .countHeaderRelease c queue region bank => Sys2Proof.Machine.execCountHeaderRelease c queue region bank s
  | .returnFrameLand c va frame => Sys2Proof.Machine.execReturnFrameLand c va frame s
  | .returnTimeout c round => Sys2Proof.Machine.execReturnTimeout c round s
  | .admitCmd r q => Sys2Proof.Machine.execAdmitCmd r q s
  | .cancel r q => Sys2Proof.Machine.execCancel r q s
  | .pause r q => Sys2Proof.Machine.execPause r q s
  | .resume r q => Sys2Proof.Machine.execResume r q s
  | .repin r q => Sys2Proof.Machine.execRepin r q s
  | .stepBoundary bad pool sites => Sys2Proof.Machine.execStepBoundary bad pool sites s
  | .idleBoundary bad pool sites => Sys2Proof.Machine.execIdleBoundary bad pool sites s
  | .stepLaunch => Sys2Proof.Machine.execStepLaunch s
  | .subBatchComplete => Sys2Proof.Machine.execSubBatchComplete s
  | .workItem handle owner c ver first count job addrs good => Sys2Proof.Machine.execWorkItem handle owner c ver first count job addrs good s
  | .progress handle job => Sys2Proof.Machine.execProgress handle job s
  | .lastLayer handle job => Sys2Proof.Machine.execLastLayer handle job s
  | .doneNotice handle job => Sys2Proof.Machine.execDoneNotice handle job s
  | .failedNotice handle job => Sys2Proof.Machine.execFailedNotice handle job s
  | .workTimeout handle => Sys2Proof.Machine.execWorkTimeout handle s
  | .pauseCopyLanded owner handle ttl copy => Sys2Proof.Machine.execPauseCopyLanded owner handle ttl copy s
  | .pauseExpiry handle => Sys2Proof.Machine.execPauseExpiry handle s
  | .expiredNotice handle => Sys2Proof.Machine.execExpiredNotice handle s
  | .claim handle owner => Sys2Proof.Machine.execClaim handle owner s
  | .claimed handle => Sys2Proof.Machine.execClaimed handle s
  | .returnCopyLanded handle => Sys2Proof.Machine.execReturnCopyLanded handle s
  | .samplingRequest u c req beats => Sys2Proof.Machine.execSamplingRequest u c req beats s
  | .link port ack nak credits => Sys2Proof.Machine.execLink port ack nak credits s
  | .flitDamaged port what => Sys2Proof.Machine.execFlitDamaged port what s
  | .rdReq h => Sys2Proof.Machine.execRdReq h s
  | .wrReq h trunc data poison => Sys2Proof.Machine.execWrReq h trunc data poison s
  | .rdRsp tag refused lines => Sys2Proof.Machine.execRdRsp tag refused lines s
  | .wrAck tag => Sys2Proof.Machine.execWrAck tag s
  | .beat h trunc beats credits => Sys2Proof.Machine.execBeat h trunc beats credits s
  | .messageForward m e => Sys2Proof.Machine.execMessageForward m e s
  | .heldExpiry => Sys2Proof.Machine.execHeldExpiry s
  | .transitFault slice ctx cause => Sys2Proof.Machine.execTransitFault slice ctx cause s
  | .flitLoss slice ctx => Sys2Proof.Machine.execFlitLoss slice ctx s
  | .beaconSend port => Sys2Proof.Machine.execBeaconSend port s
  | .beacon port b => Sys2Proof.Machine.execBeacon port b s
  | .portTrain port lanes asym => Sys2Proof.Machine.execPortTrain port lanes asym s
  | .retrain m port v => Sys2Proof.Machine.execRetrain m port v s
  | .disable m port v => Sys2Proof.Machine.execDisable m port v s
  | .linkRetrain port => Sys2Proof.Machine.execLinkRetrain port s
  | .linkLoss port lock => Sys2Proof.Machine.execLinkLoss port lock s
  | .linkState origin seq x => Sys2Proof.Machine.execLinkState origin seq x s
  | .gone origin seq m at_ twin queues => Sys2Proof.Machine.execGone origin seq m at_ twin queues s
  | .routeSwap => Sys2Proof.Machine.execRouteSwap s
  | .routeReclaim => Sys2Proof.Machine.execRouteReclaim s
  | .time port tTx tEcho corr depth root => Sys2Proof.Machine.execTime port tTx tEcho corr depth root s
  | .timeSend port => Sys2Proof.Machine.execTimeSend port s
  | .parentLoss => Sys2Proof.Machine.execParentLoss s
  | .timeHoldover => Sys2Proof.Machine.execTimeHoldover s
  | .collective r q => Sys2Proof.Machine.execCollective r q s
  | .collJoin c collId crc seq rank => Sys2Proof.Machine.execCollJoin c collId crc seq rank s
  | .collFrame c frame => Sys2Proof.Machine.execCollFrame c frame s
  | .segmentFold c key rank => Sys2Proof.Machine.execSegmentFold c key rank s
  | .collRelease c collId crc owner segment => Sys2Proof.Machine.execCollRelease c collId crc owner segment s
  | .collectiveComplete c key => Sys2Proof.Machine.execCollectiveComplete c key s
  | .collTimeout c key => Sys2Proof.Machine.execCollTimeout c key s
  | .sqDoorbell m r v => Sys2Proof.Machine.execSqDoorbell m r v s
  | .cqDoorbell m r v => Sys2Proof.Machine.execCqDoorbell m r v s
  | .ringEnable m r => Sys2Proof.Machine.execRingEnable m r s
  | .ringDisable m r => Sys2Proof.Machine.execRingDisable m r s
  | .descriptorFetch r descs => Sys2Proof.Machine.execDescriptorFetch r descs s
  | .commandLaunch r => Sys2Proof.Machine.execCommandLaunch r s
  | .depTimeout r => Sys2Proof.Machine.execDepTimeout r s
  | .msiXInterrupt r => Sys2Proof.Machine.execMsiXInterrupt r s
  | .cmdNop r q => Sys2Proof.Machine.execCmdNop r q s
  | .copy r q => Sys2Proof.Machine.execCopy r q s
  | .ctxCreate r q busy => Sys2Proof.Machine.execCtxCreate r q busy s
  | .ctxDestroy r q => Sys2Proof.Machine.execCtxDestroy r q s
  | .ctxSet r q => Sys2Proof.Machine.execCtxSet r q s
  | .ctxAttach r q => Sys2Proof.Machine.execCtxAttach r q s
  | .pkgLoad r q => Sys2Proof.Machine.execPkgLoad r q s
  | .versionLive r q => Sys2Proof.Machine.execVersionLive r q s
  | .versionRetire r q => Sys2Proof.Machine.execVersionRetire r q s
  | .viSetup r q => Sys2Proof.Machine.execViSetup r q s
  | .configRequest fn setVf => Sys2Proof.Machine.execConfigRequest fn setVf s
  | .vfFlr n => Sys2Proof.Machine.execVfFlr n s
  | .pfFlr => Sys2Proof.Machine.execPfFlr s
  | .vfEnableClear => Sys2Proof.Machine.execVfEnableClear s
  | .dlDown => Sys2Proof.Machine.execDlDown s
  | .tileLand ver va lost => Sys2Proof.Machine.execTileLand ver va lost s
  | .entry h e => Sys2Proof.Machine.execEntry h e s
  | .admitData h samp g => Sys2Proof.Machine.execAdmitData h samp g s
  | .tokens h first ids => Sys2Proof.Machine.execTokens h first ids s
  | .mirrorMap h first addrs => Sys2Proof.Machine.execMirrorMap h first addrs s
  | .ckpt h first count => Sys2Proof.Machine.execCkpt h first count s
  | .heartbeat h => Sys2Proof.Machine.execHeartbeat h s
  | .hold h owner expiry pages claimed => Sys2Proof.Machine.execHold h owner expiry pages claimed s
  | .versions h es => Sys2Proof.Machine.execVersions h es s
  | .suspect h => Sys2Proof.Machine.execSuspect h s
  | .fence sender lost => Sys2Proof.Machine.execFence sender lost s
  | .leaving sender lost => Sys2Proof.Machine.execLeaving sender lost s
  | .handover h => Sys2Proof.Machine.execHandover h s
  | .resyncBegin h => Sys2Proof.Machine.execResyncBegin h s
  | .resyncEnd h => Sys2Proof.Machine.execResyncEnd h s
  | .ownerMoved owner old new => Sys2Proof.Machine.execOwnerMoved owner old new s
  | .mirrorAckTimeout => Sys2Proof.Machine.execMirrorAckTimeout s
  | .twinSilence => Sys2Proof.Machine.execTwinSilence s
  | .witnessQuery from_ m => Sys2Proof.Machine.execWitnessQuery from_ m s
  | .witnessAnswer from_ m down => Sys2Proof.Machine.execWitnessAnswer from_ m down s
  | .confirmationTimeout => Sys2Proof.Machine.execConfirmationTimeout s
  | .heartbeatSend => Sys2Proof.Machine.execHeartbeatSend s
  | .isolated => Sys2Proof.Machine.execIsolated s
  | .checkpointAcked handle => Sys2Proof.Machine.execCheckpointAcked handle s
  | .detach q hand => Sys2Proof.Machine.execDetach q hand s
  | .drainTimeout => Sys2Proof.Machine.execDrainTimeout s
  | .trayLeaveN => Sys2Proof.Machine.execTrayLeaveN s
  | .readmitExpiry => Sys2Proof.Machine.execReadmitExpiry s
  | .capControlTick vin iin pin plate => Sys2Proof.Machine.execCapControlTick vin iin pin plate s
  | .alertAssert source sensor => Sys2Proof.Machine.execAlertAssert source sensor s
  | .alertDeassert source sensor => Sys2Proof.Machine.execAlertDeassert source sensor s
  | .alertClear => Sys2Proof.Machine.execAlertClear s
  | .sustained => Sys2Proof.Machine.execSustained s
  | .inputLoss => Sys2Proof.Machine.execInputLoss s
  | .junctionTrip uid tj => Sys2Proof.Machine.execJunctionTrip uid tj s
  | .thermTrip => Sys2Proof.Machine.execThermTrip s
  | .target m t => Sys2Proof.Machine.execTarget m t s
  | .seatSleepReq m mask => Sys2Proof.Machine.execSeatSleepReq m mask s
  | .seatSleepEntry seat edges => Sys2Proof.Machine.execSeatSleepEntry seat edges s
  | .seatWake seat okA okB => Sys2Proof.Machine.execSeatWake seat okA okB s
  | .seatWakeComplete seat => Sys2Proof.Machine.execSeatWakeComplete seat s
  | .wake m => Sys2Proof.Machine.execWake m s
  | .timedWake => Sys2Proof.Machine.execTimedWake s
  | .keelOrder q bs => Sys2Proof.Machine.execKeelOrder q bs s
  | .writes names => Sys2Proof.Machine.execWrites names s
  | .keyInstall => Sys2Proof.Machine.execKeyInstall s
  | .anchorSet => Sys2Proof.Machine.execAnchorSet s
  | .keelLockstep => Sys2Proof.Machine.execKeelLockstep s
  | .errRingCons m v => Sys2Proof.Machine.execErrRingCons m v s
  | .go m => Sys2Proof.Machine.execGo m s
  | .photoFinish id target scope slice => Sys2Proof.Machine.execPhotoFinish id target scope slice s
  | .snapshotLatch => Sys2Proof.Machine.execSnapshotLatch s
  | .snapshotPack => Sys2Proof.Machine.execSnapshotPack s
  | .clear m k => Sys2Proof.Machine.execClear m k s
  | .logSel m seq => Sys2Proof.Machine.execLogSel m seq s
  | .logReady => Sys2Proof.Machine.execLogReady s
  | .logPeriodic => Sys2Proof.Machine.execLogPeriodic s
  | .logDaily drifts => Sys2Proof.Machine.execLogDaily drifts s
  | .logProgram ok => Sys2Proof.Machine.execLogProgram ok s
  | .logSuppressed => Sys2Proof.Machine.execLogSuppressed s
  | .fullBoot cause slotOpen => Sys2Proof.Machine.execFullBoot cause slotOpen s
  | .bootStageComplete stage x => Sys2Proof.Machine.execBootStageComplete stage x s
  | .modResetN => Sys2Proof.Machine.execModResetN s
  | .perstN asserted => Sys2Proof.Machine.execPerstN asserted s
  | .ref100Lost => Sys2Proof.Machine.execRef100Lost s
  | .ref156Lost => Sys2Proof.Machine.execRef156Lost s
  | .timePps => Sys2Proof.Machine.execTimePps s
  | .ppsLost => Sys2Proof.Machine.execPpsLost s
  | .timeOfDay q second utc => Sys2Proof.Machine.execTimeOfDay q second utc s
  | .railFault rail => Sys2Proof.Machine.execRailFault rail s
  | .holdupEnd inputGone => Sys2Proof.Machine.execHoldupEnd inputGone s
  | .portRetry => Sys2Proof.Machine.execPortRetry s
  | .builtInTest uid pass => Sys2Proof.Machine.execBuiltInTest uid pass s
  | .mctpControl q type good cmd eid => Sys2Proof.Machine.execMctpControl q type good cmd eid s
  | .getInfo q => Sys2Proof.Machine.execGetInfo q s
  | .setSlice q slice table at_ members => Sys2Proof.Machine.execSetSlice q slice table at_ members s
  | .setVi q payload => Sys2Proof.Machine.execSetVi q payload s
  | .setDomain q vi domain key => Sys2Proof.Machine.execSetDomain q vi domain key s
  | .powerReq q t mask => Sys2Proof.Machine.execPowerReq q t mask s
  | .snapshot q target scope slice => Sys2Proof.Machine.execSnapshot q target scope slice s
  | .retiredUnits q seat => Sys2Proof.Machine.execRetiredUnits q seat s
  | .resolveId q serial => Sys2Proof.Machine.execResolveId q serial s
  | .bedrockPort q port online => Sys2Proof.Machine.execBedrockPort q port online s
  | .setBoot q standalone rootAllow => Sys2Proof.Machine.execSetBoot q standalone rootAllow s
  | .logRead q first count => Sys2Proof.Machine.execLogRead q first count s
  | .snapRead q slot first count => Sys2Proof.Machine.execSnapRead q slot first count s
  | .pldmMonitoring q sensor => Sys2Proof.Machine.execPldmMonitoring q sensor s
  | .pldmFirmwareUpdate q component version image key sig => Sys2Proof.Machine.execPldmFirmwareUpdate q component version image key sig s
  | .activateFirmware q component selfContained => Sys2Proof.Machine.execActivateFirmware q component selfContained s
  | .getCertificate q slot => Sys2Proof.Machine.execGetCertificate q slot s
  | .challenge q slot => Sys2Proof.Machine.execChallenge q slot s
  | .getMeasurements q index => Sys2Proof.Machine.execGetMeasurements q index s
  | .tapInstruction instr => Sys2Proof.Machine.execTapInstruction instr s
  | .hostLinkUp rate width flit => Sys2Proof.Machine.execHostLinkUp rate width flit s
  | .pcieCorrectableError => Sys2Proof.Machine.execPcieCorrectableError s
  | .hostReadCompletion r q fetch ok bs => Sys2Proof.Machine.execHostReadCompletion r q fetch ok bs s
  | .transmitterFfeStep port lane corrected => Sys2Proof.Machine.execTransmitterFfeStep port lane corrected s
  | .holderFree handle => Sys2Proof.Machine.execHolderFree handle s
  | .freeBedrockReport m units => Sys2Proof.Machine.execFreeBedrockReport m units s
  | .sliceTeardown c status => Sys2Proof.Machine.execSliceTeardown c status s
  | .replicaUpdate c kind a => Sys2Proof.Machine.execReplicaUpdate c kind a s
  | .standbyExitComplete okA okB => Sys2Proof.Machine.execStandbyExitComplete okA okB s
  | .trayLeaveNRelease => Sys2Proof.Machine.execTrayLeaveNRelease s

end Sys2Proof.Machine
end

