-- ==== Sys2Proof/Safety.lean ====
section
/-! DEFINITION. What claims mean by a sound state and a safe run. -/

namespace Sys2Proof.Machine

/-- The memory is in its canonical form: addresses rise, no byte equal to what an unlisted one reads as (R219). -/
def Memory.wf (m : List Host.Cell) : Bool := SMap.wf (fun _ => (0 : BitVec 8)) m

/-- Every sparse store is in its canonical form, so equal contents are equal data: registers, view selectors, memory with its poison and format
tags, operand stores. -/
def State.wf (s : State) : Bool :=
  SMap.wf resetWord s.regs && SMap.wf (fun _ => 0) s.sel && Memory.wf s.mem && SMap.wf (fun _ => false) s.memPoison &&
    SMap.wf (fun _ => 0) s.memTag && SMap.wf (fun _ => ({} : OpLine)) s.ops

/-- The command answers a next state, and `P` holds of it. -/
def Answers (i : Instr) (s : State) (P : State → Prop) : Prop := ∃ t, exec i s = .next t ∧ P t

/-! ### What a command leaves alone, store by store: each says that a part of the machine is the same in both states -/

/-- Every byte of memory, every line's poison and format tag. -/
def State.sameMemory (s t : State) : Prop :=
  ∀ a, t.byteAt a = s.byteAt a ∧ t.poisonAt a = s.poisonAt a ∧ SMap.get 0 t.memTag a = SMap.get 0 s.memTag a

/-- Every line of every unit's operand store. -/
def State.sameOps (s t : State) : Prop := ∀ u l, t.opLine u l = s.opLine u l

/-- A key of a register of the error, snapshot and logbook block (Table 0.6). -/
def errKey (k : Nat) : Bool := decide (0x00400000 ≤ k) && decide (k < 0x00800000)

/-- Every register but those whose keys are listed. -/
def State.sameRegsBut (s t : State) (keys : List Nat) : Prop := ∀ k, keys.contains k = false → t.regAt k = s.regAt k

/-- Every register and every view selector. -/
def State.sameRegs (s t : State) : Prop := (∀ k, t.regAt k = s.regAt k) ∧ ∀ k, SMap.get 0 t.sel k = SMap.get 0 s.sel k

/-- Units, their planes and ports, switches, rigs and waves. -/
def State.sameNet (s t : State) : Prop :=
  t.planes = s.planes ∧ t.units = s.units ∧ t.inPorts = s.inPorts ∧ t.outPorts = s.outPorts ∧ t.switches = s.switches ∧ t.rigs = s.rigs ∧
    t.waves = s.waves

/-- Page tables, frames and tiers, streams, seals, the Sediment index, the versions of models. -/
def State.sameTiers (s t : State) : Prop :=
  t.tiers = s.tiers ∧ t.streams = s.streams ∧ t.seals = s.seals ∧ t.sed = s.sed ∧ t.wpkg = s.wpkg

/-- Contexts, interfaces, rings, the Start List's entries, what is held of their requests, the step. -/
def State.sameHost (s t : State) : Prop :=
  t.ctxs = s.ctxs ∧ t.vis = s.vis ∧ t.rings = s.rings ∧ t.entries = s.entries ∧ t.reqs = s.reqs ∧ t.step = s.step

/-- Expert routing, the fabric, collectives, slices, the pair. -/
def State.sameFabric (s t : State) : Prop :=
  t.scat = s.scat ∧ t.fab = s.fab ∧ t.coll = s.coll ∧ t.slices = s.slices ∧ t.twin = s.twin

/-- Power, seats, the board. -/
def State.samePower (s t : State) : Prop := t.pwr = s.pwr ∧ t.seats = s.seats ∧ t.board = s.board

/-- The error machinery, snapshots, the logbook. -/
def State.sameErr (s t : State) : Prop := t.err = s.err ∧ t.snap = s.snap ∧ t.log = s.log

/-- Fabric time and the queue of commands. -/
def State.sameTime (s t : State) : Prop := t.now = s.now ∧ t.pending = s.pending

/-- Everything but the registers and what has been sent. -/
def State.sameStores (s t : State) : Prop :=
  s.sameMemory t ∧ s.sameOps t ∧ s.sameNet t ∧ s.sameTiers t ∧ s.sameHost t ∧ s.sameFabric t ∧ s.samePower t ∧ s.sameErr t ∧ s.sameTime t

/-- The parts of the machine: one for each field of State but the counter of free values, which is the model's own. -/
inductive Part where
  | regs | sel | mem | ops
  | planes | units | inPorts | outPorts | switches | tiers | streams | twin | rigs | waves | ctxs | vis | rings | entries | wpkg | step
  | sed | seals | scat | fab | coll | reqs | slices | err | snap | log | pwr | seats | board | out | now | pending
deriving DecidableEq, Repr

/-- A part is the same in both states: registers, selectors, memory (bytes, poison, tags) and operand stores as they read, every other part as data. -/
def State.same (s t : State) : Part → Prop
  | .regs => ∀ k, t.regAt k = s.regAt k
  | .sel => ∀ k, SMap.get 0 t.sel k = SMap.get 0 s.sel k
  | .mem => s.sameMemory t
  | .ops => s.sameOps t
  | .planes => t.planes = s.planes
  | .units => t.units = s.units
  | .inPorts => t.inPorts = s.inPorts
  | .outPorts => t.outPorts = s.outPorts
  | .switches => t.switches = s.switches
  | .tiers => t.tiers = s.tiers
  | .streams => t.streams = s.streams
  | .twin => t.twin = s.twin
  | .rigs => t.rigs = s.rigs
  | .waves => t.waves = s.waves
  | .ctxs => t.ctxs = s.ctxs
  | .vis => t.vis = s.vis
  | .rings => t.rings = s.rings
  | .entries => t.entries = s.entries
  | .wpkg => t.wpkg = s.wpkg
  | .step => t.step = s.step
  | .sed => t.sed = s.sed
  | .seals => t.seals = s.seals
  | .scat => t.scat = s.scat
  | .fab => t.fab = s.fab
  | .coll => t.coll = s.coll
  | .reqs => t.reqs = s.reqs
  | .slices => t.slices = s.slices
  | .err => t.err = s.err
  | .snap => t.snap = s.snap
  | .log => t.log = s.log
  | .pwr => t.pwr = s.pwr
  | .seats => t.seats = s.seats
  | .board => t.board = s.board
  | .out => t.out = s.out
  | .now => t.now = s.now
  | .pending => t.pending = s.pending

/-- Only the parts listed may differ. -/
def State.changesOnly (s t : State) (ps : List Part) : Prop := ∀ p, ps.contains p = false → s.same t p

/-- Only registers, and of them only those whose keys are listed, may differ, and the other parts listed. -/
def State.changes (s t : State) (keys : List Nat) (ps : List Part) : Prop := s.changesOnly t (.regs :: ps) ∧ s.sameRegsBut t keys

/-- What handling an error may change without a scope: registers, the error machinery, the logbook, what is sent (R546 to R549). -/
def noteParts : List Part := [.regs, .err, .log, .out]

/-- What a fault may change with a scope: a request's end, a context's teardown, a ring's halt, a fence (Table 19.1, Table 15.12a, R501). Not memory,
operand stores, switches, interfaces, slices, Sediment, seals, the step, power, seats or the board. -/
def faultParts : List Part :=
  noteParts ++ [.units, .planes, .inPorts, .outPorts, .tiers, .streams, .twin, .rigs, .waves, .ctxs, .rings, .entries, .wpkg, .scat, .fab, .coll, .reqs, .snap]

/-- A run of `k` steps ends in a state: it meets no fault and no refusal. -/
def safeRun (k : Nat) (s : State) : Prop := ∃ t, Host.Core.run Sys2Proof.core k s = .next t

end Sys2Proof.Machine
end

