-- ==== Sys2Proof/Certificates/Slice0/Obligations.lean ====
section
/-! DEFINITION. The statements for the provers, chapter by chapter: the step and reset, the register file, then the commands of each family with
what each does, where it completes and what it leaves alone. `Answers i s P` says that the command `i` answers a next state at `s`, and that `P`
holds of it. -/

open Sys2Proof Sys2Proof.Machine

/-! ### The step, reset and the canonical form -/

/-- The performance counters' registers (R561). -/
def pmcKeys : List Nat := (List.range 16).map fun k => Reg.PMC + 16 * k

/-- A step takes the command at the front of the queue and runs it on the state with the queue's rest. -/
def Obligations.StepRunsFrontCommand : Prop :=
  ∀ (c : Instr) (rest : List Instr) (s : State), step { s with pending := c :: rest } = exec c { s with pending := rest }

/-- On an empty queue only time passes: fabric time advances by at most 2 ns and never runs back (R399 c). Where no message is on a bridge and no port drains for a
retrain, the time is charged to the planes that are current and to their contexts (R169), a second that ends counts (R565), the ports' lines send what a nanosecond carries
(R364, R393), and everything else stays. That an idle step is a tick of time is the model's choice (log 1). -/
def Obligations.IdleStepAdvancesTime : Prop :=
  ∀ s : State, s.pending = [] → ∃ t, step s = .next t ∧ s.now ≤ t.now ∧ t.now ≤ s.now + 2 ∧ t.pending = [] ∧
    (s.fab.cross = [] → (∀ x ∈ s.fab.ports, x.2.drain = none) → (∀ u, s.curPlane u < 8) →
      (∀ k, (∀ u p, p < 8 → k ≠ Reg.UNIT_PLANE_NS + unitOff u + 8 * p) →
        ([Reg.FAB_TX_FLITS, Reg.FAB_TRANSIT_FLITS, Reg.LOG_POWER_ON_S] ++ pmcKeys).contains k = false → t.regAt k = s.regAt k) ∧
      (∀ u, t.unit u = { s.unit u with periodNs := (t.unit u).periodNs }) ∧ (∀ c, t.ctx c = { s.ctx c with ns := (t.ctx c).ns }) ∧
      (∀ u, (∀ x ∈ s.planes, x.1 / 8 = u) → (s.plane u (s.curPlane u)).valid = true → s.asleep (seatOf u) = false → (s.unit u).yielded = false →
        let d := unitOff u + 8 * s.curPlane u
        t.getF .UNIT_PLANE_NS_NS d = (s.getF .UNIT_PLANE_NS_NS d + (t.now - s.now)) % 2 ^ Fld.UNIT_PLANE_NS_NS.len) ∧
      s.changesOnly t [.regs, .units, .ctxs, .fab, .out, .now])

/-- Right after reset every store is in its canonical form, memory lists nothing, no command waits, nothing has been sent, the module is not fenced; registers hold what the chapters' tables give (Tables 0.1, 2.11,
7.8, 15.2, 15.4, 17.9). -/
def Obligations.ResetState : Prop :=
  State.reset.wf = true ∧ State.reset.mem = [] ∧ State.reset.pending = [] ∧ State.reset.out = [] ∧ State.reset.fenced = false ∧
  ∀ p ∈ [(Fld.IDENT_PART_PART_CODE, 8), (.IDENT_PART_SUBSOIL_GIB, 0x480), (.IDENT_PART_COOLING, 1), (.SEQ_MODE_FORCE_STATIC, 1),
      (.TIERS_CAP_SUBSOIL_GIB, 0x480), (.HOSTVI_DEV_STATUS_READY, 0), (.TWIN_STATUS_STATE, 0), (.RING_STATUS_STATE, 0)],
    State.reset.getF p.1 = p.2

/-- Every step keeps the canonical form: registers, selectors, memory, poison, format tags and operand stores are sorted, each key once, no entry
equal to what an unlisted one reads as, so that two states that read alike in these stores are equal in them. -/
def Obligations.StepKeepsCanonicalForm : Prop :=
  ∀ s t : State, s.wf = true → step s = .next t → t.wf = true

/-! ### Registers (chapter 0) -/

/-- Bit `i` of a field after a write of `v` under its access code, in the bits that the access covers (Table 0.7): RO and RC keep it, RW takes
it, W1C clears where `v` is 1, W1S sets where `v` is 1, WK takes it from the Keel cores alone. -/
def bitAfter (acc : Access) (keel o v : Bool) : Bool :=
  match acc with
  | .ro | .rc | .wo => o
  | .rw => v
  | .w1c => o && !v
  | .w1s => o || v
  | .wk => if keel then v else o

/-- A write acts on a field by its access code (R16, Table 0.7), and on no bit outside the field or outside the half that the access covers
(R13). A field that has a command of its own is left to that command (log 15). -/
def Obligations.WriteFollowsAccessCode : Prop :=
  ∀ (f : FldDesc) (keel : Bool) (mask old v i : Nat), old < 2 ^ 64 → v < 2 ^ 64 → f.fld.lo + f.fld.len ≤ 64 → i < 64 →
    (f.write keel mask old v).testBit i =
      if f.own = false ∧ f.fld.lo ≤ i ∧ i < f.fld.lo + f.fld.len ∧ mask.testBit i = true then
        bitAfter f.acc keel (old.testBit i) (v.testBit i)
      else old.testBit i

/-- A write that the register file accepts at an 8-byte register: aligned, of a master whose accesses reach the module (R435), in its window, on a register that is no view selector, that
the master may write and whose block is in a state for it (R13 to R17, R59, R433, R439). -/
def acceptsWrite (s : State) (m : Master) (off o : Nat) (d : RegDesc) : Prop :=
  s.reached m = true ∧ off % 8 = 0 ∧ s.window m off = some o ∧ descOf o = some d ∧ d.isSel = false ∧ s.notReady m o = false ∧ mayWrite m d = true ∧ wkDenied m d = false ∧
    s.wrongState o (s.instOf m d o) = false ∧ (∀ k, s.asleep k = false)

/-- The commands that read and write registers. REGISTER_WRITE: the register takes what each field's access code makes of the value, addresses
aligned, every other register reads as before (a counter of R561 is zeroed when its event changes) and the rest of the machine is as it was; routing entries, logical ports and the counters themselves have effects
beside (R401, R403) and are not meant here. READ_CLEAR: the value
read is answered, and its RC fields are clear. VIEW_SELECTOR_WRITE: the writer's own copy takes the value, no register changes, nothing is
logged (R605). -/
def Obligations.RegisterCommands : Prop :=
  (∀ (s : State) (m : Master) (off v o : Nat) (d : RegDesc), acceptsWrite s m off o d →
    canonReg (canonOff o) ≠ Reg.FAB_LPORT → canonReg (canonOff o) ≠ Reg.FAB_RT_DATA → pmcKeys.contains (o + inst (s.instOf m d o)) = false →
    Answers (.registerWrite m off 8 v) s fun t =>
      t.regAt (o + inst (s.instOf m d o)) =
          alignWrite o (BitVec.ofNat 64
            (d.fields.foldl (fun w f => f.write (m == .keel) (2 ^ 64 - 1) w v) (s.regAt (o + inst (s.instOf m d o))).toNat)) ∧
        s.sameRegsBut t ((o + inst (s.instOf m d o)) :: pmcKeys) ∧ s.sameStores t ∧ t.out = s.out) ∧
  (∀ (s : State) (m : Master) (off o : Nat) (d : RegDesc), s.reached m = true → off % 8 = 0 → s.window m off = some o → descOf o = some d →
    (d.fields.any fun f => f.acc == .rc) = true → (d.fields.all fun f => decide (f.fld.lo + f.fld.len ≤ 64)) = true →
    Answers (.readClear m off 8) s fun t =>
      t.out = .read off (s.peek m o) :: s.out ∧ s.sameStores t ∧ s.sameRegsBut t [o + inst (s.instOf m d o)] ∧
        (∀ f ∈ d.fields, f.acc = .rc → getBits (t.regAt (o + inst (s.instOf m d o))) f.fld.lo f.fld.len = 0)) ∧
  (∀ (s : State) (m : Master) (off v o : Nat) (d : RegDesc), s.reached m = true → off % 8 = 0 → s.window m off = some o → descOf o = some d → d.isSel = true →
    Answers (.viewSelectorWrite m off 8 v) s fun t =>
      SMap.get 0 t.sel (selKey m o) = (v &&& (2 ^ 64 - 1)) &&& d.mask ∧
        (∀ k, k ≠ selKey m o → SMap.get 0 t.sel k = SMap.get 0 s.sel k) ∧ (∀ k, t.regAt k = s.regAt k) ∧ t.out = s.out ∧
        (o ≠ Reg.LOG_SEL → s.sameStores t) ∧ (o = Reg.LOG_SEL → t.log.fetch = (s.log.fetch.filter fun p => p.1 != m.code) ++ [(m.code, v % 2 ^ 32)]))

/-- Writes not accepted, and holes. A write of a size or alignment that R13 refuses, one to an offset that holds no register, one from a master that may not write the register (R16, R59), changes no register outside
the error block and nothing else: it only logs a notice. An offset within a window that holds no register reads as zero, and a write to it is discarded and logs a notice, S0 (R14): the windows of a VF that
show its requests' entries (Table 15.2) are apart. While VF Enable is clear or its interface is disabled, no access to a VF's window has an effect, returns data or
records a notice (R435). -/
def Obligations.RefusedWriteChangesNothing : Prop :=
  (∀ (s : State) (m : Master) (off size v : Nat), (∀ k, s.asleep k = false) →
    (sizeOk off size = false ∨ s.window m (off / 8 * 8) = none ∨
      (∃ o d, s.window m (off / 8 * 8) = some o ∧ descOf o = some d ∧ d.isSel = false ∧ (mayWrite m d = false ∨ wkDenied m d = true))) →
    Answers (.registerWrite m off size v) s fun t =>
      (∀ k, errKey k = false → t.regAt k = s.regAt k) ∧ (∀ k, SMap.get 0 t.sel k = SMap.get 0 s.sel k) ∧ s.sameMemory t ∧ s.sameOps t ∧
        s.sameNet t ∧ s.sameTiers t ∧ s.sameHost t ∧ s.sameFabric t ∧ s.samePower t ∧ t.snap = s.snap ∧ s.sameTime t) ∧
  (∀ (s : State) (m : Master) (off size v : Nat), s.reached m = true → (∀ k, s.asleep k = false) → sizeOk off size = true →
    (s.window m (off / 8 * 8) = none ∨ ∃ o, s.window m (off / 8 * 8) = some o ∧ descOf o = none ∧ msixRegion o = false) →
    (∀ n, m = .vf n → off < 0x02000000 ∨ 0x02200000 ≤ off) →
    Answers (.readClear m off size) s (fun t => t.out = .read off 0 :: s.out ∧ s.changesOnly t [.out]) ∧
    Answers (.registerWrite m off size v) s (fun t => (∃ b, t = (s.pmcAfter (s.notice b nAccessHole off)).canon) ∧ s.changesOnly t noteParts ∧ (∀ k, errKey k = false → t.regAt k = s.regAt k) ∧
      (s.fenced = false → t.getF .ERR_RAISED_S_COUNT = (s.getF .ERR_RAISED_S_COUNT + 1) % 2 ^ Fld.ERR_RAISED_S_COUNT.len))) ∧
  (∀ (s : State) (n off size v r : Nat), (s.board.vfEnable = false ∨ (s.vi n).enabled = false) → ∀ x ∈ [Instr.registerWrite (.vf n) off size v, .readClear (.vf n) off size,
    .viewSelectorWrite (.vf n) off size v, .sqDoorbell (.vf n) r v, .cqDoorbell (.vf n) r v, .ringEnable (.vf n) r, .ringDisable (.vf n) r], Answers x s fun t => t = s.canon)

/-! ### The compute unit (chapters 2 to 4) -/

/-- The commands of the sequencer's catches that leave memory alone, each with the entries it treats (Tables 2.3 to 2.6). -/
def unitCatches (u : Nat) : List (Instr × (Nat → Bool)) :=
  [(.nop u, isClass 0), (.mpass u, isClass 1), (.vecAdd u, isForm 2 0), (.vecSub u, isForm 2 1), (.vecMul u, isForm 2 2),
    (.vecFma u, isForm 2 3), (.vecMax u, isForm 2 4), (.vecMin u, isForm 2 5), (.vecCmpLt u, isForm 2 6), (.vecCmpEq u, isForm 2 7),
    (.vecCvt u, isForm 2 8), (.vecReduceSum u, isForm 2 9), (.vecReduceMax u, isForm 2 10), (.vecScaleExp u, isForm 2 11)] ++
  [(.sfnExp2 u, isForm 3 0), (.sfnExp u, isForm 3 1), (.sfnLog2 u, isForm 3 2), (.sfnRcp u, isForm 3 3), (.sfnRsqrt u, isForm 3 4),
    (.sfnSqrt u, isForm 3 5), (.sfnTanh u, isForm 3 6), (.sfnSigmoid u, isForm 3 7), (.sfnSilu u, isForm 3 8), (.sfnGelu u, isForm 3 9),
    (.sfnMicroprogram u, fun e => isClass 3 e && decide (10 ≤ enFormat e)), (.select u, isClass 6), (.forward u, isClass 7), (.send u, isClass 8)] ++
  [(.recv u, isClass 9), (.statAcc u, isForm 11 0), (.statRmsAcc u, isForm 11 1), (.statMerge u, isForm 11 2), (.statFinish u, isForm 11 3)]

/-- Registers of a unit that a catch may change: its catch counters, its numeric flags and counters, its fault flags (Tables 2.9, 2.14, 3.8). -/
def catchKeys (u : Nat) : List Nat :=
  [Reg.UNIT_CATCHES, Reg.UNIT_NULL_CATCHES, Reg.UNIT_NUM_FLAGS, Reg.UNIT_ACC_OVF, Reg.UNIT_SFN_FTZ, Reg.UNIT_STAT_CLAMP, Reg.UNIT_FAULT,
    Reg.UNIT_FAULT_INFO].map fun r => r + unitOff u

/-- What a catch leaves alone: all of memory, every other part of the machine, every operand-store line of another unit, every register outside
the error block but the unit's own that `catchKeys` names. -/
def catchFrame (s : State) (u : Nat) (t : State) : Prop :=
  s.sameMemory t ∧ s.sameTiers t ∧ s.sameHost t ∧ s.sameFabric t ∧ s.samePower t ∧ s.sameTime t ∧ t.rigs = s.rigs ∧ t.waves = s.waves ∧
    t.switches = s.switches ∧ t.snap = s.snap ∧ (∀ v l, v ≠ u → l < 4096 → t.opLine v l = s.opLine v l) ∧
    ∀ k, errKey k = false → (catchKeys u).contains k = false → t.regAt k = s.regAt k

/-- Every catch is counted, leaves its entry in flight under the number it took (a NOP leaves none), advances the entry's counter and moves the
plane's position: to LOOP_TO while the loop's counter is not zero, else to the next entry; at END the run ends and the next begins at E0
(R48, R49, R53, Table 2.2). It leaves everything outside the unit alone. -/
def Obligations.CatchCountsAndMovesOn : Prop :=
  ∀ (s : State) (u : Nat), ∀ x ∈ unitCatches u, s.fires u x.2 = true →
    let p := s.curPlane u
    let e := s.curEntry u
    let after := (planeAfter (s.plane u p) e false 0 false s.now).ctrs
    Answers x.1 s fun t =>
      t.getF .UNIT_CATCHES_COUNT (unitOff u) = (s.getF .UNIT_CATCHES_COUNT (unitOff u) + 1) % 2 ^ 64 ∧
        (enClass e ≠ 0 → ∃ f ∈ (t.unit u).inflight, f.id = (s.unit u).nextId ∧ f.plane = p ∧ f.opclass = enClass e ∧
          f.suppressed = (s.plane u p).suppresses e) ∧
        (enEnd e = false → (t.plane u p).ctrs = after ∧
          (t.plane u p).pc = if enLoopEn e = true ∧ after.getD (enLoopCtr e) 0 ≠ 0 then enLoopTo e else ((s.plane u p).pc + 1) % 64) ∧
        (enEnd e = true → (t.plane u p).pc = 0 ∧ (t.plane u p).preds = 0 ∧ (t.plane u p).runs = ((s.plane u p).runs + 1) % 2 ^ 32) ∧
        catchFrame s u t

/-- The lanes of a two-operand FP32 operation: `f` on A and B lane by lane, poison carried (R35, R76). -/
def lanesOf (f : Nat → Nat → NR) (s : State) (u e : Nat) : List (NR × Bool) :=
  vecLanes f (s.vecIn u (enSrcA e) (enSrcFmt e) (enLen e)) (s.vecIn u (enSrcB e) (enSrcFmt e) (enLen e))

/-- Results as packed lines of a format code. -/
def linesOf (code : Nat) (rs : List (NR × Bool)) : List (Line × Bool) := packLines (codeBits code) (rs.map fun r => (r.1.bits, r.2))

/-- The results of a special-function entry, element by element (R93 to R103). -/
def sfnLines (s : State) (u p e : Nat) : List (Line × Bool) :=
  packLines (codeBits (enDstFmt e)) ((List.range (64 * enLen e)).map fun k =>
    let x := s.opElem u (enSrcA e) (enSrcFmt e) k
    ((sfnElem (recMp (s.plane u p).cfg) (enFormat e) (enSrcFmt e) (enDstFmt e) (recNumctl (s.plane u p).cfg) x.1).bits, x.2))

/-- Merged statistics records (R112). -/
def mergeLines (s : State) (u e : Nat) : List (Line × Bool) :=
  packLines 128 ((List.range (64 * enLen e)).map fun k =>
    ((statMergeRead (s.statAt u (enDst e) k).1 (s.statAt u (enSrcA e) k).1).r.toBits, (s.statAt u (enDst e) k).2 || (s.statAt u (enSrcA e) k).2))

/-- Finished statistics: four FP32 values a record, epsilon the first FP32 of SRC_B (R115, R116). -/
def finishLines (s : State) (u e : Nat) : List (Line × Bool) :=
  packLines 32 ((List.range (64 * enLen e)).flatMap fun k =>
    (statFinish (s.statAt u (enSrcA e) k).1 (s.opElem u (enSrcB e) 0 0).1).1.map fun v =>
      (v, (s.statAt u (enSrcA e) k).2 || (s.opElem u (enSrcB e) 0 0).2))

/-- The vector and special-function commands whose results are functions of their operands alone, with the entries each treats and the lines it
writes from DST on, with their tag. -/
def engineLines (u : Nat) : List (Instr × (Nat → Bool) × (State → Nat → Nat → Nat × List (Line × Bool))) :=
  [(.vecSub u, isForm 2 1, fun s _ e => (0, linesOf 0 (lanesOf f32Sub s u e))), (.vecMul u, isForm 2 2, fun s _ e => (0, linesOf 0 (lanesOf f32Mul s u e))),
    (.vecMax u, isForm 2 4, fun s _ e => (0, linesOf 0 (lanesOf f32Max s u e))), (.vecMin u, isForm 2 5, fun s _ e => (0, linesOf 0 (lanesOf f32Min s u e))),
    (.vecCmpLt u, isForm 2 6, fun s _ e => (0, linesOf 0 (lanesOf f32CmpLt s u e))),
    (.vecCmpEq u, isForm 2 7, fun s _ e => (0, linesOf 0 (lanesOf f32CmpEq s u e))),
    (.vecAdd u, fun e => isForm 2 0 e && enDstFmt e != 9, fun s _ e => (0, linesOf 0 (lanesOf f32Add s u e))),
    (.vecFma u, isForm 2 3, fun s _ e => (0, linesOf 0
      (((s.vecIn u (enSrcA e) (enSrcFmt e) (enLen e)).zip (s.vecIn u (enSrcB e) (enSrcFmt e) (enLen e))).zipWith
        (fun a d => (f32Fma a.1.1 a.2.1 d.1, a.1.2 || a.2.2 || d.2)) (s.vecIn u (enDst e) 0 (enLen e))))),
    (.vecScaleExp u, isForm 2 11, fun s _ e => (0, linesOf 0
      (vecLanes f32ScaleExp (s.vecIn u (enSrcA e) (enSrcFmt e) (enLen e)) ((List.range (64 * enLen e)).map fun k => s.opElem u (enSrcB e) 0 k))))] ++
  ([(.sfnExp2 u, isForm 3 0), (.sfnExp u, isForm 3 1), (.sfnLog2 u, isForm 3 2), (.sfnRcp u, isForm 3 3), (.sfnRsqrt u, isForm 3 4),
      (.sfnSqrt u, isForm 3 5), (.sfnTanh u, isForm 3 6), (.sfnSigmoid u, isForm 3 7), (.sfnSilu u, isForm 3 8), (.sfnGelu u, isForm 3 9),
      (.sfnMicroprogram u, fun e => isClass 3 e && decide (10 ≤ enFormat e))] : List (Instr × (Nat → Bool))).map
    (fun x => (x.1, x.2, fun s p e => (enDstFmt e, sfnLines s u p e))) ++
  [(.statMerge u, isForm 11 2, fun s _ e => (15, mergeLines s u e)), (.statFinish u, isForm 11 3, fun s _ e => (0, finishLines s u e))]

/-- The vector engine, the special-function block and the statistics entries write what their operands give, packed from line DST on with the
target's tag, and no other operand-store line (R68, R73 to R76, R93 to R103, R112, R115). An entry that its predicate suppresses writes
none (R52). -/
def Obligations.EngineResults : Prop :=
  ∀ (s : State) (u : Nat), ∀ x ∈ engineLines u, s.fires u x.2.1 = true →
    let p := s.curPlane u
    let e := s.curEntry u
    Answers x.1 s fun t => ∀ v l, t.opLine v l =
      if (s.plane u p).suppresses e then s.opLine v l
      else (s.putOps u (enDst e) (x.2.2 s p e).1 (x.2.2 s p e).2).opLine v l

/-- The entries whose results take more than one store or a free value. A REDUCE leaves the tree's value in lane 0 of each result vector, in the other
lanes a free value that is a function of the operation and the lanes (R77, R90, log 2); a wide ADD adds A to DST as wide partials, a scalar A under
a free anchor that holds it exactly, a function of its value (R73, R86, R90, log 2); a CVT to
a scalar format converts element by element and to an MX format writes blocks at DST and their scales at SRC_B (R73 to R75, R87); ACC and
RMS_ACC write their record into slot RSLOT of line DST (R113). -/
def Obligations.EngineResultsWithFreeLanes : Prop :=
  (∀ (s : State) (u : Nat), ∀ x ∈ [(Instr.vecReduceSum u, 9, f32Add), (.vecReduceMax u, 10, f32Max)], s.fires u (isForm 2 x.2.1) = true →
    let e := s.curEntry u
    (s.plane u (s.curPlane u)).suppresses e = false →
    Answers x.1 s fun t => ∀ v l, t.opLine v l = (s.putOps u (enDst e) 0 (linesOf 0
      ((vectorsOf (enLen e) (s.vecIn u (enSrcA e) (enSrcFmt e) (enLen e))).flatMap fun w =>
        (treeReduce x.2.2 (w.map (·.1)), w.any (·.2)) ::
          (List.range 63).map fun k => (⟨(Config.reduceLane x.2.1 k (w.map (·.1))).toNat, 0⟩, w.any (·.2))))).opLine v l) ∧
  (∀ (s : State) (u : Nat), s.fires u (fun e => isForm 2 0 e && enDstFmt e == 9) = true →
    let e := s.curEntry u
    (s.plane u (s.curPlane u)).suppresses e = false →
    Answers (.vecAdd u) s fun t => ∀ v l, t.opLine v l = (s.putOps u (enDst e) 9 (linesOf 9 (vecLanes wideAdd
      ((List.range (64 * enLen e)).map fun k => s.opElem u (enDst e) 9 k)
      ((List.range (64 * enLen e)).map fun k =>
        let x := s.opElem u (enSrcA e) (enSrcFmt e) k
        (if enSrcFmt e = 9 then x.1 else widenWide (widen (enSrcFmt e) x.1), x.2))))).opLine v l) ∧
  (∀ (s : State) (u : Nat), s.fires u (isForm 2 8) = true →
    let e := s.curEntry u
    let nc := recNumctl (s.plane u (s.curPlane u)).cfg
    let sf := enSrcFmt e
    (s.plane u (s.curPlane u)).suppresses e = false →
    Answers (.vecCvt u) s fun t =>
      (mxTag (enDstFmt e) = false → ∀ v l, t.opLine v l = (s.putOps u (enDst e) (enDstFmt e) (linesOf (enDstFmt e) ((s.cvtIn u e).map fun x =>
        ((if sf = 9 then wideToF32 x.1 else if mxTag sf then cvtMx (enDstFmt e) nc (mxVal sf x.2.1 x.1) else cvtScalar sf (enDstFmt e) nc x.1),
          x.2.2)))).opLine v l) ∧
      (mxTag (enDstFmt e) = true →
        let gs := (groupsOf (2 * enLen e) ((s.cvtIn u e).map fun x =>
          ((if mxTag sf then mxVal sf x.2.1 x.1 else f32 (widen sf x.1)), x.2.2))).map fun g =>
            (narrowBlock (enDstFmt e) nc (g.map (·.1)), g.any (·.2))
        ∀ v l, t.opLine v l = ((s.putOps u (enDst e) 15 (packLines (codeBits (enDstFmt e)) (gs.flatMap fun g => g.1.2.1.map fun b => (b, g.2)))).putOps
          u (enSrcB e) (enDstFmt e) (packLines 8 (gs.map fun g => (g.1.1, g.2)))).opLine v l)) ∧
  (∀ (s : State) (u : Nat), ∀ x ∈ [(Instr.statAcc u, 0, accLane, ({} : StatRec)), (.statRmsAcc u, 1, rmsLane, { rms := true })],
    s.fires u (isForm 11 x.2.1) = true →
    let e := s.curEntry u
    let xs := s.vecIn u (enSrcA e) (enDstFmt e) (enLen e)
    let row := statTree ((vectorsOf (enLen e) (xs.map (·.1))).foldl (fun (ls : List MR) v => ls.zipWith x.2.2.1 v) (List.replicate 64 ⟨x.2.2.2, 0, 0⟩))
    let slot := natBits (enFlags e) 5 2
    let d := (s.opLine u (enDst e)).data.toNat
    let r := if natBit (enFlags e) 4 then (statMerge (StatRec.ofBits (natBits d (128 * slot) 128)) row.r).r else row.r
    (s.plane u (s.curPlane u)).suppresses e = false →
    Answers x.1 s fun t => ∀ v l, t.opLine v l = (s.setOpLine u (enDst e)
      { data := BitVec.ofNat 512 (d - natBits d (128 * slot) 128 * 2 ^ (128 * slot) + r.toBits * 2 ^ (128 * slot)), tag := 15,
        poison := (s.opLine u (enDst e)).poison || xs.any (·.2) }).opLine v l)

/-- The matrix engine. MPASS: the 1,024 outputs of the operands wait in the accumulators under the entry's number (R57, R69 to R71, R78 to R85).
PASS_COMPLETE: with the result buffer empty they leave it, through the epilogue if the entry has one, packed from line DST on, or as beats offered
on every OUT_MASK port; with it occupied the pass waits (R57, R104 to R108). -/
def Obligations.MatrixPass : Prop :=
  (∀ (s : State) (u : Nat), s.fires u (isClass 1) = true →
    let p := s.curPlane u
    let e := s.curEntry u
    (s.plane u p).suppresses e = false →
    Answers (.mpass u) s fun t =>
      (t.unit u).pass = some { id := (s.unit u).nextId, plane := p, entry := (s.plane u p).pc, results := s.passResults u e } ∧
        (t.unit u).resBuf = (s.unit u).resBuf ∧ s.sameOps t) ∧
  (∀ (s : State) (u : Nat) (pa : PassSt), (s.unit u).pass = some pa → (s.unit u).resBuf = none →
    let e := recEntry (s.plane u pa.plane).cfg pa.entry
    let code := passOut (s.plane u pa.plane).cfg e
    let ls := packLines (codeBits code) ((s.passOuts u pa).map fun o => (o.1.bits, o.2))
    Answers (.passComplete u) s fun t =>
      (t.unit u).pass = none ∧ (t.unit u).resBuf = some pa.id ∧
        (∀ f ∈ (t.unit u).inflight, f.id = pa.id → f.engines = [] ∧ f.reads = [] ∧ f.writes = [] ∧ f.passPending = false) ∧
        (enToPort e = false → t.outPorts = s.outPorts ∧ ∀ v l, t.opLine v l = (s.putOps u (enDst e) code ls).opLine v l) ∧
        (enToPort e = true → s.sameOps t ∧ ∀ n, n < 8 → natBit (enOutMask e) n = true → ∃ pv : Bool,
          (t.outPort u pa.plane n).pending = (s.outPort u pa.plane n).pending ++
            ls.map fun l => (pa.id, { data := l.1, epoch := (s.plane u pa.plane).epoch, poison := l.2, pred := pv })) ∧
        s.sameMemory t ∧ t.planes = s.planes ∧ t.inPorts = s.inPorts ∧ s.sameTiers t ∧ s.sameHost t ∧ s.sameFabric t ∧ s.samePower t ∧
        s.sameErr t ∧ s.sameTime t) ∧
  (∀ (s : State) (u k : Nat), (s.unit u).resBuf = some k → Answers (.passComplete u) s fun t => t = s.canon)

/-- The moves (R35, R36, R38, R50, R68). SEND offers LEN operand-store lines as beats on every OUT_MASK port; RECV takes its port's head beat into line
DST with the entry's tag, a null beat as poison; FORWARD and SELECT offer the head beat, null or not, SELECT that of the lower port when
its predicate is 1; TS_LOAD brings LEN Topsoil lines with tag and poison into DST on, and waits on a feed slot that is not FULL (R232); TS_STORE
writes LEN lines with their tags from the computed Topsoil address on, and no other byte of memory. -/
def Obligations.UnitMoves : Prop :=
  (∀ (s : State) (u : Nat), s.fires u (isClass 8) = true → let p := s.curPlane u; let e := s.curEntry u; (s.plane u p).suppresses e = false →
    Answers (.send u) s fun t => s.sameOps t ∧ ∀ n, n < 8 → natBit (enOutMask e) n = true → ∃ pv : Bool,
      (t.outPort u p n).pending = (s.outPort u p n).pending ++ (List.range (enLen e)).map fun i =>
        let l := s.opLine u ((enSrcA e + i) % 4096)
        ((s.unit u).nextId, { data := l.data, epoch := (s.plane u p).epoch, poison := l.poison, pred := pv })) ∧
  (∀ (s : State) (u n : Nat) (r : List Nat) (b : Beat), s.fires u (isClass 9) = true → let p := s.curPlane u; let e := s.curEntry u;
    (s.plane u p).suppresses e = false → maskPorts (enInPop e) = n :: r → s.headBeat u p n = some b →
    Answers (.recv u) s fun t => ∀ v l, t.opLine v l =
      (s.setOpLine u (enDst e % 4096) { data := b.data, tag := enDstFmt e, poison := b.null || b.poison }).opLine v l) ∧
  (∀ (s : State) (u n : Nat) (r : List Nat) (b : Beat), s.fires u (isClass 7) = true → let p := s.curPlane u; let e := s.curEntry u;
    (s.plane u p).suppresses e = false → maskPorts (enInPop e) = n :: r → s.headBeat u p n = some b →
    Answers (.forward u) s fun t => s.sameOps t ∧ ∀ k, k < 8 → natBit (enOutMask e) k = true → ∃ pv : Bool,
      (t.outPort u p k).pending = (s.outPort u p k).pending ++ [((s.unit u).nextId, { b with mark := false, pred := pv })]) ∧
  (∀ (s : State) (u n m : Nat) (b c : Beat), s.fires u (isClass 6) = true → let p := s.curPlane u; let e := s.curEntry u;
    (s.plane u p).suppresses e = false → maskPorts (enInPop e) = [n, m] → s.headBeat u p n = some b → s.headBeat u p m = some c →
    Answers (.select u) s fun t => s.sameOps t ∧ ∀ k, k < 8 → natBit (enOutMask e) k = true → ∃ pv : Bool,
      (t.outPort u p k).pending = (s.outPort u p k).pending ++
        [((s.unit u).nextId, { (if natBit (s.plane u p).preds (enPredSrc e) then b else c) with mark := false, pred := pv })]) ∧
  (∀ (s : State) (u : Nat), s.fires u (isClass 4) = true → let p := s.curPlane u; let e := s.curEntry u; (s.plane u p).suppresses e = false →
    let at_ := fun i => tsStart (s.plane u p).ctrs e + 64 * i
    (∀ i, i < enLen e → inTsWindow (s.plane u p) (at_ i) = true ∧ s.feedSlotAt u (at_ i) = none) →
    Answers (.tsLoad u) s fun t => s.sameMemory t ∧
      (∀ i, i < enLen e → t.opLine u ((enDst e + i) % 4096) =
        { data := s.lineAt (sliceBase u + at_ i), tag := SMap.get 0 s.memTag (lineOf (sliceBase u + at_ i)),
          poison := s.poisonAt (sliceBase u + at_ i) }) ∧
      ∀ v l, l < 4096 → (∀ i, i < enLen e → ¬(v = u ∧ l = (enDst e + i) % 4096)) → t.opLine v l = s.opLine v l) ∧
  (∀ (s : State) (u : Nat) (g : FeedRing) (k line : Nat), s.fires u (isClass 4) = true → let p := s.curPlane u; let e := s.curEntry u;
    (s.plane u p).suppresses e = false → inTsWindow (s.plane u p) (tsStart (s.plane u p).ctrs e) = true →
    s.feedSlotAt u (tsStart (s.plane u p).ctrs e) = some (g, k, line) → (g.slots.getD k {}).state ≠ 2 →
    Answers (.tsLoad u) s fun t => s.sameMemory t ∧ s.sameOps t ∧
      ∃ f ∈ (t.unit u).inflight, f.id = (s.unit u).nextId ∧ f.inLeft = enLen e) ∧
  (∀ (s : State) (u : Nat), s.fires u (isClass 5) = true → let p := s.curPlane u; let e := s.curEntry u; (s.plane u p).suppresses e = false →
    let at_ := fun i => tsStart (s.plane u p).ctrs e + 64 * i
    (∀ i, i < enLen e → inTsWindow (s.plane u p) (at_ i) = true) →
    let stored := (List.range (enLen e)).foldl (fun (z : State) i =>
      let l := s.opLine u ((enSrcA e + i) % 4096)
      z.putTagged (sliceBase u + at_ i) l.data l.poison l.tag) s
    Answers (.tsStore u) s fun t => stored.sameMemory t ∧ s.sameOps t ∧ s.sameTiers t ∧ s.sameHost t ∧
      ∀ a, (∀ i, i < enLen e → lineOf a ≠ lineOf (sliceBase u + at_ i)) → t.byteAt a = s.byteAt a ∧ t.poisonAt a = s.poisonAt a)

/-- An entry that its predicate suppresses fires under the same conditions and does no engine work: the operand store and memory stay, the null
catch is counted, and each OUT_MASK port is offered null beats alone, as many as the catch would have offered (R52). -/
def Obligations.SuppressedEntryWritesNothing : Prop :=
  ∀ (s : State) (u : Nat), ∀ x ∈ unitCatches u ++ [(.tsLoad u, isClass 4), (.tsStore u, isClass 5)], s.fires u x.2 = true →
    let p := s.curPlane u
    let e := s.curEntry u
    let n := if entryBeats (s.plane u p).cfg e = 0 then 0 else if entryRounds e = 0 then entryBeats (s.plane u p).cfg e else 1
    (s.plane u p).suppresses e = true →
    Answers x.1 s fun t => s.sameOps t ∧ catchFrame s u t ∧
      t.getF .UNIT_NULL_CATCHES_COUNT (unitOff u) = (s.getF .UNIT_NULL_CATCHES_COUNT (unitOff u) + 1) % 2 ^ 64 ∧
      ∀ k, k < 8 → natBit (enOutMask e) k = true → ∃ bs : List Beat, bs.length = n ∧ (∀ b ∈ bs, b.null = true) ∧
        (t.outPort u p k).pending = (s.outPort u p k).pending ++ bs.map fun b => ((s.unit u).nextId, b)

/-- A beat that reaches a compute unit over its last link without error, its epoch against the plane's, d = (e_b - e_p) mod 16 (R34): at 0 the beat joins the port's queue; at 15 it is stale, discarded, its credit
sent back and UNIT_STALE_DROP advanced; at 1 it is early and held at the input with its credit; at 2 to 14 EPOCH_GAP is raised against the owning
context at S3. Where the plane is invalid the port discards the beat (R178). A word whose tag the link could not correct is discarded: no port, plane or unit sees it (R126). -/
def Obligations.BeatEpochJudged : Prop :=
  ∀ (s : State) (u p n : Nat) (b : Beat), isService u = false → p < 8 → n < 8 →
    (s.outCtxs (seatOf u) (u % 2048) 0 = [] → Answers (.beatArrive u p n ⟨b, 3⟩) s fun t => s.changesOnly t noteParts) ∧ (b.mark = false →
    let d := (b.epoch + 16 - (s.plane u p).epoch) % 16
    ((s.plane u p).valid = false → Answers (.beatArrive u p n ⟨b, 0⟩) s fun t => t = s.canon) ∧
    ((s.plane u p).valid = true →
      (d = 0 → Answers (.beatArrive u p n ⟨b, 0⟩) s fun t =>
        (t.inPort u p n).queue = (s.inPort u p n).queue ++ [b] ∧ t.planes = s.planes ∧ t.outPorts = s.outPorts ∧ t.out = s.out) ∧
      (d = 15 → Answers (.beatArrive u p n ⟨b, 0⟩) s fun t =>
        t.out = .credit u p n 1 :: s.out ∧
          t.getF .UNIT_STALE_DROP_COUNT (unitOff u) = (s.getF .UNIT_STALE_DROP_COUNT (unitOff u) + 1) % 2 ^ 64 ∧
          s.sameRegsBut t [Reg.UNIT_STALE_DROP + unitOff u] ∧ s.sameStores t) ∧
      (d = 1 → Answers (.beatArrive u p n ⟨b, 0⟩) s fun t =>
        (t.inPort u p n).queue = (s.inPort u p n).queue ++ [b] ∧ t.planes = s.planes ∧ t.out = s.out ∧
          t.getF .UNIT_EARLY_HOLD_COUNT (unitOff u) = (s.getF .UNIT_EARLY_HOLD_COUNT (unitOff u) + 1) % 2 ^ 64) ∧
      (2 ≤ d → d ≤ 14 → Answers (.beatArrive u p n ⟨b, 0⟩) s fun t =>
        t = (s.fault unitRegs
          { block := 0x01, fault := 3, sev := 3, scope := .context (s.plane u p).ctx, ctx := some (s.plane u p).ctx, whereKind := 1, whereIs := u,
            info := packBits [(3, p), (6, (s.plane u p).pc), (4, 0), (4, n), (15, 0), (32, b.epoch)] } (unitOff u)).canon)))

/-- The events of a unit's sequencer and ports. ENTRY_SKIP passes an entry that is not due: to SKIP_TO or the next, and at END the run ends (R48, R53).
BEAT_EMIT sends the oldest beat offered for one credit, in a slot of the port's group when its turn has come, with the plane's index as the member, unless an earlier entry still owes the port a beat (R49, R50, R132). STREAMING_BEAT_CONSUME takes
an entry's next beat: a RECV into the line after those taken, a FORWARD on to every OUT_MASK port (R35, R36, R50). ENGINE_COMPLETE ends an entry that has
nothing left to take or owe and frees the result buffer it held (R48, R57); a self-check mismatch sets the unit OFFLINE, an uncorrectable operand-store line is
poisoned, a corrected one recorded, and an uncorrectable configuration bit fails its plane's context (R61, Table 2.15). -/
def Obligations.SequencerEvents : Prop :=
  (∀ (s : State) (u : Nat), let p := s.curPlane u; let e := s.curEntry u
    s.mayIssue u p = true → (s.plane u p).shapesReady e = true → (s.plane u p).due e = false →
    Answers (.entrySkip u) s fun t => s.changesOnly t [.planes] ∧ (∀ v q, planeKey v q ≠ planeKey u p → t.plane v q = s.plane v q) ∧
      (enEnd e = false → t.plane u p = { s.plane u p with pc := if enSkipEn e then enSkipTo e else ((s.plane u p).pc + 1) % 64 }) ∧
      (enEnd e = true → (t.plane u p).pc = 0 ∧ (t.plane u p).preds = 0 ∧ (t.plane u p).runs = ((s.plane u p).runs + 1) % 2 ^ 32)) ∧
  (∀ (s : State) (u p n : Nat) (h : Nat × Beat) (r : List (Nat × Beat)), p < 8 → n < 8 → (s.outPort u p n).pending = h :: r →
    let first := r.foldl (fun a b => if b.1 < a.1 then b else a) h
    (s.outPort u p n).credits ≠ 0 → s.asleep (seatOf u) = false → s.slotTurn u p n = true →
    (∀ x ∈ (s.unit u).inflight, x.plane = p → x.id < first.1 → ∀ o ∈ x.outLeft, o.1 = n → o.2 = 0) →
    Answers (.beatEmit u p n) s fun t => t.out = .beat u p n { first.2 with member := p } :: s.out ∧ t.rigs = (s.serveGroup u p n).rigs ∧
      t.outPort u p n = { s.outPort u p n with credits := (s.outPort u p n).credits - 1, pending := (s.outPort u p n).pending.erase first } ∧
      (t.unit u).moved = (s.unit u).moved + bit (p == s.curPlane u) ∧ (∀ x ∈ (t.unit u).inflight, x.id = first.1 → ∃ y ∈ (s.unit u).inflight, y.id = x.id ∧
        x.outLeft = y.outLeft.map fun o => if o.1 = n then (o.1, o.2 - 1) else o) ∧ s.changesOnly t [.units, .outPorts, .out, .rigs]) ∧
  (∀ (s : State) (u p n : Nat), p < 8 → n < 8 → ((s.outPort u p n).pending = [] ∨ (s.outPort u p n).credits = 0) →
    Answers (.beatEmit u p n) s fun t => t = s.canon) ∧
  (∀ (s : State) (u id n : Nat) (f : InFlight) (b : Beat), (s.unit u).inflight.find? (fun f => f.id == id) = some f → f.opclass = 9 → f.inLeft ≠ 0 →
    s.asleep (seatOf u) = false → f.suppressed = false → f.inPorts = [n] → let e := recEntry (s.plane u f.plane).cfg f.entry
    maskPorts (enInPop e) = [n] → s.headBeat u f.plane n = some b → b.null = false → (s.inPort u f.plane n).spillAt = [] →
    Answers (.streamingBeatConsume u id) s fun t =>
      (∀ v l, t.opLine v l = (s.setOpLine u ((enDst e + f.taken) % 4096) { data := b.data, tag := enDstFmt e, poison := b.poison }).opLine v l) ∧
      (t.inPort u f.plane n).queue = (s.inPort u f.plane n).queue.eraseIdx (s.headIdx u f.plane n) ∧ t.out = .credit u f.plane n 1 :: s.out ∧
      (t.unit u).inflight = (s.unit u).inflight.map (fun y => if y.id = id then { y with inLeft := y.inLeft - 1, taken := y.taken + 1 } else y) ∧
      s.changesOnly t [.ops, .units, .inPorts, .outPorts, .out]) ∧
  (∀ (s : State) (u id n : Nat) (f : InFlight) (b : Beat), (s.unit u).inflight.find? (fun f => f.id == id) = some f → f.opclass = 7 → f.inLeft ≠ 0 →
    s.asleep (seatOf u) = false → f.suppressed = false → f.inPorts = [n] → let e := recEntry (s.plane u f.plane).cfg f.entry
    maskPorts (enInPop e) = [n] → s.headBeat u f.plane n = some b → (s.inPort u f.plane n).spillAt = [] →
    Answers (.streamingBeatConsume u id) s fun t =>
      (∀ k, k < 8 → natBit (enOutMask e) k = true →
        (t.outPort u f.plane k).pending = (s.outPort u f.plane k).pending ++ [(id, { b with mark := false, pred := f.pred })]) ∧
      (t.unit u).inflight = (s.unit u).inflight.map (fun y => if y.id = id then { y with inLeft := y.inLeft - 1, taken := y.taken + 1 } else y) ∧
      t.out = .credit u f.plane n 1 :: s.out ∧ s.changesOnly t [.units, .inPorts, .outPorts, .out]) ∧
  (∀ (s : State) (u id : Nat) (f : InFlight), (s.unit u).inflight.find? (fun f => f.id == id) = some f → f.inLeft = 0 → f.passPending = false →
    (∀ o ∈ f.outLeft, o.2 = 0) →
    Answers (.engineComplete u id .good) s fun t =>
      t.unit u = { s.unit u with inflight := (s.unit u).inflight.filter (fun y => y.id != id),
                                 resBuf := if (s.unit u).resBuf = some id then none else (s.unit u).resBuf } ∧
      (∀ v, v ≠ u → t.unit v = s.unit v) ∧ s.changesOnly t [.units]) ∧
  (∀ (s : State) (u id : Nat) (f : InFlight), (s.unit u).inflight.find? (fun f => f.id == id) = some f → f.inLeft = 0 → f.passPending = false →
    (∀ o ∈ f.outLeft, o.2 = 0) → (∀ p, p < 8 → (s.plane u p).valid = false) →
    Answers (.engineComplete u id .mismatch) s fun t =>
      t.getF .UNIT_CTRL_OFFLINE (unitOff u) = 1 ∧ s.changesOnly t (.units :: noteParts)) ∧
  (∀ (s : State) (u id : Nat) (f : InFlight), (s.unit u).inflight.find? (fun f => f.id == id) = some f → f.inLeft = 0 → f.passPending = false →
    (∀ o ∈ f.outLeft, o.2 = 0) → ∀ l, l < 4096 → let c := (s.plane u f.plane).ctx
    let r := s.setUnit u { s.unit u with inflight := (s.unit u).inflight.filter (fun y => y.id != id),
                                         resBuf := if (s.unit u).resBuf = some id then none else (s.unit u).resBuf }
    Answers (.engineComplete u id (.lineUe l)) s (fun t => (t.opLine u l).poison = true ∧ (t.opLine u l).data = (s.opLine u l).data ∧
      (∀ k, k < 4096 → k ≠ l → (∀ x ∈ f.writes, ¬(k + 4096 - x.1) % 4096 < x.2) → t.opLine u k = s.opLine u k) ∧ s.changesOnly t (.units :: .ops :: noteParts)) ∧
    Answers (.engineComplete u id (.lineCe l)) s (fun t => t = (r.unitFault u 8 1 c f.plane f.entry 0 0 l).canon ∧ s.changesOnly t (.units :: noteParts)) ∧
    ∀ p, p < 8 → Answers (.engineComplete u id (.configUe p)) s fun t =>
      t = (if (s.plane u p).valid then r.unitFault u 11 3 (s.plane u p).ctx p 0 0 0 0 else r).canon)


/-- Shape words (R43 to R46). A first read of the word a waiting counter asked for, or a later one at least 1 us after the last, that finds VALID 0 leaves the
counter waiting and is noted with its time; one that finds VALID loads the limit, value over 2^SHIFT rounded up, and the wait ends; a limit above the compiled
constant loads nothing and raises SHAPE_RANGE with the value, at S3 against the context; a poisoned word raises SHAPE_POISON likewise (R46). The word read is the
one asked for when the wait began. Past the wait bound SHAPE_TIMEOUT is raised. -/
def Obligations.ShapeLoads : Prop :=
  (∀ (s : State) (u p k since va : Nat), p < 8 → k < 16 → ∀ x ∈ [(Instr.shapeLoadComplete u p k, false), (.shapeReread u p k, true)],
    let pl := s.plane u p
    let c := recCtr pl.cfg k
    pl.valid = true → pl.asked k = some (since, va) → (pl.triedAt k).isSome = x.2 → (∀ r, pl.triedAt k = some r → r + 1000 ≤ s.now) →
    ∀ (bs : List Byte), s.readVa pl.ctx va 8 = some (bs, false) →
    let v := natBits (leNat bs) 0 32
    let lim := (v + 2 ^ ctrShift c - 1) / 2 ^ ctrShift c
    (natBit (leNat bs) 63 = false → Answers x.1 s fun t =>
      t.plane u p = { pl with shapeTried := (k, s.now) :: pl.shapeTried.filter fun x => x.1 != k } ∧ s.changesOnly t [.planes]) ∧
    (natBit (leNat bs) 63 = true → lim ≤ ctrConst c → pl.limits.getD k none = none → k < pl.limits.length →
      (ctrLoadOn c && decide (lim ≤ pl.ctrs.getD k 0 + 1)) = false →
      (∀ q ∈ s.scat.queues, q.ctx = pl.ctx → ¬(q.va + 64 ≤ va ∧ va < q.va + 1088)) →
      Answers x.1 s fun t =>
        t.plane u p = { pl with shapeSince := pl.shapeSince.filter fun x => x.1 != k, shapeTried := pl.shapeTried.filter fun x => x.1 != k,
                                limits := pl.limits.set k (some lim) } ∧ s.changesOnly t [.planes]) ∧
    (natBit (leNat bs) 63 = true → ctrConst c < lim → Answers x.1 s fun t =>
      t = (s.unitFault u 0 3 pl.ctx p pl.pc k 0 v).canon ∧ s.changesOnly t faultParts)) ∧
  (∀ (s : State) (u p k since va : Nat), p < 8 → k < 16 → ∀ x ∈ [(Instr.shapeLoadComplete u p k, false), (.shapeReread u p k, true)],
    let pl := s.plane u p
    pl.valid = true → pl.asked k = some (since, va) → (pl.triedAt k).isSome = x.2 → (∀ r, pl.triedAt k = some r → r + 1000 ≤ s.now) →
    ∀ (bs : List Byte), s.readVa pl.ctx va 8 = some (bs, true) →
    Answers x.1 s fun t => t = (s.unitFault u 2 3 pl.ctx p pl.pc k 0 0).canon ∧ s.changesOnly t faultParts) ∧
  (∀ (s : State) (u p k : Nat) (z : Nat × Nat), p < 8 → k < 16 → (s.plane u p).valid = true →
    (s.plane u p).asked k = some z → ((s.plane u p).triedAt k).isSome = true →
    (z.1 + s.shapeWaitNs u ≤ s.now → Answers (.shapeTimeout u p k) s fun t =>
      t = (s.unitFault u 1 3 (s.plane u p).ctx p (s.plane u p).pc k 0 0).canon ∧ s.changesOnly t faultParts) ∧
    (s.now < z.1 + s.shapeWaitNs u → Answers (.shapeTimeout u p k) s fun t => t = s.canon))

/-- Unit control (R55, R56, R59, Tables 2.10, 2.11). Firmware's write of HALT sets the bit and pauses the bound of waves over the unit's rigs (R177); of
OFFLINE, with no wave of a context with a valid plane on the unit, sets it and invalidates the unit's planes by an epoch bump, and clears it unless built-in test
retired the unit; of FORCE_STATIC sets it for the next run start. A host's is discarded. BUILT_IN_TEST of an offline unit clears OFFLINE when it passes, and brings back the links
into its switch (R128), and retires the unit when it fails. -/
def Obligations.UnitControl : Prop :=
  (∀ (s : State) (m : Master) (u v : Nat), m.host = false → isCompute u = true → s.asleep (seatOf u) = false →
    (Answers (.halt m u v) s fun t => t.getF .UNIT_CTRL_HALT (unitOff u) = v % 2 ∧ s.changes t [Reg.UNIT_CTRL + unitOff u] [.waves] ∧
      t.getF .UNIT_CTRL_OFFLINE (unitOff u) = s.getF .UNIT_CTRL_OFFLINE (unitOff u) ∧
      t.waves = (s.setF .UNIT_CTRL_HALT v (unitOff u)).pauseWaves.waves) ∧
    (Answers (.forceStatic m u v) s fun t => t.getF .SEQ_MODE_FORCE_STATIC (unitOff u) = v % 2 ∧ s.changes t [Reg.SEQ_MODE + unitOff u] []) ∧
    (v % 2 = 0 → (s.unit u).retired = false → Answers (.offline m u v) s fun t =>
      t.getF .UNIT_CTRL_OFFLINE (unitOff u) = 0 ∧ s.changes t [Reg.UNIT_CTRL + unitOff u] []) ∧
    (v % 2 = 0 → (s.unit u).retired = true → Answers (.offline m u v) s fun t => t = s.canon) ∧
    (v % 2 = 1 → s.getF .UNIT_CTRL_OFFLINE (unitOff u) = 0 → (∀ w ∈ s.waves, ∀ p, p < 8 → (s.plane u p).valid = true → (s.plane u p).ctx ≠ w.ctx) →
      Answers (.offline m u v) s fun t => t.getF .UNIT_CTRL_OFFLINE (unitOff u) = 1 ∧
        (∀ p, p < 8 → (t.plane u p).valid = false ∧
          ((s.plane u p).valid = true → (t.plane u p).epoch = ((s.plane u p).epoch + 1) % 16)) ∧
        s.changes t [Reg.UNIT_CTRL + unitOff u] [.units, .planes, .inPorts, .outPorts])) ∧
  (∀ (s : State) (m : Master) (u v : Nat), m.host = true → isCompute u = true → ∀ i ∈ [Instr.halt m u v, .offline m u v, .forceStatic m u v],
    Answers i s fun t => s.changesOnly t noteParts ∧ t.getF .UNIT_CTRL_HALT (unitOff u) = s.getF .UNIT_CTRL_HALT (unitOff u) ∧
      t.getF .UNIT_CTRL_OFFLINE (unitOff u) = s.getF .UNIT_CTRL_OFFLINE (unitOff u) ∧
      t.getF .SEQ_MODE_FORCE_STATIC (unitOff u) = s.getF .SEQ_MODE_FORCE_STATIC (unitOff u)) ∧
  (∀ (s : State) (u : Nat), isCompute u = true → s.getF .UNIT_CTRL_OFFLINE (unitOff u) = 1 → (s.unit u).retired = false →
    (Answers (.builtInTest u true) s fun t => t.getF .UNIT_CTRL_OFFLINE (unitOff u) = 0 ∧
      t.board = { s.board with testRuns := (s.board.testRuns + 1) % 65536 } ∧ (t.switch (seatOf u * 1024 + u % 2048)).down = 0 ∧ (∀ j, j ≠ seatOf u * 1024 + u % 2048 → t.switch j = s.switch j) ∧
      s.changes t ((Reg.UNIT_CTRL + unitOff u) :: (List.range 5).flatMap fun out => (List.range 32).map fun k => slotKey (seatOf u) (u % 2048) out k) [.board, .switches]) ∧
    (Answers (.builtInTest u false) s fun t => (t.unit u).retired = true ∧ t.getF .UNIT_CTRL_OFFLINE (unitOff u) = 1 ∧
      t.board = { s.board with testRuns := (s.board.testRuns + 1) % 65536 } ∧ s.changesOnly t (.units :: .board :: noteParts)))

/-! ### Schedules, islands and the seat network (chapters 5, 6, 18) -/

/-- Fold schedules (R161, R168, R184). FOLD_ADVANCE makes the next entry whose plane may issue current once the current one has had its share; FOLD_COMMIT
sets PEND; FOLD_INSTALL puts the shadow schedule in force at the wrap, or at once on a unit without one, and clears PEND; FOLD_REBUILD sets PEND on
every unit of an awake seat that holds planes of two contexts and starts their count of ns anew. None touches memory, planes, beats or rigs. -/
def Obligations.FoldSchedules : Prop :=
  (∀ (s : State) (u : Nat) (y : Bool), let fs := (s.unit u).folds
    let n := s.nextFold u fs fs.length (s.foldPos u) false
    fs ≠ [] → s.foldDone u y = true → (n.2 && s.flag .UNIT_FOLD_CTRL_PEND (unitOff u)) = false →
    Answers (.foldAdvance u y) s fun t => t.getF .UNIT_FOLD_CTRL_CUR (unitOff u) = n.1 % 2 ^ Fld.UNIT_FOLD_CTRL_CUR.len ∧ (t.unit u).folds = fs ∧
      (t.unit u).moved = 0 ∧ (t.unit u).yielded = y ∧ s.changesOnly t [.regs, .units, .ctxs]) ∧
  (∀ (s : State) (m : Master) (u : Nat), m.host = false → isCompute u = true → s.asleep (seatOf u) = false →
    Answers (.foldCommit m u) s fun t => t.getF .UNIT_FOLD_CTRL_PEND (unitOff u) = 1 ∧ s.changes t [Reg.UNIT_FOLD_CTRL + unitOff u] []) ∧
  (∀ (s : State) (u : Nat) (y : Bool), let fs := (s.unit u).folds
    s.flag .UNIT_FOLD_CTRL_PEND (unitOff u) = true →
    (fs = [] ∨ ((s.nextFold u fs fs.length (s.foldPos u) false).2 = true ∧ s.foldDone u y = true)) →
    Answers (.foldInstall u y) s fun t => (t.unit u).folds = s.shadowFolds u ∧ (t.unit u).moved = 0 ∧ t.getF .UNIT_FOLD_CTRL_PEND (unitOff u) = 0 ∧
      s.changesOnly t [.regs, .units, .ctxs]) ∧
  (∀ (s : State) (seat : Nat), s.asleep seat = false →
    Answers (.foldRebuild seat) s fun t => s.changesOnly t [.regs, .units, .ctxs] ∧
      ∀ u p, p < 8 → (s.plane u p).valid = true → seatOf u = seat → 1 < (s.unitCtxs u).length →
        t.getF .UNIT_FOLD_CTRL_PEND (unitOff u) = 1 ∧ (t.unit u).periodNs = [])

/-- An island's loops (R515 to R517). DEMAND_STEP moves the demand by 25 MHz: down to 600 at least 10 us after the last move while idle, up to 1,500 at
least 1 us after while engines run. DROOP_TRIP counts the cycles stretched. THERMAL_READ takes the junction, and at THROTTLE_C or above lowers the
thermal ceiling by 25 MHz to 600 at least. -/
def Obligations.IslandLoops : Prop :=
  ∀ (s : State) (u : Nat), u < 16384 → s.asleep (seatOf u) = false →
    ((s.unit u).demandAt + 10000 ≤ s.now → Answers (.demandStep u true) s fun t =>
      t.unit u = { s.unit u with demandAt := s.now, demandMHz := max 600 ((s.unit u).demandMHz - 25) } ∧ s.changesOnly t [.units]) ∧
    ((s.unit u).demandAt + 1000 ≤ s.now → s.engBusy u ≠ 0 → Answers (.demandStep u false) s fun t =>
      t.unit u = { s.unit u with demandAt := s.now, demandMHz := min 1500 ((s.unit u).demandMHz + 25) } ∧ s.changesOnly t [.units]) ∧
    (∀ n, Answers (.droopTrip u n) s fun t =>
      t.getF .UNIT_STRETCH_STRETCHED (unitOff u) = (s.getF .UNIT_STRETCH_STRETCHED (unitOff u) + n) % 2 ^ Fld.UNIT_STRETCH_STRETCHED.len ∧
        s.changes t ((Reg.UNIT_STRETCH + unitOff u) :: pmcKeys) []) ∧
    (∀ tj, tj < 256 → Answers (.thermalRead u tj) s fun t => (t.unit u).tj = tj ∧ s.changesOnly t (.units :: .pwr :: noteParts) ∧
      (s.getF .KEEL_THERM_THROTTLE_C ≤ tj → 600 < (s.unit u).thermalMHz →
        (t.unit u).thermalMHz = max 600 (min (s.unit u).thermalMHz 1500 - 25)))

/-- The place of a switch. -/
def placeOf (seat sw : Nat) : Place := ⟨seat, sw / 32, sw % 32⟩

/-- Strokes and link words (R126 to R131, R134, R136, R141). STROKE_BEGIN: once slot 0 has come on every live input, and for the first stroke at once, the switch's stroke
advances; what has come of the next stroke already counts for it. MARK_TIMEOUT: an input whose slot 0 is late by the bound is declared down. SEAT_NET_READY: READY after
16 strokes of all 1,024 switches. SWITCH_FORWARD: a word leaves by the output that the slot table names for its input, in the slot of the output that the shift gives; with
no valid entry, on an input that is down too, it is an orphan, counted, unless it leaves a gateway group there. SIDE_WORD: a credit goes on upstream from the FIRST entry's
input, or, from input L, to the source port. -/
def Obligations.SwitchesAndLinks : Prop :=
  ∀ (s : State) (seat sw : Nat), seat < 8 → sw < 1024 → s.asleep seat = false → let pl := placeOf seat sw; let k := s.switch pl.key
    ((k.stroke = 0 ∨ (s.liveInputs pl).all (fun port => natBit k.arrived port) = true) → Answers (.strokeBegin seat sw) s fun t =>
      t.switch pl.key = (if k.stroke = 0 then { k with stroke := 1, since := s.now }
        else { k with stroke := k.stroke + 1, arrived := k.early, early := 0, since := s.now }) ∧ (∀ j, j ≠ pl.key → t.switch j = s.switch j) ∧
        s.changes t [Reg.NET_STROKES + seatOff seat] [.switches, .outPorts, .planes, .rigs, .fab, .out]) ∧
    (∀ port, (s.liveInputs pl).contains port = true → natBit k.arrived port = false →
      k.since + max 2 (s.getF .NET_CTRL_MARK_TIMEOUT (seatOff seat)) * 100 ≤ s.now → Answers (.markTimeout seat sw port) s fun t =>
        t.switch pl.key = { k with down := k.down + 2 ^ port } ∧ s.changesOnly t (.switches :: .units :: faultParts)) ∧
    (s.flag .NET_STATUS_READY (seatOff seat) = false → (∀ w, w < 1024 → 16 ≤ (s.switch (seat * 1024 + w)).stroke) →
      Answers (.seatNetReady seat) s fun t => t.getF .NET_STATUS_READY (seatOff seat) = 1 ∧ s.changesOnly t [.regs]) ∧
    (∀ (port slot : Nat) (b : Beat), 0 < slot → slot < 32 → port < 5 → s.linked pl port = true → let j := (slot + pl.shift port) % 32
      (∀ e, s.forwardEntry pl port j = some e → Answers (.switchForward seat sw port slot (some b) 0) s fun t =>
        .link seat sw e.1 j b ∈ t.out ∧ (e.1 ≠ 1 → t.out = .link seat sw e.1 j b :: s.out ∧ s.changesOnly t [.rigs, .out]) ∧
          s.changesOnly t faultParts) ∧
      (s.forwardEntry pl port j = none → s.gatewayLink pl port slot = false → Answers (.switchForward seat sw port slot (some b) 0) s fun t =>
        t.getF .NET_ORPHAN_COUNT (seatOff seat) = (s.getF .NET_ORPHAN_COUNT (seatOff seat) + 1) % 2 ^ Fld.NET_ORPHAN_COUNT.len ∧
          s.changesOnly t (.rigs :: noteParts))) ∧
    (∀ (port : Nat), (s.liveInputs pl).contains port = true → Answers (.switchForward seat sw port 0 none 0) s fun t =>
      t.switch pl.key = (if natBit k.arrived port = false then { k with arrived := k.arrived + 2 ^ port }
        else if natBit k.early port = false then { k with early := k.early + 2 ^ port } else k) ∧ s.changesOnly t [.switches]) ∧
    (∀ (out g m n : Nat), out < 5 → n < 4 → 0 < n → let w := s.slotAt seat sw out (g % 32)
      slotValid w = true → slotFirst w = true →
      (slotIn w ≠ 0 → ((pl.gateway (slotIn w)).isSome && !slotGateway w) = false → Answers (.sideWord seat sw out [(g, m, n)] 0) s fun t =>
        t.out = .port (pl.key * 8 + slotIn w) "SIDE_WORD" [(g + 32 - pl.shift (slotIn w)) % 32, m, n] :: s.out ∧ s.changesOnly t [.out]) ∧
      (slotIn w = 0 → ∀ c, s.creditCircuit (unitAt seat sw) (slotKey seat sw out (g % 32)) m = some c →
        Answers (.sideWord seat sw out [(g, m, n)] 0) s fun t =>
          (t.outPort (unitAt seat sw) c.srcPlane c.srcPort).credits = (s.outPort (unitAt seat sw) c.srcPlane c.srcPort).credits + n ∧
            s.changesOnly t [.outPorts]))

/-- Slot tables, closing groups and watchdogs (R135, R136, R141, R144). SLOT_TABLE_WRITE by firmware sets the entry its selector names, DOWN kept; setting VALID on a
valid entry changes nothing but the error block. GROUP_TEARDOWN clears a quiet group of a closed rig, DOWN kept, and no other register. CREDIT_STALL and
JOIN_STALL report once, count, and mark the rig for recompilation. CIRCUIT_DEADLOCK faults the context once the stall is FATAL_MULT times the bound. -/
def Obligations.SlotTablesAndWatchdogs : Prop :=
  (∀ (s : State) (m : Master) (seat v : Nat), m.host = false → seat < 8 → s.asleep seat = false →
    let sel := SMap.get 0 s.sel (selKey m (Reg.NET_SW_SEL + seatOff seat))
    let key := slotKey seat (sel % 1024) (sel / 1024 % 8) (sel / 8192 % 32)
    sel / 1024 % 8 < 5 →
    ((natBit v 0 = false ∨ (slotValid (s.regAt key) = false ∧ s.slotAllowed seat (sel % 1024) (sel / 1024 % 8) (natBits v 1 3) = true)) →
      Answers (.slotTableWrite m seat v) s fun t =>
        t.regAt key = BitVec.ofNat 64 ((v &&& 0x3FFF) + ((s.regAt key).toNat &&& 0x4000)) ∧ s.changes t [key] []) ∧
    (natBit v 0 = true → slotValid (s.regAt key) = true →
      Answers (.slotTableWrite m seat v) s fun t => t.regAt key = s.regAt key ∧ s.changesOnly t noteParts)) ∧
  (∀ (s : State) (rig seat idx : Nat) (g : SlotGroup), (s.rig rig).groups.find? (fun g => g.seat == seat && g.idx == idx) = some g →
    (s.rig rig).closing = true → s.quiet g = true →
    Answers (.groupTeardown rig seat idx) s fun t =>
      (∀ e ∈ g.entries, t.regAt e.1 = BitVec.ofNat 64 ((s.regAt e.1).toNat &&& 0x4000)) ∧ s.changes t (g.entries.map (·.1)) [.rigs] ∧
        ((s.rig rig).groups.filter (fun k => !(k.seat == seat && k.idx == idx)) ≠ [] →
          (t.rig rig).groups = (s.rig rig).groups.filter fun k => !(k.seat == seat && k.idx == idx))) ∧
  (∀ (s : State) (u p n : Nat), p < 8 → n < 8 → (s.plane u p).valid = true → (s.outPort u p n).stallReported = false →
    bindWd (recOut (s.plane u p).cfg n) < (s.outPort u p n).stall → Answers (.creditStall u p n) s fun t =>
      t.outPort u p n = { s.outPort u p n with stallReported := true } ∧
        t.getF .NET_CREDIT_STALLS_COUNT (seatOff (seatOf u)) =
          (s.getF .NET_CREDIT_STALLS_COUNT (seatOff (seatOf u)) + 1) % 2 ^ Fld.NET_CREDIT_STALLS_COUNT.len ∧
        s.changesOnly t (.outPorts :: .rigs :: noteParts)) ∧
  (∀ (s : State) (u p : Nat), p < 8 → (s.plane u p).valid = true → (s.plane u p).joinReported = false →
    recJoin (s.plane u p).cfg < (s.plane u p).joinStall → Answers (.joinStall u p) s fun t =>
      t.plane u p = { s.plane u p with joinReported := true } ∧
        t.getF .NET_JOIN_STALLS_COUNT (seatOff (seatOf u)) =
          (s.getF .NET_JOIN_STALLS_COUNT (seatOff (seatOf u)) + 1) % 2 ^ Fld.NET_JOIN_STALLS_COUNT.len ∧
        s.changesOnly t (.planes :: .inPorts :: .rigs :: noteParts)) ∧
  (∀ (s : State) (u p n : Nat), p < 8 → n < 8 → (s.plane u p).valid = true → 0 < (s.outPort u p n).stall →
    s.fatalMult u * bindWd (recOut (s.plane u p).cfg n) ≤ (s.outPort u p n).stall → Answers (.circuitDeadlock u p n 0) s fun t =>
      t = ((s.wdReport 3 u p n 0 (s.outPort u p n).stall).netFault (seatOf u) 10 3 (some (s.plane u p).ctx) 1 u).canon ∧ s.changesOnly t faultParts)

/-! ### Power (chapter 18) -/

/-- Requests and seat sleep (R518 to R526). TARGET from firmware takes M0 or M1 at the step boundary, at once where no step runs; an alarm refuses M0, Table 18.4
refuses M3, each with its code; M3 empties what it does not keep and memory stands. SEAT_SLEEP_REQ for a seat begins its entry or is refused with code and
seat. SEAT_SLEEP_ENTRY leaves the seat asleep with its registers saved and at reset values, its units' state lost, memory unchanged. SEAT_WAKE restores
the newest good save or, without one, makes the seat due for test. SEAT_WAKE_COMPLETE makes it serve, once its network is READY and
built-in test has seen every unit of a seat whose save was lost.
A firmware write to a unit of a sleeping seat is held and wakes it (R526). -/
def Obligations.PowerRequests : Prop :=
  (∀ (s : State) (m : Master) (v : Nat), m.host = false →
    (v % 4 ≤ 1 → s.mstate = 1 - v % 4 → (v % 4 = 0 → s.alarmed = false) → s.step.phase = 0 → Answers (.target m v) s fun t =>
      t.mstate = v % 4 ∧ t.getF .PWRCLK_STATE_BY_ALARM = 0 ∧ t.pwr.want = none ∧ s.changes t [Reg.PWRCLK_REQ, Reg.PWRCLK_STATE] [.pwr]) ∧
    (v % 4 ≤ 1 → s.mstate = 1 - v % 4 → (v % 4 = 0 → s.alarmed = false) → s.step.phase ≠ 0 → Answers (.target m v) s fun t =>
      t.mstate = s.mstate ∧ t.pwr.want = some (v % 4, false) ∧ s.changes t [Reg.PWRCLK_REQ] [.pwr]) ∧
    (v % 4 = 0 → s.mstate = 1 → s.alarmed = true → Answers (.target m v) s fun t =>
      t.getF .PWRCLK_REFUSE_CODE = 0xD ∧ t.mstate = 1 ∧ s.changes t [Reg.PWRCLK_REQ, Reg.PWRCLK_REFUSE] []) ∧
    (v % 4 = 3 → s.mstate ≠ 3 → s.m3Refusal ≠ 0 → Answers (.target m v) s fun t =>
      t.getF .PWRCLK_REFUSE_CODE = s.m3Refusal ∧ t.mstate = s.mstate ∧ s.changes t [Reg.PWRCLK_REQ, Reg.PWRCLK_REFUSE] []) ∧
    (v % 4 = 3 → s.mstate ≠ 3 → s.m3Refusal = 0 → Answers (.target m v) s fun t =>
      t.mstate = 3 ∧ t.getF .HOSTVI_DEV_STATUS_READY = 0 ∧ t.ctxs = [] ∧ t.rings = [] ∧ t.entries = s.entries ∧ t.sel = [] ∧ s.same t .mem ∧
        s.same t .ops ∧ s.same t .board ∧ s.same t .log ∧ (∀ k, k < 8 → s.asleep k = false → (t.seat k).phase = .entering))) ∧
  (∀ (s : State) (m : Master) (k : Nat), m.host = false → k < 8 → s.mstate ≠ 3 → (∀ j, j < 8 → s.asleep j = false) →
    let r := (s.setF .PWRCLK_REQ_SEAT_SLEEP_REQ (2 ^ k)).sleepRefusal k
    (r = 0 → Answers (.seatSleepReq m (2 ^ k)) s fun t => (t.seat k).phase = .entering ∧ t.getF .NET_STATUS_READY (seatOff k) = 0 ∧
      (∀ j, j ≠ k → t.seat j = s.seat j) ∧ s.changesOnly t [.regs, .seats]) ∧
    (r ≠ 0 → Answers (.seatSleepReq m (2 ^ k)) s fun t => t.getF .PWRCLK_REFUSE_CODE = r ∧ t.getF .PWRCLK_REFUSE_SEAT = k ∧
      s.changes t [Reg.PWRCLK_REQ, Reg.PWRCLK_REFUSE] [])) ∧
  (∀ (s : State) (k n : Nat), k < 8 → (s.seat k).phase = .entering → s.mstate ≠ 3 → Answers (.seatSleepEntry k n) s fun t =>
    (t.seat k).phase = .asleep ∧ (∀ key, seatOfKey key = some k → t.regAt key = resetWord key) ∧
      ((t.seat k).copyA, (t.seat k).copyB) =
        nextSave (s.seat k).copyA (s.seat k).copyB ((s.regs.filter fun p => seatOfKey p.1 == some k).filter fun p => savedKey p.1) ∧
      (∀ p ∈ t.planes, seatOf (p.1 / 8) ≠ k) ∧ (∀ p ∈ t.units, seatOf p.1 = k → p.2 = { retired := true }) ∧
      s.changesOnly t [.regs, .ops, .planes, .inPorts, .outPorts, .switches, .units, .tiers, .streams, .seats]) ∧
  (∀ (s : State) (k : Nat) (a b : Bool), k < 8 → (s.seat k).phase = .asleep → (s.seat k).wake = true →
    (∀ c, newestSave (s.seat k).copyA (s.seat k).copyB a b = some c → Answers (.seatWake k a b) s fun t =>
      (t.seat k).phase = .waking ∧ s.changesOnly t [.regs, .seats]) ∧
    (newestSave (s.seat k).copyA (s.seat k).copyB a b = none → Answers (.seatWake k a b) s fun t =>
      (t.seat k).phase = .waking ∧ (t.seat k).testDue = true ∧ s.changesOnly t (.entries :: .seats :: noteParts))) ∧
  (∀ (s : State) (k : Nat), k < 8 → (s.seat k).phase = .waking →
    ((s.testsDue k = true ∨ s.flag .NET_STATUS_READY (seatOff k) = false) → Answers (.seatWakeComplete k) s fun t => t = s.canon) ∧
    (s.testsDue k = false → s.flag .NET_STATUS_READY (seatOff k) = true → (s.seat k).accesses = [] → (s.seat k).writes = [] →
    Answers (.seatWakeComplete k) s fun t => (t.seat k).phase = .awake ∧ t.getF .NET_STATUS_READY (seatOff k) = 1 ∧ s.changesOnly t [.regs, .seats])) ∧
  (∀ (s : State) (k u v : Nat), (s.seat k).phase = .asleep → seatOf u = k → ∀ x ∈ [(Instr.halt .cox u v, HeldWrite.halt u v), (.offline .cox u v, .offline u v),
      (.forceStatic .cox u v, .forceStatic u v), (.foldCommit .cox u, .fold u)],
    Answers x.1 s fun t => t.seat k = { s.seat k with wake := true, writes := (s.seat k).writes ++ [x.2] } ∧ s.changesOnly t [.seats])

/-- Wakes of M3, trips and departures (R510, R521, R524, R538, R539, Table 18.6). WAKE by the physical function and TIMED_WAKE begin the exit; STANDBY_EXIT_COMPLETE
ends it in M0, READY; with no good save the interfaces' limits are lost and the loss is reported. JUNCTION_TRIP forces the throttle and the alarm; THERM_TRIP
1 ms later writes FINAL and turns the power stages off. INPUT_LOSS and TRAY_LEAVE_N fence the module as leaving and write FINAL first; TRAY_LEAVE_N's release
starts its debounce. DRAIN_TIMEOUT turns a FINISH detach into HAND. -/
def Obligations.WakesAndTrips : Prop :=
  (∀ (s : State), s.mstate = 3 → s.pwr.leavingM3 = false →
    (Answers (.wake .pf) s fun t => t.pwr = { s.pwr with leavingM3 := true, wake := true } ∧ t.getF .PWRCLK_HOST_WAKE_WAKE = 1 ∧
      (∀ k, k < 8 → (s.seat k).phase = .asleep → t.seat k = { s.seat k with wake := true }) ∧ s.changesOnly t [.regs, .pwr, .seats]) ∧
    (s.getF .PWRCLK_WAKE_AT_T ≠ 0 → s.getF .PWRCLK_WAKE_AT_T ≤ s.now → Answers .timedWake s fun t =>
      t.pwr = { s.pwr with leavingM3 := true, wake := true } ∧ s.changesOnly t [.regs, .pwr, .seats])) ∧
  (∀ (s : State), s.now < s.getF .PWRCLK_WAKE_AT_T → Answers .timedWake s fun t => t = s.canon) ∧
  (∀ (s : State) (a b : Bool), s.mstate = 3 → s.pwr.leavingM3 = true → (∀ k, k < 8 → s.asleep k = false) →
    let alone := s.flag .BOOT_STATUS_STANDALONE
    (s.pwr.wake = false → (alone = true ∨ s.flag .FAB_STATUS_DISCOVERED = true) → Answers (.standbyExitComplete a b) s fun t =>
      t.mstate = 0 ∧ t.getF .HOSTVI_DEV_STATUS_READY = 1 ∧ t.getF .FAB_CTRL_EN = bit (!alone) ∧ t.pwr = { s.pwr with leavingM3 := false } ∧
        s.changesOnly t [.regs, .pwr, .out]) ∧
    (s.pwr.wake = true → Answers (.standbyExitComplete a b) s fun t => t.pwr.wake = false) ∧
    (s.pwr.wake = true → newestSave s.pwr.copyA s.pwr.copyB a b = none → alone = true → Answers (.standbyExitComplete a b) s fun t =>
      t.vis = [] ∧ t.mstate = 0 ∧ t.pwr = { s.pwr with leavingM3 := false, wake := false } ∧ s.changesOnly t (.vis :: .pwr :: noteParts))) ∧
  (∀ (s : State) (u : Option Nat) (tj : Nat), tj < 256 →
    (s.getF .KEEL_THERM_TRIP_C ≤ tj → Answers (.junctionTrip u tj) s fun t => (∀ v, u = some v → (t.unit (v % 16384)).tj = tj) ∧
      (u = none → t.pwr.coxTj = tj) ∧ t.pwr.emergTherm = true ∧
      t.pwr.tripSince ≠ none ∧ t.getF .KEEL_STATUS_EMERG_ACTIVE = 1 ∧ natBit (t.getF .KEEL_STATUS_ALARMS) 4 = true ∧
      s.changesOnly t (.units :: .pwr :: noteParts)) ∧
    (tj < s.getF .KEEL_THERM_TRIP_C → Answers (.junctionTrip u tj) s fun t => t = s.canon)) ∧
  (∀ (s : State) (a : Nat), s.pwr.tripSince = some a → a + 1000000 ≤ s.now → s.getF .KEEL_THERM_TRIP_C ≤ s.maxTj →
    Answers .thermTrip s fun t => t.pwr.off = true ∧ t.log.buffered.head?.map (·.kind) = some 8 ∧ t.mem = [] ∧ t.ctxs = [] ∧
      ∀ r, 3 ≤ r → r ≤ 24 → t.regAt (Reg.RAIL_STAT + inst r) = 0) ∧
  (∀ (s : State), s.twin.leaving = false → Answers .inputLoss s fun t => t.pwr.inputLost = true ∧ t.twin.leaving = true ∧
    t.log.buffered.head?.map (·.kind) = some 8 ∧ s.changesOnly t (.pwr :: .board :: faultParts)) ∧
  (∀ (s : State), s.twin.leaving = true →
    (Answers .inputLoss s fun t => t.pwr = { s.pwr with inputLost := true } ∧ s.changesOnly t [.pwr]) ∧
    (s.mstate ≠ 3 → Answers .trayLeaveN s fun t => t.board = { s.board with trayLow := true, trayHigh := none } ∧
      natBit (t.getF .SIDEBAND_LEVELS) 2 = false ∧ s.changes t [Reg.SIDEBAND] [.board])) ∧
  (∀ (s : State), s.twin.leaving = false → Answers .trayLeaveN s fun t => t.twin.leaving = true ∧ t.board.trayLow = true ∧
    t.log.buffered.head?.map (·.kind) = some 8 ∧
      (s.mirroring = false → s.mstate ≠ 3 → natBit (t.getF .SIDEBAND_LEVELS) 2 = false ∧ s.changesOnly t (.board :: faultParts))) ∧
  (∀ (s : State), Answers .trayLeaveNRelease s fun t => t.board = { s.board with trayLow := false, trayHigh := some s.now } ∧
    natBit (t.getF .SIDEBAND_LEVELS) 2 = true ∧ s.changes t [Reg.SIDEBAND] [.board]) ∧
  (∀ (s : State), s.pairState = 5 → s.twin.detach = some false → s.twin.detachAt + atLeast1 (s.getF .TWIN_CTRL_DRAIN_S) * 1000000000 ≤ s.now →
    Answers .drainTimeout s fun t => t.twin = { s.twin with detach := some true } ∧ s.changesOnly t [.twin])

/-- Alerts and the cap (R532 to R537, R542). ALERT_ASSERT sets its alarm, stops the clear count and, as the first alert, takes the lower cap and stretch level 3;
ALERT_DEASSERT of the last source starts the clear count; ALERT_CLEAR, CLEAR_MS later, takes MODULE_W again and returns a module that the alarm put in M1 to M0, unless a trip still keeps it there;
SUSTAINED, SUSTAIN_MS after the first alert, marks it and hands an ACTIVE pair over. CAP_CONTROL_TICK takes the telemetry and moves stretch and ceiling by
one step: down above the cap, up at 97 % of it or less. -/
def Obligations.AlertsAndCap : Prop :=
  (∀ (s : State) (b : Nat) (x : Bool), b < 4 → Answers (.alertAssert b x) s fun t =>
    natBit (t.getF .KEEL_STATUS_ALARMS) b = true ∧ t.pwr.clearSince = none ∧ t.sourceOn b = true ∧
      (s.pwr.alertSince = none → t.pwr.alertSince = some s.now ∧ t.getF .PWRCLK_CAP_STRETCH = 3 ∧
        t.getF .PWRCLK_CAP_CAP_W = min (s.getF .KEEL_CAP_MODULE_W) (s.getF .KEEL_CAP_ALERT_W) % 2 ^ Fld.PWRCLK_CAP_CAP_W.len) ∧
      (∀ a, s.pwr.alertSince = some a → t.pwr.alertSince = some a) ∧ s.changesOnly t (.pwr :: .seats :: noteParts)) ∧
  (∀ (s : State) (b a : Nat), b < 4 → s.pwr.alertSince = some a → s.pwr.clearSince = none → s.pwr.sources = 2 ^ b → s.pwr.flowLow = false →
    Answers (.alertDeassert b false) s fun t => t.pwr = { s.pwr with sources := 0, clearSince := some s.now } ∧
      natBit (t.getF .KEEL_STATUS_ALARMS) b = false ∧ s.changesOnly t (.pwr :: noteParts)) ∧
  (∀ (s : State) (a c : Nat), s.pwr.alertSince = some a → s.pwr.clearSince = some c → s.alertNow = false →
    (c + s.getF .KEEL_ALARM_CLEAR_MS * 1000000 ≤ s.now → Answers .alertClear s fun t =>
      t.pwr.alertSince = none ∧ t.pwr.clearSince = none ∧ t.pwr.handed = false ∧ t.getF .KEEL_STATUS_SUSTAINED = 0 ∧
        t.getF .PWRCLK_CAP_CAP_W = s.getF .KEEL_CAP_MODULE_W % 2 ^ Fld.PWRCLK_CAP_CAP_W.len ∧
        (s.mstate = 1 → s.flag .PWRCLK_STATE_BY_ALARM = true → s.step.phase = 0 →
          { s with pwr := { s.pwr with alertSince := none, clearSince := none, handed := false } }.alarmed = false → t.mstate = 0) ∧
        s.changes t [Reg.KEEL_STATUS, Reg.PWRCLK_CAP, Reg.PWRCLK_STATE] [.pwr]) ∧
    (s.now < c + s.getF .KEEL_ALARM_CLEAR_MS * 1000000 → Answers .alertClear s fun t => t = s.canon)) ∧
  (∀ (s : State) (a : Nat), s.pwr.alertSince = some a → s.flag .KEEL_STATUS_SUSTAINED = false →
    (a + s.getF .KEEL_ALARM_SUSTAIN_MS * 1000000 ≤ s.now →
      (s.pairState ≠ 2 → Answers .sustained s fun t => t.getF .KEEL_STATUS_SUSTAINED = 1 ∧ s.changesOnly t noteParts) ∧
      (s.pairState = 2 → s.board.poolRole = 2 → Answers .sustained s fun t => t.getF .KEEL_STATUS_SUSTAINED = 1 ∧ t.pairState = 5 ∧
        t.twin = { s.twin with detach := some true, detachAt := s.now } ∧ t.pwr = { s.pwr with handed := true } ∧
        s.changesOnly t (.pwr :: .twin :: noteParts)) ∧
      (s.pairState = 2 → Answers .sustained s fun t => let x := (s.setF .KEEL_STATUS_SUSTAINED 1).pwrFault 1 1
        t = ({ x with pwr := { x.pwr with handed := true } }.startDetach true).canon)) ∧
    (s.now < a + s.getF .KEEL_ALARM_SUSTAIN_MS * 1000000 → Answers .sustained s fun t => t = s.canon)) ∧
  (∀ (s : State) (vin iin pin : Nat) (plate : Option (Nat × Nat × Nat)),
    (s.pwr.capAt + 1000 ≤ s.now → Answers (.capControlTick vin iin pin plate) s fun t =>
      t.getF .PWRCLK_INPUT_VIN_MV = vin % 2 ^ Fld.PWRCLK_INPUT_VIN_MV.len ∧ t.getF .PWRCLK_INPUT_IIN_DA = iin % 2 ^ Fld.PWRCLK_INPUT_IIN_DA.len ∧
        t.getF .PWRCLK_INPUT_PIN_W = pin % 2 ^ Fld.PWRCLK_INPUT_PIN_W.len ∧ t.pwr.capAt = s.now ∧
        (s.emergency = false → s.capW < pin → t.getF .PWRCLK_CAP_STRETCH = min 3 (s.getF .PWRCLK_CAP_STRETCH + 1)) ∧
        (s.emergency = false → pin * 100 ≤ 97 * s.capW → 0 < s.getF .PWRCLK_CAP_STRETCH → s.pwr.stretchAt + 10000 ≤ s.now →
          t.getF .PWRCLK_CAP_STRETCH = s.getF .PWRCLK_CAP_STRETCH - 1) ∧
        (s.capW < pin → s.pwr.ceilAt + 5000 ≤ s.now → t.getF .PWRCLK_CAP_CEIL_MHZ = max (s.getF .PWRCLK_CAP_CEIL_MHZ - 25) 600) ∧
        (s.emergency = true → t.getF .PWRCLK_CAP_STRETCH = 3) ∧
        s.changesOnly t [.regs, .pwr, .log, .board]) ∧
    (s.now < s.pwr.capAt + 1000 → Answers (.capControlTick vin iin pin plate) s fun t => t = s.canon))

/-! ### Memory tiers (chapter 7) -/

/-- Walks, line accesses and shootdowns (R188, R197, R200 to R202, R222, R525). TRANSLATION_WALK answers from the leaf that the unit holds, under its READ and WRITE bits; else it walks,
from the lowest entry its walk cache holds, counts the walk, caches the leaf, or raises the walk's fault.
TIER_ACCESS by a context's tag and generation reads the line or writes the bytes and nothing else; one that finds the line uncorrectable poisons it, counts it,
reads poison and has the frame retire, and one corrected is counted (R212, R216, R218, R603); a refused one faults and writes nothing; on a failed port a read is poisoned and
a write lost (R215); one to a sleeping seat is held and wakes it. ACCESS_TIMEOUT faults the context. SHOOTDOWN queues; SHOOTDOWN_COMPLETE leaves no cached leaf and no walk entry it hits;
SHOOTDOWN_DRAIN_END, 4 us later, ends it, frees its frames, completes its command and begins the next. -/
def Obligations.WalksAndAccesses : Prop :=
  (∀ (s : State) (tu c va : Nat) (w : Bool),
    (∀ x, s.cached tu c va = some x → x.pte.forbids w = false → Answers (.translationWalk tu c va w) s fun t => t = s.canon) ∧
    (∀ x, s.cached tu c va = some x → x.pte.forbids w = true → Answers (.translationWalk tu c va w) s fun t =>
      t = (s.tiersFault 3 3 (some c) (va % 2 ^ 60) 0).canon ∧ s.changesOnly t faultParts) ∧
    (s.cached tu c va = none → let st := s.walkStart tu c va
      (∀ p a big, s.getF .TIERS_CTX_CTRL_VALID (inst c) ≠ 0 → s.walkFrom c va w st.1 st.2 (ptLevels.drop st.1) = .leaf p a big →
        let mine := s.tiers.tlb.filter fun x => x.tu == tu
        Answers (.translationWalk tu c va w) s fun t =>
          t.tiers = { s.tiers with
            tlb := (if mine.length < 4096 then s.tiers.tlb else (s.tiers.tlb.filter fun x => x.tu != tu) ++ mine.drop 1) ++
              [{ tu := tu, ctx := c, root := s.rootSel c, vpage := if big then va / 65536 / 32 * 32 else va / 65536, big := big, pte := p }]
            walks := t.tiers.walks } ∧
          t.getF .TIERS_WALKS_COUNT = (s.getF .TIERS_WALKS_COUNT + 1) % 2 ^ Fld.TIERS_WALKS_COUNT.len ∧ s.changes t [Reg.TIERS_WALKS] [.tiers]) ∧
      (∀ b, (s.getF .TIERS_CTX_CTRL_VALID (inst c) = 0 ∧ b = 3) ∨
          (s.getF .TIERS_CTX_CTRL_VALID (inst c) ≠ 0 ∧ s.walkFrom c va w st.1 st.2 (ptLevels.drop st.1) = .bad b) →
        Answers (.translationWalk tu c va w) s fun t => s.changesOnly t faultParts ∧
          ∃ ws, t = ({ s.bump .TIERS_WALKS_COUNT with tiers := { s.tiers with walks := ws } }.tiersFault b 3 (some c) (va % 2 ^ 60) 0).canon))) ∧
  (∀ (s : State) (c off gen seat m first : Nat) (w : Bool) (bs : List Byte), (∀ k, seatOfOff off = some k → s.asleep k = false) →
    (s.portDead off = true → Answers (.tierAccess c off gen seat m w first bs 0) s fun t =>
      t = (if w then s else s.emit (.message "LINE" m [off / 64, 1])).canon) ∧
    (s.portDead off = false →
      (∀ k, s.tagCheck c off gen w = none → w = true → k = 0 ∨ (first = 0 ∧ 64 ≤ bs.length) → Answers (.tierAccess c off gen seat m w first bs k) s fun t =>
        (∀ a, t.byteAt a = (s.putBytes (off / 64 * 64 + first) (bs.take (64 - first))).byteAt a) ∧
          (∀ a, a < off / 64 * 64 + first ∨ off / 64 * 64 + 64 ≤ a → t.byteAt a = s.byteAt a) ∧ s.changes t pmcKeys [.mem, .tiers]) ∧
      (s.tagCheck c off gen w = none → w = false → Answers (.tierAccess c off gen seat m w first bs 0) s fun t =>
        t.out = .message "LINE" m [off / 64, bit (s.poisonAt off), if s.poisonAt off then 0 else (s.lineAt off).toNat] :: s.out ∧
          s.changes t pmcKeys [.tiers, .out]) ∧
      (s.tagCheck c off gen w = none → s.poisonAt off = false → (w = true → ¬(first = 0 ∧ 64 ≤ bs.length)) →
        Answers (.tierAccess c off gen seat m w first bs 2) s fun t => t.poisonAt off = true ∧
          ((t.tag (off / 65536)).retired = true ∨ (t.tag (off / 65536)).retiring = true) ∧
          t.getF .TIERS_UE_COUNT = (s.getF .TIERS_UE_COUNT + 1) % 2 ^ Fld.TIERS_UE_COUNT.len ∧
          (w = false → t.out.head? = some (.message "LINE" m [off / 64, 1, 0]) ∧ ∀ a, t.byteAt a = s.byteAt a)) ∧
      (s.tagCheck c off gen w = none → w = false → Answers (.tierAccess c off gen seat m w first bs 1) s fun t =>
        t.getF .TIERS_CE_COUNT = (s.getF .TIERS_CE_COUNT + 1) % 2 ^ Fld.TIERS_CE_COUNT.len ∧ (∀ a, t.byteAt a = s.byteAt a) ∧
          t.out.head? = some (.message "LINE" m [off / 64, bit (s.poisonAt off), if s.poisonAt off then 0 else (s.lineAt off).toNat])) ∧
      (∀ b k, s.tagCheck c off gen w = some b → Answers (.tierAccess c off gen seat m w first bs k) s fun t =>
        t = ((if w then s else s.emit (.message "LINE" m [off / 64, 1])).tiersFault b 3 (some c) (s.dwezin off) gen).canon ∧
          s.changesOnly t faultParts))) ∧
  (∀ (s : State) (c off gen seat m first k check : Nat) (w : Bool) (bs : List Byte), seatOfOff off = some k →
    ((s.seat k).phase = .asleep ∨ (s.seat k).phase = .waking) → Answers (.tierAccess c off gen seat m w first bs check) s fun t =>
      t.seat k = { s.seat k with wake := (s.seat k).wake || (s.seat k).phase == .asleep, accesses := (s.seat k).accesses ++ [⟨c, off, gen, seat, m, w, first, bs, check⟩] } ∧ s.changesOnly t [.seats]) ∧
  (∀ (s : State) (c a gen : Nat), (∀ x ∈ s.streams.insts, x.ctx = c → ∀ r ∈ x.reqs, r.landed = true) → Answers (.accessTimeout c a gen) s fun t =>
    t = ((s.tiersFault 9 3 (some c) (a % 2 ^ 60) gen).sweepStreams).canon ∧ (s.streams.cmds = [] → s.changesOnly t faultParts)) ∧
  (∀ (s : State) (m : Master) (v : Nat),
    (m.host = false → natBits v 8 2 ≠ 3 →
      let x : Shootdown := { ctx := natBits v 0 8, scope := natBits v 8 2, vpage := s.getF .TIERS_INVAL_VA_VPAGE, slice := natBit v 10,
                             why := 0, arg := 0, frames := [], cmd := none, doneAt := none }
      Answers (.shootdown m v) s fun t => t.tiers = { s.tiers with shoot := s.tiers.shoot ++ [x] } ∧ t.getF .TIERS_INVAL_STAT_BUSY = 1 ∧
        t.out = (if s.tiers.shoot = [] then (s.startShoot x).out else s.out) ∧ s.changes t [Reg.TIERS_INVAL_STAT] [.tiers, .out]) ∧
    (m.host = false → natBits v 8 2 = 3 → Answers (.shootdown m v) s fun t => t = s.canon) ∧
    (m.host = true → Answers (.shootdown m v) s fun t => s.changesOnly t noteParts)) ∧
  (∀ (s : State) (x : Shootdown) (r : List Shootdown), s.tiers.shoot = x :: r → x.doneAt = none → Answers .shootdownComplete s fun t =>
    t.tiers.shoot = { x with doneAt := some s.now } :: r ∧ (∀ e ∈ t.tiers.tlb, e ∈ s.tiers.tlb ∧ hitByShoot x e = false) ∧
      (∀ e ∈ t.tiers.walks, e ∈ s.tiers.walks ∧ walkByShoot x e = false) ∧
      t.getF .TIERS_INVAL_STAT_DONE = (s.getF .TIERS_INVAL_STAT_DONE + 1) % 2 ^ Fld.TIERS_INVAL_STAT_DONE.len ∧
      s.changes t [Reg.TIERS_INVAL_STAT] [.tiers]) ∧
  (∀ (s : State) (x : Shootdown) (r : List Shootdown) (a : Nat), s.tiers.shoot = x :: r → x.doneAt = some a →
    let u : State := { s with tiers := { s.tiers with shoot := r } }
    let next := match r with
      | [] => u.setF .TIERS_INVAL_STAT_BUSY 0
      | y :: _ => u.startShoot y
    (s.now < a + 4000 → Answers .shootdownDrainEnd s fun t => t = s.canon) ∧
    (a + 4000 ≤ s.now → x.cmd = none → Answers .shootdownDrainEnd s fun t => t.tiers.shoot = r ∧
      (r = [] → t.getF .TIERS_INVAL_STAT_BUSY = 0) ∧ t.out = next.out ∧ s.changes t [Reg.TIERS_INVAL_STAT] [.tiers, .out] ∧
      ∀ f ∈ x.frames, s.mappedElse [] f = false → s.sysFrame f = false → (t.tag f).kind = 4) ∧
    (∀ k q c, a + 4000 ≤ s.now → x.cmd = some (k, q) → x.frames = [] → (s.ring k).outstanding.find? (fun c => c.seq == q) = some c →
      Answers .shootdownDrainEnd s fun t => t = (next.complete c 0 0 0).canon))

/-- Root swaps, migration, heat and scrubbing (R190, R203, R204, R219, Tables 7.5, 7.6). ROOT_SEL swaps at once, waits for a migration, and is discarded while a
swap drains; ROOT_SWAP_DRAIN scrubs the old tree's tables. MIGRATION_WRITE_DRAIN begins the copy, a stream of its context without a key (R224, R237); MIGRATION_COPY_DONE waits for that stream, then points the
entry at the new frame with the next generation; MIGRATION_READ_DRAIN gives the old frame to SCRUB, and retires the frames found bad. TILLER_PERIOD halves heat.
FRAME_SCRUB_DONE leaves the frame zero and FREE, and the context's identifier when it was the last. -/
def Obligations.RootsAndMigration : Prop :=
  (∀ (s : State) (m : Master) (c v : Nat), m.host = false →
    (s.flag .TIERS_CTX_CTRL_SWAP_PEND (inst c) = true → Answers (.rootSel m c v) s fun t => s.changesOnly t noteParts ∧ t.rootSel c = s.rootSel c) ∧
    (s.flag .TIERS_CTX_CTRL_SWAP_PEND (inst c) = false → v % 2 = s.rootSel c → Answers (.rootSel m c v) s fun t => t = s.canon) ∧
    (s.flag .TIERS_CTX_CTRL_SWAP_PEND (inst c) = false → v % 2 ≠ s.rootSel c → (∀ g ∈ s.tiers.migs, g.ctx ≠ c) → Answers (.rootSel m c v) s fun t =>
      t.rootSel c = v % 2 ∧ t.flag .TIERS_CTX_CTRL_SWAP_PEND (inst c) = true ∧ t.shootPending 2 c = true ∧ t.tiers.pt = s.tiers.pt ∧
        ((s.ctx c).span = false → t.out = s.out) ∧ s.changes t [Reg.TIERS_CTX_CTRL + inst c, Reg.TIERS_INVAL_STAT] [.tiers, .out]) ∧
    (s.flag .TIERS_CTX_CTRL_SWAP_PEND (inst c) = false → v % 2 ≠ s.rootSel c → (∃ g ∈ s.tiers.migs, g.ctx = c) → Answers (.rootSel m c v) s fun t =>
      t.tiers = { s.tiers with rootWait := SMap.put s.tiers.rootWait c (v % 2) } ∧ s.changesOnly t [.tiers])) ∧
  (∀ (s : State) (c old : Nat), s.tiers.swapOld.find? (fun p => p.1 == c) = some (c, old) →
    (s.shootPending 2 c = true → Answers (.rootSwapDrain c) s fun t => t = s.canon) ∧
    (s.shootPending 2 c = false → Answers (.rootSwapDrain c) s fun t => t.flag .TIERS_CTX_CTRL_SWAP_PEND (inst c) = false ∧
      s.changes t [Reg.TIERS_CTX_CTRL + inst c] [.tiers] ∧ ∀ tb ∈ s.tablesUnder 3 old, old ≠ 0 → tb ∉ s.tablesUnder 3 (s.rootOf c (s.rootSel c)) →
        s.sysFrame (tb % 2 ^ 45 / 65536) = false → (t.tag (tb % 2 ^ 45 / 65536)).kind = 4)) ∧
  (∀ (s : State) (id : Nat) (g : Migration), s.tiers.migs.find? (fun g => g.id == id) = some g → let src := g.oldAddr % 2 ^ 45
    (g.phase = 1 → s.shootPending 3 id = false → Answers (.migrationWriteDrain id) s fun t =>
      t.tiers = { s.tiers with migs := s.tiers.migs.map fun y => if y.id = id then { y with phase := 3, since := s.now } else y } ∧
        (∃ k x, t.streams.cmds = s.streams.cmds ++ [k] ∧ t.streams.insts = s.streams.insts ++ [x] ∧ k.purpose = 1 ∧ k.arg = id ∧ k.ctx = g.ctx ∧
          x.cmd = k.id ∧ x.desc.phys = true ∧ x.desc.needNs = 0) ∧ s.changesOnly t [.tiers, .streams]) ∧
    (g.phase = 3 → s.firmwareBusy 1 id = true → ∀ ue, Answers (.migrationCopyDone id ue) s fun t => t = s.canon) ∧
    (∀ a p, g.phase = 3 → s.firmwareBusy 1 id = false → s.tiers.held = [] → s.findLeaf g.ctx g.va = some (a, p) →
      (∀ ue, Answers (.migrationCopyDone id ue) s fun t =>
        t.pteAt a = { p with addr := g.newAddr, gen := (p.gen + 1) % 16, tier := g.newTier, migrating := false } ∧ t.shootPending 4 id = true ∧
          s.changesOnly t (.mem :: .tiers :: .fab :: noteParts)) ∧
      Answers (.migrationCopyDone id []) s fun t => (∀ b, t.byteAt b = s.byteAt b) ∧
        t.getF .TIERS_MIG_BYTES_COUNT = (s.getF .TIERS_MIG_BYTES_COUNT + pageBytes g.big) % 2 ^ Fld.TIERS_MIG_BYTES_COUNT.len ∧
        s.changes t [Reg.TIERS_MIG_BYTES, Reg.TIERS_INVAL_STAT] [.tiers, .out]) ∧
    (g.phase = 4 → s.shootPending 4 id = false →
      (∀ i, i < pageFrames g.big → s.sysFrame (src / 65536 + i) = false ∧ (s.tag (src / 65536 + i)).retiring = false) →
      (g.bad = [] → Answers (.migrationReadDrain id) s fun t => s.changesOnly t [.regs, .tiers, .out]) ∧
      Answers (.migrationReadDrain id) s fun t => t.tiers.migs = s.tiers.migs.filter (fun x => x.id != id) ∧
        (∀ i, i < pageFrames g.big → (t.tag (src / 65536 + i)).kind = 4 ∧ (i ∈ g.bad → (t.tag (src / 65536 + i)).retired = true)) ∧
        s.changesOnly t (.tiers :: noteParts))) ∧
  (∀ (s : State), (s.flag .TIERS_TILLER_CTRL_EN = false → Answers .tillerPeriod s fun t => t = s.canon) ∧
    (s.flag .TIERS_TILLER_CTRL_EN = true → Answers .tillerPeriod s fun t => t.tiers.offers = [] ∧ s.changesOnly t [.regs, .mem, .tiers, .sed, .twin, .out] ∧
      (s.pages = [] → s.tiers.offers = [] → s.sed.entries = [] → s.twin.holds = [] → s.twin.mirrorHolds = [] → s.twin.mirrors = [] →
        t.tiers = { s.tiers with frames := s.tiers.frames.map fun p => (p.1, ageTag (s.getF .TIERS_TILLER_CTRL_PROMOTE_T) p.2) } ∧
          (∀ q ∈ t.tiers.frames, ∃ p ∈ s.tiers.frames, q.1 = p.1 ∧ q.2.heatR = p.2.heatR / 2 ∧ q.2.heatW = p.2.heatW / 2) ∧ s.changesOnly t [.tiers, .out]))) ∧
  (∀ (s : State) (f : Nat),
    ((s.tag f).kind ≠ 4 → Answers (.frameScrubDone f) s fun t => t = s.canon) ∧
    ((s.tag f).kind = 4 → (s.tag f).retiring = false → (∀ v ∈ s.wpkg.versions, v.state = 4 → f ∉ v.frames) → Answers (.frameScrubDone f) s fun t =>
      t.tag f = { retired := (s.tag f).retired, corrected := (s.tag f).corrected } ∧ (∀ a, a / 65536 = f → t.byteAt a = 0 ∧ t.poisonAt a = false) ∧
        (∀ a, a / 65536 ≠ f → t.byteAt a = s.byteAt a) ∧
        ((∀ p ∈ t.tiers.frames, p.2.kind = 4 → p.2.ctx ≠ (s.tag f).ctx) → t.getF .TIERS_CTX_CTRL_SCRUBBING (inst (s.tag f).ctx) = 0) ∧
        s.changes t [Reg.TIERS_CTX_CTRL + inst (s.tag f).ctx] [.mem, .tiers, .ctxs]) ∧
    ((s.tag f).kind = 4 → (s.tag f).retiring = true → (∀ v ∈ s.wpkg.versions, v.state = 4 → f ∉ v.frames) → Answers (.frameScrubDone f) s fun t =>
      (t.tag f).retired = true ∧ (t.tag f).kind = 0 ∧ (∀ a, a / 65536 = f → t.byteAt a = 0)))

/-- Stacks and far memory (R210 to R218). HBM_TEMP_CHANGE doubles refresh above 85 C. HBM_RETRAIN counts and brings the stack up at 10 or 8 Gb/s, or down, which is
module-fatal. PATROL_SCRUB changes no byte: a corrected line is counted against its frame, an uncorrectable one is poisoned and its frame due to retire;
CXL_EVENT_POLL likewise for each uncorrectable record. BEDROCK_OFFLINE starts evacuation, EVACUATION_DONE takes an empty port down, BEDROCK_ONLINE puts its
capacity in the pool; BEDROCK_SURPRISE_REMOVAL leaves it FAILED with no frame; BEDROCK_HOT_ADD takes an accepted mode and at most 2 TiB. -/
def Obligations.StacksAndBedrock : Prop :=
  (∀ (s : State) (k v : Nat), k < 24 → Answers (.hbmTempChange k v) s fun t =>
    t.getF .TIERS_HBM_STAT_TEMP_C (inst k) = v % 2 ^ Fld.TIERS_HBM_STAT_TEMP_C.len ∧ t.getF .TIERS_HBM_STAT_REFRESH_2X (inst k) = (if 85 < v then 1 else 0) ∧
      s.changes t [Reg.TIERS_HBM_STAT + inst k] []) ∧
  (∀ (s : State) (k rate : Nat), k < 24 → s.getF .TIERS_HBM_STAT_STATE (inst k) = 2 → let temp := s.getF .TIERS_HBM_STAT_TEMP_C (inst k)
    let last := SMap.get 0 s.tiers.hbmTrainTemp k
    ((last + 8 ≤ temp ∨ temp + 8 ≤ last ∨ 16 < rate) → ∀ x ∈ [(0, 2, 10), (1, 2, 8)], Answers (.hbmRetrain k rate x.1) s fun t =>
      t.getF .TIERS_HBM_STAT_STATE (inst k) = x.2.1 ∧ t.getF .TIERS_HBM_STAT_RATE (inst k) = x.2.2 ∧
        t.getF .TIERS_HBM_STAT_RETRAINS (inst k) = min 65535 (s.getF .TIERS_HBM_STAT_RETRAINS (inst k) + 32) ∧ s.changesOnly t (.tiers :: noteParts)) ∧
    ((last + 8 ≤ temp ∨ temp + 8 ≤ last ∨ 16 < rate) → Answers (.hbmRetrain k rate 2) s fun t =>
      t.getF .TIERS_HBM_STAT_STATE (inst k) = 3 ∧ t.getF .TIERS_CAP_STACKS_UP = s.getF .TIERS_CAP_STACKS_UP - 1 ∧ s.changesOnly t faultParts) ∧
    (temp < last + 8 → last < temp + 8 → rate ≤ 16 → ∀ o, Answers (.hbmRetrain k rate o) s fun t => t = s.canon)) ∧
  (∀ (s : State) (off tier : Nat), s.tierOf off = some tier → s.sysFrame (off / 65536) = false → let f := s.tag (off / 65536)
    Answers (.patrolScrub off 0) s (fun t => t = s.canon) ∧
    let times := s.now :: f.corrected.filter fun x => decide (s.now < x + dayNs)
    (times.length < 16 → Answers (.patrolScrub off 1) s fun t => t.getF .TIERS_CE_COUNT = (s.getF .TIERS_CE_COUNT + 1) % 2 ^ Fld.TIERS_CE_COUNT.len ∧
      t.tag (off / 65536) = { f with corrected := times } ∧ s.changesOnly t (.tiers :: noteParts)) ∧
    (16 ≤ times.length → Answers (.patrolScrub off 1) s fun t => ((t.tag (off / 65536)).retired = true ∨ (t.tag (off / 65536)).retiring = true) ∧
      s.changesOnly t (.tiers :: noteParts)) ∧
    ((∀ e ∈ s.sed.entries, ¬(e.addr % 2 ^ 45 ≤ off ∧ off < e.addr % 2 ^ 45 + e.extent)) → s.poisonAt off = false → Answers (.patrolScrub off 2) s fun t => t.poisonAt off = true ∧ (∀ a, t.byteAt a = s.byteAt a) ∧
      ((t.tag (off / 65536)).retired = true ∨ (t.tag (off / 65536)).retiring = true) ∧ s.changesOnly t (.mem :: .tiers :: noteParts)) ∧
    ((∀ e ∈ s.sed.entries, ¬(e.addr % 2 ^ 45 ≤ off ∧ off < e.addr % 2 ^ 45 + e.extent)) → s.poisonAt off = true → Answers (.patrolScrub off 2) s fun t => t = s.canon)) ∧
  (∀ (s : State) (p : Nat) (recs : List (Nat × Bool)), Answers (.cxlEventPoll p recs) s fun t => s.changesOnly t (.tiers :: noteParts) ∧
    ∀ r ∈ recs, r.2 = true → let f := (portBase p + r.1) / 65536
      s.sysFrame f = false → (t.tag f).retired = true ∨ (t.tag f).retiring = true) ∧
  (∀ (s : State) (m : Master) (p : Nat), m.host = false → p < 4 → let keys := [Reg.TIERS_BR_STAT + 8 * p, Reg.TIERS_BR_CTRL + 8 * p, Reg.TIERS_CAP]
    (s.getF .TIERS_BR_STAT_STATE (8 * p) = 2 → Answers (.bedrockOffline m p) s fun t => t.getF .TIERS_BR_STAT_STATE (8 * p) = 3 ∧
      t.getF .TIERS_BR_CTRL_OFFLINE (8 * p) = 1 ∧ t.getF .TIERS_BR_CTRL_EVAC_BUSY (8 * p) = 1 ∧ natBit (t.getF .TIERS_CAP_PORTS_UP) p = false ∧
      s.changes t keys []) ∧
    (s.getF .TIERS_BR_STAT_STATE (8 * p) = 3 → (∀ q ∈ s.tiers.frames, onPort p q.1 = true → q.2.kind = 0) →
      Answers (.evacuationDone p) s fun t => t.getF .TIERS_BR_STAT_STATE (8 * p) = 4 ∧ t.getF .TIERS_BR_CTRL_OFFLINE (8 * p) = 0 ∧
        t.getF .TIERS_BR_CTRL_EVAC_BUSY (8 * p) = 0 ∧ s.changes t keys []) ∧
    (s.getF .TIERS_BR_STAT_STATE (8 * p) = 4 → Answers (.bedrockOnline m p) s fun t => t.getF .TIERS_BR_STAT_STATE (8 * p) = 2 ∧
      natBit (t.getF .TIERS_CAP_PORTS_UP) p = true ∧ s.changes t keys []) ∧
    (s.getF .TIERS_BR_STAT_STATE (8 * p) ≠ 0 → Answers (.bedrockSurpriseRemoval p) s fun t => t.getF .TIERS_BR_STAT_STATE (8 * p) = 5 ∧
      (∀ q ∈ t.tiers.frames, onPort p q.1 = false) ∧ s.changesOnly t (.mem :: .sed :: faultParts)) ∧
    (∀ m : Master, m.host = true → ∀ i ∈ [Instr.bedrockOffline m p, .bedrockOnline m p, .rootSel m p 0], Answers i s fun t => s.changesOnly t noteParts) ∧
    (∀ (w g gib : Nat) (flit lopt single : Bool), s.getF .TIERS_BR_STAT_STATE (8 * p) ≠ 2 → s.getF .TIERS_BR_STAT_STATE (8 * p) ≠ 3 →
      let good := flit && single && ((w == 16 && g == 64) || ((w == 16 || w == 8) && g == 32))
      Answers (.bedrockHotAdd p w g flit lopt single gib) s fun t => t.getF .TIERS_BR_STAT_STATE (8 * p) = (if good then 4 else 6) ∧
        t.getF .TIERS_BR_STAT_CAP_GIB (8 * p) = (if good then min 2048 gib else 0) ∧ t.getF .TIERS_BR_STAT_OVER_CAP (8 * p) = (if 2048 < gib then 1 else 0) ∧
        s.changes t [Reg.TIERS_BR_STAT + 8 * p] []))

/-! ### Rigs and waves (chapter 6) -/

/-- Loading rigs (R162 to R167, R182, R224, R240). RIG_LOAD that a check refuses completes with that code and changes no rig; STAGE keeps the container in frames of the context; one that
fits leaves a rig in LOADING that the command names, the command not complete. PLANE_RECORD_LAND marks the plane landed, asks again once, then faults.
RIG_LOAD_COMPLETE puts a first rig in force with its planes valid, or leaves a replacement READY. RIG_UNSTAGE drops the staged copy no version
names. RIG_RUN without a rig is NO_RIG, and with no seat completes at once. -/
def Obligations.RigLoads : Prop :=
  (∀ (s : State) (r q others : Nat) (ok : Bool) (c : Cmd), s.launched r q 0x20 = some c → (∀ g ∈ s.rigs, g.2.cmd ≠ some (r, q)) →
    let x := s.ctx c.ctx; let id := c.fld 40 0 64; let k := s.checkContainer c.ctx (c.fld 32 0 64); let i := Instr.rigLoad r q others ok
    (c.fld 56 1 1 = 0 → ∀ code sp, k.2 = some (code, sp) → Answers i s fun t => t = (s.rejectRig c code sp (sectSeat k.1 sp.1)).canon ∧
      s.changesOnly t (.rings :: noteParts)) ∧
    (c.fld 56 1 1 = 0 → k.2 = none → c.fld 56 0 1 = 0 →
      (∀ code, s.placeRig c.ctx k.1 (c.fld 48 0 64) others (r, q) = .error code → Answers i s fun t =>
        t = (s.rejectRig c code (0, 0) 0).canon ∧ s.changesOnly t (.rings :: noteParts)) ∧
      (∀ key u, s.placeRig c.ctx k.1 (c.fld 48 0 64) others (r, q) = .ok (key, u) → Answers i s fun t => t = u.canon ∧ (t.rig key).state = 1 ∧
        (t.rig key).ctx = c.ctx ∧ (t.rig key).cmd = some (r, q) ∧ t.rings = s.rings ∧ (t.ctx c.ctx).currentRig = x.currentRig)) ∧
    (c.fld 56 1 1 = 0 → k.2 = none → c.fld 56 0 1 = 1 → let v := cb k.1 24 8; let u := s.stage c.ctx v k.1
      let kept := fun (t : State) => (t.ctx c.ctx).staged = (u.ctx c.ctx).staged ∧ ∀ f w, 0 < cb k.1 16 8 → cb k.1 16 8 ≤ 65536 →
        (s.unstage c.ctx v).allocPage c.ctx 1 false 0 = .ok (f, w) → (v, k.1) ∈ (t.ctx c.ctx).staged ∧ (v, [f]) ∈ (t.ctx c.ctx).stagedFrames
      (∀ code, u.placeRig c.ctx k.1 (c.fld 48 0 64) others (r, q) = .error code → Answers i s fun t => t = (u.rejectRig c code (0, 0) 0).canon ∧ kept t) ∧
      (∀ key y, u.placeRig c.ctx k.1 (c.fld 48 0 64) others (r, q) = .ok (key, y) → Answers i s fun t => t = y.canon ∧ kept t)) ∧
    (c.fld 56 1 1 = 1 → (∀ y ∈ x.staged, y.1 ≠ id) → Answers i s fun t => t = ((s.unstage c.ctx id).rejectRig c 5 (0, 0) (sectSeat 0 0)).canon) ∧
    (∀ y, c.fld 56 1 1 = 1 → x.staged.find? (fun y => y.1 == id) = some y → ok = false → Answers i s fun t =>
      t = ((s.unstage c.ctx id).rejectRig c 5 (0, 0) (sectSeat y.2 0)).canon ∧ ∀ z ∈ (t.ctx c.ctx).staged, z.1 ≠ id) ∧
    (∀ y, c.fld 56 1 1 = 1 → x.staged.find? (fun y => y.1 == id) = some y → ok = true → ∀ key u,
      s.placeRig c.ctx y.2 (c.fld 48 0 64) others (r, q) = .ok (key, u) → Answers i s fun t => t = u.canon ∧ (t.rig key).state = 1)) ∧
  (∀ (s : State) (u p : Nat) (key : Nat) (g : RigSt) (k : Placed), p < 8 → let here := fun (k : Placed) => k.uid == u && k.pplane == p
    (s.rigs.find? fun g => !g.2.closing && g.2.planes.any fun k => here k && !k.landed) = some (key, g) → g.planes.find? here = some k →
    ((∀ w ∈ s.waves, w.inRig ≠ some key) → Answers (.planeRecordLand u p true) s fun t =>
      t.rig key = { s.rig key with planes := (s.rig key).planes.map fun k => if here k then { k with landed := true } else k } ∧
        t.plane u p = { s.plane u p with idle := k.cfg, idleReady := true, idleTsBase := k.tsBase } ∧ s.changesOnly t [.rigs, .planes]) ∧
    Answers (.planeRecordLand u p true) s (fun t => ∀ k ∈ (t.rig key).planes, here k = true → k.landed = true) ∧
    (k.retried = false → Answers (.planeRecordLand u p false) s fun t =>
      t.rig key = { s.rig key with planes := (s.rig key).planes.map fun k => if here k then { k with retried := true } else k } ∧ s.changesOnly t [.rigs]) ∧
    (k.retried = true → Answers (.planeRecordLand u p false) s fun t => t = (s.unitFault u 11 3 g.ctx p 0 0 0 0).canon ∧ s.changesOnly t faultParts)) ∧
  (∀ (s : State) (r q key : Nat) (g : RigSt),
    (s.rigs.find? fun g => g.2.cmd == some (r, q) && g.2.state == 1 && (r == firmwareRing || (s.launched r q 0x20).isSome)) = some (key, g) →
    ((s.ctx g.ctx).currentRig = none → (∃ k ∈ g.planes, k.landed = false) → Answers (.rigLoadComplete r q) s fun t => t = s.canon) ∧
    ((s.ctx g.ctx).currentRig = none → (∀ k ∈ g.planes, k.landed = true) → Answers (.rigLoadComplete r q) s fun t =>
      (t.ctx g.ctx).currentRig = some key ∧ (t.rig key).state = 3 ∧ (t.rig key).cmd = none ∧ (∀ k ∈ g.planes, (t.plane k.uid k.pplane).valid = true) ∧
        s.changesOnly t [.regs, .planes, .units, .outPorts, .rigs, .ctxs, .fab, .streams, .rings, .out]) ∧
    ((s.ctx g.ctx).currentRig ≠ none → Answers (.rigLoadComplete r q) s fun t => (t.ctx g.ctx).incomingRig = some key ∧ (t.rig key).state = 2 ∧
      (t.rig key).cmd = none ∧ s.changesOnly t [.regs, .rigs, .ctxs, .rings, .out])) ∧
  (∀ (s : State) (r q : Nat) (c : Cmd), s.launched r q 0x22 = some c → let x := s.ctx c.ctx; let id := c.fld 40 0 64
    ((∀ y ∈ x.staged, y.1 ≠ id) → Answers (.rigUnstage r q) s fun t => t = (s.complete c 0x06 0 0).canon) ∧
    ((∃ y ∈ x.staged, y.1 = id) → (∀ v ∈ s.wpkg.versions, v.ctx = c.ctx → v.decodeRig ≠ id ∧ v.prefillRig ≠ id) → Answers (.rigUnstage r q) s fun t =>
      t = ((s.unstage c.ctx id).complete c 0 0 0).canon ∧
        (t.ctx c.ctx).staged = x.staged.filter (fun y => y.1 != id) ∧ s.changesOnly t [.regs, .tiers, .ctxs, .rings, .out]) ∧
    ((∃ y ∈ x.staged, y.1 = id) → (∃ v ∈ s.wpkg.versions, v.ctx = c.ctx ∧ (v.decodeRig = id ∨ v.prefillRig = id)) →
      Answers (.rigUnstage r q) s fun t => t = (s.complete c 0xE7 0 0).canon)) ∧
  (∀ (s : State) (r q : Nat) (c : Cmd), s.launched r q 0x23 = some c →
    (s.currentRig c.ctx = none → Answers (.rigRun r q) s fun t => t = (s.complete c 0x06 0 0).canon) ∧
    (∀ g, s.currentRig c.ctx = some g →
      let queued := s.streams.cmds.any fun k => k.cmd == some (r, q)
      let x := if queued then s else s.queueRun g (c.fld 32 0 8) (c.fld 34 0 16) c.job (some (r, q)) 0 0
      Answers (.rigRun r q) s fun t => t = (if c.fld 32 0 8 = 0 then x.complete c 0 0 0 else x.launchRun (r, q)).canon))

/-- The wave (R172 to R178). RIG_SWITCH with an incoming rig, or UNLOAD, launches a wave over the planes of the outgoing rig and numbers it; with a wave or no rig
it is NO_RIG. PLANE_FLIP sends the marker on every live output for one credit and puts the incoming rig's record in force, or leaves the plane
invalid with the next epoch. CIRCUIT_RELEASE clears a quiet group once both ends of its circuits have flipped. WAVE_COMPLETE makes the incoming rig current and forgets the outgoing one.
WAVE_STALL past the bound faults the context once both rigs are marked. -/
def Obligations.RigWaves : Prop :=
  (∀ (s : State) (r q o : Nat) (c : Cmd), s.launched r q 0x21 = some c → (∀ w ∈ s.waves, w.cmd ≠ some (r, q)) → s.roundOpen c.ctx = false →
    let x := s.ctx c.ctx; let idle := ∀ w ∈ s.waves, w.ctx ≠ c.ctx
    (¬idle → Answers (.rigSwitch r q) s fun t => t = (s.complete c 0x06 0 0).canon) ∧
    (x.currentRig = none → Answers (.rigSwitch r q) s fun t => t = (s.complete c 0x06 0 0).canon) ∧
    (idle → x.currentRig = some o → c.fld 32 0 1 = 0 → x.incomingRig = none → Answers (.rigSwitch r q) s fun t => t = (s.complete c 0x06 0 0).canon) ∧
    (∀ inc : Option Nat, idle → x.currentRig = some o → x.incomingRig = inc → inc ≠ some o →
      (inc = none → c.fld 32 0 1 = 1 ∧ ∀ g ∈ s.rigs, g.2.ctx = c.ctx → g.2.state ≠ 1) → (inc ≠ none → c.fld 32 0 1 = 0) →
      Answers (.rigSwitch r q) s fun t => (t.rig o).state = 5 ∧ (t.rig o).waveSeq = (x.waves + 1) % 65536 ∧ (t.ctx c.ctx).waves = x.waves + 1 ∧
        (∃ w ∈ t.waves, w.ctx = c.ctx ∧ w.outRig = o ∧ w.inRig = inc ∧ w.seq = (x.waves + 1) % 65536 ∧ w.launched = s.now ∧ w.cmd = some (r, q) ∧
          w.pending = (s.rig o).planes.map fun k => (k.uid, k.pplane)) ∧ t.rings = s.rings ∧
        s.changesOnly t [.regs, .planes, .units, .outPorts, .rigs, .waves, .ctxs, .fab, .streams])) ∧
  (∀ (s : State) (u p : Nat) (w : Wave), p < 8 → (s.waves.find? fun w => w.ctx == (s.plane u p).ctx && s.mayFlip w u p) = some w →
    let inc := w.inRig.map s.rig; let here := fun (k : Placed) => k.uid == u && k.pplane == p
    Answers (.planeFlip u p) s (fun t => (∀ n ∈ livePorts (recOut (s.plane u p).cfg),
        .beat u p n { markerBeat w (s.plane u p).epoch ((inc.map (·.rigId)).getD 0) with member := p } ∈ t.out) ∧
      (∀ n ∈ livePorts (recIn (s.plane u p).cfg), .credit u p n 1 ∈ t.out) ∧
      s.changesOnly t [.regs, .planes, .units, .inPorts, .outPorts, .rigs, .waves, .ctxs, .fab, .streams, .out]) ∧
    (inc.bind (fun r => r.planes.find? here) = none → Answers (.planeFlip u p) s fun t =>
      (t.plane u p).valid = false ∧ (t.plane u p).epoch = ((s.plane u p).epoch + 1) % 16 ∧ (t.plane u p).cfg = 0) ∧
    (∀ key k, w.inRig = some key → (s.rig key).planes.find? here = some k → Answers (.planeFlip u p) s fun t =>
      (t.plane u p).valid = true ∧ (t.plane u p).rig = key ∧ (t.plane u p).epoch = (s.rig key).epoch ∧ (t.plane u p).cfg = (s.plane u p).idle)) ∧
  (∀ (s : State) (c seat idx : Nat) (w : Wave) (g : SlotGroup), (s.waves.find? fun w => w.ctx == c && w.releasing.contains (seat, idx)) = some w →
    ((s.rig w.outRig).groups.find? fun g => g.seat == seat && g.idx == idx) = some g →
    (∀ k ∈ (s.rig w.outRig).circuits, k.seat = seat → k.group = idx → s.circuitOver w (s.rig w.outRig) k = true) → s.quiet g = true →
    (∀ v ∈ s.waves, v.ctx = c → ∀ k, v.inRig = some k → (s.rig k).drain = false) →
    Answers (.circuitRelease c seat idx) s fun t => (∀ e ∈ g.entries, t.regAt e.1 = BitVec.ofNat 64 ((s.regAt e.1).toNat &&& 0x4000)) ∧
      (t.rig w.outRig).groups = (s.rig w.outRig).groups.filter (fun k => !(k.seat == seat && k.idx == idx)) ∧
      t.waves = s.waves.map (fun v => if v.ctx = c then { v with releasing := v.releasing.filter fun k => k != (seat, idx) } else v) ∧
      s.changes t (g.entries.map (·.1)) [.rigs, .waves]) ∧
  (∀ (s : State) (c : Nat) (w : Wave), (s.waves.find? fun w => w.ctx == c) = some w →
    ((w.pending ≠ [] ∨ w.releasing ≠ []) → ∀ b, Answers (.waveComplete c b) s fun t => t = s.canon) ∧
    (w.pending = [] → w.releasing = [] → w.inRig ≠ some w.outRig → Answers (.waveComplete c true) s fun t =>
      (t.ctx c).currentRig = w.inRig ∧ (t.ctx c).incomingRig = none ∧ (∀ v ∈ t.waves, v.ctx ≠ c) ∧ t.rig w.outRig = {} ∧
        (∀ k, w.inRig = some k → (t.rig k).state = 3 ∧ (t.rig k).drain = false) ∧
        s.changesOnly t [.regs, .rigs, .waves, .ctxs, .tiers, .fab, .streams, .rings, .out]) ∧
    (let halted := match w.haltSince with
       | some a => s.now - a
       | none => 0
     let bound := (s.rig (w.inRig.getD w.outRig)).waveUs * 1000 + (w.pausedNs + halted)
     (s.now ≤ w.launched + bound → Answers (.waveStall c) s fun t => t = s.canon) ∧
     (w.launched + bound < s.now → Answers (.waveStall c) s fun t =>
       let x := (s.freezeWave w).modRig w.outRig fun r => { r with recompile := true }
       let y := match w.inRig with
         | some k => x.modRig k fun r => { r with recompile := true }
         | none => x
       t = (rigFault y 0 3 c ((w.pending.head?.map fun p => seatOf p.1).getD ((y.rig w.outRig).seats.headD 0))).canon ∧ s.changesOnly t faultParts)))

/-! ### Streams, selection, sampling (chapters 8, 9, 12) -/

/-- Stream engines (R224, R229 to R236, R239 to R244). STREAM_REACH takes a slot for an instance of a command no unmet mark stops, its counts fixed or waiting for the
shape word; one stopped is counted once. STREAM_SHAPE_READ, not within 1 us of the last, reads the word at SHAPE_ADDR: a VALID one resolves the count, a poisoned or too large one faults;
STREAM_SHAPE_TIMEOUT faults past the bound. STREAM_REQUEST_ISSUE counts the granted request and adds it to its instance with the lines it reads. STREAM_REQUEST_COMPLETE writes the lines to the
destination and counts them, writes nothing for a void one, and as a whole copies a line that both ends of an untranslated request name. FEED_TIMEOUT faults a ring stalled past the bound.
STREAM_JOB_VOID leaves no instance of the job both unlaunched and valid. -/
def Obligations.StreamEngines : Prop :=
  (∀ (s : State) (id : Nat) (k : SeatCmd), s.streams.cmds.find? (fun k => k.id == id) = some k → let d := seatOff k.seat
    let static := s.flag .STREAM_MODE_FORCE_STATIC d
    (k.isRun = true → min 8 (s.getF .STREAM_MODE_FETCH_AHEAD d) < s.seatPos k → Answers (.streamReach id) s fun t => t = s.canon) ∧
    (k.isRun = true → s.seatPos k ≤ min 8 (s.getF .STREAM_MODE_FETCH_AHEAD d) → s.aheadBlocked k = true → id ∉ s.streams.stopped → Answers (.streamReach id) s fun t =>
      t.streams = { s.streams with stopped := id :: s.streams.stopped } ∧ s.changes t [Reg.STREAM_AHEAD_STOPS + d] [.streams] ∧
        t.getF .STREAM_AHEAD_STOPS_COUNT d = (s.getF .STREAM_AHEAD_STOPS_COUNT d + 1) % 2 ^ Fld.STREAM_AHEAD_STOPS_COUNT.len) ∧
    (∀ x, (k.isRun = true → s.seatPos k ≤ min 8 (s.getF .STREAM_MODE_FETCH_AHEAD d) ∧ s.aheadBlocked k = false) →
      (s.streams.insts.filter fun x => x.cmd == id && !x.reached && !x.void) = [x] →
      let used := (s.streams.insts.filter fun y => y.seat == x.seat && y.desc.engine == x.desc.engine && y.reached).map (·.slot)
      let bad := x.desc.invalid x.seat (x.record == 65535) || s.ringOutside x
      used.length < 32 →
      (bad = false → Answers (.streamReach id) s fun t => s.changesOnly t [.regs, .streams, .rings, .out] ∧
        t.getF .STREAM_MODE_STATIC_ACTIVE d = bit static ∧ ∀ y ∈ t.streams.insts, y.id = x.id → y.reached = true ∧ y.slot ∉ used ∧
          y.resolved = (static || !x.desc.shapeEn) ∧ y.counts = (if static || !x.desc.shapeEn then x.desc.fixedCounts else [])) ∧
      (bad = true → Answers (.streamReach id) s fun t => s.changesOnly t faultParts ∧
        ∀ y ∈ t.streams.insts, y.id = x.id → y.void = true))) ∧
  (∀ (s : State) (id w : Nat) (bad : Bool) (x : StreamInst), s.streamInst id = some x → x.reached = true → x.resolved = false → x.void = false →
    let u := s.setInst id fun y => { y with shapeRead := some s.now }; let va := x.desc.shapeAddr
    let got := if s.farVa x.ctx va then some (leBytes 8 w, bad) else s.readVa x.ctx va 8
    (∀ a, x.shapeRead = some a → s.now < a + 1000 → Answers (.streamShapeRead id w bad) s fun t => t = s.canon) ∧
    ((∀ a, x.shapeRead = some a → a + 1000 ≤ s.now) →
      (∀ b, got = none → s.walk x.ctx va false = .bad b → Answers (.streamShapeRead id w bad) s fun t =>
        t = ((u.tiersFault b 3 (some x.ctx) va 0).stopInst id).canon) ∧
      (∀ bs, got = some (bs, true) → Answers (.streamShapeRead id w bad) s fun t => t = (u.streamFault 3 3 x 0).canon ∧ s.changesOnly t faultParts) ∧
      (∀ bs, got = some (bs, false) →
        let v := leNat bs % 2 ^ 32; let n := (v + 2 ^ x.desc.shapeShift - 1) / 2 ^ x.desc.shapeShift; let most := (x.desc.dims.getD (x.desc.shapeDim - 1) (1, 0, 0)).1
        ((leNat bs).testBit 63 = false → Answers (.streamShapeRead id w bad) s fun t => t = u.canon) ∧
        ((leNat bs).testBit 63 = true → most < n → Answers (.streamShapeRead id w bad) s fun t => t = (u.streamFault 1 3 x v).canon) ∧
        ((leNat bs).testBit 63 = true → n ≤ most → Answers (.streamShapeRead id w bad) s fun t => s.changesOnly t [.regs, .streams, .rings, .out] ∧
          ∀ y ∈ t.streams.insts, y.id = id → y.resolved = true ∧ y.shapeSince = none ∧
            y.counts = x.desc.fixedCounts.mapIdx fun i m => if i = x.desc.shapeDim - 1 then n else m))) ∧
    (∀ a, x.shapeSince = some a →
      (a + s.waitNs x.seat ≤ s.now → Answers (.streamShapeTimeout id) s fun t => t = (s.streamFault 2 3 x 0).canon) ∧
      (s.now < a + s.waitNs x.seat → Answers (.streamShapeTimeout id) s fun t => t = s.canon))) ∧
  (∀ (s : State) (seat path : Nat), Answers (.streamRequestIssue seat path) s (fun t => s.changesOnly t faultParts) ∧
    (s.grant seat path = none → Answers (.streamRequestIssue seat path) s fun t => t = s.canon) ∧
    (∀ x fl a ls, s.grant seat path = some (x, fl) → s.elemSrc x x.nextReq.1 = some (a, false) →
      (s.sourceAddrs x x.nextReq.2.2 (a + 64 * x.nextReq.2.1)).1 = .ok ls → s.flag .STREAM_MERGE_EN (seatOff seat) = false →
      Answers (.streamRequestIssue seat path) s fun t => s.changesOnly t [.regs, .tiers, .streams, .fab, .out] ∧
        t.getF .STREAM_REQS_COUNT (seatOff seat) = (s.getF .STREAM_REQS_COUNT (seatOff seat) + 1) % 2 ^ Fld.STREAM_REQS_COUNT.len ∧
        t.streams.insts = s.streams.insts.map (fun y => if y.id = x.id then { y with
          next := y.next + 1, pendingAt := s.now,
          reqs := y.reqs ++ [{ elem := x.nextReq.1, first := x.nextReq.2.1, lines := x.nextReq.2.2, issued := s.now, tag := s.fab.nextTag, src := ls }] } else y))) ∧
  (∀ (s : State) (id elem first : Nat) (remote : List (Line × Bool)) (x : StreamInst) (r : StreamReq), s.streamInst id = some x →
    x.reqs.find? (fun r => r.elem == elem && r.first == first && !r.landed) = some r → s.partsOf r.tag = [(id, r)] →
    let ls := s.sourceLines x r remote; let i := Instr.streamRequestComplete id elem first remote; let d := seatOff x.seat + inst x.ctx
    let u := (s.setInst id fun y => { y with reqs := y.reqs.map fun q => if q.elem = r.elem ∧ q.first = r.first then
      { q with landed := true, data := if y.launched || y.desc.kind == 1 || y.void then [] else ls.1 } else q }).sampleSource x r
    (x.void = true → Answers i s fun t => s.changesOnly t [.regs, .tiers, .streams, .rings, .out] ∧
      t.getF .STREAM_CTX_WASTE_COUNT d = (s.getF .STREAM_CTX_WASTE_COUNT d + 64 * r.lines) % 2 ^ Fld.STREAM_CTX_WASTE_COUNT.len) ∧
    (x.void = false → (x.launched = true ∨ x.desc.kind = 1) → Answers i s fun t => (∀ a, t.byteAt a = (u.landReq x r ls.1).byteAt a) ∧
      t.getF .STREAM_CTX_BYTES_COUNT d = (s.getF .STREAM_CTX_BYTES_COUNT d + 64 * r.lines) % 2 ^ Fld.STREAM_CTX_BYTES_COUNT.len ∧
      s.changesOnly t (.mem :: faultParts)) ∧
    (x.void = false → x.launched = false → x.desc.kind ≠ 1 → Answers i s fun t => ∀ a, t.byteAt a = s.byteAt a) ∧
    (∀ a g, x.void = false → x.launched = true → x.desc.kind = 0 → x.desc.phys = true → r.lines = 1 → r.src = [(a, g)] → a / 2 ^ 45 = s.self →
      let o := s.physAddr (x.elemDst elem + 64 * first) % 2 ^ 45
      s.physAddr (x.elemDst elem + 64 * first) / 2 ^ 45 = s.self → s.portDead (a % 2 ^ 45) = false → s.portDead o = false → s.poisonAt (a % 2 ^ 45) = false → Answers i s fun t =>
        t.lineAt o = s.lineAt (a % 2 ^ 45) ∧ t.poisonAt o = false ∧ (∀ b, b / 64 ≠ o / 64 → t.byteAt b = s.byteAt b) ∧
          s.changesOnly t [.regs, .mem, .tiers, .streams, .rings, .out])) ∧
  (∀ (s : State) (u vb a : Nat) (g : FeedRing), (s.streams.rings.filter fun g => g.uid == u && g.vbase == vb) = [g] → g.stalled = some a →
    (s.now < a + s.waitNs (seatOf u) → Answers (.feedTimeout u vb) s fun t => t = s.canon) ∧
    (∀ x, a + s.waitNs (seatOf u) ≤ s.now →
      (s.streams.insts.find? fun y => y.desc.unit == u && y.desc.dst == vb && y.desc.kind == 1 && y.ctx == g.ctx) = some x →
      Answers (.feedTimeout u vb) s fun t => t = (s.streamFault 4 3 x 0).canon ∧ s.changesOnly t faultParts)) ∧
  (∀ (s : State) (m : Master) (seat v : Nat), seat < 8 →
    (m.host = true → Answers (.streamJobVoid m seat v) s fun t => s.changesOnly t noteParts) ∧
    (m.host = false → s.asleep seat = false → Answers (.streamJobVoid m seat v) s fun t => s.changesOnly t [.regs, .streams, .rings, .out] ∧
      (natBits v 0 8, natBits v 8 16) ∈ t.streams.voided ∧
      ∀ y ∈ t.streams.insts, y.ctx = natBits v 0 8 → (natBit v 24 = true ∨ y.job = natBits v 8 16) → y.launched = true ∨ y.void = true) ∧
    ((s.seat seat).phase = .asleep → Answers (.streamJobVoid .cox seat v) s fun t =>
      t.seat seat = { s.seat seat with wake := true, writes := (s.seat seat).writes ++ [.jobVoid seat v] } ∧ s.changesOnly t [.seats]))

/-- Selection, sampling and sealing (R262, R264, R266, R343 to R349). SELECTION_REQUEST of a request's layer and head writes the addresses of the attended pages in
ascending order, then the shape word with VALID, and answers the unit; a request beat that fails a check faults its context. SAMPLING_REQUEST hands over one
token for commit: of the treated logits the largest, or the drawn one, end-of-sequence where none is eligible, with its flags; poison fails
the request. SEAL_PASS_COMPLETE writes the page's summaries, seals the page of a live request and forgets the pass. -/
def Obligations.SelectionSamplingSealing : Prop :=
  (∀ (s : State) (u c : Nat) (q : Line) (beats : List (Line × Bool)), let f := natBits q.toNat; let h := f 0 32
    (s.findHandle h = none → Answers (.selectionRequest u c q beats) s fun t => t = (s.selFault u h c).canon ∧ s.changesOnly t faultParts) ∧
    (∀ i, s.findHandle h = some i → let e := s.entry i; let v := s.version e.b.version
      let layer := f 32 9; let head := f 41 6; let k := f 48 11; let w := f 59 7; let list := f 128 56; let shape := f 192 56
      let pages := pagesTo (e.a.curLen - 1); let n := candidates pages w
      let hdrs := (List.range n).map fun j => s.pageHdr i (j + 1)
      let got := attended pages w k ((List.range n).map fun j => (j + 1, (s.takeScores beats n).1.getD j 0, ((hdrs.getD j none).map hdrSummary).getD false))
      let addrs := got.map fun j => (s.req i).extents.getD j 0 + v.kOff layer head
      (e.a.ctx ≠ c → Answers (.selectionRequest u c q beats) s fun t => t = (s.selFault u h c).canon) ∧
      (e.a.state = .decode → e.a.ctx = c → layer < v.layers → head < v.kvHeads → 0 < k → k ≤ 1024 → 0 < w → w ≤ 64 → list % 64 = 0 → shape % 8 = 0 →
        beats.length = (n + 15) / 16 → hdrs.any (·.isNone) = false → s.mapped c list (8 * addrs.length) true = true → s.mapped c shape 8 true = true →
        Answers (.selectionRequest u c q beats) s fun t => s.changesOnly t (.mem :: faultParts) ∧
          t.out.head? = some (.message "SELECTED" u [h, layer, head, addrs.length]) ∧ shape ∈ (t.req i).selShapes ∧
          (∀ a, t.byteAt a = ((s.writeVa c list (addrs.flatMap fun a => leBytes 8 a)).writeVa c shape (leBytes 8 (addrs.length + 2 ^ 63))).byteAt a) ∧
          t.getF .SEL_CALLS_COUNT = (s.getF .SEL_CALLS_COUNT + 1) % 2 ^ Fld.SEL_CALLS_COUNT.len))) ∧
  (∀ (s : State) (u c : Nat) (q : Line) (beats : List (Line × Bool)), let h := natBits q.toNat 0 32
    (s.findHandle h = none → Answers (.samplingRequest u c q beats) s fun t => t = (s.sampFault 1 3 u h c).canon ∧ s.changesOnly t faultParts) ∧
    (∀ i, s.findHandle h = some i → let e := s.entry i; let v := s.version e.b.version; let r := s.req i; let b := r.samp; let con := e.a.constrained
      let x := (s.bump .SAMP_ROWS_COUNT).pmc 0x0E 1 (some c)
      let counts := if con then some ([], false) else s.readVa c e.b.penaltyPtr (4 * v.vocab)
      let mask := if con then s.maskOf c r.grammar v.vocab else .ok ([], false)
      let ls := (List.range v.vocab).map fun t => (t, (beatWord beats t).1)
      let nan := ls.any fun l => (f32 l.2).isNan
      let greedy := f32Eq b.temperature 0
      (e.a.ctx = c → e.a.state = .decode → natBits q.toNat 32 25 = e.a.curLen → natBits q.toNat 64 16 = e.b.version → beats.length = (v.vocab + 15) / 16 →
        (∀ cb bm, counts = some (cb, false) → mask = .ok bm → beats.any (·.2) = false → (con = true → ∀ y, s.readVa c e.b.grammarPtr 64 = some y → y.2 = false) →
          let ok := fun (t : Nat) => if t = v.eos then bm.2 else natBit (bm.1.getD (t / 8) 0).toNat (t % 8)
          let zs := (ls.map fun l => (l.1, treatLogit b con l.2 (rawNum cb (4 * l.1) 4) (ok l.1))).filter fun z => z.2 != nInf
          let pick := if greedy then greedyPick zs else drawToken b zs (philoxDraw b.seed e.a.curLen)
          (∀ next, (if !con || pick.getD v.eos == v.eos then .ok r.grammar.state else s.nextState c r.grammar (pick.getD v.eos)) = .ok next →
            Answers (.samplingRequest u c q beats) s fun t => s.changesOnly t (.reqs :: noteParts) ∧
              (t.req i).sampled = some { id := pick.getD v.eos, pos := e.a.curLen,
                                         flags := packBits [(3, 0), (1, bit pick.isNone), (1, bit nan), (1, bit greedy)], nextState := next })) ∧
        (∀ cb, counts = some cb → con = false → (beats.any (·.2) = true ∨ cb.2 = true) → Answers (.samplingRequest u c q beats) s fun t =>
          t = (x.sampFault 0 2 u h c).canon ∧ s.changesOnly t faultParts)) ∧
      (e.a.ctx ≠ c → Answers (.samplingRequest u c q beats) s fun t => t = (s.sampFault 1 3 u h c).canon))) ∧
  (∀ (s : State) (h page i : Nat) (far : Bool), s.findHandle h = some i → let p : SealPass := { entry := i, gen := (s.entry i).a.gen, page := page }
    let x : State := { s with seals := s.seals.filter fun y => y != p }
    (p ∉ s.seals → Answers (.sealPassComplete h page far) s fun t => t = s.canon) ∧
    (p ∈ s.seals → ((s.entry i).a.state.final = true ∨ (s.req i).extents.length ≤ page) → Answers (.sealPassComplete h page far) s fun t => t = x.canon) ∧
    (p ∈ s.seals → (s.entry i).a.state.final = false → page < (s.req i).extents.length →
      let c := (s.entry i).a.ctx; let va := (s.req i).extents.getD page 0; let got := s.pageSummaries c va (s.version (s.entry i).b.version)
      (got = none → Answers (.sealPassComplete h page far) s fun t => t = (x.tiersFault 3 3 (some c) va 0).canon ∧ p ∉ t.seals) ∧
      (∀ bs poisoned, got = some (bs, poisoned) → Answers (.sealPassComplete h page far) s fun t =>
        t = ((x.writeVa c (va + 0x10000) bs).sealPage i page (poisoned || (far && s.farVa c va))).canon ∧ p ∉ t.seals)))

/-! ### Sediment (chapter 9) -/

/-- A shard (R271 to R280). SEDIMENT_LOOKUP answers the addresses of the pages that hit in order, only VALID ones of the version, domain, format and epoch asked
for, counts them and pins them with its reply; a module that holds no shard of the map the lookup latched answers nothing. COPY_ORDER copies pinned extents to the
addresses it names by a stream of the shard's firmware, or answers a miss; PIN_TIMEOUT releases what was not claimed in time. DEPOSIT_OFFER keeps
a page it has, accepts one with a pending entry, or refuses; DEPOSIT_LANDED makes the entry VALID, its stored header naming no request, once its copy is over. SHARD_EVICT below LOW removes no pinned page. INDEX_REBUILD,
INDEX_SWAP and INDEX_RECLAIM move to a new array, generation and key; SHARD_MAP_SWAP takes a new map. -/
def Obligations.SedimentShard : Prop :=
  (∀ (s : State) (gen owner h first epoch domain version fmt : Nat) (pages : List (Nat × List Nat)) (bad : List Nat), s.fenced = false →
    (s.servesMap gen = false → Answers (.sedimentLookup ⟨owner, gen⟩ h first epoch domain version fmt pages bad) s fun t => t = s.canon) ∧
    (s.servesMap gen = true → let w := s.sedWalk epoch domain version fmt bad first (pages.take 256)
    Answers (.sedimentLookup ⟨owner, gen⟩ h first epoch domain version fmt pages bad) s fun t =>
      t.out.head? = some (.message "LOOKUP_REPLY" owner (h :: first :: w.1.map (·.addr))) ∧
      (∀ e ∈ w.1, e.state = 2 ∧ e.version = version ∧ e.domain = domain ∧ e.kvFmt = fmt ∧ e.epoch = epoch ∧ e.doomed = false ∧ e.pins < 255) ∧
      t.sed.pins = (if w.1 = [] then s.sed.pins else s.sed.pins ++ [{ owner := owner, handle := h, hashes := w.1.map (·.hash), at_ := s.now }]) ∧
      t.sed.mapAt = (if gen = s.getF .SED_STATUS_MAP_GEN then s.sed.mapAt else some s.now) ∧
      t.getF .SED_LOOKUPS_COUNT = (s.getF .SED_LOOKUPS_COUNT + 1) % 2 ^ Fld.SED_LOOKUPS_COUNT.len ∧
      t.getF .SED_HIT_PAGES_COUNT = (s.getF .SED_HIT_PAGES_COUNT + w.1.length) % 2 ^ Fld.SED_HIT_PAGES_COUNT.len ∧
      s.changesOnly t (.sed :: .tiers :: .streams :: noteParts))) ∧
  (∀ (s : State) (owner h c due : Nat) (dest : List Nat), let mine := s.sed.pins.filter fun p => p.owner == owner && p.handle == h
    let parts := copyParts (mine.flatMap fun p => p.hashes.filterMap s.sedEnt) dest
    ((∀ p ∈ mine, p.ordered = true) → Answers (.copyOrder owner h ⟨c, due⟩ dest) s fun t =>
      t.out = .message "COPY_MISS" owner [h] :: s.out ∧ s.changesOnly t [.out]) ∧
    ((∃ p ∈ mine, p.ordered = false) → Answers (.copyOrder owner h ⟨c, due⟩ dest) s fun t =>
      t.sed = { s.sed with pins := s.sed.pins.map fun p => if p.owner = owner ∧ p.handle = h then { p with ordered := true, at_ := s.now } else p } ∧
      (∀ a u g rest, parts = (a, u, g) :: rest → t.streams = (({ s with sed := t.sed }).firmwareStream (s.copySeat a u) c 0 5 (copyArg owner h)
        (needNs due s.now) parts).streams ∧ t.firmwareBusy 5 (copyArg owner h) = true) ∧ s.changesOnly t [.sed, .streams]) ∧
    Answers (.pinTimeout owner h) s fun t => s.changesOnly t [.regs, .sed, .tiers, .streams] ∧
      (∀ p ∈ t.sed.pins, p ∈ s.sed.pins ∧ ¬(p.owner = owner ∧ p.handle = h ∧ p.at_ + s.pinNs ≤ s.now))) ∧
  (∀ (s : State) (owner h domain version fmt epoch size : Nat) (pages : List (Nat × Nat)),
    Answers (.depositOffer owner h domain version fmt epoch size pages) s (fun t => s.changesOnly t (.sed :: .tiers :: .mem :: .ctxs :: .streams :: noteParts)) ∧
    (∀ x, s.flag .SED_STATUS_SHARD_ACTIVE = true → s.fenced = false → pages = [x] →
      ((s.sedEnt x.1).isSome = true → Answers (.depositOffer owner h domain version fmt epoch size pages) s fun t => t = s.canon) ∧
      (∀ u, s.sedEnt x.1 = none → s.offerPage owner h domain version fmt epoch size x.1 x.2 = some u →
        Answers (.depositOffer owner h domain version fmt epoch size pages) s fun t =>
          let v := if owner = s.self then u.depositCopy h x.1 else u
          t = (v.emit (.message "OFFER_ACCEPT" owner [h, x.1, ((u.sedEnt x.1).map (·.addr)).getD 0])).canon) ∧
      (s.offerPage owner h domain version fmt epoch size x.1 x.2 = none → Answers (.depositOffer owner h domain version fmt epoch size pages) s fun t =>
        t.out.head? = some (.message "OFFER_REFUSE" owner [h, x.1]) ∧ t.sed.entries = s.sed.entries))) ∧
  (∀ (s : State) (owner h page hash : Nat) (e : SedEnt), owner ≠ s.self → s.sedEnt hash = some e → s.firmwareBusy 6 hash = false →
    (e.state = 1 → e.parent ≠ hash → Answers (.depositLanded owner h page hash) s fun t =>
      t.sedEnt hash = some { e with state := 2, lastHit := s.now / 1000000000 % 2 ^ 32 } ∧ s.changesOnly t [.regs, .mem, .sed]) ∧
    (e.state ≠ 1 → Answers (.depositLanded owner h page hash) s fun t => t = s.canon)) ∧
  (∀ (s : State) (owner h page hash : Nat), s.firmwareBusy 6 hash = true → Answers (.depositLanded owner h page hash) s fun t => t = s.canon) ∧
  (∀ (s : State), let low := s.getF .SED_CTRL_LOW; let high := max low (s.getF .SED_CTRL_HIGH)
    (low ≤ s.extentFree → Answers .shardEvict s fun t => t = s.canon) ∧
    (s.flag .SED_STATUS_SHARD_ACTIVE = true → s.extentFree < low → Answers .shardEvict s fun t =>
      t = (s.evictTo high s.sed.entries.length).canon ∧ s.changesOnly t [.regs, .sed, .tiers, .streams] ∧
        ((s.sed.entries.map (·.hash)).Nodup → ∀ e ∈ s.sed.entries, e.pins ≠ 0 → ∃ x ∈ t.sed.entries, x.hash = e.hash ∧ x.pins = e.pins))) ∧
  (∀ (s : State) (n : Nat) (rot : Option Nat), s.flag .SED_STATUS_SHARD_ACTIVE = true → s.flag .SED_STATUS_REBUILD = false →
    s.flag .SED_STATUS_SWAP_PEND = false → 10 ≤ n → n ≤ 28 → Answers (.indexRebuild n rot) s fun t => t.flag .SED_STATUS_REBUILD = true ∧
      t.sed.otherLog2 = n ∧ t.sed.entries = s.sed.entries ∧ t.sed.newKey.map (·.domain) = rot ∧ s.changes t [Reg.SED_STATUS] [.sed]) ∧
  (∀ (s : State), s.flag .SED_STATUS_REBUILD = true → Answers .indexSwap s fun t =>
    t.sed.entries = s.swapped ∧ ((s.sed.entries.map (·.addr)).Nodup → ∀ e ∈ s.sed.entries, e.pins ≠ 0 → ∃ x ∈ t.sed.entries, x.addr = e.addr ∧ x.pins = e.pins) ∧ t.sed.other = s.sed.entries ∧
      t.getF .SED_CAP_BUCKETS_LOG2 = s.sed.otherLog2 % 2 ^ Fld.SED_CAP_BUCKETS_LOG2.len ∧ t.flag .SED_STATUS_REBUILD = false ∧
      t.flag .SED_STATUS_SWAP_PEND = true ∧ t.getF .SED_STATUS_GEN = (s.getF .SED_STATUS_GEN + 1) % 2 ∧
      (∀ k, s.sed.newKey = some k → k ∈ t.sed.keys) ∧ s.changesOnly t [.regs, .sed, .tiers, .out]) ∧
  (∀ (s : State) (a : Nat), s.sed.swapAt = some a → s.sed.mapAt = none → a + 4000 ≤ s.now → Answers .indexReclaim s fun t =>
    t.sed = { s.sed with other := [], swapAt := none } ∧ t.flag .SED_STATUS_SWAP_PEND = false ∧ s.changes t [Reg.SED_STATUS] [.sed]) ∧
  (∀ (s : State) (map : List Nat), map.length ≤ 256 → s.flag .SED_STATUS_MAP_SWAP_PEND = false → Answers (.shardMapSwap map) s fun t =>
    t.sed = { s.sed with oldMap := s.sed.map, map := map, mapAt := some s.now } ∧ t.flag .SED_STATUS_MAP_SWAP_PEND = true ∧
      t.getF .SED_STATUS_SHARDS = map.length % 2 ^ Fld.SED_STATUS_SHARDS.len ∧
      t.getF .SED_STATUS_MAP_GEN = (s.getF .SED_STATUS_MAP_GEN + 1) % 2 ∧ t.flag .SED_STATUS_SHARD_ACTIVE = map.contains s.self ∧ s.changes t [Reg.SED_STATUS, Reg.SED_CAP] [.sed])

/-- The owner of a lookup (R26, R273, R274, R277). LOOKUP_REPLY in time adds its hits in order and settles the lookup, or sends the next while every page hit; a late one is
counted and changes no request. LOOKUP_TIMEOUT settles it. SEDIMENT_COPY_LANDED ends the copy, whole or failed, or void where none landed, and at the shard releases the
pins. OFFER_TIMEOUT removes an entry that never landed, and a deposit that is over counts down and clears its page's XFER. -/
def Obligations.SedimentOwner : Prop :=
  (∀ (s : State) (h first i : Nat) (addrs : List Nat), s.findHandle h = some i → let r := s.req i
    let asked := min 256 ((s.entry i).a.promptLen / 256 - first); let n := min asked addrs.length
    ((r.lookup ≠ 1 ∨ r.lookupJob ≠ first ∨ r.lookupAt + 100000 < s.now) → Answers (.lookupReply h first addrs) s fun t =>
      t = ((s.bump .SED_LATE_COUNT).sedFault 7 0 h).canon ∧ t.reqs = s.reqs) ∧
    (r.lookup = 1 → r.lookupJob = first → s.now ≤ r.lookupAt + 100000 →
      let u := s.modReq i fun r => { r with hitExtents := r.hitExtents ++ addrs.take n, hitCount := first + n, lookup := 2 }
      (n < asked → Answers (.lookupReply h first addrs) s fun t => t = u.canon ∧
        t.req i = { r with hitExtents := r.hitExtents ++ addrs.take n, hitCount := first + n, lookup := 2 } ∧ s.changesOnly t [.reqs]) ∧
      (n = asked → Answers (.lookupReply h first addrs) s fun t => t = (u.sendLookup i (first + n)).canon ∧
        (t.req i).hitExtents = r.hitExtents ++ addrs.take n ∧ (t.req i).hitCount = first + n ∧ s.changesOnly t [.reqs, .out])) ∧
    (r.lookup = 1 → r.lookupAt + 100000 ≤ s.now → Answers (.lookupTimeout h) s fun t => t.req i = { r with lookup := 2 } ∧ s.changesOnly t [.reqs]) ∧
    ((r.lookup ≠ 1 ∨ s.now < r.lookupAt + 100000) → Answers (.lookupTimeout h) s fun t => t = s.canon)) ∧
  (∀ (s : State) (h first : Nat) (addrs : List Nat), s.findHandle h = none → Answers (.lookupReply h first addrs) s fun t =>
    t = ((s.bump .SED_LATE_COUNT).sedFault 7 0 h).canon ∧ t.reqs = s.reqs) ∧
  (∀ (s : State) (h i landed : Nat), s.findHandle h = some i → (s.entry i).a.copyIn = true → (s.req i).hitCount ≠ 0 → (s.entry i).a.state.final = false →
    (s.entry i).a.state ≠ .resuming → (landed = 0 ∨ s.firmwareBusy 5 (copyArg s.self h) = false) → let n := min landed (s.req i).hitCount
    Answers (.sedimentCopyLanded s.self h landed) s fun t => (t.entry i).a.copyIn = false ∧ (t.req i).landedHits = n ∧
      (n < (s.req i).hitCount → (t.req i).copyFail = true) ∧ (n = (s.req i).hitCount → (t.req i).landCopy = true) ∧
      s.changesOnly t (.sed :: .mem :: faultParts)) ∧
  (∀ (s : State) (owner h landed : Nat), owner ≠ s.self → (landed = 0 ∨ s.firmwareBusy 5 (copyArg owner h) = false) →
    Answers (.sedimentCopyLanded owner h landed) s fun t =>
      (∀ p ∈ t.sed.pins, ¬(p.owner = owner ∧ p.handle = h)) ∧ t.firmwareBusy 5 (copyArg owner h) = false ∧ s.changesOnly t [.regs, .sed, .tiers, .streams]) ∧
  (∀ (s : State) (owner h landed : Nat), landed ≠ 0 → s.firmwareBusy 5 (copyArg owner h) = true →
    Answers (.sedimentCopyLanded owner h landed) s fun t => t = s.canon) ∧
  (∀ (s : State) (owner h page hash : Nat) (e : SedEnt), owner ≠ s.self → s.sedEnt hash = some e → e.state = 1 → e.pins = 0 →
    e.since + atLeast1 (s.getF .SED_CTRL_OFFER_MS) * 1000000 ≤ s.now → Answers (.offerTimeout owner h page hash) s fun t =>
      t.sedEnt hash = none ∧ s.changesOnly t [.regs, .sed, .tiers, .streams]) ∧
  (∀ (s : State) (h page hash i : Nat), s.sedEnt hash = none → s.firmwareBusy 6 hash = false → s.findHandle h = some i → (s.req i).deposits ≠ 0 →
    ∀ x ∈ [Instr.offerTimeout s.self h page hash, .depositLanded s.self h page hash], Answers x s fun t =>
      t.req i = { s.req i with deposits := (s.req i).deposits - 1 } ∧ s.changesOnly t [.reqs, .tiers, .out])

/-! ### The host interface (chapter 15) -/

/-- The statuses that a ring keeps for marks and AFTER_PREV once a command of it completes (R447, R448). -/
def ringStatuses (s : State) (c : Cmd) (st : Nat) : List (Nat × Nat) :=
  ((c.seq, st) :: (s.ring c.ring).completed).filter fun p => (s.ring c.ring).remembers (s.getF .RING_SEQ_FETCHED (ringOff c.ring)) p.1

/-- Rings (R439 to R441, R444). A doorbell of a ring's owner moves an SQ's tail forward, or frees records of a CQ; one that moves back, leaves the ring or passes
the records held is a fault of the ring, code 2. Anyone else's access lies in a hole; a ring that is not ACTIVE, or a module not READY, gives ACCESS_STATE. RING_ENABLE of a
sound frame zeroes indices and sequence, and leaves an unsound one DISABLED with HALT_CODE 5; RING_DISABLE aborts what has not launched, unless an ACTIVE ring is still named.
MSI_X_INTERRUPT raises the vector once ITR_US has passed. -/
def Obligations.Rings : Prop :=
  (∀ (s : State) (m : Master) (r v : Nat), s.reached m = true → let d := ringOff r; let n := s.ringSlots r; let head := s.getF .RING_IDX_HEAD d; let tail := s.getF .RING_IDX_TAIL d
    (s.ownsRing m r = false → ∀ x ∈ [(Instr.sqDoorbell m r v, Reg.RING_DB), (.cqDoorbell m r v, Reg.RING_DB), (.ringEnable m r, Reg.RING_CTRL), (.ringDisable m r, Reg.RING_CTRL)],
      Answers x.1 s fun t => t = (s.notice 0x0C nAccessHole (x.2 + d)).canon ∧ s.changesOnly t noteParts) ∧
    (s.ownsRing m r = true → s.getF .HOSTVI_DEV_STATUS_READY = 0 → ∀ x ∈ [(Instr.sqDoorbell m r v, Reg.RING_DB), (.cqDoorbell m r v, Reg.RING_DB),
      (.ringEnable m r, Reg.RING_CTRL), (.ringDisable m r, Reg.RING_CTRL)], Answers x.1 s fun t =>
        t = (s.notice 0x0C nAccessState (x.2 + d)).canon ∧ s.changesOnly t noteParts) ∧
    (s.ownsRing m r = true → s.getF .HOSTVI_DEV_STATUS_READY ≠ 0 →
      (s.ringState r ≠ 1 → ∀ x ∈ [Instr.sqDoorbell m r v, .cqDoorbell m r v], Answers x s fun t =>
        t = (s.notice 0x0C nAccessState (Reg.RING_DB + d)).canon ∧ s.changesOnly t noteParts) ∧
      (s.ringState r = 1 →
        (v < n → (tail + n - head) % n ≤ (v + n - head) % n → Answers (.sqDoorbell m r v) s fun t =>
          t.getF .RING_IDX_TAIL d = v % 2 ^ Fld.RING_IDX_TAIL.len ∧ s.changes t [Reg.RING_IDX + d] []) ∧
        (v ≠ tail → (n ≤ v ∨ (v + n - head) % n < (tail + n - head) % n) → Answers (.sqDoorbell m r v) s fun t => t = (s.ringFault r 1 2).canon) ∧
        (v < n → (v + n - head) % n ≤ s.ringHeld r → (s.ring r).kept = [] → Answers (.cqDoorbell m r v) s fun t =>
          t.getF .RING_IDX_HEAD d = v % 2 ^ Fld.RING_IDX_HEAD.len ∧ s.changes t [Reg.RING_IDX + d] []) ∧
        (v ≠ head → v < n → (v + n - head) % n ≤ s.ringHeld r → Answers (.cqDoorbell m r v) s fun t =>
          t = ((s.setF .RING_IDX_HEAD v d).flushKept r).canon ∧ s.changesOnly t [.regs, .rings, .out]) ∧
        (v ≠ head → (n ≤ v ∨ s.ringHeld r < (v + n - head) % n) → Answers (.cqDoorbell m r v) s fun t => t = (s.ringFault r 1 2).canon)) ∧
      (s.ringState r ≠ 0 → Answers (.ringEnable m r) s fun t => t = s.canon) ∧
      (s.ringState r = 0 → s.ringCfgOk r m.vi = false → Answers (.ringEnable m r) s fun t =>
        t.getF .RING_STATUS_HALT_CODE d = 5 ∧ t.ringState r = 0 ∧ s.changes t [Reg.RING_STATUS + d] []) ∧
      (s.ringState r = 0 → s.ringCfgOk r m.vi = true → (s.ring r).kept = [] → Answers (.ringEnable m r) s fun t =>
        t.getF .RING_CTRL_ENABLE d = 1 ∧ t.ringState r = 1 ∧ t.getF .RING_STATUS_HALT_CODE d = 0 ∧ t.getF .RING_IDX_HEAD d = 0 ∧
          t.getF .RING_IDX_TAIL d = 0 ∧ t.getF .RING_SEQ_FETCHED d = 0 ∧ t.ring r = { s.ring r with
            waiting := [], completed := [], fetchHead := 0, newSince := false, lastIrq := 0, enabledOnce := true,
            session := if (s.ring r).enabledOnce then (s.ring r).session + 1 else 0 } ∧
          s.changes t [Reg.RING_CTRL + d, Reg.RING_STATUS + d, Reg.RING_IDX + d, Reg.RING_SEQ + d] [.rings]) ∧
      (s.ringState r = 0 → Answers (.ringDisable m r) s fun t => t.getF .RING_CTRL_ENABLE d = 0 ∧ s.changes t [Reg.RING_CTRL + d] []) ∧
      (s.ringState r = 1 → s.ringNamed r = true → Answers (.ringDisable m r) s fun t => t = (s.notice 0x0C nAccessState (Reg.RING_CTRL + d)).canon) ∧
      (s.ringState r ≠ 0 → (s.ringState r = 1 → s.ringNamed r = false) → (∀ c ∈ (s.ring r).waiting, c.ring = r) → Answers (.ringDisable m r) s fun t =>
        t.ringState r = 0 ∧ t.getF .RING_CTRL_ENABLE d = 0 ∧ (t.ring r).waiting = [] ∧ s.changesOnly t [.regs, .rings, .out, .streams]))) ∧
  (∀ (s : State) (r : Nat), let g := s.ring r
    let due := g.newSince && s.ringState r == 1 && decide (g.lastIrq + s.getF .RING_CFG_ITR_US (ringOff r) * 1000 ≤ s.now)
    (due = true → Answers (.msiXInterrupt r) s fun t => t.out = .msix ((s.ownerVi r).getD 0) (s.getF .RING_CFG_VECTOR (ringOff r)) :: s.out ∧
      t.ring r = { g with lastIrq := s.now, newSince := false } ∧ s.changesOnly t [.rings, .out]) ∧
    (due = false → Answers (.msiXInterrupt r) s fun t => t = s.canon))

/-- Doorbells (R441), by a ring's owner whose accesses reach a module that is READY (R433, R435): on an SQ the new tail, on a CQ or TQ the new head, which frees records; one equal to the current index has no effect; an index of 2^LOG2 or more, a tail
that leaves fewer commands outstanding, a head that passes the tail halt the ring with DB_RANGE (2), a fault of severity 3; one to a ring that is DISABLED or HALTED is discarded with a notice. -/
def Obligations.Doorbells : Prop :=
  ∀ (s : State) (m : Master) (r v : Nat), s.reached m = true → s.ownsRing m r = true → s.getF .HOSTVI_DEV_STATUS_READY ≠ 0 →
    let d := ringOff r; let n := s.ringSlots r; let head := s.getF .RING_IDX_HEAD d; let tail := s.getF .RING_IDX_TAIL d; let ahead := (v + n - head) % n
    let halts := fun (t : State) => t.ringState r = 2 ∧ t.getF .RING_STATUS_HALT_CODE d = 2 ∧ (s.flag .RING_CFG_CTX_BOUND d = false →
      t.getF .ERR_RAISED_S_COUNT (8 * 3) = (s.getF .ERR_RAISED_S_COUNT (8 * 3) + 1) % 2 ^ Fld.ERR_RAISED_S_COUNT.len) ∧ s.changesOnly t (.mem :: .seals :: faultParts)
    (s.ringState r = 1 →
      (v = tail → Answers (.sqDoorbell m r v) s fun t => t = s.canon) ∧ (v = head → Answers (.cqDoorbell m r v) s fun t => t = s.canon) ∧
      (v ≠ tail → v < n → (tail + n - head) % n ≤ ahead → Answers (.sqDoorbell m r v) s fun t => t.getF .RING_IDX_TAIL d = v % 2 ^ Fld.RING_IDX_TAIL.len ∧ s.changes t [Reg.RING_IDX + d] []) ∧
      (v ≠ head → v < n → ahead ≤ s.ringHeld r → Answers (.cqDoorbell m r v) s fun t => t.getF .RING_IDX_HEAD d = v % 2 ^ Fld.RING_IDX_HEAD.len ∧ s.changesOnly t [.regs, .rings, .out] ∧
        ((s.ring r).kept = [] → s.changes t [Reg.RING_IDX + d] [])) ∧
      (s.fenced = false → s.err.handling = [] →
        (v ≠ tail → (n ≤ v ∨ ahead < (tail + n - head) % n) → Answers (.sqDoorbell m r v) s halts) ∧
        (v ≠ head → (n ≤ v ∨ s.ringHeld r < ahead) → Answers (.cqDoorbell m r v) s halts))) ∧
    (s.ringState r ≠ 1 → ∀ x ∈ [Instr.sqDoorbell m r v, .cqDoorbell m r v], Answers x s fun t => t = (s.notice 0x0C nAccessState (Reg.RING_DB + d)).canon ∧ s.changesOnly t noteParts ∧
      (s.fenced = false → t.getF .ERR_RAISED_S_COUNT = (s.getF .ERR_RAISED_S_COUNT + 1) % 2 ^ Fld.ERR_RAISED_S_COUNT.len))

/-- From descriptor to launch (R442, R443, R447 to R449). DESCRIPTOR_FETCH takes a descriptor whose sequence is the ring's next and for which its CQ has room: it waits, or
is completed with the first header check that fails; a wrong sequence is a fault of the ring, code 1. COMMAND_LAUNCH takes the oldest command once its marks and its
predecessor are met, ends it 0xE4 where one failed, and leaves it waiting otherwise. DEP_TIMEOUT ends a wait on marks of more than DEP_MS with 0xE5. A command that completes leaves its
ring's lists, its status is kept for marks, and its record goes to the CQ that holds its reservation, or is kept while that has no room. -/
def Obligations.FetchAndLaunch : Prop :=
  (∀ (s : State) (r : Nat) (desc : Descriptor), let d := ringOff r; let seq := s.getF .RING_SEQ_FETCHED d; let head := s.getF .RING_IDX_HEAD d
    let cq := s.getF .RING_CFG_CQ d; let q := (s.ring r).session * 2 ^ 48 + seq; let c := mkCmd r q cq desc; let i := Instr.descriptorFetch r [desc]
    let blocked := s.fenced || s.stalled || s.ringState r != 1 || s.getF .RING_CFG_TYPE d != 0 || s.getF .HOSTVI_DEV_STATUS_READY == 0
    let room := head != s.getF .RING_IDX_TAIL d && s.ringState cq == 1 && decide (reserveFor c.opcode ≤ s.cqRoom cq)
    (blocked = true → ∀ ds, Answers (.descriptorFetch r ds) s fun t => t = s.canon) ∧
    (blocked = false → room = false → Answers i s fun t => t = s.canon) ∧
    (blocked = false → room = true → c.fld 6 0 16 ≠ seq % 65536 → (s.ringFault r 0 1).getF .RING_SEQ_FETCHED d = seq → Answers i s fun t =>
      t = (s.ringFault r 0 1).canon) ∧
    (blocked = false → room = true → c.fld 6 0 16 = seq % 65536 → cq ≠ r →
      (s.headerCheck c ((s.ownerVi r).getD 0) = none → Answers i s fun t =>
        t.getF .RING_SEQ_FETCHED d = (seq + 1) % 2 ^ Fld.RING_SEQ_FETCHED.len ∧ (t.ring r).waiting = (s.ring r).waiting ++ [c] ∧
          t.getF .RING_IDX_HEAD d = (head + 1) % s.ringSlots r % 2 ^ Fld.RING_IDX_HEAD.len ∧
          (t.ring cq).reserved = (s.ring cq).reserved + reserveFor c.opcode ∧ s.changesOnly t [.regs, .rings, .out, .streams] ∧
          (c.opcode ≠ 0x23 → s.changes t [Reg.RING_SEQ + d, Reg.RING_IDX + d] [.rings, .out])) ∧
      (∀ st, s.headerCheck c ((s.ownerVi r).getD 0) = some st → Answers i s fun t =>
        t.getF .RING_SEQ_FETCHED d = (seq + 1) % 2 ^ Fld.RING_SEQ_FETCHED.len ∧ (q, st) ∈ (t.ring r).completed ∧
          (∀ x ∈ (t.ring r).waiting, x ∈ (s.ring r).waiting) ∧ s.changesOnly t [.regs, .rings, .out]))) ∧
  (∀ (s : State) (r : Nat), let g := s.ring r
    (g.waiting = [] → ∀ x ∈ [Instr.commandLaunch r, .depTimeout r], Answers x s fun t => t = s.canon) ∧
    (∀ c rest, g.waiting = c :: rest → let st := c.marks.map s.markState; let held := s.fenced || (s.getF .PWRCLK_STATE_MSTATE == 1 && waitsInM1 c.opcode)
      (held = true → Answers (.commandLaunch r) s fun t => t = s.canon) ∧
      (held = false → (s.prevState c = 2 ∨ 2 ∈ st) → Answers (.commandLaunch r) s fun t =>
        (t.ring c.ring).completed = ringStatuses s c 0xE4 ∧ s.changesOnly t [.regs, .rings, .out, .streams]) ∧
      (held = false → s.prevState c ≠ 2 → 2 ∉ st → 1 ∈ st → Answers (.commandLaunch r) s fun t =>
        t.ring r = { g with waiting := { c with waitSince := c.waitSince <|> some s.now } :: rest } ∧ s.changesOnly t [.rings]) ∧
      (held = false → s.prevState c = 1 → (∀ k ∈ st, k = 0) → Answers (.commandLaunch r) s fun t =>
        t.ring r = { g with waiting := { c with waitSince := none } :: rest } ∧ s.changesOnly t [.rings]) ∧
      (held = false → s.prevState c = 0 → (∀ k ∈ st, k = 0) → Answers (.commandLaunch r) s fun t =>
        t.ring r = { g with waiting := rest, outstanding := g.outstanding ++ [c] } ∧ s.changesOnly t [.rings]) ∧
      (∀ w, c.waitSince = some w → w + atLeast1 (s.getF .HOSTVI_CTRL_DEP_MS) * 1000000 < s.now → 1 ∈ st → Answers (.depTimeout r) s fun t =>
        (t.ring c.ring).completed = ringStatuses s c 0xE5 ∧ s.changesOnly t [.regs, .rings, .out, .streams]) ∧
      ((1 ∉ st ∨ ∀ w, c.waitSince = some w → s.now ≤ w + atLeast1 (s.getF .HOSTVI_CTRL_DEP_MS) * 1000000) → Answers (.depTimeout r) s fun t => t = s.canon))) ∧
  (∀ (s : State) (r q : Nat) (c : Cmd), s.launched r q 0x00 = some c → let cq := c.cq
    let x : ComplRec := { kind := 1, status := 0, sq := c.ring, sqHead := (s.ring c.ring).fetchHead, opcode := c.opcode, tag := c.tag, handle := 0, endCode := 0,
                          ctx := 0, job := c.recordJob, value := 0 }
    Answers (.cmdNop r q) s fun t => t = (s.complete c 0 0 0).canon ∧ (t.ring c.ring).completed = ringStatuses s c 0 ∧
      (t.ring c.ring).outstanding = (s.ring c.ring).outstanding.filter (fun k => k.seq != c.seq) ∧ (t.ring cq).reserved = (s.ring cq).reserved - 1 ∧
      s.changesOnly t [.regs, .rings, .out] ∧
      (s.fenced = false → s.ringState cq = 1 → 0 < s.ringFree cq → (∀ k ∈ (s.ring cq).kept, k.isNotice = true) → .record cq x ∈ t.out ∧
        t.getF .RING_IDX_TAIL (ringOff cq) = (s.getF .RING_IDX_TAIL (ringOff cq) + 1) % s.ringSlots cq % 2 ^ Fld.RING_IDX_TAIL.len) ∧
      (s.fenced = false → (s.ringState cq ≠ 1 ∨ s.ringFree cq = 0 ∨ ∃ k ∈ (s.ring cq).kept, k.isNotice = false) → (t.ring cq).kept = (s.ring cq).kept ++ [x] ∧ ∀ y, .record cq y ∈ t.out → .record cq y ∈ s.out))

/-- Contexts and interfaces by command (R436, R455 to R457, R459). CTX_CREATE takes the lowest identifier that is free, not in SCRUB, and not taken on the slice's other modules
where it spans them; it, CTX_SET, CTX_ATTACH and VI_SETUP complete with the code of the check that fails, or change exactly what they name. CTX_DESTROY tears the context down:
it is no longer valid and scrubs while a frame of it is in SCRUB, its frames wait to be scrubbed, its planes, versions, rounds and collectives are gone, its requests ended and its bound rings halted. Which rings keep VI_SETUP from taking them, and the order of a disable's acts, are the model's choice (log 99). -/
def Obligations.ContextCommands : Prop :=
  (∀ (s : State) (r q : Nat) (busy : List Nat) (c : Cmd), s.launched r q 0x10 = some c → let vi := (s.ownerVi r).getD 0; let i := Instr.ctxCreate r q busy
    let weight := c.fld 32 0 16; let prio := c.fld 34 0 3; let span := natBit (c.fld 35 0 8) 0; let slice := c.fld 36 0 12; let cq := c.fld 38 0 13
    let qt := c.fld 40 0 20; let qs := c.fld 44 0 25; let qb := c.fld 48 0 28
    let bad := (span && slice == 0) || (slice != 0 && (slice != (s.vi vi).slice || !(s.sliceOf slice).contains s.self))
    let isFree := fun k => !(s.ctx k).valid && !(s.ctx k).scrubbing && !(span && busy.contains k)
    (∀ st, s.noticeCheck vi cq = some st → Answers i s fun t => t = (s.complete c st 0 0).canon) ∧
    (s.noticeCheck vi cq = none → bad = true → Answers i s fun t => t = (s.complete c 4 0 0).canon) ∧
    (s.noticeCheck vi cq = none → bad = false → s.viAllows vi 256 weight prio qt qs qb = false → Answers i s fun t => t = (s.complete c 5 0 0).canon) ∧
    (s.noticeCheck vi cq = none → bad = false → s.viAllows vi 256 weight prio qt qs qb = true →
      ((∀ k, k < 256 → isFree k = false) → Answers i s fun t => t = (s.complete c 1 0 0).canon) ∧
      ((s.vi vi).ctxMax ≤ s.ctxUsed vi → Answers i s fun t => t = (s.complete c 1 0 0).canon) ∧
      (∀ k, k < 256 → isFree k = true → (∀ j, j < k → isFree j = false) → s.ctxUsed vi < (s.vi vi).ctxMax → Answers i s fun t =>
        t.ctx k = { valid := true, span := span, vi := vi, held := true, priority := prio, weight := weight, noticeCq := cq, master := s.self, slice := slice } ∧
          t.flag .TIERS_CTX_CTRL_VALID (inst k) = true ∧ t.quota k 0 = qt % 2 ^ Fld.TIERS_CTX_QUOTA_TS_UNITS.len ∧
          t.quota k 1 = qs % 2 ^ Fld.TIERS_CTX_QUOTA_SS_UNITS.len ∧ t.quota k 2 = qb % 2 ^ Fld.TIERS_CTX_QUOTA_BR_UNITS.len ∧
          (∀ tier, tier < 3 → t.usage k tier = 0) ∧ (∀ j, j ≠ k → t.ctx j = s.ctx j) ∧
          (t.ring c.ring).completed = ringStatuses s c 0 ∧ s.changesOnly t [.regs, .ctxs, .rings, .out]))) ∧
  (∀ (s : State) (r q : Nat) (c : Cmd), s.launched r q 0x11 = some c → let k := c.ctx
    ((s.ctx k).valid = false → Answers (.ctxDestroy r q) s fun t => t = (s.complete c 0xE3 0 0).canon) ∧
    ((s.ctx k).valid = true → Answers (.ctxDestroy r q) s fun t => t = (s.teardown k 0 (some c) true).canon ∧ (t.ctx k).valid = false ∧ (t.ctx k).scrubbing = t.inScrub k ∧
      (t.ctx k).currentRig = none ∧ (t.ctx k).held = ((s.ctx k).held && t.inScrub k) ∧ t.flag .TIERS_CTX_CTRL_VALID (inst k) = false ∧ (∀ p ∈ t.planes, p.2.valid = true → p.2.ctx ≠ k) ∧
      (∀ w ∈ t.waves, w.ctx ≠ k) ∧ (∀ x ∈ t.coll.insts, x.ctx ≠ k) ∧ (∀ x ∈ t.scat.rounds, x.ctx ≠ k) ∧ (∀ x ∈ t.streams.insts, x.ctx = k → x.void = true) ∧
      (∀ f ∈ t.tiers.frames, f.2.ctx = k → f.2.shared = false → f.2.kind ≠ 1 ∧ f.2.kind ≠ 2) ∧ (∀ x ∈ t.tiers.tlb, x.ctx ≠ k) ∧
      s.changesOnly t [.regs, .err, .out, .units, .planes, .inPorts, .outPorts, .tiers, .streams, .twin, .rigs, .waves, .ctxs, .rings, .entries, .wpkg, .scat, .fab, .coll, .reqs])) ∧
  (∀ (s : State) (r q : Nat) (c : Cmd), s.launched r q 0x12 = some c → let vi := (s.ownerVi r).getD 0; let k := c.ctx
    let pick := fun (i new old : Nat) => if natBit (c.fld 32 0 5) i then new else old
    let weight := pick 0 (c.fld 52 0 16) (s.ctx k).weight; let prio := pick 1 (c.fld 34 0 3) (s.ctx k).priority
    let qt := pick 2 (c.fld 40 0 20) (s.quota k 0); let qs := pick 3 (c.fld 44 0 25) (s.quota k 1); let qb := pick 4 (c.fld 48 0 28) (s.quota k 2)
    (s.viAllows vi k weight prio qt qs qb = false → Answers (.ctxSet r q) s fun t => t = (s.complete c 5 0 0).canon) ∧
    (s.viAllows vi k weight prio qt qs qb = true → Answers (.ctxSet r q) s fun t => t.ctx k = { s.ctx k with weight := weight, priority := prio } ∧
      t.quota k 0 = qt % 2 ^ Fld.TIERS_CTX_QUOTA_TS_UNITS.len ∧ t.quota k 1 = qs % 2 ^ Fld.TIERS_CTX_QUOTA_SS_UNITS.len ∧
      t.quota k 2 = qb % 2 ^ Fld.TIERS_CTX_QUOTA_BR_UNITS.len ∧ (t.ring c.ring).completed = ringStatuses s c 0 ∧
      s.changesOnly t [.regs, .ctxs, .rings, .out])) ∧
  (∀ (s : State) (r q : Nat) (c : Cmd), s.launched r q 0x13 = some c → let vi := (s.ownerVi r).getD 0; let k := c.fld 32 0 8; let cq := c.fld 36 0 13; let x := s.ctx k
    let no := !x.valid || !x.span || x.master != c.fld 34 0 15 || x.slice != (s.vi vi).slice || x.held
    (∀ st, s.noticeCheck vi cq = some st → Answers (.ctxAttach r q) s fun t => t = (s.complete c st 0 0).canon) ∧
    (s.noticeCheck vi cq = none → no = true → Answers (.ctxAttach r q) s fun t => t = (s.complete c 0x0B 0 0).canon) ∧
    (s.noticeCheck vi cq = none → no = false → (s.vi vi).ctxMax ≤ s.ctxUsed vi → Answers (.ctxAttach r q) s fun t => t = (s.complete c 1 0 0).canon) ∧
    (s.noticeCheck vi cq = none → no = false → s.ctxUsed vi < (s.vi vi).ctxMax → Answers (.ctxAttach r q) s fun t =>
      t.ctx k = { x with held := true, vi := vi, noticeCq := cq } ∧ (t.ring c.ring).completed = ringStatuses s c 0 ∧
        s.changesOnly t [.regs, .ctxs, .rings, .out])) ∧
  (∀ (s : State) (r q : Nat) (c : Cmd), s.launched r q 0x70 = some c → let n := c.fld 32 0 8; let en := c.fld 33 0 1; let first := c.fld 34 0 13; let count := c.fld 36 0 14
    let has := fun (v : ViSt) k => v.enabled && decide (v.ringFirst ≤ k) && decide (k < v.ringFirst + v.ringCount)
    let moves := ∃ k, k < 8192 ∧ has (s.vi n) k ≠ (decide (first ≤ k) && decide (k < first + count)) ∧ s.ringState k ≠ 0 ∧
      (has (s.vi n) k = true ∨ s.ringState k ≠ 2 ∨ s.getF .RING_STATUS_HALT_CODE (ringOff k) ≠ 6)
    let meets := ∃ k, k < 256 ∧ k ≠ n ∧ (s.vi k).enabled = true ∧ rangesMeet first count (s.vi k).ringFirst (s.vi k).ringCount = true
    (en = 1 → moves → Answers (.viSetup r q) s fun t => t = (s.complete c 0xE7 0 0).canon) ∧
    (en = 1 → ¬moves → meets → Answers (.viSetup r q) s fun t => t = (s.complete c 8 0 0).canon) ∧
    (en = 1 → ¬moves → ¬meets → Answers (.viSetup r q) s fun t => t.vi n = { s.vi n with
          enabled := true, slice := c.fld 42 0 12, ringFirst := first, ringCount := count, ctxMax := c.fld 44 0 9, prioMax := c.fld 39 0 3,
          tsMax := some (c.fld 48 0 32), ssMax := some (c.fld 52 0 32), brMax := some (c.fld 56 0 32), weightMax := some (c.fld 60 0 32) } ∧
        t.getF .SL_VI_QUOTA_ENTRIES (inst n) = c.fld 40 0 15 % 2 ^ Fld.SL_VI_QUOTA_ENTRIES.len ∧
        (t.ring c.ring).completed = ringStatuses s c 0 ∧ s.changesOnly t [.regs, .vis, .rings, .out]) ∧
    (en = 0 → Answers (.viSetup r q) s fun t => t = ((s.disableVi n false).complete c 0 0 0).canon))

/-- Memory commands (R434, R454). MAP, UNMAP, MAP_SHARED and COPY complete 0x03 on a range they may not touch and change no mapping; MAP and MAP_SHARED complete 0x02 where
memory or quota does not last. UNMAP takes the leaf away and completes only when its shootdown has drained. A COPY to the host sends its bytes line by line, a poisoned line marked, and completes, 0x0A where one is
poisoned; one from the host asks for them and completes when they have landed, or 0x09 where they do not come, its lines poisoned. -/
def Obligations.MemoryCommands : Prop :=
  (∀ (s : State) (r q : Nat) (c : Cmd), s.launched r q 0x14 = some c → let va := c.fld 32 0 56; let n := c.fld 40 0 32; let big := c.fld 44 0 1 == 1; let size := pageBytes big
    let bad := va % size ≠ 0 ∨ ∃ i, i < n ∧ (firmwareRange (va + i * size) = true ∨ 2 ^ 56 ≤ va + i * size ∨ s.taken c.ctx (va + i * size) big = true)
    let go := s.mapPages c.ctx (c.fld 44 1 2) (c.fld 44 3 2) (c.fld 44 5 1 == 1) (c.fld 44 6 1 == 1) big ((List.range n).map fun i => va + i * size)
    (bad → Answers (.map r q) s fun t => t = (s.complete c 3 0 0).canon) ∧
    (∀ e, ¬bad → go = .error e → Answers (.map r q) s fun t => t = (s.complete c 2 0 0).canon) ∧
    (∀ u, ¬bad → go = .ok u → Answers (.map r q) s fun t => t = (u.complete c 0 0 0).canon ∧
      (t.ring c.ring).completed = ringStatuses s c 0 ∧ s.changesOnly t [.regs, .tiers, .mem, .rings, .out])) ∧
  (∀ (s : State) (r q : Nat) (c : Cmd), s.launched r q 0x15 = some c → let va := c.fld 32 0 56; let n := c.fld 40 0 32; let big := c.fld 44 0 1 == 1; let size := pageBytes big
    let leaf := fun i => s.findLeaf c.ctx (va + i * size)
    let bad := va % size ≠ 0 ∨ ∃ i, i < n ∧ (firmwareRange (va + i * size) = true ∨ 2 ^ 56 ≤ va + i * size ∨ s.inWindow c.ctx (va + i * size) = true ∨ ∀ x, leaf i = some x → x.2.big ≠ big)
    (s.unmapping r q = true → Answers (.unmap r q) s fun t => t = s.canon) ∧ (s.unmapping r q = false →
    (bad → Answers (.unmap r q) s fun t => t = (s.complete c 3 0 0).canon) ∧
    (∀ a p, ¬bad → n = 1 → leaf 0 = some (a, p) → Answers (.unmap r q) s fun t => t.pteAt a = {} ∧ t.rings = s.rings ∧
      (∃ fs, t.tiers.shoot = s.tiers.shoot ++ [{ ctx := c.ctx, scope := 0, vpage := va / 65536, slice := (s.ctx c.ctx).span, why := 1, arg := 0, frames := fs,
                                                 cmd := some (r, q), doneAt := none }]) ∧
      (∀ b, b ≠ a → t.pteAt b = s.pteAt b) ∧ s.changesOnly t [.regs, .tiers, .out]) ∧
    (¬bad → Answers (.unmap r q) s fun t => t.rings = s.rings ∧ (∀ i, i < n → ∀ x, leaf i = some x → t.pteAt x.1 = {}) ∧ s.changesOnly t [.regs, .tiers, .out]))) ∧
  (∀ (s : State) (r q : Nat) (c : Cmd), s.launched r q 0x16 = some c → let va := c.fld 32 0 56; let sva := c.fld 40 0 56; let n := c.fld 48 0 32; let src := c.fld 52 0 8
    let big := c.fld 53 0 1 == 1; let size := pageBytes big; let leaf := fun i => s.findLeaf src (sva + i * size)
    let bad := va % size ≠ 0 ∨ sva % size ≠ 0 ∨ s.ctxOf src ((s.ownerVi r).getD 0) = false ∨ firmwareRange sva = true ∨ 2 ^ 56 < sva + n * size ∨
      ∃ i, i < n ∧ (firmwareRange (va + i * size) = true ∨ 2 ^ 56 ≤ va + i * size ∨ s.taken c.ctx (va + i * size) big = true ∨
        ∀ x, leaf i = some x → x.2.big ≠ big ∨ x.2.read = false ∨ s.inWindow src x.2.va = true)
    (bad → Answers (.mapShared r q) s fun t => t = (s.complete c 3 0 0).canon) ∧
    (∀ a p, ¬bad → n = 1 → leaf 0 = some (a, p) → p.addr / 2 ^ 45 ≠ s.self →
      let go := s.installLeaf c.ctx va { p with read := true, write := false, shared := true, ctx := c.ctx, migrating := false, place := 2 } big
      (go = none → Answers (.mapShared r q) s fun t => t = (s.complete c 2 0 0).canon) ∧
      (∀ u, go = some u → Answers (.mapShared r q) s fun t => t = (u.complete c 0 0 0).canon)) ∧
    (∀ a p, ¬bad → n = 1 → leaf 0 = some (a, p) → p.addr / 2 ^ 45 = s.self → p.big = false →
      let f := p.addr % 2 ^ 45 / 65536; let u := s.setTag f { s.tag f with shared := true }
      let go := u.installLeaf c.ctx va { p with read := true, write := false, shared := true, ctx := c.ctx, migrating := false, place := 2 } big
      (go = none → Answers (.mapShared r q) s fun t => t = (s.complete c 2 0 0).canon) ∧
      (∀ v, go = some v → Answers (.mapShared r q) s fun t => t = (v.complete c 0 0 0).canon ∧ s.changesOnly t [.regs, .tiers, .mem, .rings, .out]))) ∧
  (∀ (s : State) (r q : Nat) (c : Cmd), s.launched r q 0x01 = some c → let host := c.fld 32 0 64; let va := c.fld 40 0 56; let n := c.fld 48 0 32
    let bad := 2 ^ 56 < va + n ∨ s.mapped c.ctx va n (c.fld 40 63 1 != 1) = false; let k := c.fld 40 63 1
    (bad → Answers (.copy r q) s fun t => t = (s.complete c 3 0 0).canon) ∧
    (∀ bs p, ¬bad → k = 1 → s.readVa c.ctx va n = some (bs, p) → Answers (.copy r q) s fun t =>
      t = ((s.copyOut c.ctx va host n).complete c (if p then 0x0A else 0) n 0).canon ∧ s.changesOnly t [.regs, .rings, .out] ∧
      ∀ x ∈ linePieces va n, ∀ l b, s.readVa c.ctx (va + x.1) x.2 = some (l, b) → .hostData (host + x.1) l b ∈ t.out) ∧
    (¬bad → k = 0 → Answers (.copy r q) s fun t => t.out = .host false host n :: s.out ∧ s.changesOnly t [.out]) ∧
    (∀ bs, k = 0 → Answers (.hostReadCompletion r q false true bs) s fun t => let u := s.writeVa c.ctx va (bs.take n)
      t = (u.complete c 0 n 0).canon ∧ (t.ring c.ring).completed = ringStatuses u c 0 ∧ s.changesOnly t (.mem :: faultParts)) ∧
    (∀ bs, k = 0 → Answers (.hostReadCompletion r q false false bs) s fun t => natBit (t.getF .HOSTVI_ERR_FLAGS) 2 = true ∧
      (t.ring c.ring).completed = ringStatuses (s.poisonVa c.ctx va n) c 9 ∧ s.changesOnly t (.mem :: faultParts) ∧
      (∀ p e big, (va + n + 63) / 64 - va / 64 = 1 → s.walk c.ctx (va / 64 * 64) true = .leaf p e big → p.migrating = false →
        let a := p.addr + va / 64 * 64 % pageBytes big
        a / 2 ^ 45 = s.self → s.portDead (a % 2 ^ 45) = false → s.tagCheck c.ctx (a % 2 ^ 45) p.gen true = none →
          t.poisonAt (a % 2 ^ 45) = true ∧ s.changesOnly t [.regs, .tiers, .mem, .rings, .out]))) ∧
  (∀ (s : State) (r q : Nat) (bs : List Byte),
    (s.ringState r = 1 → Answers (.hostReadCompletion r q true false bs) s fun t => t = (s.ringFault r 2 3).canon) ∧
    Answers (.hostReadCompletion r q true true bs) s fun t => t = (s.descFetch r ((List.range (bs.length / 64)).map fun i =>
      (List.range 8).map fun w => BitVec.ofNat 64 (leNat ((bs.drop (64 * i + 8 * w)).take 8)))).canon)

/-- The host link and functions (R431 to R437, R459). CONFIG_REQUEST is answered once boot stage B3 has ended, with retry status before; the physical function's may set VF Enable,
and a virtual function that is not enabled answers nothing, nor does anything while PERST_N is held; no link trains then. An interface that is reset tears its contexts down and is disabled: one by VF_FLR, every VF by VF_ENABLE_CLEAR,
every interface by PF_FLR (which enables VI 0 again while the link is up) and DL_DOWN. HOST_LINK_UP below full rate is DEGRADED and reported, and so is a correctable
error. SLICE_TEARDOWN tears a spanning context down; REPLICA_UPDATE applies a change of the table here, and the master passes on what another module told it;
it also asks for a frame that a page is to come to, gives one back, and brings an offered frame, which is kept for the next period of the Tiller (log 118). The order of a disable's acts, and that VI 0 keeps its domain, are the model's
choice (log 99). -/
def Obligations.HostLink : Prop :=
  (∀ (s : State) (fn : Nat) (setVf : Bool), let i := Instr.configRequest fn setVf
    (s.board.perst = true → Answers i s fun t => t = s.canon) ∧ (s.board.perst = false →
    (fn ≠ 0 → s.board.vfEnable = false → Answers i s fun t => t = s.canon) ∧
    ((fn = 0 ∨ s.board.vfEnable = true) → natBit s.board.stages 3 = false → Answers i s fun t => t.out = .message "CFG_CRS" fn [] :: s.out ∧ s.changesOnly t [.out]) ∧
    ((fn = 0 ∨ s.board.vfEnable = true) → natBit s.board.stages 3 = true → Answers i s fun t => t.out = .message "CFG_OK" fn [] :: s.out ∧
      t.board = { s.board with vfEnable := s.board.vfEnable || (fn == 0 && setVf) } ∧ s.changesOnly t [.board, .out]))) ∧
  (∀ (s : State) (n : Nat), 1 ≤ n → n < 256 → Answers (.vfFlr n) s fun t => (t.vi n).enabled = false ∧ t = (s.disableVi n true).canon ∧
    (s.viCtxs n = [] → (∀ p ∈ s.rings, (s.vi n).ringFirst + (s.vi n).ringCount ≤ p.1 ∨ p.1 < (s.vi n).ringFirst) → s.changesOnly t [.vis])) ∧
  (∀ (s : State),
    Answers .vfEnableClear s (fun t => t.board = { s.vfsDown.board with vfEnable := false } ∧ ∀ n, 1 ≤ n → n < 256 → (t.vi n).enabled = false) ∧
    Answers .dlDown s (fun t => t.board.linkUp = false ∧ t.getF .HOSTVI_LINK_WIDTH = 0 ∧ t.getF .HOSTVI_LINK_RATE = 0 ∧ ∀ n, n < 256 → (t.vi n).enabled = false) ∧
    Answers .pfFlr s (fun t => t = (if (s.vfsDown.disableVi 0 true).board.linkUp then (s.vfsDown.disableVi 0 true).enableVi0 else s.vfsDown.disableVi 0 true).canon ∧
      ∀ n, 1 ≤ n → n < 256 → (t.vi n).enabled = false)) ∧
  (∀ (s : State) (rate width : Nat) (flit : Bool), let good := rate == 7 && width == 16
    (s.board.perst = true → Answers (.hostLinkUp rate width flit) s fun t => t = s.canon) ∧
    (s.board.perst = false → Answers (.hostLinkUp rate width flit) s fun t => t.getF .HOSTVI_LINK_RATE = rate % 2 ^ Fld.HOSTVI_LINK_RATE.len ∧
      t.getF .HOSTVI_LINK_WIDTH = width % 2 ^ Fld.HOSTVI_LINK_WIDTH.len ∧ t.getF .HOSTVI_LINK_FLIT = bit flit ∧ t.getF .HOSTVI_LINK_DEGRADED = bit !good ∧ t.board.linkUp = true ∧
      (t.vi 0) = (if (s.vi 0).enabled then s.vi 0 else { viReset 0 with domain := (s.vi 0).domain }) ∧
      ((s.vi 0).enabled = false → t.getF .SL_VI_QUOTA_ENTRIES (inst 0) = 16384) ∧
      (good = true → t.board = { s.board with linkUp := true } ∧ s.changes t [Reg.HOSTVI_LINK, Reg.SL_VI_QUOTA + inst 0] [.vis, .board]) ∧ s.changesOnly t (.vis :: .board :: noteParts))) ∧
  (∀ (s : State), Answers .pcieCorrectableError s fun t =>
    t = (s.fault hostRegs { block := 0x0C, fault := 4, sev := 1, scope := .none, info := packBits [(29, 0), (3, 4)] }).canon ∧ s.changesOnly t noteParts) ∧
  (∀ (s : State) (c status : Nat), ((s.ctx c).span = true → Answers (.sliceTeardown c status) s fun t => t = (s.teardown c status none false).canon) ∧
    ((s.ctx c).span = false → Answers (.sliceTeardown c status) s fun t => t = s.canon)) ∧
  (∀ (s : State) (c : Nat) (a : List Nat), let g := fun (i : Nat) => a.getD i 0
    ((s.ctx c).valid = false → (s.ctx c).scrubbing = false → Answers (.replicaUpdate c 0 a) s fun t =>
      t.ctx c = { valid := true, span := true, slice := g 0, master := g 1, weight := g 5, priority := g 6 } ∧ t.flag .TIERS_CTX_CTRL_VALID (inst c) = true ∧
        s.changesOnly t [.regs, .ctxs]) ∧
    (((s.ctx c).valid = true ∨ (s.ctx c).scrubbing = true) → Answers (.replicaUpdate c 0 a) s fun t => t = s.canon) ∧
    ((s.ctx c).valid = false → Answers (.replicaUpdate c 1 a) s fun t => t = s.canon) ∧
    ((s.ctx c).valid = true → ∀ k u v, let leaf : Pte := { pteOf (g 2) with big := g 1 == 1, va := g 0 }
      s.ensureRoot c = some (k, u) → u.putLeaf c (g 0) leaf leaf.big 0 k ptLevels = some v → Answers (.replicaUpdate c 1 a) s fun t =>
        let w := if leaf.migrating then v else v.releaseWrites c (g 0) leaf.big
        t = (if (w.ctx c).master = w.self then w.tellLeaf leaf else w).canon ∧ (leaf.migrating = true → s.changesOnly t [.regs, .tiers, .mem, .out])) ∧
    (s.findLeaf c (g 0) = none → Answers (.replicaUpdate c 2 a) s fun t => t = s.canon) ∧
    (∀ k p, s.findLeaf c (g 0) = some (k, p) → Answers (.replicaUpdate c 2 a) s fun t =>
      t.pteAt k = {} ∧ (∀ j, j ≠ k → t.pteAt j = s.pteAt j) ∧ s.changesOnly t [.tiers, .out] ∧
        ((s.ctx c).master ≠ s.self → t.out = s.out)) ∧
    (let big := g 1 == 1; let high := max (s.getF .TIERS_TILLER_LEVELS_SUB_LOW) (s.getF .TIERS_TILLER_LEVELS_SUB_HIGH)
      let go := s.allocAt c 1 big (g 2 % 16) (s.findIn big (s.moveRanges 1 0)); let off := g 0 % 2 ^ 45
      let back := g 0 / 2 ^ 45 = s.self ∧ (s.tag (off / 65536)).kind = 1 ∧ (s.tag (off / 65536)).ctx = c ∧ s.mappedElse [] (off / 65536) = false
      ((s.subFree false ≤ high ∨ ∃ e, go = .error e) → Answers (.replicaUpdate c 3 a) s fun t => t = s.canon) ∧
      (∀ at_ u, high < s.subFree false → go = .ok (at_, u) → Answers (.replicaUpdate c 3 a) s fun t =>
        t = (u.emit (.message "REPLICA_UPDATE" (u.ctx c).master [c, 5, g 0, u.dwezin at_])).canon ∧ s.changesOnly t [.regs, .tiers, .mem, .out]) ∧
      (back → Answers (.replicaUpdate c 4 a) s fun t => t = (s.scrubPage c off big).canon ∧ s.changesOnly t [.regs, .tiers]) ∧
      (¬back → Answers (.replicaUpdate c 4 a) s fun t => t = s.canon) ∧
      ((s.ctx c).valid = true → (s.ctx c).master = s.self → Answers (.replicaUpdate c 5 a) s fun t =>
        t = ({ s with tiers := { s.tiers with offers := s.tiers.offers ++ [(c, g 0, g 1)] } } : State).canon ∧ s.changesOnly t [.tiers]) ∧
      (¬((s.ctx c).valid = true ∧ (s.ctx c).master = s.self) → Answers (.replicaUpdate c 5 a) s fun t => t = s.canon)))

/-! ### Weights (chapter 16) -/

/-- Weight packages and versions (R475, R476, R479, R483). PKG_LOAD completes with the first check of Table 16.7 that fails, said in WPKG_LOAD_INFO, or maps the pages, enters the
version as LOADING and does not complete yet. TILE_LAND stores a tile that matches, makes its page readable with the page's last tile and its version RESIDENT with the last of all,
with the largest batch of its decode rig (a free value: nothing gives it); one
that fails is asked for once more, then the load ends 0x06. VERSION_LIVE and VERSION_RETIRE check the entry's state and model, move the live pointer or retire the entry with a flip of GEN,
and wait while the old table is latched. A FREEING entry whose last frame is scrubbed becomes EMPTY. -/
def Obligations.WeightPackages : Prop :=
  (∀ (s : State) (r q : Nat) (c : Cmd), s.launched r q 0x40 = some c →
    let wait := decide (4 ≤ s.wpkg.loads.length) || s.wpkg.latched || s.wpkg.loads.any (fun l => l.ring == r && l.seq == q)
    (wait = true → Answers (.pkgLoad r q) s fun t => t = s.canon) ∧
    (wait = false → Answers (.pkgLoad r q) s fun t => match s.loadCheck c with
      | .error st => t.getF .WPKG_LOAD_INFO_STATUS = st % 2 ^ Fld.WPKG_LOAD_INFO_STATUS.len ∧
          t.getF .WPKG_LOAD_INFO_VERSION = c.fld 42 0 16 % 2 ^ Fld.WPKG_LOAD_INFO_VERSION.len ∧
          (t.ring c.ring).completed = ringStatuses s c st ∧ s.changesOnly t (.rings :: noteParts)
      | .ok (v, _, ps, ts, _) => match s.weightPages c.ctx ps with
        | none => t.getF .WPKG_LOAD_INFO_STATUS = 8 % 2 ^ Fld.WPKG_LOAD_INFO_STATUS.len ∧
            (t.ring c.ring).completed = ringStatuses s c 8 ∧ s.changesOnly t [.regs, .rings, .out]
        | some _ => t.version v.id = v ∧ v.state = 1 ∧ t.rings = s.rings ∧ (∃ l, t.wpkg.loads = s.wpkg.loads ++ [l] ∧ l.ver = v.id ∧ l.ring = r ∧ l.seq = q ∧
              l.tiles.map (fun t => (t.tile, t.va)) = ts) ∧ t.getF .WPKG_STATUS_GEN = (s.getF .WPKG_STATUS_GEN + 1) % 2 ∧
            s.changesOnly t [.regs, .tiers, .mem, .wpkg, .twin, .out])) ∧
  (∀ (s : State) (ver va : Nat) (lost : Bool) (l : LoadSt) (x : Landing), s.wpkg.loads.find? (fun l => l.ver == ver) = some l →
    l.tiles.find? (fun t => t.va == va && t.state != 2) = some x → let v := s.version ver; let got := s.readVa v.ctx (l.src + 65536 * x.tile) 65536
    let bytes := (got.map (·.1)).getD []; let ok := tileMatches (asNats bytes) x.leaf l.pkgId x.tile (got.elim true (·.2) || lost || bytes.length != 65536)
    let page := va / 0x200000 * 0x200000; let after := l.tiles.map fun t => if t.va = va then { t with state := 2 } else t
    (ok = false → x.state = 0 → Answers (.tileLand ver va lost) s fun t =>
      t.getF .WPKG_TILE_RETRIES_COUNT = (s.getF .WPKG_TILE_RETRIES_COUNT + 1) % 2 ^ Fld.WPKG_TILE_RETRIES_COUNT.len ∧
        t.wpkg = { s.wpkg with loads := s.wpkg.loads.map fun k => if k.ver = ver then { k with tiles := k.tiles.map fun t => if t.va = va then { t with state := 1 } else t } else k } ∧
        s.changesOnly t (.wpkg :: noteParts)) ∧
    (ok = false → x.state ≠ 0 → Answers (.tileLand ver va lost) s fun t => t = ((s.wpkgFault 2 0 (some v.ctx) x.tile).endLoad l 6 x.tile).canon ∧
      (∀ k ∈ t.wpkg.loads, k.ver ≠ l.ver) ∧ t.getF .WPKG_LOAD_INFO_STATUS = 6 ∧ (∀ c, s.launched l.ring l.seq 0x40 = some c →
        (t.ring c.ring).completed = ringStatuses s c 6)) ∧
    (ok = true → v.id = ver → v.state ≠ 0 → (∃ k ∈ after, k.state ≠ 2) → Answers (.tileLand ver va lost) s fun t =>
      (∀ a p, s.findLeaf v.ctx page = some (a, p) → (∀ i, i < 65536 → t.byteAt (p.addr % 2 ^ 45 + va % 0x200000 + i) = bytes.getD i 0) ∧
        (t.pteAt a).read = (p.read || (after.filter fun k => k.va / 0x200000 * 0x200000 == page).all fun k => k.state == 2)) ∧
        t.version ver = { v with verified := v.verified + 1 } ∧
        t.getF .WPKG_TILES_VERIFIED_COUNT = (s.getF .WPKG_TILES_VERIFIED_COUNT + 1) % 2 ^ Fld.WPKG_TILES_VERIFIED_COUNT.len ∧
        s.changesOnly t [.regs, .mem, .tiers, .wpkg, .out]) ∧
    (ok = true → v.id = ver → v.state = 1 → (∀ k ∈ after, k.state = 2) → s.wpkg.latched = false → Answers (.tileLand ver va lost) s fun t => (t.version ver).state = 2 ∧
      t.getF .SL_VER_BATCH_MAX (inst ver) = (Config.batchMax v.decodeRig).toNat % 2 ^ Fld.SL_VER_BATCH_MAX.len ∧
      (∀ k ∈ t.wpkg.loads, k.ver ≠ ver) ∧ t.getF .WPKG_STATUS_GEN = (s.getF .WPKG_STATUS_GEN + 1) % 2 ∧ (∀ c, s.launched l.ring l.seq 0x40 = some c → l.ver = ver →
        (t.ring c.ring).completed = ringStatuses s c 0) ∧ s.changesOnly t [.regs, .mem, .tiers, .wpkg, .rings, .twin, .out])) ∧
  (∀ (s : State) (ver va : Nat) (lost : Bool), (∀ l ∈ s.wpkg.loads, l.ver ≠ ver) → Answers (.tileLand ver va lost) s fun t => t = s.canon) ∧
  (∀ (s : State) (r q op : Nat) (c : Cmd), (op = 0x41 ∨ op = 0x42) → s.launched r q op = some c → (∀ v ∈ s.wpkg.versions, v.state = 3 → s.pinned v.id = true) →
    let i := if op = 0x41 then Instr.versionLive r q else .versionRetire r q; let x := if op = 0x41 then VerChange.live r q else .retire r q
    let model := c.fld 40 0 16; let v := s.version (c.fld 42 0 16); let live := s.wpkg.live.any fun p => p.1 == model
    let ends := fun code => Answers i s fun t => t = (s.complete c code 0 0).canon ∧ s.changesOnly t [.regs, .rings, .out]
    (s.wpkg.latched = true → Answers i s fun t => t.wpkg = { s.wpkg with waits := if s.wpkg.waits.contains x then s.wpkg.waits else s.wpkg.waits ++ [x] } ∧
      t.flag .WPKG_STATUS_SWAP_PEND = true ∧ s.changes t [Reg.WPKG_STATUS] [.wpkg]) ∧
    (s.wpkg.latched = false →
      ((v.state = 0 ∨ v.state = 1 ∨ v.state = 4) → ends 0x0C) ∧
      (op = 0x41 → v.state = 2 ∨ v.state = 3 → v.model ≠ model → ends 0x0D) ∧
      (op = 0x41 → v.state = 3 → v.model = model → ends 0x0E) ∧
      (op = 0x41 → v.state = 2 → v.model = model → live = false → 256 ≤ s.wpkg.live.length → ends 0x10) ∧
      (op = 0x41 → v.state = 2 → v.model = model → (live = true ∨ s.wpkg.live.length < 256) → Answers i s fun t => t.wpkg.live = SMap.put s.wpkg.live model v.id ∧
        t.wpkg.versions = s.wpkg.versions ∧ t.getF .WPKG_STATUS_GEN = (s.getF .WPKG_STATUS_GEN + 1) % 2 ∧
        (t.ring c.ring).completed = ringStatuses s c 0 ∧ s.changesOnly t [.regs, .wpkg, .twin, .rings, .out]) ∧
      (op = 0x42 → v.state = 3 → ends 0) ∧
      (op = 0x42 → v.state = 2 → (∃ p ∈ s.wpkg.live, p.2 = v.id) → ends 0x0F) ∧
      (op = 0x42 → v.state = 2 → (∀ p ∈ s.wpkg.live, p.2 ≠ v.id) → (s.pinned v.id = true → Answers i s fun t => t.version v.id = { v with state := 3 } ∧
          t.getF .WPKG_STATUS_GEN = (s.getF .WPKG_STATUS_GEN + 1) % 2 ∧ (t.ring c.ring).completed = ringStatuses s c 0 ∧
          s.changesOnly t [.regs, .wpkg, .twin, .rings, .out]) ∧
        (s.pinned v.id = false → s.tableRead = false → Answers i s fun t => ((t.version v.id).state = 0 ∨ ((t.version v.id).state = 4 ∧ (t.version v.id).pages = [])) ∧
          (v.pages = [] → (t.version v.id).state = 0) ∧ (t.ring c.ring).completed = ringStatuses s c 0 ∧
          s.changesOnly t [.regs, .tiers, .wpkg, .twin, .rings, .out])))) ∧
  (∀ (s : State) (f : Nat) (v : Version), (s.tag f).kind = 4 → (s.wpkg.versions.filter fun v => v.state == 4 && v.frames.contains f) = [v] → (∀ k ∈ v.frames, k = f) →
    s.wpkg.latched = false → s.version v.id = v → Answers (.frameScrubDone f) s fun t =>
      (∀ x ∈ t.wpkg.versions, x.id ≠ v.id) ∧ (∀ p ∈ t.wpkg.live, p.2 ≠ v.id) ∧ t.getF .WPKG_STATUS_GEN = (s.getF .WPKG_STATUS_GEN + 1) % 2)

/-! ### Expert routing (chapter 10) -/

/-- SCATTER entries with a valid descriptor (R290 to R302, R305): SCATTER_ROUTE, SCATTER_CLOSE, SCATTER_COMBINE and SCATTER_RETURN each COMPLETE where the entry fires and
its descriptor reads well. A suppressed one changes no round and no memory. CLOSE ends the layer: the open round is closed and every token of the layer
counts as routed. A COMBINE emits a row whose record is complete and counts it, or waits for it in flight. The beat that completes a ROUTE's token routes it by the map's live
copy, where no fault of it ends the context; a first beat of several is gathered; one whose payload leaves the plane's window does not fire. The beat that completes a RETURN's
token writes the frame to the combine slot of the token's source, here or on another module. That a suppressed ROUTE's payload must lie in the window too is the model's
choice (log 104). -/
def Obligations.ScatterEntries : Prop :=
  (∀ (s : State) (u f : Nat) (x : Instr), (x, f) ∈ [(Instr.scatterRoute u, 0), (.scatterClose u, 1), (.scatterCombine u, 2), (.scatterReturn u, 3)] →
    s.fires u (isForm 10 f) = true → (s.plane u (s.curPlane u)).suppresses (s.curEntry u) = true →
    (f = 0 → ∀ d, s.readDesc (s.plane u (s.curPlane u)).ctx (enDesc (s.curEntry u)) = some d →
      inOpsWindow (s.plane u (s.curPlane u)).cfg (enSrcA (s.curEntry u), enLen (s.curEntry u) * d.payLines) = true) → Answers x s fun t => t.scat = s.scat ∧ s.sameMemory t ∧
      t.getF .UNIT_CATCHES_COUNT (unitOff u) = (s.getF .UNIT_CATCHES_COUNT (unitOff u) + 1) % 2 ^ 64 ∧
      t.getF .UNIT_NULL_CATCHES_COUNT (unitOff u) = (s.getF .UNIT_NULL_CATCHES_COUNT (unitOff u) + 1) % 2 ^ 64 ∧
      s.changesOnly t (.planes :: .units :: .inPorts :: .outPorts :: noteParts)) ∧
  (∀ (s : State) (u : Nat) (d : ScatDesc), let p := s.curPlane u; let e := s.curEntry u; let c := (s.plane u p).ctx; let b := s.beginCatch u
    (s.plane u p).suppresses e = false → (s.plane u p).valid = true → s.mapped c (enDesc e) 64 false = true → s.readDesc c (enDesc e) = some d →
    (∀ es, s.fires u (isForm 10 1) = true → s.layerFor c (s.mapGen c) d = some es → let x := (s.beginLayer c d).1
      Answers (.scatterClose u) s fun t => t.layerSt c d.layer = some { x with routed := d.rounds * d.roundTokens } ∧
        (x.routed % d.roundTokens ≠ 0 → ∀ r ∈ t.scat.rounds, r.ctx = c → r.num = x.base + x.routed / d.roundTokens → r.closedAt.isSome = true) ∧
        (∀ r ∈ t.scat.rounds, r ∈ s.scat.rounds ∨ r.closedAt.isSome = true) ∧ s.changesOnly t (.scat :: .planes :: .units :: .inPorts :: .outPorts :: noteParts)) ∧
    (∀ x r, s.fires u (isForm 10 2) = true → s.layerSt c d.layer = some x → s.round c (x.base + x.emitted / d.roundTokens) = some r → enLen e = 1 →
      x.emitted % d.roundTokens < r.routed → let row := s.combineRow { r with desc := d } (recNumctl (s.plane u p).cfg) (x.emitted % d.roundTokens)
      (row = none → Answers (.scatterCombine u) s fun t => t.layerSt c d.layer = some x ∧ t.scat.rounds = s.scat.rounds ∧
        { uid := u, id := (s.unit u).nextId, form := 2, ctx := c, desc := d } ∈ t.scat.gathers ∧ s.sameMemory t) ∧
      (row ≠ none → Answers (.scatterCombine u) s fun t => t.layerSt c d.layer = some { x with emitted := x.emitted + 1 } ∧
        t.getF .SCAT_COMBINED_COUNT (seatOff (seatOf u)) = (s.getF .SCAT_COMBINED_COUNT (seatOff (seatOf u)) + 1) % 2 ^ Fld.SCAT_COMBINED_COUNT.len ∧
        t.scat.gathers = s.scat.gathers ∧ s.changesOnly t (.scat :: .planes :: .units :: .inPorts :: .outPorts :: noteParts))) ∧
    (s.fires u (isForm 10 0) = true → (tokenBeats 0 d ≠ 1 ∨ s.routeReady c d = true) → s.hazardFree u [(enSrcA e, enLen e * d.payLines)] [] = true →
      inOpsWindow (s.plane u p).cfg (enSrcA e, enLen e * d.payLines) = false → Answers (.scatterRoute u) s fun t => t = (s.entryFault u p 12 3).canon) ∧
    (∀ n h ns, s.fires u (isForm 10 0) = true → maskPorts (enInPop e) = n :: ns → s.headBeat u p n = some h → s.hazardFree u [(enSrcA e, enLen e * d.payLines)] [] = true →
      inOpsWindow (s.plane u p).cfg (enSrcA e, enLen e * d.payLines) = true →
      let tag := ({ uid := u, id := (s.unit u).nextId, form := 0, ctx := c, desc := d, beats := [(h.data, h.poison || h.null)] } : Gather)
      (1 < tokenBeats 0 d → 1 < (scatSize d e).1 → Answers (.scatterRoute u) s fun t => tag ∈ t.scat.gathers ∧ t.scat.rounds = s.scat.rounds ∧ t.scat.layers = s.scat.layers ∧
        s.changesOnly t (.scat :: .planes :: .units :: .inPorts :: .outPorts :: noteParts)) ∧
      (tokenBeats 0 d = 1 → enLen e = 1 → s.routeReady c d = true → let w := b.routeToken u p e d 0 [(h.data, h.poison || h.null)]; let x := (s.beginLayer c d).1
        (w.plane u p).valid = true → (w.ctx c).valid = true → x.routed < d.rounds * d.roundTokens →
        ∀ es, s.layerFor c (((s.round c (x.base + x.routed / d.roundTokens)).map (·.gen)).getD (s.mapGen c)) d = some es →
        (∀ y ∈ chooseExperts d.topk ((List.range d.experts).map fun i => natBits h.data.toNat (32 * (i % 16)) 32), mapTarget (es.getD y.1 0) = true) →
        Answers (.scatterRoute u) s fun t => t.scat.rounds = w.scat.rounds ∧ t.scat.layers = w.scat.layers ∧ (∀ a, t.byteAt a = w.byteAt a ∧ t.poisonAt a = w.poisonAt a) ∧
          t.fab = w.fab ∧ (t.layerSt c d.layer).map (·.routed) = some (x.routed + 1))) ∧
    (∀ n h ns hd, s.fires u (isForm 10 3) = true → maskPorts (enInPop e) = n :: ns → s.headBeat u p n = some h → s.entryCheck u p e d 0 = none →
      hdrOfLine (s.opLine u (enSrcB e % 4096)).data = some hd →
      let tag := ({ uid := u, id := (s.unit u).nextId, form := 3, ctx := c, desc := d, beats := [(h.data, h.poison || h.null)] } : Gather)
      (1 < d.retLines → 1 < enLen e * d.retLines → Answers (.scatterReturn u) s fun t => tag ∈ t.scat.gathers ∧ t.scat.rounds = s.scat.rounds ∧ t.scat.layers = s.scat.layers ∧
        s.changesOnly t (.scat :: .planes :: .units :: .inPorts :: .outPorts :: noteParts)) ∧
      (∀ a q, d.retLines = 1 → enLen e = 1 → (s.ctx c).valid = true → s.translate c hd.ret true = some (a, q) → a / 2 ^ 45 ≠ s.self → Answers (.scatterReturn u) s fun t =>
        (∃ args, .message "RETURN_FRAME" (a / 2 ^ 45) (c :: hd.ret :: args) ∈ t.out) ∧ t.scat.rounds = s.scat.rounds ∧
          t.getF .SCAT_RETURNS_COUNT (seatOff (seatOf u)) = (s.getF .SCAT_RETURNS_COUNT (seatOff (seatOf u)) + 1) % 2 ^ Fld.SCAT_RETURNS_COUNT.len)))

/-- Rounds, queues and maps (R287, R288, R298, R299, R301, R306). COUNT_HEADER_SEND of a closed round whose writes are acknowledged sends what was picked, at most the quota, and what was
dropped. COUNT_HEADER_ARRIVE stores INFO and COUNT, or holds the header while its bank is unread, until COUNT_HEADER_RELEASE. RETURN_FRAME_LAND of a frame that is no round's is a fault; one
that matches marks its choice arrived. RETURN_TIMEOUT faults a round not complete in time. MAP_INSTALL completes with the code of the check that fails, or flips GEN, where no fault of its writes ends the context;
EXPMAP_RECLAIM ends the old copy 4 us after its last round. -/
def Obligations.RoundsAndMaps : Prop :=
  (∀ (s : State) (c n expert : Nat) (r : Round) (g : Region),
    (s.scat.rounds.find? fun r => r.ctx == c && r.num % 65536 == n && r.regions.any fun g => g.expert == expert && !g.sent) = some r →
    (r.regions.find? fun g => g.expert == expert && !g.sent) = some g → let base := entryVa r.desc g r.num 0
    let waits := r.closedAt.isNone || s.fab.writes.any fun w => w.ctx == c && decide (base ≤ w.va) && decide (w.va < base + g.quota * entryBytes10 r.desc)
    (waits = true → Answers (.countHeaderSend c n expert) s fun t => t = s.canon) ∧
    (waits = false → g.home ≠ s.self → Answers (.countHeaderSend c n expert) s fun t =>
      t.out.head? = some (.message "COUNT_HEADER" g.home [c, g.queue, r.desc.layer, expert, g.region, n, min g.picks g.quota, g.picks - min g.picks g.quota, s.self]) ∧
        (∀ y ∈ t.scat.rounds, y.ctx = c → y.num = r.num → ∀ z ∈ y.regions, z.expert = expert → z.sent = true) ∧ s.changesOnly t [.regs, .scat, .out]) ∧
    (waits = false → g.home = s.self → Answers (.countHeaderSend c n expert) s fun t =>
      (∀ y ∈ t.scat.rounds, y.ctx = c → y.num = r.num → ∀ z ∈ y.regions, z.expert = expert → z.sent = true))) ∧
  (∀ (s : State) (c va : Nat) (h : CountHdr) (q : QueueSt), (s.scat.queues.find? fun q => q.ctx == c && q.va == va) = some q → h.region < 64 →
    let busy := s.countUnread q (h.round % 2) h.region || q.held.any fun x => x.region == h.region && x.round % 2 == h.round % 2
    (busy = true → Answers (.countHeaderArrive c va h) s fun t => t = ((s.setQueue c va fun y => { y with held := y.held ++ [h] }).bump .SCAT_COUNT_HOLDS_COUNT 1 (seatOff q.seat)).canon ∧
      t.scat = { s.scat with queues := s.scat.queues.map fun y => if y.ctx == c && y.va == va then { y with held := y.held ++ [h] } else y } ∧
      s.changes t [Reg.SCAT_COUNT_HOLDS + seatOff q.seat] [.scat]) ∧
    (busy = false → Answers (.countHeaderArrive c va h) s fun t => t = (s.acceptCount q h).canon ∧
      (h.dropped = 0 → ∀ a p b w, s.translate q.ctx (countVa q.va (h.round % 2) h.region) true = some (a, p) → s.translate q.ctx (infoVa q.va (h.round % 2) h.region) true = some (b, w) →
        q.va % 8 = 0 → (∀ x ∈ [(a, p), (b, w)], x.1 / 2 ^ 45 = s.self ∧ x.2.migrating = false ∧ s.portDead (x.1 % 2 ^ 45) = false ∧
          s.tagCheck q.ctx (x.1 % 2 ^ 45) x.2.gen true = none) → t.numAt (a % 2 ^ 45) 8 = h.value % 2 ^ 32 + 2 ^ 63 ∧ s.changesOnly t [.regs, .tiers, .mem, .scat]))) ∧
  (∀ (s : State) (c va region bank : Nat) (q : QueueSt) (h : CountHdr), (s.scat.queues.find? fun q => q.ctx == c && q.va == va) = some q →
    (q.held.find? fun x => x.region == region && x.round % 2 == bank) = some h →
    (s.countUnread q bank region = true → Answers (.countHeaderRelease c va region bank) s fun t => t = s.canon) ∧
    (s.countUnread q bank region = false → Answers (.countHeaderRelease c va region bank) s fun t =>
      t = ((s.setQueue c va fun y => { y with held := y.held.erase h }).acceptCount { q with held := q.held.erase h } h).canon)) ∧
  (∀ (s : State) (c va region bank : Nat) (h : CountHdr), (∀ q ∈ s.scat.queues, ¬(q.ctx = c ∧ q.va = va)) → ∀ x ∈ [Instr.countHeaderArrive c va h, .countHeaderRelease c va region bank],
    Answers x s fun t => t = s.canon) ∧
  (∀ (s : State) (c va : Nat) (frame : List (Line × Bool)),
    ((s.ctx c).valid = false → Answers (.returnFrameLand c va frame) s fun t => t = s.canon) ∧
    (∀ h, (s.ctx c).valid = true → hdrOfLine (frame.headD (0, false)).1 = some h →
      (s.scat.rounds.find? fun r => r.ctx == c && r.num % 65536 == h.round && r.desc.layer == h.layer) = none → Answers (.returnFrameLand c va frame) s fun t =>
        t = (s.scatFault 0 5 3 c h.layer h.expert).canon) ∧
    (∀ h r, (s.ctx c).valid = true → hdrOfLine (frame.headD (0, false)).1 = some h →
      (s.scat.rounds.find? fun r => r.ctx == c && r.num % 65536 == h.round && r.desc.layer == h.layer) = some r →
      let k := (h.token + 65536 - r.first % 65536) % 65536; let num := (s.numVa c (recordVa r.desc r.num k) 128).getD 0
      natBit h.flags 1 = false → k < r.routed → va = slotVa r.desc r.num k h.choice → natBits num 64 16 = h.token → natBits num 80 16 = h.round → h.choice < r.desc.topk →
      natBit num h.choice = true → natBits num (96 + 10 * h.choice) 10 = h.expert →
      (s.scat.gathers.filter fun g => g.form == 2 && g.ctx == c) = [] →
      let poison := natBit h.flags 0 || frame.any (·.2)
      let num1 := if natBit num (32 + h.choice) then num else num + 2 ^ (32 + h.choice); let num2 := if poison && !natBit num1 56 then num1 + 2 ^ 56 else num1
      Answers (.returnFrameLand c va frame) s fun t => (∀ a, t.byteAt a = ((s.writeLines c va frame).writeLine c (recordVa r.desc r.num k) (BitVec.ofNat 512 num2, false)).byteAt a) ∧
        (∀ y ∈ t.scat.rounds, y.ctx = c → y.num = r.num → (∀ z ∈ s.scat.rounds, z.ctx = c → z.num = r.num → z = r) →
          y.owed = if natBit num (32 + h.choice) then r.owed else r.owed - 1) ∧ s.changesOnly t (.mem :: faultParts)) ∧
    ((s.ctx c).valid = true → hdrOfLine (frame.headD (0, false)).1 = none → (∀ r ∈ s.scat.rounds, r.ctx ≠ c) → Answers (.returnFrameLand c va frame) s fun t =>
      t = (s.scatFault 0 5 3 c 0 0).canon)) ∧
  (∀ (s : State) (c n : Nat) (r : Round) (w : Nat), (s.scat.rounds.find? fun r => r.ctx == c && r.num % 65536 == n) = some r → r.closedAt = some w →
    let bound := clamp 1 100000 (s.getF .SCAT_CTRL_RETURN_US (seatOff (seatOf r.uid))) * 1000
    let late := (∃ k, k < r.routed ∧ recordDone ((s.numVa c (recordVa r.desc r.num k) 128).getD 0) = false) ∧ w + bound ≤ s.now ∧ s.step.replay = false
    (late → Answers (.returnTimeout c n) s fun t => t = (s.scatFault r.uid 6 3 c r.desc.layer 0).canon) ∧
    (¬late → Answers (.returnTimeout c n) s fun t => t = s.canon)) ∧
  (∀ (s : State) (r q : Nat) (agree : Bool) (c : Cmd), s.launched r q 0x30 = some c → let va := c.fld 32 0 56; let k := c.ctx
    (s.flag .EXPMAP_CTRL_SWAP_PEND (inst k) = true → Answers (.mapInstall r q agree) s fun t =>
      t = ((s.setF .EXPMAP_STATUS_LAST 2 (inst k)).complete c 2 0 0).canon ∧ t.scat = s.scat ∧ s.changesOnly t [.regs, .rings, .out]) ∧
    (s.flag .EXPMAP_CTRL_SWAP_PEND (inst k) = false → Answers (.mapInstall r q agree) s fun t =>
      let fails := fun st => t = ((s.setF .EXPMAP_STATUS_LAST st (inst k)).complete c st 0 0).canon ∧ t.scat = s.scat ∧ s.changesOnly t [.regs, .rings, .out]
      match s.mapBytes k va with
      | none => fails 1
      | some bs =>
        if s.mapBad k bs = true ∨ agree = false then fails 1
        else if mapLimited bs = true ∧ s.mirrored k = true then fails 3
        else if s.mapRange k bs = true then fails 4
        else match s.flipMap k bs with
          | none => fails 4
          | some u => t = ((u.setF .EXPMAP_STATUS_LAST 0 (inst k)).complete c 0 0 0).canon ∧ ((u.ctx k).valid = true → t.mapGen k = 1 - s.mapGen k ∧
              t.flag .EXPMAP_CTRL_VALID (inst k) = true ∧ t.flag .EXPMAP_CTRL_SWAP_PEND (inst k) = s.flag .EXPMAP_CTRL_VALID (inst k) ∧
              t.flag .EXPMAP_CTRL_CAP_LIMITED (inst k) = mapLimited bs))) ∧
  (∀ (s : State) (c : Nat), let w := ((s.scat.swaps.find? fun p => p.1 == c).map (·.2)).getD 0
    let busy := ∃ r ∈ s.scat.rounds, r.ctx = c ∧ r.gen ≠ s.mapGen c ∧ r.closedAt = none
    (s.flag .EXPMAP_CTRL_SWAP_PEND (inst c) = true → ¬busy → w + 4000 ≤ s.now → Answers (.expmapReclaim c) s fun t => t.flag .EXPMAP_CTRL_SWAP_PEND (inst c) = false ∧
      t.scat = { s.scat with swaps := s.scat.swaps.filter fun p => p.1 != c } ∧ s.changes t [Reg.EXPMAP_CTRL + inst c] [.scat]) ∧
    ((s.flag .EXPMAP_CTRL_SWAP_PEND (inst c) = false ∨ busy ∨ s.now < w + 4000) → Answers (.expmapReclaim c) s fun t => t = s.canon))

/-! ### The Start List (chapter 11) -/

/-- Commands on requests (R316, R317, R328, R329, R331, R332, R337). ADMIT wakes a sleeping seat where no other has room, is refused with the first check of Table 11.2 that fails and counted in
SL_REFUSED, or makes the entry ADMITTED under the handle it answers, at once or, where the pair mirrors its context, once the twin has it. CANCEL, PAUSE, RESUME and REPIN of a handle
that names no entry of the command's context and interface complete 0x13, echoing it (the model's choice, log 98); on a final state they say which; otherwise they wait for the boundary, CANCEL_PEND or PAUSE_PEND set, with the
checks of Table 11.6 made first; a resume or repin of pages a holder keeps claims them. -/
def Obligations.RequestCommands : Prop :=
  (∀ (s : State) (r q : Nat) (c : Cmd), s.launched r q 0x50 = some c → let vi := (s.ownerVi r).getD 0; let i := Instr.admitCmd r q
    let said := s.twin.awaiting.any fun (a : Awaiting) => a.cmd.any fun k => k.ring == r && k.seq == q
    (said = true → Answers i s fun t => t = s.canon) ∧
    (∀ k, said = false → s.sleeper = some k → Answers i s fun t => t.seat k = { s.seat k with wake := true } ∧ (∀ j, j ≠ k → t.seat j = s.seat j) ∧ s.changesOnly t [.seats]) ∧
    (said = false → s.sleeper = none →
      Answers i s (fun t => match s.admitCheck c vi with
        | .error st => (t.ring c.ring).completed = ringStatuses s c st ∧
            t.getF .SL_REFUSED_COUNT = (s.getF .SL_REFUSED_COUNT + 1) % 2 ^ Fld.SL_REFUSED_COUNT.len ∧ s.changesOnly t [.regs, .rings, .out]
        | .ok (k, e, x) => (s.mirrored c.ctx = false → t.entry k = e ∧ (t.req k).tokens = x.tokens ∧ (t.req k).samp = x.samp ∧ (t.req k).grammar = x.grammar ∧
              (∀ j, j ≠ k → t.entry j = s.entry j ∧ t.req j = s.req j) ∧ (t.ring c.ring).completed = ringStatuses s c 0 ∧
              t.getF .SL_ADMITS_COUNT = (s.getF .SL_ADMITS_COUNT + 1) % 2 ^ Fld.SL_ADMITS_COUNT.len ∧ s.changesOnly t [.regs, .entries, .reqs, .rings, .out]) ∧
            (s.mirrored c.ctx = true → t.entries = s.entries ∧ (∃ a, t.twin.awaiting = s.twin.awaiting ++ [a] ∧ a.cmd = some c ∧ a.status = 0 ∧ a.value = handleOf k e.a.gen ∧
              a.seq = t.getF .TWIN_SEQ_TX) ∧ s.changesOnly t [.regs, .twin, .out])) ∧
      (let refused := fun st => s.admitCheck c vi = .error st
       (s.board.poolRole ≠ 2 ∨ s.pairState = 5 → refused 1) ∧
       (s.board.poolRole = 2 → s.pairState ≠ 5 → s.ctxOf c.ctx vi = false → refused 2) ∧
       (s.board.poolRole = 2 → s.pairState ≠ 5 → s.ctxOf c.ctx vi = true →
         (s.getF .SL_VI_QUOTA_ENTRIES (inst vi) ≤ s.slLive vi ∨ s.pairFull = true ∨ s.freeIndex = none) → refused 3) ∧
       (∀ k e x, s.admitCheck c vi = .ok (k, e, x) → s.freeIndex = some k ∧ (s.entry k).a.state = .free ∧ e.a.state = .admitted ∧ e.a.ctx = c.ctx ∧ e.a.vi = vi ∧
         e.a.gen = (s.entry k).a.gen ∧ e.a.curLen = c.fld 56 0 25 ∧ e.a.promptLen = c.fld 56 0 25 ∧ e.a.maxLen = c.fld 60 0 25 ∧ e.a.admitTime = s.now ∧
         e.a.deadline = c.fld 48 0 64 ∧ 1 ≤ e.a.promptLen ∧ e.a.promptLen + 1 ≤ e.a.maxLen ∧ e.a.maxLen ≤ 2 ^ 24 ∧ x.tokens.length = e.a.promptLen ∧
         (s.version e.b.version).state = 2 ∧ (s.version e.b.version).ctx = c.ctx))))  ∧
  (∀ (s : State) (r q : Nat) (c : Cmd), ∀ x ∈ [(0x51, Instr.cancel r q), (0x52, .pause r q), (0x53, .resume r q), (0x54, .repin r q)], s.launched r q x.1 = some c →
    (s.cmdTaken r q = true → Answers x.2 s fun t => t = s.canon) ∧
    (s.cmdTaken r q = false → s.cmdEntry c = none → Answers x.2 s fun t => t = (s.complete c 0x13 0 (c.fld 32 0 32)).canon ∧ s.changesOnly t [.regs, .rings, .out]) ∧
    (∀ i, s.cmdTaken r q = false → s.cmdEntry c = some i → let e := s.entry i; let v := s.version e.b.version
      let say := fun st => Answers x.2 s fun t => t = (s.complete c st 0 (s.handle i)).canon ∧ s.changesOnly t [.regs, .rings, .out]
      let parts := if s.mirrored e.a.ctx then [Part.regs, .entries, .reqs, .twin, .out] else [.entries, .reqs, .twin]
      let final := fun done => (e.a.state = .done → say done) ∧ (e.a.state = .cancelled → say 0x11) ∧ (e.a.state = .failed → say 0x12)
      (x.1 = 0x51 → final 0x10 ∧ (e.a.state.final = false → Answers x.2 s fun t => (t.entry i).a = { e.a with cancelPend := true } ∧
        t.req i = { s.req i with cmds := (s.req i).cmds ++ [reqCmd c 0 0 0 []] } ∧ t.rings = s.rings ∧ s.changesOnly t parts)) ∧
      (x.1 = 0x52 → let ttl := c.fld 36 0 32; let bad := ttl = 0 ∨ 604800 < ttl
        final 0x10 ∧ (e.a.state = .resuming → say 0x14) ∧ (e.a.state = .paused → e.a.autoResume = false → say 0x14) ∧
        (e.a.state.final = false → e.a.state ≠ .resuming → e.a.state ≠ .paused → bad → say 0x17) ∧
        (e.a.state = .paused → e.a.autoResume = true → bad → say 0x17) ∧
        (e.a.state = .paused → e.a.autoResume = true → ¬bad → s.mirrored e.a.ctx = false → c.ring = r → (s.ring r).outstanding.find? (fun k => k.seq == q) = some c → Answers x.2 s fun t =>
          (t.entry i).a = { e.a with autoResume := false, expiry := s.now / 1000000000 + ttl } ∧ (t.req i).ttl = ttl ∧
            (t.ring r).completed = ringStatuses s c 0 ∧ .message "PAUSE_TTL" e.a.holder [s.handle i, ttl] ∈ t.out ∧
            s.changesOnly t [.regs, .entries, .reqs, .rings, .twin, .out]) ∧
        (e.a.state.final = false → e.a.state ≠ .resuming → e.a.state ≠ .paused → ¬bad → Answers x.2 s fun t => (t.entry i).a = { e.a with pausePend := true } ∧
          t.req i = { s.req i with cmds := (s.req i).cmds ++ [reqCmd c ttl 0 0 []], ttl := ttl } ∧ t.rings = s.rings ∧ s.changesOnly t parts)) ∧
      (x.1 = 0x53 → let n := c.fld 36 0 25; let deadline := c.fld 48 0 64; let newMax := c.fld 56 0 25; let maxLen := if newMax = 0 then e.a.maxLen else newMax
        let toks := s.readTokens c.ctx (c.fld 40 0 56) n; let kept := e.a.state = .paused ∨ e.a.pausePend = true
        (e.a.state = .cancelled → say 0x11) ∧ (e.a.state = .failed → say 0x12) ∧
        (e.a.state ≠ .cancelled → e.a.state ≠ .failed → (¬kept ∨ (s.req i).claimAt.isSome = true) → say 0x15) ∧
        (e.a.state ≠ .cancelled → e.a.state ≠ .failed → kept → (s.req i).claimAt = none →
          ((maxLen ≤ e.a.curLen + n ∨ 2 ^ 24 < maxLen) → say 6) ∧
          (e.a.curLen + n < maxLen → maxLen ≤ 2 ^ 24 →
            (toks = none → say 9) ∧
            (∀ ts, toks = some ts → (∃ k ∈ ts, v.vocab ≤ k) → say 7) ∧
            (∀ ts, toks = some ts → (∀ k ∈ ts, k < v.vocab) → e.a.hard = true → deadline ≠ 0 → deadline ≤ s.now → say 0x0A) ∧
            (∀ ts, toks = some ts → (∀ k ∈ ts, k < v.vocab) → (e.a.hard = false ∨ deadline = 0 ∨ s.now < deadline) →
              (e.a.state ≠ .paused → Answers x.2 s fun t => t.req i = { s.req i with cmds := (s.req i).cmds ++ [reqCmd c deadline newMax 0 ts] } ∧ s.changesOnly t [.reqs]) ∧
              (e.a.state = .paused → e.a.copyOut = false → Answers x.2 s fun t => t.out = .message "CLAIM" e.a.holder [s.handle i] :: s.out ∧
                t.req i = { s.req i with cmds := (s.req i).cmds ++ [reqCmd c deadline newMax 0 ts], claimAt := some s.now } ∧ s.changesOnly t [.reqs, .out]) ∧
              (e.a.state = .paused → e.a.copyOut = true → s.mirrored e.a.ctx = false → c.ring = r → (s.ring r).outstanding.find? (fun k => k.seq == q) = some c → Answers x.2 s fun t => let a := (t.entry i).a
                a.state = .resuming ∧ a.copyOut = false ∧ a.autoResume = false ∧ a.holder = 0 ∧ a.deadline = (if deadline = 0 then e.a.deadline else deadline) ∧ a.maxLen = maxLen ∧
                  (t.req i).appended = ts ∧ (t.req i).reserved = false ∧ (t.req i).landCopy = true ∧ (t.ring r).completed = ringStatuses s c 0 ∧
                  .message "HOLDER_FREE" e.a.holder [s.handle i] ∈ t.out ∧ s.changesOnly t [.regs, .entries, .reqs, .tiers, .streams, .rings, .twin, .out]))))) ∧
      (x.1 = 0x54 → let ver := c.fld 36 0 16; let st := s.versionCheck (s.version ver) c.ctx; let cmds := (s.req i).cmds ++ [reqCmd c ver 0 0 []]
        (st ≠ 0 → say st) ∧
        (st = 0 → e.a.state ≠ .decode → e.a.state ≠ .resuming → (e.a.state ≠ .paused ∨ (s.req i).claimAt.isSome = true) → say 0x0B) ∧
        (st = 0 → (e.a.state = .decode ∨ e.a.state = .resuming ∨ e.a.state = .paused ∧ (s.req i).claimAt = none ∧ e.a.copyOut = true) → Answers x.2 s fun t =>
          t.req i = { s.req i with cmds := cmds } ∧ s.changesOnly t [.reqs]) ∧
        (st = 0 → e.a.state = .paused → (s.req i).claimAt = none → e.a.copyOut = false → Answers x.2 s fun t => t.req i = { s.req i with cmds := cmds, claimAt := some s.now } ∧
          t.out = .message "CLAIM" e.a.holder [s.handle i] :: s.out ∧ s.changesOnly t [.reqs, .out]))))

/-- Holders of paused pages (R329 to R331, R498). A copy that lands at its holder begins a hold of TTL seconds in frames of its Bedrock, and the owner hears of it once the holder's twin
has it too; at the owner COPY_OUT clears and the pages leave at the next boundary. A hold not claimed expires, frees its frames and tells the owner; CLAIM stops that and answers CLAIMED, or
EXPIRED where nothing is held; HOLDER_FREE frees the frames. At the owner EXPIRED ends the request FAILED 0x06, CLAIMED lets the resume or repin that asked take effect, and a return copy
that lands frees the holder. -/
def Obligations.PausesAndHolders : Prop :=
  (∀ (s : State) (owner handle ttl frames : Nat) (lines : List (Line × Bool)), owner ≠ s.self → let i := Instr.pauseCopyLanded owner handle ttl ⟨frames, lines⟩
    let h : Hold := { handle := handle, owner := owner, expiry := s.now / 1000000000 + ttl, pages := (s.holdFrames frames).1, copy := bit s.mirroring }
    ((s.findHold handle).isSome = true ∨ s.fenced = true → Answers i s fun t => t = s.canon) ∧
    (s.findHold handle = none → s.fenced = false → Answers i s fun t => t.findHold handle = some h ∧ (∀ k, k ≠ handle → t.findHold k = s.findHold k) ∧
      (∀ f ∈ h.pages, t.tag f = { ctx := sedCtx, kind := 3 }) ∧
      (∀ k l, h.pages.Nodup → lines[k]? = some l → k < 1024 * h.pages.length → let a := h.pages.getD (k / 1024) 0 * 65536 + 64 * (k % 1024)
        t.lineAt a = l.1 ∧ t.poisonAt a = l.2) ∧
      (s.mirroring = false → t.out = .message "PAUSE_COPY_LANDED" owner [handle] :: s.out ∧ s.changesOnly t [.mem, .tiers, .twin, .out]) ∧
      (s.mirroring = true → (∀ o ∈ t.out, o = .message "PAUSE_COPY_LANDED" owner [handle] → o ∈ s.out) ∧ s.changesOnly t [.regs, .mem, .tiers, .twin, .out]))) ∧
  (∀ (s : State) (handle ttl frames : Nat) (lines : List (Line × Bool)), let i := Instr.pauseCopyLanded s.self handle ttl ⟨frames, lines⟩
    (s.findHandle handle = none → Answers i s fun t => t = s.canon) ∧
    (∀ k, s.findHandle handle = some k → let e := s.entry k; let out := e.a.copyOut = true ∧ e.a.state = .paused ∧ (s.req k).copyDue = false ∧ s.firmwareBusy 2 handle = false
      let h : Hold := { handle := handle, owner := s.self, expiry := s.now / 1000000000 + (s.req k).ttl, pages := (s.req k).held }
      (¬out → Answers i s fun t => t = s.canon) ∧
      (out → e.a.holder = s.self → (s.findHold handle).isSome = true → Answers i s fun t => t = s.canon) ∧
      (out → e.a.holder = s.self → s.findHold handle = none → s.mirroring = true → Answers i s fun t => t.findHold handle = some { h with copy := 1 } ∧
        t.entries = s.entries ∧ t.reqs = s.reqs ∧ s.changesOnly t [.regs, .twin, .out]) ∧
      (out → (e.a.holder ≠ s.self ∨ (s.findHold handle = none ∧ s.mirroring = false)) → Answers i s fun t =>
        (t.entry k).a = { e.a with copyOut := false, expiry := s.now / 1000000000 + (s.req k).ttl } ∧ (t.req k).freeDue = true ∧
        ((∃ c ∈ (s.req k).cmds, c.opcode = 0x54) → (t.req k).claimAt = some s.now ∧ .message "CLAIM" e.a.holder [handle] ∈ t.out) ∧
        ((∀ c ∈ (s.req k).cmds, c.opcode ≠ 0x54) → (t.req k).claimAt = (s.req k).claimAt) ∧
        (e.a.holder = s.self → t.findHold handle = some h) ∧
        (e.a.holder ≠ s.self → t.twin.holds = s.twin.holds) ∧ s.changesOnly t [.regs, .entries, .reqs, .tiers, .twin, .out]))) ∧
  (∀ (s : State) (handle owner : Nat),
    (s.findHold handle = none → Answers (.pauseExpiry handle) s (fun t => t = s.canon) ∧ Answers (.holderFree handle) s (fun t => t = s.canon) ∧
      Answers (.claim handle owner) s (fun t => t.out = .message "EXPIRED" owner [handle] :: s.out ∧ s.changesOnly t [.out])) ∧
    (∀ h, s.findHold handle = some h → let gone := fun t : State => t.findHold handle = none ∧ (∀ k, k ≠ handle → t.findHold k = s.findHold k) ∧
        (h.owner ≠ s.self → ∀ f ∈ h.pages, (t.tag f).kind = 4) ∧ s.changesOnly t [.regs, .mem, .ctxs, .reqs, .tiers, .streams, .twin, .log, .err, .out]
      ((h.claimed = true ∨ s.now / 1000000000 < h.expiry) → Answers (.pauseExpiry handle) s fun t => t = s.canon) ∧
      (h.claimed = false → h.expiry ≤ s.now / 1000000000 → Answers (.pauseExpiry handle) s fun t => gone t ∧ t.out.head? = some (.message "EXPIRED" h.owner [handle])) ∧
      Answers (.holderFree handle) s gone ∧
      Answers (.claim handle owner) s (fun t => t.findHold handle = some { h with claimed := true, owner := owner } ∧
        (∀ k, k ≠ handle → t.findHold k = s.findHold k) ∧ t.out.head? = some (.message "CLAIMED" owner [handle]) ∧ s.changesOnly t [.regs, .twin, .out]))) ∧
  (∀ (s : State) (handle : Nat),
    (s.findHandle handle = none → ∀ i ∈ [Instr.expiredNotice handle, .claimed handle, .returnCopyLanded handle], Answers i s fun t => t = s.canon) ∧
    (∀ k, s.findHandle handle = some k → let e := s.entry k; let r := s.req k
      let waits := e.a.state = .paused ∨ (e.a.state = .resuming ∧ r.claimAt.isSome = true)
      (¬waits → Answers (.expiredNotice handle) s fun t => t = s.canon) ∧
      (waits → Answers (.expiredNotice handle) s fun t => (t.entry k).a.state = .failed ∧ (t.entry k).b.endCode = 6 ∧ (t.req k).claimAt = none ∧ (t.req k).endDue = true ∧
        t.getF .SL_EXPIRED_COUNT = (s.getF .SL_EXPIRED_COUNT + 1) % 2 ^ Fld.SL_EXPIRED_COUNT.len ∧ (∀ c ∈ (t.req k).cmds, c.opcode ≠ 0x53 ∧ c.opcode ≠ 0x54) ∧
        (∀ j, j ≠ k → t.entry j = s.entry j) ∧ s.changesOnly t ([.entries, .reqs, .rings, .twin] ++ noteParts)) ∧
      (r.claimAt = none → Answers (.claimed handle) s fun t => t = s.canon) ∧
      (r.claimAt.isSome = true → e.a.state = .resuming → Answers (.claimed handle) s fun t => (t.entry k).a = { e.a with copyIn := true } ∧ t.req k = { r with claimAt := none } ∧
        t.out.head? = some (.message "RETURN_COPY" e.a.holder (s.handle k :: t.extentAddrs k 0 e.a.pages)) ∧ s.changesOnly t [.entries, .reqs, .tiers, .streams, .out]) ∧
      (r.claimAt.isSome = true → e.a.state ≠ .resuming → e.a.state ≠ .paused → Answers (.claimed handle) s fun t => t.req k = { r with claimAt := none } ∧ s.changesOnly t [.reqs]) ∧
      (∀ c, r.claimAt.isSome = true → e.a.state = .paused → r.cmds.find? (fun k => k.opcode == 0x53) = some c → Answers (.claimed handle) s fun t =>
        (t.entry k).a = { e.a with state := .resuming, autoResume := false, deadline := (if c.arg1 = 0 then e.a.deadline else c.arg1),
                                   maxLen := (if c.arg2 = 0 then e.a.maxLen else c.arg2) } ∧
        t.req k = { r with claimAt := none, appended := c.tokens, reserved := false, landCopy := false, cmds := r.cmds.filter fun x => x.opcode != 0x53 } ∧
        s.changesOnly t [.regs, .entries, .reqs, .rings, .twin, .out]) ∧
      (∀ c, r.claimAt.isSome = true → e.a.state = .paused → (∀ x ∈ r.cmds, x.opcode ≠ 0x53) → r.cmds.find? (fun k => k.opcode == 0x54) = some c →
        Answers (.claimed handle) s fun t => (t.entry k).a.state = .admitted ∧ (t.entry k).a.hitLen = 0 ∧ (t.entry k).a.pages = 0 ∧ (t.entry k).b.version = c.arg1 ∧
          (t.req k).lookup = 2 ∧ (t.req k).reserved = false ∧ (t.req k).extents = [] ∧ (t.req k).tokens = r.tokens ∧ .message "HOLDER_FREE" e.a.holder [handle] ∈ t.out ∧
          s.changesOnly t (.mem :: [.entries, .reqs, .tiers, .ctxs, .rings, .twin] ++ noteParts)) ∧
      (r.claimAt.isSome = true → e.a.state = .paused → (∀ x ∈ r.cmds, x.opcode ≠ 0x53 ∧ x.opcode ≠ 0x54) → Answers (.claimed handle) s fun t =>
        (t.entry k).a.state = (if e.a.takenOver then .resuming else .paused) ∧ (t.req k).claimAt = none ∧ t.out = s.out ∧ s.changesOnly t [.entries, .reqs]) ∧
      ((e.a.state ≠ .resuming ∨ e.a.copyIn = false) → Answers (.returnCopyLanded handle) s fun t => t = s.canon) ∧
      (e.a.state = .resuming → e.a.copyIn = true → r.restore = none → s.firmwareBusy 3 handle = true → Answers (.returnCopyLanded handle) s fun t => t = s.canon) ∧
      (e.a.state = .resuming → e.a.copyIn = true → r.restore = none → s.firmwareBusy 3 handle = false → Answers (.returnCopyLanded handle) s fun t =>
        (t.entry k).a = { e.a with copyIn := false, holder := 0 } ∧ t.req k = { r with landCopy := true } ∧ t.out.head? = some (.message "HOLDER_FREE" e.a.holder [handle]) ∧
          s.changesOnly t [.entries, .reqs, .tiers, .out]) ∧
      (e.a.state = .resuming → e.a.copyIn = true → r.restore.isSome = true → Answers (.returnCopyLanded handle) s fun t =>
        (t.entry k).a = { e.a with copyIn := false } ∧ (t.req k).landCopy = true ∧ (t.req k).extents = r.extents ∧
          s.changesOnly t (.mem :: [.entries, .reqs, .tiers, .ctxs] ++ noteParts)))) ∧
  (∀ (s : State) (m units : Nat), Answers (.freeBedrockReport m units) s fun t => SMap.get 0 t.tiers.reports m = units ∧
    (∀ k, k ≠ m → SMap.get 0 t.tiers.reports k = SMap.get 0 s.tiers.reports k) ∧ t.tiers = { s.tiers with reports := t.tiers.reports } ∧ s.changesOnly t [.tiers])

/-- Work items (R333, R334, R481). A prefill module that holds the version computes an item and answers PROGRESS, LAST_LAYER, its writes, with the time to when its KV is due (R235), and
DONE in that order, or FAILED. At the
owner a notice counts only where it names the current job of an item that is out: progress restarts the wait, LAST_LAYER passes PREFILL to SHIPPING, DONE ends the item, FAILED and a silence
of WORK_MS make it due to be sent again. -/
def Obligations.WorkItems : Prop :=
  (∀ (s : State) (handle owner c ver first count job due : Nat) (addrs : List Nat) (good : Bool), let i := Instr.workItem handle owner c ver first count ⟨job, due⟩ addrs good
    let can := good = true ∧ ((s.version ver).state = 2 ∨ (s.version ver).state = 3) ∧ count ≠ 0 ∧ s.board.poolRole = 1
    (s.fenced = true → Answers i s fun t => t = s.canon) ∧
    (s.fenced = false → can → Answers i s fun t => s.changesOnly t [.regs, .out] ∧
      t.getF .STREAM_CTX_BYTES_COUNT (seatOff 0 + inst c) = (s.getF .STREAM_CTX_BYTES_COUNT (seatOff 0 + inst c) + count * (s.version ver).layers * (s.version ver).kvLayer / 256) %
        2 ^ Fld.STREAM_CTX_BYTES_COUNT.len ∧ t.out = .message "DONE" owner [handle, job] ::
      .message "SHIP" owner (handle :: c :: first :: count :: job :: needNs due s.now :: addrs) :: .message "LAST_LAYER" owner [handle, job] :: .message "PROGRESS" owner [handle, job] :: s.out) ∧
    (s.fenced = false → ¬can → Answers i s fun t => t.out = .message "FAILED" owner [handle, job] :: s.out ∧ s.changesOnly t [.out])) ∧
  (∀ (s : State) (handle job : Nat),
    (s.workEntry handle job = none → ∀ i ∈ [Instr.progress handle job, .lastLayer handle job, .doneNotice handle job, .failedNotice handle job], Answers i s fun t => t = s.canon) ∧
    (∀ k, s.workEntry handle job = some k → let e := s.entry k; let parts := if s.mirrored e.a.ctx then [Part.regs, .entries, .twin, .out] else [.entries, .twin]
      Answers (.progress handle job) s (fun t => t.req k = { s.req k with workSince := s.now } ∧ (∀ j, j ≠ k → t.req j = s.req j) ∧ s.changesOnly t [.reqs]) ∧
      Answers (.failedNotice handle job) s (fun t => t.req k = { s.req k with resendDue := true } ∧ (∀ j, j ≠ k → t.req j = s.req j) ∧ s.changesOnly t [.reqs]) ∧
      (e.a.state = .prefill → Answers (.lastLayer handle job) s fun t => (t.entry k).a = { e.a with state := .shipping } ∧ t.req k = { s.req k with workSince := s.now } ∧
        (∀ j, j ≠ k → t.entry j = s.entry j) ∧ s.changesOnly t (.reqs :: parts)) ∧
      (e.a.state ≠ .prefill → Answers (.lastLayer handle job) s fun t => t = s.canon) ∧
      (e.a.state = .shipping → Answers (.doneNotice handle job) s fun t => (t.entry k).a = { e.a with workOut := false } ∧ (∀ j, j ≠ k → t.entry j = s.entry j) ∧
        s.changesOnly t (.tiers :: .out :: parts)) ∧
      (e.a.state ≠ .shipping → Answers (.doneNotice handle job) s fun t => t = s.canon))) ∧
  (∀ (s : State) (handle : Nat), (s.findHandle handle = none → Answers (.workTimeout handle) s fun t => t = s.canon) ∧
    (∀ k, s.findHandle handle = some k → let silent := (s.entry k).a.workOut = true ∧ (s.req k).workSince + atLeast1 (s.getF .SL_CTRL_WORK_MS) * 1000000 ≤ s.now
      (silent → Answers (.workTimeout handle) s fun t => t.req k = { s.req k with resendDue := true } ∧ (∀ j, j ≠ k → t.req j = s.req j) ∧ s.changesOnly t [.reqs]) ∧
      (¬silent → Answers (.workTimeout handle) s fun t => t = s.canon)))

/-- Every stream belongs to a command that the engines have had and that has launched. -/
def Sys2Proof.Machine.State.noneWaits (s : State) : Prop :=
  ∀ x ∈ s.streams.insts, x.cmd < s.streams.nextId ∧ ∀ k ∈ s.streams.cmds, k.id = x.cmd → k.launched = true

/-- The step (R319, R320, R326, R327, R336, R482). A boundary runs once the step is done, or idle on a DECODE module, and lets a step be launched: it is the events of Table 11.4, and leaves
switches, interfaces, slices, the Sediment index, seats and the board alone. A commit appends the token, moves CUR_LEN and STEPS by one and ends the request with the first that holds of EOS, a stop string, MAX_LEN, a HARD
deadline passed, where no fault of its writes ends the request. STEP_LAUNCH waits for the twin; with no one to run or while stalled or in M1 it goes idle; else one sub-batch a version starts, in ascending version. Each sub-batch that
completes brings the next; the last ends the step, or begins it again where it must be run again. -/
def Obligations.TheStep : Prop :=
  (∀ (s : State) (bad pool : List Nat) (sites : List ShapeSite), let b := s.boundary bad pool sites
    let parts := faultParts ++ [.mem, .seals, .step, .pwr]
    (s.step.phase = 3 → s.fenced = false → Answers (.stepBoundary bad pool sites) s fun t => t = ({ b with step := { b.step with phase := 1, lastEnd := b.now } } : State).canon ∧
      t.step.phase = 1 ∧ t.step.lastEnd = s.now ∧ s.changesOnly t parts) ∧
    ((s.step.phase ≠ 3 ∨ s.fenced = true) → Answers (.stepBoundary bad pool sites) s fun t => t = s.canon) ∧
    (s.step.phase = 0 → s.board.poolRole = 2 → s.fenced = false → Answers (.idleBoundary bad pool sites) s fun t =>
      t = ({ b with step := { b.step with phase := 1, lastEnd := b.now } } : State).canon ∧ t.step.phase = 1 ∧ t.step.lastEnd = s.now ∧ s.changesOnly t parts) ∧
    ((s.step.phase ≠ 0 ∨ s.board.poolRole ≠ 2 ∨ s.fenced = true) → Answers (.idleBoundary bad pool sites) s fun t => t = s.canon)) ∧
  (∀ (s : State) (i : Nat) (x : Tok), let e := s.entry i; let late := s.lateNow i; let u := s.placeToken i x late; let w := u.testFinal i x late
    (u.req i).tokens = (s.req i).tokens ++ [x.id] ∧ (u.entry i).a.curLen = e.a.curLen + 1 ∧ (u.entry i).b.steps = (e.b.steps + 1) % 2 ^ 32 ∧
    (u.entry i).a.late = (e.a.late || late) ∧
    (e.a.state = .decode → (u.entry i).a.state = .decode → (∀ j, j ≠ i → u.entry j = s.entry j) ∧
      let eos := x.id = (s.version e.b.version).eos; let stop := stopMatch (u.req i) = true; let full := e.a.curLen + 1 = e.a.maxLen
      (eos → (w.entry i).a.state = .done ∧ (w.entry i).b.endCode = 1) ∧ (¬eos → stop → (w.entry i).a.state = .done ∧ (w.entry i).b.endCode = 2) ∧
      (¬eos → ¬stop → full → (w.entry i).a.state = .done ∧ (w.entry i).b.endCode = 3) ∧
      (¬eos → ¬stop → ¬full → late = true → e.a.hard = true → (w.entry i).a.state = .cancelled ∧ (w.entry i).b.endCode = 5) ∧
      (¬eos → ¬stop → ¬full → (late = false ∨ e.a.hard = false) → (w.entry i).a.state = .decode) ∧
      (∃ k, (w.req i).unposted = (s.req i).unposted ++ [k] ∧ k.id = x.id ∧ k.pos = e.a.curLen))) ∧
  (∀ (s : State), let ready := s.step.phase = 1 ∧ s.fenced = false ∧ (s.mirroring = false ∨ s.twin.unacked = [])
    (¬ready → Answers .stepLaunch s fun t => t = s.canon) ∧
    (ready → s.mayLaunch = false → Answers .stepLaunch s fun t => t.step = { s.step with phase := 0, subs := [] } ∧ s.changesOnly t [.step]) ∧
    (ready → s.mayLaunch = true → (∀ i, i ∈ s.liveEntries → s.mayStep i = false) → Answers .stepLaunch s fun t => t.step = { s.step with phase := 0, subs := [] } ∧
      s.changesOnly t [.regs, .step]) ∧
    (ready → s.mayLaunch = true → (∃ i, i ∈ s.liveEntries ∧ s.mayStep i = true) → (∀ i ∈ s.liveEntries, (s.req i).countsBad = false) → s.noneWaits → Answers .stepLaunch s fun t =>
      t.step.phase = 2 ∧ t.step.subs = s.buildSubs ∧ t.step.replay = false ∧ t.getF .SL_STEP_SUBBATCHES = s.buildSubs.length % 2 ^ Fld.SL_STEP_SUBBATCHES.len ∧
        t.getF .SL_STEP_T_LAUNCH = s.now % 2 ^ Fld.SL_STEP_T_LAUNCH.len ∧ t.getF .SL_STEP_STEPS = (s.getF .SL_STEP_STEPS + 1) % 2 ^ Fld.SL_STEP_STEPS.len ∧
        (∀ i, i ∈ s.liveEntries → s.mayStep i = true → (t.req i).inStep = true ∧ (t.req i).sampled = none) ∧
        (∀ i, (i ∉ s.liveEntries ∨ s.mayStep i = false) → t.req i = s.req i) ∧ t.entries = s.entries)) ∧
  (∀ (s : State), s.buildSubs.Pairwise (fun a b => a.ver < b.ver) ∧ ∀ b ∈ s.buildSubs, b.entries ≠ [] ∧ b.rigId = (s.version b.ver).decodeRig ∧
    ∀ i ∈ b.entries, (s.entry i).b.version = b.ver ∧ s.mayStep i = true) ∧
  (∀ (s : State), let runs := s.step.phase = 2 ∧ (∀ b ∈ s.step.subs, s.roundOpen b.ctx = false) ∧ ∀ b ∈ s.step.subs.take 1, s.subBusy b = false
    (¬runs → Answers .subBatchComplete s fun t => t = s.canon) ∧
    (∀ a b rest, runs → s.step.subs = a :: b :: rest → Answers .subBatchComplete s fun t => t.step = { s.step with subs := b :: rest } ∧ (s.noneWaits → t.entries = s.entries ∧ t.reqs = s.reqs)) ∧
    (runs → s.step.subs.length ≤ 1 → s.step.replay = false → s.wpkg.waits = [] → (∀ v ∈ s.wpkg.versions, v.state ≠ 3) → Answers .subBatchComplete s fun t =>
      t.step = { s.step with phase := 3, subs := [] } ∧ s.changesOnly t [.regs, .wpkg, .step]) ∧
    (runs → s.step.subs.length ≤ 1 → s.step.replay = true → Answers .subBatchComplete s fun t => t.step.subs = s.buildSubs ∧ t.step.replay = false ∧
      t.step.phase = (if s.buildSubs = [] then 3 else 2) ∧ (∀ k ∈ t.scat.layers, ∀ b ∈ s.buildSubs, k.ctx ≠ b.ctx) ∧
      (s.noneWaits → s.changesOnly t [.regs, .step, .scat, .streams, .rings, .out])))

/-! ### Links and the fabric (chapter 13) -/

/-- Ports (R364 to R366, R370, R373 to R377, R379, R380, R393). A flit whose HCRC fails and a block that cannot be corrected have NAK sent with the last good sequence; symbols corrected are counted;
a LINK flit acknowledges and returns credits, and a NAK in it has what is unacknowledged sent again. Training ends with all four lanes or two adjacent ones, or fails, the third
time to DOWN. A beacon confirms a peer that agrees with the port's role, marks one that does not MISWIRED, takes the port out where it shows an identity in conflict. A retrain waits for the messages
queued, then takes the port out of service, counts and logs it; DISABLE holds a port DISABLED; a port is lost with its block lock or eight replays; its messages move on. A host's RETRAIN and DISABLE are
denied. A block is its count, 4,250 bits of the flit stream and their parity, dealt over the lanes; the next flit of a port is chosen in the order given. -/
def Obligations.Ports : Prop :=
  (∀ (s : State) (port : Nat), let p := port % 32; let x := s.port p; let st := s.portState p; let parts := Part.fab :: noteParts
    let calm := (∀ o ∈ x.outq, ¬(o.msg.src = s.self ∧ o.msg.kind = 9)) ∧ ∀ c ∈ s.fab.cross, c.port = p → ¬(c.out.msg.src = s.self ∧ c.out.msg.kind = 9)
    let out := fun (t : State) (v : Nat) => s.changesOnly t faultParts ∧ (calm → t.portState p = v ∧ (t.port p).trained = false ∧ (t.port p).confirmed = false ∧
      (t.port p).unacked = [] ∧ (t.port p).outq = [] ∧ (t.port p).used = [0, 0, 0, 0, 0, 0, 0, 0] ∧ s.changesOnly t parts)
    let nak := fun (y : PortFab) => { y with owed := none, back := List.replicate 8 0, linkq := y.linkq ++
      [linkMsg 1 (packBytes ((2, (x.rxSeq + 4095) % 4096 + 4096) :: (List.range 8).map fun v => (2, x.back.getD v 0)))] }
    (s.portUp p = false → (∀ b, Answers (.flitDamaged port b) s fun t => t = s.canon) ∧ Answers (.linkRetrain port) s (fun t => t = s.canon) ∧
      (∀ b, Answers (.linkLoss port b) s fun t => t = s.canon) ∧ ∀ lane n, Answers (.transmitterFfeStep port lane n) s fun t => t = s.canon) ∧
    (s.portUp p = true →
      (∀ bs, (hcrcOk bs = true → Answers (.flitDamaged port (.flit bs)) s fun t => t = s.canon) ∧
        (hcrcOk bs = false → Answers (.flitDamaged port (.flit bs)) s fun t => t.port p = nak x ∧ (∀ k, k ≠ p → t.port k = s.port k) ∧ s.changesOnly t [.fab])) ∧
      (∀ sy, (∀ r, rsDecode (sy.drop 1) = some r → Answers (.flitDamaged port (.block sy)) s fun t =>
          t.getF .FAB_PORT_FEC_CORR_SYMBOLS (inst p) = (s.getF .FAB_PORT_FEC_CORR_SYMBOLS (inst p) + r.1) % 2 ^ Fld.FAB_PORT_FEC_CORR_SYMBOLS.len ∧ s.changes t [Reg.FAB_PORT_FEC + inst p] []) ∧
        (rsDecode (sy.drop 1) = none → Answers (.flitDamaged port (.block sy)) s fun t => t.out = .port p "DISCARD" (blockFlits (sy.headD 0)) :: s.out ∧
          t.getF .FAB_PORT_FEC_UNCORR_BLOCKS (inst p) = (s.getF .FAB_PORT_FEC_UNCORR_BLOCKS (inst p) + 1) % 2 ^ Fld.FAB_PORT_FEC_UNCORR_BLOCKS.len ∧
          t.port p = nak (if x.uncorr = 0 ∨ x.uncorrSince + 1000000 < s.now then { x with uncorr := 1, uncorrSince := s.now } else { x with uncorr := x.uncorr + 1 }) ∧
          s.changes t [Reg.FAB_PORT_FEC + inst p] [.fab, .out])) ∧
      (let many := 16 < x.uncorr ∧ s.now ≤ x.uncorrSince + 1000000
       (many → (x.outq = [] ∧ x.unacked = []) → Answers (.linkRetrain port) s fun t => t = (s.retrain p).canon ∧ out t 6) ∧
       (many → ¬(x.outq = [] ∧ x.unacked = []) → Answers (.linkRetrain port) s fun t => t.port p = { x with drain := some (x.drain.getD s.now) } ∧ s.changesOnly t [.fab]) ∧
       (¬many → Answers (.linkRetrain port) s fun t => t = s.canon)) ∧
      (∀ b, (b = true ∨ 8 ≤ x.replays) → Answers (.linkLoss port b) s fun t => t = (s.portLost p).canon ∧ out t 0) ∧
      (x.replays < 8 → Answers (.linkLoss port false) s fun t => t = s.canon) ∧
      (∀ lane n, let blocks := if st = 3 then 10000 else 20000
        Answers (.transmitterFfeStep port lane n) s fun t =>
          t.getF .FAB_PORT_FEC_CORR_SYMBOLS (inst p) = (s.getF .FAB_PORT_FEC_CORR_SYMBOLS (inst p) + n) % 2 ^ Fld.FAB_PORT_FEC_CORR_SYMBOLS.len ∧
          t.out = (if 4 * blocks < n then [.port p "FFE_STEP" [lane]] else []) ++ s.out ∧ s.changes t [Reg.FAB_PORT_FEC + inst p] [.out])) ∧
    (∀ lanes asym, let i := Instr.portTrain port lanes asym
      (st ≠ 1 → st ≠ 6 → Answers i s fun t => t = s.canon) ∧
      (st = 1 ∨ st = 6 → let on := activeLanes lanes
        (lanes % 16 = 15 → Answers i s fun t => t.getF .FAB_PORT_STAT_LANES (inst p) = 4 ∧
          t.port p = { x.fresh with trained := true, fails := 0, lane0 := 0, asym := asym } ∧ s.changes t [Reg.FAB_PORT_STAT + inst p] [.fab]) ∧
        (on.length = 2 → Answers i s fun t => t.getF .FAB_PORT_STAT_LANES (inst p) = 2 ∧
          t.port p = { x.fresh with trained := true, fails := 0, lane0 := on.headD 0, asym := asym } ∧ s.changesOnly t parts) ∧
        (on = [] → x.fails < 2 → Answers i s fun t => t.port p = { x with fails := x.fails + 1 } ∧ s.changesOnly t [.fab]) ∧
        (on = [] → 2 ≤ x.fails → Answers i s fun t => out t 0 ∧ (calm → (t.port p).fails = 0)))) ∧
    (∀ ack (again : Bool) credits, let i := Instr.link port ack again credits; let left := ackTo x.unacked ack; let moved := left.length ≠ x.unacked.length
      let y : PortFab := { x with unacked := left, used := (List.range 8).map fun v => x.used.getD v 0 - credits.getD v 0,
                                   replay := if again then left else x.replay.filter left.contains,
                                   replays := if again then (if moved then 1 else x.replays + 1) else if moved then 0 else x.replays }
      Answers i s (fun t => s.changesOnly t faultParts) ∧
      (s.fab.held = [] →
        (s.portUp p = false → Answers i s fun t => t = s.canon) ∧
        (s.portUp p = true → again = false → Answers i s fun t => t.port p = y ∧ (∀ k, k ≠ p → t.port k = s.port k) ∧ s.changesOnly t [.fab]) ∧
        (s.portUp p = true → again = true → y.replays < 8 → Answers i s fun t => t.port p = y ∧
          t.getF .FAB_PORT_FEC_REPLAYS (inst p) = (s.getF .FAB_PORT_FEC_REPLAYS (inst p) + 1) % 2 ^ Fld.FAB_PORT_FEC_REPLAYS.len ∧ s.changesOnly t parts) ∧
        (s.portUp p = true → again = true → 8 ≤ y.replays → Answers i s fun t => out t 0))) ∧
    (let period := atLeast1 (s.getF .FAB_CTRL_BEACON_US) * 1000; let send := x.trained = true ∧ st ≠ 0 ∧ st ≠ 5 ∧ x.beaconAt + period ≤ s.now
      (¬send → Answers (.beaconSend port) s fun t => t = s.canon) ∧
      (send → let l := (s.lportOf p).getD 0; let role := if 3 < s.lpRole l then 0 else s.lpRole l
        Answers (.beaconSend port) s fun t => t.port p = { x with beaconAt := s.now, linkq := x.linkq ++ [linkMsg 2 (packBytes
          [(8, s.getF .IDENT_SERIAL_0_SERIAL_LO), (8, s.getF .IDENT_SERIAL_1_SERIAL_HI), (2, s.getF .FAB_ID_MODULE_ID + 2 ^ 15 * s.getF .FAB_ID_VALID), (2, s.rack),
            (1, s.getF .FAB_ID_TRAY), (1, s.getF .FAB_ID_SLOT), (1, p), (1, role + (if role = 1 then 16 * s.lpDim l else 0)), (4, 0)])] } ∧ s.changesOnly t [.fab])) ∧
    (∀ b : Beacon, let i := Instr.beacon port b; let takes := x.trained = true ∧ st ≠ 0 ∧ st ≠ 5 ∧ st ≠ 4 ∧ x.conflict = false
      let same := s.getF .FAB_PORT_STAT_PEER_ID (inst p) = (if b.isSwitch then b.switchId else b.moduleId) % 2 ^ 15 ∧ s.flag .FAB_PORT_STAT_PEER_SWITCH (inst p) = b.isSwitch
      (¬takes → Answers i s fun t => t = s.canon) ∧
      (takes → (s.board.excluded = some b.serial ∨ s.idConflict b = true) → Answers i s fun t => out t 0 ∧ (calm → (t.port p).conflict = true ∧ (t.port p).peerSerial = b.serial)) ∧
      (takes → s.board.excluded ≠ some b.serial → s.idConflict b = false →
        (x.confirmed = true → same → Answers i s fun t => t = s.canon) ∧
        (x.confirmed = true → ¬same → Answers i s fun t => t = (s.miswire p b).canon ∧ s.changesOnly t faultParts ∧ (calm → t.portState p = 4 ∧ s.changesOnly t parts)) ∧
        (x.confirmed = false → s.peerAgrees p b = false → Answers i s fun t => t = (s.miswire p b).canon ∧ s.changesOnly t faultParts ∧ (calm → t.portState p = 4 ∧ s.changesOnly t parts)) ∧
        (x.confirmed = false → s.peerAgrees p b = true → Answers i s fun t => t.portState p = (if s.getF .FAB_PORT_STAT_LANES (inst p) = 2 then 3 else 2) ∧
          (t.port p).confirmed = true ∧ (t.port p).peerSerial = b.serial ∧ t.getF .FAB_PORT_STAT_PEER_PORT (inst p) = b.port % 2 ^ Fld.FAB_PORT_STAT_PEER_PORT.len ∧
          t.getF .FAB_PORT_STAT_PEER_ID (inst p) = (if b.isSwitch then b.switchId else b.moduleId) % 2 ^ Fld.FAB_PORT_STAT_PEER_ID.len ∧ s.changesOnly t parts))) ∧
    (∀ m v, (m = .pf → Answers (.retrain m port v) s (fun t => t = (s.notice (blockCode Reg.FAB_PORT_CTRL) nAccessDenied Reg.FAB_PORT_CTRL).canon) ∧
        Answers (.disable m port v) s (fun t => t = (s.notice (blockCode Reg.FAB_PORT_CTRL) nAccessDenied Reg.FAB_PORT_CTRL).canon)) ∧
      (m.host = false →
        (v % 2 = 1 → st ≠ 5 → st ≠ 1 → st ≠ 6 → (s.portUp p = false ∨ (x.outq = [] ∧ x.unacked = [])) → Answers (.retrain m port v) s fun t => t = (s.retrain p).canon ∧ out t 6 ∧
          (calm → (t.port p).uncorr = 0 ∧ t.getF .FAB_PORT_STAT_RETRAINS (inst p) = min 65535 (s.getF .FAB_PORT_STAT_RETRAINS (inst p) + 1))) ∧
        (v % 2 = 1 → s.portUp p = true → ¬(x.outq = [] ∧ x.unacked = []) → Answers (.retrain m port v) s fun t => t.port p = { x with drain := some (x.drain.getD s.now) } ∧ s.changesOnly t [.fab]) ∧
        ((v % 2 = 0 ∨ st = 5 ∨ st = 1 ∨ st = 6) → Answers (.retrain m port v) s fun t => t = s.canon) ∧
        (v % 2 = 1 → st ≠ 5 → Answers (.disable m port v) s fun t => out t 5 ∧ (calm → t.getF .FAB_PORT_CTRL_DISABLE (inst p) = 1)) ∧
        (v % 2 = 0 → st = 5 → Answers (.disable m port v) s fun t => t.portState p = 1 ∧ t.getF .FAB_PORT_CTRL_DISABLE (inst p) = 0 ∧ (t.port p).trained = false ∧
          (t.port p).confirmed = false ∧ (t.port p).unacked = [] ∧ s.changes t [Reg.FAB_PORT_CTRL + inst p, Reg.FAB_PORT_STAT + inst p] [.fab]) ∧
        ((v % 2 = 1 ↔ st = 5) → Answers (.disable m port v) s fun t => t.getF .FAB_PORT_CTRL_DISABLE (inst p) = v % 2 ∧ s.changes t [Reg.FAB_PORT_CTRL + inst p] [])))) ∧
  (∀ count stream, let b := fecBlock count stream; b.length = 448 ∧ b.getD 0 0 = count % 1024 ∧ (∀ i, i < 425 → b.getD (i + 1) 0 = natBits stream (10 * i) 10) ∧
    ∀ n i, n = 4 ∨ n = 2 → i < 448 → (laneSymbols n (i % n) b).getD (i / n) 0 = b.getD i 0) ∧
  (∀ x : PortFab, let link := x.linkq ≠ [] ∧ (x.outq = [] ∨ 31 ≤ x.sinceLink); let ctl := (x.headOf 4).orElse fun _ => x.headOf 0
    let others := ∃ o ∈ x.outq, o.msg.cls % 4 ≠ 0; let first := ctl.isSome = true ∧ (¬others ∨ 3 ≤ x.sinceCtl)
    (∀ f r, x.replay = f :: r → x.choose = .again f) ∧
    (x.replay = [] → (∀ m r, link → x.linkq = m :: r → x.choose = .link m) ∧
      (¬link → (∀ i, ctl = some i → first → x.choose = .next i false) ∧
        (¬first → (∀ i, 15 ≤ x.sinceTransit → x.transitHead = some i → x.choose = .next i false) ∧
          ((x.sinceTransit < 15 ∨ x.transitHead = none) → (∀ i, x.turnHead = some i → x.choose = .next i true) ∧ (x.turnHead = none → x.choose = .idle)))))) ∧
  ∀ (o : OutMsg) seq, (o.flit seq).msg.hops = o.msg.hops + if o.inPort = none then 0 else 1

/-- Messages and memory over the fabric (R29, R197, R368, R372, R385, R390, R395, R397). A message is discarded, and counted, past its lifetime, ahead of time, out of hops, cut short, of a copy
reclaimed, or of a slice that has no member here; else it is delivered, queued on its port or on its way over the bridges to it, or held for tables or credit. A read is answered with the bytes or REFUSED, a write is applied
whole or refused whole, and each is answered; beats of a circuit
that crosses the fabric land at its gateway, and the credits with them are added to the circuit's; a reservation that does not hold is logged and refused. The fault a transit reports tears the context down where it is a violation of its slice, a lost
BEAT message likewise. -/
def Obligations.MessagesAndMemory : Prop :=
  (∀ (s : State) (m : FabMsg) (e : Ingress), let i := Instr.messageForward m e; let at_ := e.norm.at_
    let go := s.open_ e.norm = true ∧ s.flag .FAB_STATUS_ROUTED = true
    let u := match e with
      | .port k => (s.bump .FAB_RX_FLITS_COUNT m.flits).modPort (k % 32) fun x => { x with rxSeq := (x.rxSeq + m.flits) % 4096, owed := some (x.owed.getD s.now) }
      | .seat _ => s
    let o : OutMsg := match e with
      | .port k => { msg := m, inPort := some (k % 32), inVc := vcOf m.cls m.esc, transit := m.src != s.self && !s.inSlice m.slice }
      | .seat _ => { msg := { m with src := s.self, rgen := s.getF .FAB_STATUS_INJ_COPY, birth := s.now, hops := 0 }, inPort := none, inVc := vcOf m.cls m.esc, transit := false }
    let x := o.msg
    let why := match s.stampFault x.birth x.hops with
      | some b => some b
      | none => if m.trunc ∧ x.dst = s.self then some 9 else if s.copyLive x.rgen = false then some 10 else if x.dst = s.self ∧ s.inSlice m.slice = false then some 11 else none
    (¬go → Answers i s fun t => t = s.canon) ∧
    (∀ b, go → why = some b → Answers i s fun t => t = (u.discardOut o b).canon ∧
      s.changesOnly t faultParts ∧ (¬(x.src = s.self ∧ x.kind = 9) → t.getF .FAB_DROPS_COUNT = (s.getF .FAB_DROPS_COUNT + 1) % 2 ^ Fld.FAB_DROPS_COUNT.len ∧ s.changesOnly t (.fab :: noteParts))) ∧
    (go → why = none →
      (u.route x x.rgen = .here → Answers i s fun t => t = (u.freeInput o x.flits).canon) ∧
      (u.route x x.rgen = .unreach → Answers i s fun t => t = (u.discardOut o 8).canon) ∧
      (∀ p esc, u.route x x.rgen = .out p esc → let y : OutMsg := { o with msg := { x with esc := x.esc || esc } }; let vc := vcOf x.cls (x.esc || esc)
        Answers i s fun t => (t.port p).used = (u.port p).used.set vc ((u.port p).used.getD vc 0 + x.flits) ∧
        (at_ = p / 4 → (t.port p).outq = (u.port p).outq ++ [y] ∧ t.fab.cross = s.fab.cross) ∧
        (at_ ≠ p / 4 → (t.port p).outq = (u.port p).outq ∧ t.fab.cross = s.fab.cross ++ [{ out := y, seat := at_, port := p, left := x.flits }]) ∧ s.changesOnly t [.regs, .fab]) ∧
      (u.route x x.rgen = .noCredit → Answers i s fun t => t.fab = { u.fab with held := s.fab.held ++ [{ out := o, seat := at_, forTables := false }] } ∧ s.changesOnly t [.regs, .fab]) ∧
      (u.route x x.rgen = .noRoute → Answers i s fun t => t.fab = { u.fab with held := s.fab.held ++ [{ out := o, seat := at_, forTables := true }], escLogged := true } ∧
        t.getF .FAB_HELD_COUNT = (s.getF .FAB_HELD_COUNT + 1) % 2 ^ Fld.FAB_HELD_COUNT.len ∧ s.changesOnly t (.fab :: noteParts)))) ∧
  (∀ (s : State), let old := (s.fab.held.map (·.out) ++ s.fab.cross.map (·.out)).filter fun o => s.aged o.msg
    (old = [] → Answers .heldExpiry s fun t => t = s.canon) ∧
    ((∀ o ∈ old, ¬(o.msg.src = s.self ∧ o.msg.kind = 9)) → Answers .heldExpiry s fun t => (∀ h ∈ t.fab.held, s.aged h.out.msg = false) ∧
      t.fab.held = s.fab.held.filter (fun h => !s.aged h.out.msg) ∧ t.fab.cross = s.fab.cross.filter (fun c => !s.aged c.out.msg) ∧
      t.getF .FAB_DROPS_COUNT = (s.getF .FAB_DROPS_COUNT + old.length) % 2 ^ Fld.FAB_DROPS_COUNT.len ∧ s.changesOnly t (.fab :: noteParts)) ∧
    Answers .heldExpiry s fun t => s.changesOnly t faultParts) ∧
  (∀ (s : State) (slice c cause : Nat),
    (((s.ctx c).valid = false ∨ cause ≠ 11) → Answers (.transitFault slice c cause) s fun t => t = s.canon) ∧
    ((s.ctx c).valid = true → Answers (.transitFault slice c 11) s fun t => t = (s.fabFault 11 3 0 s.self slice c).canon ∧ s.changesOnly t faultParts) ∧
    ((s.ctx c).valid = false → Answers (.flitLoss slice c) s fun t => t = s.canon) ∧
    ((s.ctx c).valid = true → Answers (.flitLoss slice c) s fun t => t = (s.fabFault 7 3 0 s.self slice c).canon ∧ s.changesOnly t faultParts)) ∧
  (∀ (s : State) (h : MemHdr), let off := h.addr % 2 ^ 45; let mine := h.addr / 2 ^ 45 = s.self; let plain := h.handle = 0
    (∀ b, s.arrives h false = some b → Answers (.rdReq h) s fun t => t = (s.discard (h.msg 5 s.self) b).canon ∧ s.changesOnly t noteParts) ∧
    (s.arrives h false = none →
      let ok := mine ∧ (plain → s.tagCheck h.ctx off h.gen false = none) ∧ (¬plain → s.reservedFor h = true)
      let lines := (List.range ((off % 64 + h.len + 63) / 64)).map fun i => bit (s.poisonAt (off / 64 * 64 + 64 * i) || s.portDead off)
      (ok → Answers (.rdReq h) s fun t => t.out = .message "RD_RSP" h.src ([h.tag, 0, h.len] ++ lines ++ (s.bytesAt off h.len).map (·.toNat)) :: s.out ∧
        s.changesOnly t [.regs, .tiers, .out]) ∧
      (¬ok → Answers (.rdReq h) s fun t => t.out.head? = some (.message "RD_RSP" h.src [h.tag, 1, h.len]) ∧ s.changesOnly t faultParts ∧
        (¬plain → s.changesOnly t noteParts)))) ∧
  (∀ (s : State) (h : MemHdr) (trunc : Bool) (data : List Byte) (poison : List Bool), let i := Instr.wrReq h trunc data poison
    let off := h.addr % 2 ^ 45; let bs := data.take h.len
    (∀ b, s.arrives h trunc = some b → Answers i s fun t => t = (s.discard (h.msg 6 s.self) b).canon ∧ s.changesOnly t noteParts) ∧
    (s.arrives h trunc = none →
      let ok := h.addr / 2 ^ 45 = s.self ∧ (h.handle = 0 → s.tagCheck h.ctx off h.gen true = none) ∧ (h.handle ≠ 0 → s.reservedFor h = true)
      (ok → s.portDead off = true → Answers i s fun t => t.out = .message "WR_ACK" h.src [h.tag, 0, bs.length] :: s.out ∧ s.changesOnly t [.out]) ∧
      (ok → s.portDead off = false → Answers i s fun t => (∀ a, t.byteAt a = if off ≤ a ∧ a < off + bs.length then bs.getD (a - off) 0 else s.byteAt a) ∧
        (∀ k, k < (off % 64 + bs.length + 63) / 64 → poison.getD k false = true → t.poisonAt (off / 64 * 64 + 64 * k) = true) ∧
        t.out = .message "WR_ACK" h.src [h.tag, 0, bs.length] :: s.out ∧ s.changesOnly t [.regs, .mem, .tiers, .out]) ∧
      (¬ok → Answers i s fun t => t.out.head? = some (.message "WR_ACK" h.src [h.tag, 1, 0]) ∧ s.changesOnly t faultParts))) ∧
  (∀ (s : State) (h : MemHdr) (trunc : Bool) (beats : List Beat) (credits : Nat), let i := Instr.beat h trunc beats credits
    let ends := fun (out_ : Bool) => s.fab.segs.filter fun g => g.ctx == h.ctx && g.out_ == out_ && g.names.any fun n => n.2 == h.tag
    (∀ b, s.arrives h trunc = some b → Answers i s fun t => t = (s.discard (h.msg 9 s.self) b).canon ∧ s.changesOnly t faultParts) ∧
    (s.arrives h trunc = none → Answers i s fun t => t = (s.segmentMsg h.ctx h.tag (beats.take 3) credits).canon ∧ s.changesOnly t [.fab, .out, .rigs]) ∧
    (s.arrives h trunc = none → (credits = 0 ∨ ends true = []) → (beats = [] ∨ ends false = []) → Answers i s fun t => t = s.canon) ∧
    (∀ g, s.arrives h trunc = none → (ends true).head? = some g → g.queue = [] → (∀ y ∈ s.fab.segs, g.isEnd y = true → y = g) → credits ≠ 0 → beats = [] →
      Answers i s fun t => t = (s.modSegs g.isEnd fun y => { y with credits := y.credits + credits }).canon) ∧
    (∀ g b, s.arrives h trunc = none → credits = 0 → beats = [b] → ends false = [g] → s.segGroups g = [] → Answers i s fun t =>
      t = (s.modSegs g.isEnd fun y => { y with queue := y.queue ++ [b] }).canon)) ∧
  (∀ (s : State) (tag : Nat) (refused : Bool) (lines : List (Line × Bool)), let i := Instr.rdRsp tag refused lines
    let find := s.streams.insts.findSome? fun (x : StreamInst) => (x.reqs.find? fun (r : StreamReq) => r.tag == tag && !r.landed).map fun r => (x.id, r.elem, r.first)
    (find = none → Answers i s fun t => t = s.canon) ∧
    (∀ id e f, find = some (id, e, f) → (refused = false → Answers i s fun t => t = (s.streamComplete id e f lines).canon) ∧
      (refused = true → Answers i s fun t => t = (s.streamComplete id e f []).canon)))

/-- Routing changes and fabric time (R386 to R391, R399, R400). A notice not heard before is passed on and taken into the link state; at AT injection flips to the new copy and memberships that came
with it take effect; 5 us later the old copy is reclaimed and a change that waited is prepared. A TIME flit of the parent sets the offset: the count slews toward it, or steps once, forward, before the
module is ready; TIME is sent every 10 us on a port that is up; a parent silent for 100 us is dropped, and 10 ms without one is holdover. -/
def Obligations.RoutingAndTime : Prop :=
  (∀ (s : State) (origin seq : Nat) (x : LinkChange), let i := Instr.linkState origin seq x
    (((origin, seq) ∈ s.fab.seen ∨ s.getF .FAB_CTRL_EN = 0) → Answers i s fun t => t = s.canon) ∧
    ((origin, seq) ∉ s.fab.seen → s.getF .FAB_CTRL_EN ≠ 0 → Answers i s fun t => (origin, seq) ∈ t.fab.seen ∧ (x.up = false ↔ (x.module, x.lport) ∈ t.fab.down) ∧
      (∀ y, y ≠ (x.module, x.lport) → (y ∈ t.fab.down ↔ y ∈ s.fab.down)) ∧ (∀ m ∈ s.floodTo, .message "LINK_STATE" m [origin, seq, x.module, x.lport, bit x.up, x.at_] ∈ t.out) ∧
      (s.fab.oldUntil = none → s.getF .FAB_RT_SWAP_AT = 0 → t.flag .FAB_STATUS_SWAP_PEND = true ∧ t.getF .FAB_RT_SWAP_AT = x.at_ % 2 ^ Fld.FAB_RT_SWAP_AT.len ∧
        t.getF .FAB_STATUS_INJ_COPY = s.getF .FAB_STATUS_INJ_COPY) ∧ s.changesOnly t [.regs, .fab, .out])) ∧
  (∀ (s : State), let at_ := s.getF .FAB_RT_SWAP_AT
    ((at_ = 0 ∨ s.now < at_) → Answers .routeSwap s fun t => t = s.canon) ∧
    (at_ ≠ 0 → at_ ≤ s.now → s.fab.held = [] → s.coll.keys = [] → Answers .routeSwap s fun t => t.getF .FAB_STATUS_INJ_COPY = 1 - s.getF .FAB_STATUS_INJ_COPY ∧
      t.getF .FAB_SWAPS_COUNT = (s.getF .FAB_SWAPS_COUNT + 1) % 2 ^ Fld.FAB_SWAPS_COUNT.len ∧ t.getF .FAB_RT_SWAP_AT = 0 ∧ t.fab.oldUntil = some (at_ + 5000) ∧ t.fab.members = [] ∧
      t.fab.escLogged = false ∧ (∀ x, s.fab.members = [x] → t.sliceOf x.1 = x.2.1 ∧ t.flag .FAB_SLICE_MEMBER (inst x.1) = x.2.1.contains s.self) ∧
      s.changesOnly t [.regs, .fab, .slices]) ∧
    (at_ ≠ 0 → at_ ≤ s.now → (∀ h ∈ s.fab.held, ¬(h.out.msg.src = s.self ∧ h.out.msg.kind = 9)) → s.coll.keys = [] → Answers .routeSwap s fun t =>
      t.fab.oldUntil = some (at_ + 5000) ∧ t.getF .FAB_RT_SWAP_AT = 0 ∧ t.getF .FAB_STATUS_INJ_COPY = 1 - s.getF .FAB_STATUS_INJ_COPY ∧ s.changesOnly t ([.fab, .slices] ++ noteParts)) ∧
    Answers .routeSwap s fun t => s.changesOnly t (faultParts ++ [.mem, .slices, .step])) ∧
  (∀ (s : State),
    (s.fab.oldUntil = none → Answers .routeReclaim s fun t => t = s.canon) ∧
    (∀ w, s.fab.oldUntil = some w → (s.now < w → Answers .routeReclaim s fun t => t = s.canon) ∧
      (w ≤ s.now → s.fab.later = [] → Answers .routeReclaim s fun t => t.fab = { s.fab with oldUntil := none } ∧ t.flag .FAB_STATUS_SWAP_PEND = false ∧
        s.changes t [Reg.FAB_STATUS] [.fab]) ∧
      (∀ a r, w ≤ s.now → s.fab.later = a :: r → s.getF .FAB_RT_SWAP_AT = 0 → Answers .routeReclaim s fun t => t.fab = { s.fab with oldUntil := none, later := r } ∧
        t.flag .FAB_STATUS_SWAP_PEND = true ∧ t.getF .FAB_RT_SWAP_AT = max a s.now % 2 ^ Fld.FAB_RT_SWAP_AT.len ∧ s.changesOnly t [.regs, .fab]))) ∧
  (∀ (s : State) (port tTx tEcho depth root : Nat) (corr : Int), let p := port % 32; let i := Instr.time port tTx tEcho corr depth root
    ((s.lportOf p = none ∨ s.portUp p = false) → Answers i s fun t => t = s.canon) ∧
    (∀ l, s.lportOf p = some l → s.portUp p = true → let x : TimePeer := { lport := l, depth := depth, root := root, heard := s.now }
      let u := ({ s with fab := { s.fab with times := x :: s.fab.times.filter fun (y : TimePeer) => y.lport != l } } : State).modPort p
        (fun (y : PortFab) => { y with echo := (s.now + 2 ^ 64 - tTx % 2 ^ 64) % 2 ^ 64 }) |>.chooseParent (s.flag .REF_STAT_PPS_LOCK)
      let back : Int := if tEcho % 2 ^ 64 < 2 ^ 63 then (tEcho % 2 ^ 64 : Nat) else (tEcho % 2 ^ 64 : Nat) - 2 ^ 64
      let lead : Int := (back * 1000 - ((s.now : Int) - (tTx : Int)) * 1000 + corr - (s.port p).asym) / 2
      ((u.flag .FAB_STATUS_TIME_ROOT = true ∨ u.getF .FAB_TIME_STAT_PARENT ≠ l) → Answers i s fun t => t = u.canon ∧ x ∈ t.fab.times ∧ t.now = s.now) ∧
      (u.flag .FAB_STATUS_TIME_ROOT = false → u.getF .FAB_TIME_STAT_PARENT = l → Answers i s fun t => t.getF .FAB_TIME_STAT_OFFSET_PS = (lead % 2 ^ 32).toNat ∧
        t.flag .FAB_TIME_STAT_SYNC = true ∧ t.flag .FAB_TIME_STAT_HOLDOVER = false ∧ x ∈ t.fab.times ∧ s.now ≤ t.now ∧
        ((s.getF .HOSTVI_DEV_STATUS_READY = 1 ∨ s.fab.stepped = true) → t.now = s.now ∧ t.fab.slew = lead / 1000) ∧
        (s.getF .HOSTVI_DEV_STATUS_READY ≠ 1 → s.fab.stepped = false → t.fab.stepped = true ∧ t.fab.slew = 0 ∧ (0 ≤ lead → t.now = s.now + (lead / 1000).toNat) ∧ (lead < 0 → t.now = s.now)) ∧ (t.port p).echo = (s.now + 2 ^ 64 - tTx % 2 ^ 64) % 2 ^ 64 ∧
        s.changesOnly t [.regs, .fab, .log, .now]))) ∧
  (∀ (s : State) (port : Nat), let p := port % 32; let due := s.portUp p = true ∧ (s.port p).timeAt + 10000 ≤ s.now
    (¬due → Answers (.timeSend port) s fun t => t = s.canon) ∧
    (due → Answers (.timeSend port) s fun t => t.port p = { s.port p with timeAt := s.now, linkq := (s.port p).linkq ++
      [linkMsg 3 (packBytes [(8, s.now), (8, (s.port p).echo), (8, 0), (2, s.getF .FAB_TIME_STAT_DEPTH), (2, s.self)])] } ∧ s.changesOnly t [.fab])) ∧
  (∀ (s : State), let p := s.getF .FAB_TIME_STAT_PARENT; let peer := s.fab.times.find? (fun (x : TimePeer) => x.lport == p)
    (peer = none → Answers .parentLoss s fun t => t = s.canon) ∧
    (∀ x, peer = some x → (s.flag .FAB_STATUS_TIME_ROOT = true ∨ s.now < x.heard + 100000) → Answers .parentLoss s fun t => t = s.canon) ∧
    (∀ x, peer = some x → s.flag .FAB_STATUS_TIME_ROOT = false → x.heard + 100000 ≤ s.now → Answers .parentLoss s fun t =>
      t.fab.times = s.fab.times.filter (fun (y : TimePeer) => y.lport != p) ∧
      ((∀ y ∈ t.fab.times, s.lpUp y.lport = false) → s.fab.parentLost = none → t.fab.parentLost = some s.now ∨
        t.flag .FAB_STATUS_TIME_ROOT = true) ∧ s.changesOnly t [.regs, .fab, .log]) ∧
    (let out := ∃ w, s.fab.parentLost = some w ∧ w + 10000000 ≤ s.now
     ((¬out ∨ s.flag .FAB_TIME_STAT_HOLDOVER = true) → Answers .timeHoldover s fun t => t = s.canon) ∧
     (out → s.flag .FAB_TIME_STAT_HOLDOVER = false → Answers .timeHoldover s fun t => t.flag .FAB_TIME_STAT_SYNC = false ∧ t.flag .FAB_TIME_STAT_HOLDOVER = true ∧
        s.changesOnly t noteParts)))

/-! ### Collectives (chapter 14) -/

/-- Collectives (R407, R409, R412, R416, R418, R420 to R425). COLLECTIVE waits for its key and its engine, and takes the key's next SEQ; a descriptor that does not hold is a fault, as is a silent word
that cannot be read; one not yet VALID is waited for, up to a bound. A frame of a key known is checked against it, and a mismatch tears the context down; one kept is written where it landed. A rank's segment
folds after the same elements of every lower rank, and is released to its sender; then all goes on that can. An instance that has done all it must completes its command with 0 and is counted; one silent past
its bound is a fault. -/
def Obligations.Collectives : Prop :=
  let wide := Part.mem :: faultParts
  (∀ (s : State) (r q : Nat), s.launched r q 0x31 = none → Answers (.collective r q) s fun t => t = s.canon) ∧
  (∀ (s : State) (r q : Nat) (c : Cmd), s.launched r q 0x31 = some c → let i := Instr.collective r q
    let rests := s.coll.insts.any (fun (x : CollInst) => x.ring == r && x.cmd == q) || s.coll.waits.any fun (w : CollWait) => w.ring == r && w.cmd == q && decide (s.now < w.last + 1000)
    let busy := fun (d : CollDesc) => (s.collInst c.ctx d.key).isSome = true ∨ 16 ≤ (s.coll.insts.filter fun (x : CollInst) => x.desc.seat == d.seat).length
    (rests = true → Answers i s fun t => t = s.canon) ∧ (Answers i s fun t => s.changesOnly t wide) ∧
    (rests = false → Answers i s fun t => match s.collDesc c.ctx (c.fld 32 0 56) with
      | none => t = (s.collFault 0 0 3 c.ctx 0 0 s.self).canon
      | some d => (busy d → t = s.canon) ∧
          (¬busy d → (d.silentEn = false ∨ s.flag .STREAM_MODE_FORCE_STATIC (seatOff d.seat) = true) → t = (s.startColl c d false).canon) ∧
          (¬busy d → d.silentEn = true → s.flag .STREAM_MODE_FORCE_STATIC (seatOff d.seat) = false → match s.readVa c.ctx d.silentAddr 8 with
            | none => t = (s.collFault d.seat 0 3 c.ctx d.collId d.rank s.self).canon
            | some (bs, p) => (p = true → t = (s.collFault d.seat 0 3 c.ctx d.collId d.rank s.self).canon) ∧
                (p = false → natBit (leNat bs) 63 = false → t = (s.silentWait c d).canon) ∧
                (p = false → natBit (leNat bs) 63 = true → t = (s.startColl c d (natBits (leNat bs) 0 32 == 0)).canon)))) ∧
  (∀ (s : State) (c : Cmd) (d : CollDesc), let t := s.silentWait c d
    match s.coll.waits.find? fun (w : CollWait) => w.ring == c.ring && w.cmd == c.seq with
    | none => t.coll = { s.coll with waits := s.coll.waits ++ [{ ctx := c.ctx, ring := c.ring, cmd := c.seq, since := s.now, last := s.now }] } ∧ s.changesOnly t [.coll]
    | some w => (w.since + s.waitNs d.seat ≤ s.now → t = s.collFault d.seat 0 3 c.ctx d.collId d.rank s.self) ∧ (s.now < w.since + s.waitNs d.seat → ({ w with last := s.now } : CollWait) ∈ t.coll.waits ∧
        s.changesOnly t [.coll])) ∧
  (∀ (s : State) (c : Cmd) (d : CollDesc) (silent : Bool), s.coll.frames = [] → s.collInst c.ctx d.key = none → 0 < d.n → d.rank < d.n →
    let seq := match s.collKey c.ctx d.key with
      | some k => k.seq
      | none => 0
    ∃ u : State, s.startColl c d silent = u.collPump c.ctx d.key ∧
      (∃ x, u.collInst c.ctx d.key = some x ∧ x.seq = seq ∧ x.ring = c.ring ∧ x.cmd = c.seq ∧ x.silent = silent ∧ x.at_ = s.now ∧ x.desc = d) ∧
      (∃ k, u.collKey c.ctx d.key = some k ∧ k.seq = seq + 1 ∧ k.desc = d) ∧
      (∀ r, r < d.n → r ≠ d.rank → .message "COLL_JOIN" (d.member r).module [c.ctx, d.collId, d.crc, seq, d.rank] ∈ u.out) ∧ s.changesOnly u [.coll, .out]) ∧
  (∀ (s : State) (c id : Nat), (s.collInst c id = none → s.collPump c id = s) ∧ s.changesOnly (s.collPump c id) wide) ∧
  (∀ (d : CollDesc) (a x : Nat), collOp d none x = (if d.dtype ≤ 1 then widen d.dtype x else x) ∧
    (d.dtype ≤ 1 → d.redop = 0 → collOp d (some a) x = (f32Add a (widen d.dtype x)).bits) ∧ (d.dtype = 9 → collOp d (some a) x = (wideAdd a x).bits)) ∧
  (∀ (s : State) (c collId crc seq rank : Nat), let i := Instr.collJoin c collId crc seq rank; let id := keyOf collId crc
    let kept : State := { s with coll := { s.coll with joins := s.coll.joins ++ [(c, id, seq, rank)] } }
    (s.collInst c id = none → (s.ctx c).valid = false → Answers i s fun t => t = s.canon) ∧
    (s.collInst c id = none → (s.ctx c).valid = true → Answers i s fun t => t = kept.canon ∧ s.changesOnly t [.coll]) ∧
    (∀ x, s.collInst c id = some x → x.seq ≠ seq → Answers i s fun t => t = kept.canon) ∧
    (∀ x, s.collInst c id = some x → x.seq = seq → Answers i s fun t => ∃ u y, t = (u.collPump c id).canon ∧ u.collInst c id = some y ∧ rank ∈ y.joins ∧ y.seq = seq ∧ y.desc = x.desc ∧
      s.changesOnly u [.coll] ∧ s.changesOnly t wide)) ∧
  (∀ (s : State) (c va : Nat) (bs : List Nat), let i := Instr.collFrame c ⟨va, bs⟩; let u := s.writeVa c va (bs.map fun b => BitVec.ofNat 8 b)
    let kept := fun (h : CollHdr) => ({ u with coll := { u.coll with frames := u.coll.frames ++ [h] } } : State)
    ((s.ctx c).valid = false → Answers i s fun t => t = s.canon) ∧ (Answers i s fun t => s.changesOnly t wide) ∧
    ((s.ctx c).valid = true → hdrIn bs = none → Answers i s fun t => t = (s.collFault 0 2 3 c (natOfBytes ((bs.drop 4).take 2)) 0 s.self).canon ∧ s.changesOnly t faultParts) ∧
    (∀ g, (s.ctx c).valid = true → hdrIn bs = some g → let h : CollHdr := { g with at_ := va }
      let other := s.coll.keys.find? fun (k : CollKey) => k.ctx == c && k.lands va
      (s.collKey c h.key = none → (∀ k, other = some k → Answers i s fun t => t = (s.collFault k.desc.seat 1 3 c h.collId h.src (k.desc.member h.src).module).canon ∧ s.changesOnly t faultParts) ∧
        (other = none → Answers i s fun t => t = (kept h).canon)) ∧
      (∀ k, s.collKey c h.key = some k → let cur := ((s.collInst c h.key).map (·.seq)).getD k.seq
        (h.okFor k cur = false → Answers i s fun t => t = (s.collFault k.desc.seat 1 3 c h.collId h.src (k.desc.member h.src).module).canon ∧ s.changesOnly t faultParts) ∧
        (h.okFor k cur = true → u.collInst c h.key = none → Answers i s fun t => t = (kept h).canon) ∧
        (∀ x, h.okFor k cur = true → u.collInst c h.key = some x → h.phase ≠ 1 → let d := k.desc; let upto := min ((cnt x.folded h.src + 1) * d.segElems) (d.chunkLen d.rank)
          let early := h.seq = x.seq ∧ ∃ r, r < h.src ∧ x.foldedTo r upto = false
          Answers i s fun t => (early → t = ((kept h).bump .COLL_ORDER_WAITS_COUNT 1 (seatOff d.seat)).canon) ∧ (¬early → t = (kept h).canon)) ∧
        (∀ x, h.okFor k cur = true → u.collInst c h.key = some x → h.phase = 1 → Answers i s fun t => t = (u.gatherIn x h).canon)))) ∧
  (∀ (u : State) (x : CollInst) (h : CollHdr), let t := u.gatherIn x h
    (h.zero = false → u.collInst x.ctx x.desc.key = some x → (∃ y, t.collInst x.ctx x.desc.key = some y ∧ h.src ∈ y.gatherGot ∧ y.folded = x.folded) ∧ u.changesOnly t [.regs, .coll]) ∧
    u.changesOnly t wide) ∧
  (∀ (s : State) (c id rank : Nat), let i := Instr.segmentFold c id rank
    (s.collInst c id = none → Answers i s fun t => t = s.canon) ∧ (Answers i s fun t => s.changesOnly t wide) ∧
    (∀ x k, s.collInst c id = some x → s.collKey c id = some k → let d := x.desc; let j := cnt x.folded rank
      let upto := min ((j + 1) * d.segElems) (d.chunkLen d.rank); let can := rank < d.n ∧ j < d.segs d.rank ∧ ∀ r, r < rank → x.foldedTo r upto = true
      let frame := s.coll.frames.find? fun (h : CollHdr) => h.ctx == c && h.key == id && h.phase == 0 && h.seq == x.seq && h.src == rank && h.segment == k.folded + j
      ((¬can ∨ (rank ≠ d.rank ∧ frame = none)) → Answers i s fun t => t = (s.collPump c id).canon) ∧
      (can → rank = d.rank → Answers i s fun t => ∃ u y, t = (u.collPump c id).canon ∧ u.collInst c id = some y ∧ cnt y.folded rank = j + 1 ∧
        (y.acc = if x.silent then x.acc else s.foldAt x j (d.src + (d.chunkAt rank + j * d.segElems) * collBytes d.dtype)) ∧ s.changesOnly u [.coll]) ∧
      (∀ h, can → rank ≠ d.rank → frame = some h → Answers i s fun t => ∃ u y, t = (u.collPump c id).canon ∧ u.collInst c id = some y ∧ cnt y.folded rank = j + 1 ∧
        (y.acc = if h.zero then x.acc else s.foldAt x j (d.slotVa d.rank ((k.folded + j) % 2) rank)) ∧ u.coll.frames = s.coll.frames.erase h ∧
        .message "COLL_RELEASE" (d.member rank).module [c, d.collId, d.crc, d.rank, h.segment] ∈ u.out ∧ s.changesOnly u [.regs, .coll, .out]))) ∧
  (∀ (s : State) (c collId crc owner segment : Nat), let i := Instr.collRelease c collId crc owner segment; let id := keyOf collId crc
    (s.collInst c id = none → Answers i s fun t => t = s.canon) ∧
    (∀ x k, s.collInst c id = some x → s.collKey c id = some k → let n := cnt x.released owner
      (segment ≠ cnt k.sent owner + n → Answers i s fun t => t = s.canon) ∧
      (segment = cnt k.sent owner + n → Answers i s fun t => ∃ u y, t = (u.collPump c id).canon ∧ u.collInst c id = some y ∧ cnt y.released owner = n + 1 ∧
        s.changesOnly u [.coll] ∧ s.changesOnly t wide))) ∧
  (∀ (s : State) (c id : Nat),
    (s.collInst c id = none → Answers (.collectiveComplete c id) s (fun t => t = s.canon) ∧ Answers (.collTimeout c id) s fun t => t = s.canon) ∧
    (∀ x, s.collInst c id = some x → let us := if x.desc.timeoutUs = 0 then s.getF .COLL_CTRL_TIMEOUT_US (seatOff x.desc.seat) else x.desc.timeoutUs
      let bound := x.at_ + clamp 1 100000 us * 1000
      (s.now < bound → Answers (.collTimeout c id) s fun t => t = s.canon) ∧
      (bound ≤ s.now → Answers (.collTimeout c id) s fun t => t = (s.collFault x.desc.seat 3 3 c x.desc.collId x.desc.rank s.self).canon ∧ s.changesOnly t faultParts) ∧
      (∀ k, s.collKey c id = some k →
        (s.collDone x = false → Answers (.collectiveComplete c id) s fun t => t = s.canon) ∧
        (s.collDone x = true → Answers (.collectiveComplete c id) s fun t => t.collInst c id = none ∧ (c, id) ∈ t.coll.recent ∧
          (s.launched x.ring x.cmd 0x31 = none → t.getF .COLL_DONE_COUNT (seatOff x.desc.seat) = (s.getF .COLL_DONE_COUNT (seatOff x.desc.seat) + 1) % 2 ^ Fld.COLL_DONE_COUNT.len) ∧
          (∀ m, s.launched x.ring x.cmd 0x31 = some m → (t.ring m.ring).completed = ringStatuses s m 0) ∧
          s.changesOnly t [.regs, .coll, .rings, .out])))) ∧
  (∀ (s : State) (tag : Nat), let u : State := { s with fab := { s.fab with writes := s.fab.writes.filter fun w => w.tag != tag } }
    (s.coll.insts = [] → Answers (.wrAck tag) s fun t => t = u.canon ∧ s.changesOnly t [.fab]) ∧
    Answers (.wrAck tag) s fun t => t = u.pumpAll.canon ∧ s.changesOnly t wide)

/-! ### The pair (chapter 17) -/

/-- Records of the twin (R492 to R494, R497 to R499, R507 to R509). A record that is not the twin's is dropped; any other counts as a heartbeat. A SPLIT module then joins again; one that does not mirror takes
nothing; a CRC that fails or a SEQ that skips is a fault, and both join again; else what ACK_SEQ acknowledges takes effect, the record is applied, and a SYNC one is acknowledged by a HEARTBEAT at once.
What each record does to the mirror, and to what the owner knows of it, is said of the state it is applied to. -/
def Obligations.TwinRecords : Prop :=
  (∀ (s : State) (h : TwinHdr) (e : Entry) (p : SampBlk) (g : Grammar) (first n owner expiry pages : Nat) (ids as : List Nat) (claimed : Bool) (es : List (Nat × Nat × Nat)),
    ∀ x ∈ [(Instr.entry h e, fun u : State => u.applyEntry h.handle e), (.admitData h p g, fun u => u.admitData h p g), (.tokens h first ids, fun u => u.mirrorTokens h first ids),
        (.mirrorMap h first as, fun u => u.mirrorMap h first as), (.ckpt h first n, fun u => u.mirrorCkpt h first n), (.heartbeat h, fun u => u),
        (.hold h owner expiry pages claimed, fun u => u.mirrorHold h owner expiry pages claimed), (.versions h es, fun u => u.versionsRec es), (.suspect h, fun u => u.sendHeartbeat),
        (.handover h, fun u => u.handoverRec), (.resyncEnd h, fun u => u.resyncEnds)],
    let mine := s.fromTwin h.sender = true; let takes := s.mirroring = true ∧ (s.pairState = 1 → s.twin.peerBegan = true)
    let good := h.crcOk = true ∧ h.seq = (s.twin.rxSeq + 1) % 2 ^ 32; let late := s.pairState = 4 ∧ s.twin.takeover.isSome = true
    let r := s.heard.ackTwin h.ack; let u := x.2 ({ r with twin := { r.twin with rxSeq := h.seq } } : State)
    (¬mine → Answers x.1 s fun t => t = s.canon) ∧
    (mine → s.pairState = 3 → Answers x.1 s fun t => t = s.heard.startResync.canon ∧ t.pairState = 1 ∧ t.twin.rxSeq = 0 ∧ t.twin.peerBegan = false ∧
      s.changesOnly t (faultParts ++ [.mem, .seals])) ∧
    (mine → s.pairState ≠ 3 → ¬takes → (¬late ∨ h.crcOk = false ∨ x.1 ≠ .ckpt h first n) → Answers x.1 s fun t => t = s.heard.canon ∧ t.getF .TWIN_HB_T_T = s.now % 2 ^ Fld.TWIN_HB_T_T.len ∧
      s.changes t [Reg.TWIN_HB_T] [.twin]) ∧
    (mine → takes → s.pairState ≠ 3 → ¬good → Answers x.1 s fun t => t = (s.heard.twinFault 1 1 s.heard.peer).startResync.canon ∧ t.pairState = 1 ∧ t.twin.rxSeq = 0 ∧
      s.changesOnly t (faultParts ++ [.mem, .seals])) ∧
    (mine → takes → s.pairState ≠ 3 → good → Answers x.1 s fun t => t = (if h.sync = true ∧ u.mirroring = true then u.sendHeartbeat else u).canon ∧ t.twin.rxSeq = h.seq ∧
      s.changesOnly t (faultParts ++ [.mem, .seals]))) ∧
  (∀ (s : State) (h : TwinHdr) (first n : Nat), s.fromTwin h.sender = true → s.pairState = 4 → s.twin.takeover.isSome = true → h.crcOk = true → Answers (.ckpt h first n) s fun t =>
    t = (s.heard.mirrorCkpt h first n).canon ∧ s.changesOnly t [.regs, .twin]) ∧
  (∀ (u : State) (h : TwinHdr) (p : SampBlk) (g : Grammar), let t := u.admitData h p g; let i := h.handle % 2 ^ 14
    t.mirror i = some { entry := { a := { gen := h.handle / 2 ^ 14 } }, samp := p, grammar := g } ∧ (∀ j, j ≠ i → t.mirror j = u.mirror j) ∧ u.changesOnly t [.regs, .tiers, .twin]) ∧
  (∀ (u : State) (h : TwinHdr) (first : Nat) (ids : List Nat) (m : Mirror), let i := h.handle % 2 ^ 14; u.mirror i = some m → let t := u.mirrorTokens h first ids
    t.mirror i = some { m with tokens := m.tokens.take first ++ ids ++ m.tokens.drop (first + ids.length) } ∧ (∀ j, j ≠ i → t.mirror j = u.mirror j) ∧ u.changesOnly t [.regs, .twin]) ∧
  (∀ (u : State) (h : TwinHdr) (first n : Nat) (m : Mirror), let i := h.handle % 2 ^ 14; u.mirror i = some m → let t := u.mirrorCkpt h first n
    (handleOf i m.entry.a.gen = h.handle → t.mirror i = some { m with ckptLen := first + n } ∧ ∀ j, j ≠ i → t.mirror j = u.mirror j) ∧ (handleOf i m.entry.a.gen ≠ h.handle → t = u)) ∧
  (∀ (u : State) (h : TwinHdr) (first : Nat) (as : List Nat) (x : Hold), u.findHold h.handle = some x → x.copy = 1 → let all := x.mapped.take first ++ as ++ x.mapped.drop (first + as.length)
    let t := u.mirrorMap h first as
    (all.length < u.holdSize x → t.findHold h.handle = some { x with mapped := all } ∧ u.changesOnly t [.twin]) ∧
    (u.holdSize x ≤ all.length → t.findHold h.handle = some { x with copy := 2, mapped := [] } ∧ t.firmwareBusy 8 h.handle = true ∧ u.changesOnly t [.twin, .streams])) ∧
  (∀ (u : State) (h : TwinHdr) (first i : Nat) (as : List Nat), (∀ x, u.findHold h.handle = some x → x.copy ≠ 1) → u.findHandle h.handle = some i → let k := u.ckpt i; let t := u.mirrorMap h first as
    t.ckpt i = { k with extents := k.extents.take first ++ as ++ k.extents.drop (first + as.length) } ∧ (∀ j, j ≠ i → t.ckpt j = u.ckpt j) ∧ u.changesOnly t [.twin]) ∧
  (∀ (u : State) (handle : Nat) (e : Entry), let i := handle % 2 ^ 14; let t := u.applyEntry handle e
    (e.a.state = .free → t.mirror i = none) ∧ (e.a.state ≠ .free → ∃ m, t.mirror i = some m ∧ m.entry = e ∧ m.samp = ((u.mirror i).getD {}).samp ∧ m.tokens = ((u.mirror i).getD {}).tokens ∧
      (e.a.state = .paused → e.a.copyOut = false → m.extents = [] ∧ m.ckptLen = 0)) ∧ (∀ j, j ≠ i → t.mirror j = u.mirror j) ∧
    t.getF .TWIN_STATUS_MIRRORED = (t.twin.mirrors.filter fun m => m.2.entry.a.state != .free).length % 2 ^ Fld.TWIN_STATUS_MIRRORED.len) ∧
  (∀ (u : State) (h : TwinHdr) (owner expiry pages : Nat) (claimed : Bool), let t := u.mirrorHold h owner expiry pages claimed
    (pages = 0 → ∀ x ∈ t.twin.mirrorHolds, x.handle ≠ h.handle) ∧
    let known := u.twin.mirrorHolds.any fun x => x.handle == h.handle; let got := u.holdFrames pages
    (pages ≠ 0 → (known = true ∨ got.1.length = pages) → ∃ x ∈ t.twin.mirrorHolds, x.handle = h.handle ∧ x.owner = owner ∧ x.expiry = expiry ∧ x.claimed = claimed ∧ (known = false → x.pages = got.1)) ∧
    (pages = 0 ∨ known = true → u.changesOnly t [.tiers, .twin]) ∧ (pages ≠ 0 → known = false → got.1.length = pages → u.changesOnly t [.regs, .tiers, .twin, .out]) ∧
    (pages ≠ 0 → known = false → got.1.length < pages → t = u.twinFault 2 1 u.peer)) ∧
  (∀ (u : State), u.handoverRec.twin.takeover = some true ∧ u.handoverRec.pairState = 0 ∧ .message "CLEAR_PAIR_EN" u.peer [u.self] ∈ u.handoverRec.out) ∧
  (∀ (u : State), u.resyncEnds.twin.peerSynced = true ∧ (u.pairState = 1 → u.twin.ownSynced = true → u.resyncEnds.pairState = 2) ∧
    (u.twin.ownSynced = false → u.resyncEnds.pairState = u.pairState))

/-- Suspicion, confirmation, fences (R499 to R501, R507, R508, R554). A record unacknowledged, or silence, for 10 us is suspicion: SUSPECT goes to the twin and a question to its cube neighbours, who answer with the state of
their port to it. 8 us later the twin is lost where it did not answer and every neighbour reports its port down, and split from it otherwise. FENCE and LEAVING confirm the loss at once. A module whose cube
ports have all been down for 10 us is itself isolated, and fences. A heartbeat goes out when nothing else has for 2 us. -/
def Obligations.SuspicionAndConfirmation : Prop :=
  (∀ (s : State), let free := s.mirroring = true ∧ s.twin.suspectAt = none
    let late := ∃ u ∈ s.twin.unacked, u.2 + 10000 ≤ s.now; let silent := max (s.getF .TWIN_HB_T_T) s.twin.joinedAt + 10000 ≤ s.now
    let suspects := fun t : State => t.twin.suspectAt = some s.now ∧ t.flag .TWIN_STATUS_SUSPECT = true ∧ t.twin.answered = false ∧
      (∀ m ∈ s.twinNeighbours, m ≠ s.self → .message "WITNESS_QUERY" m [s.self, s.peer] ∈ t.out) ∧ (∃ w, .message "SUSPECT" s.peer w ∈ t.out) ∧ s.changesOnly t (.twin :: noteParts)
    (late → free → Answers .mirrorAckTimeout s suspects) ∧ ((¬late ∨ ¬free) → Answers .mirrorAckTimeout s fun t => t = s.canon) ∧
    (silent → free → Answers .twinSilence s suspects) ∧ ((¬silent ∨ ¬free) → Answers .twinSilence s fun t => t = s.canon)) ∧
  (∀ (s : State) (from_ m : Nat) (down : Bool),
    (∀ d, s.downTo m = some d → Answers (.witnessQuery from_ m) s fun t => t.out = .message "WITNESS_ANSWER" from_ [s.self, m, bit d] :: s.out ∧ s.changesOnly t [.out]) ∧
    (s.downTo m = none → Answers (.witnessQuery from_ m) s fun t => t = s.canon) ∧
    (let counts := s.twin.suspectAt.isSome = true ∧ m = s.peer ∧ from_ ∈ s.twinNeighbours
     (counts → Answers (.witnessAnswer from_ m down) s fun t => t.twin = { s.twin with witness := SMap.put s.twin.witness from_ down } ∧ s.changesOnly t [.twin]) ∧
     (¬counts → Answers (.witnessAnswer from_ m down) s fun t => t = s.canon))) ∧
  (∀ (s : State), let due := ∃ w, s.twin.suspectAt = some w ∧ w + 8000 ≤ s.now ∧ s.fenced = false
    let lost := s.twin.answered = false ∧ ∀ m ∈ s.twinNeighbours, (m, true) ∈ s.twin.witness
    (¬due → Answers .confirmationTimeout s fun t => t = s.canon) ∧
    (due → lost → Answers .confirmationTimeout s fun t => t = s.twinLost.canon) ∧
    (due → lost → s.mirroring = true → Answers .confirmationTimeout s fun t => t = s.twinLost.canon ∧ t.pairState = 4 ∧ t.twin.takeover = some false ∧ t.twin.confirmedAt = some s.now ∧
      t.twin.suspectAt = none ∧ t.twin.holds = s.twin.holds ++ s.twin.mirrorHolds ∧ t.twin.mirrors = s.twin.mirrors ∧ t.twin.unacked = [] ∧ s.changesOnly t (faultParts ++ [.mem])) ∧
    (due → ¬lost → Answers .confirmationTimeout s fun t => t = s.twinSplit.canon ∧ t.pairState = 3 ∧ t.twin.suspectAt = none ∧ t.twin.mirrors = s.twin.mirrors ∧ t.twin.unacked = [] ∧
      s.changesOnly t (faultParts ++ [.mem]))) ∧
  (∀ (s : State) (sender : Nat) (lost : Bool), ∀ i ∈ [Instr.fence sender lost, .leaving sender lost], let twin := sender = s.peer ∧ s.flag .TWIN_ID_PAIR_EN = true ∧ s.twin.mismatch = false
    (¬twin → Answers i s fun t => t = s.canon) ∧
    (twin → s.fenced = false → lost = false ∨ s.mirroring = false → Answers i s fun t => t = s.heard.twinLost.canon ∧ (s.mirroring = true → t.pairState = 4 ∧ t.twin.takeover = some false)) ∧
    (twin → s.fenced = false → s.mirroring = true → lost = true → Answers i s fun t => t.pairState = 4 ∧ t.twin.takeover = none ∧ t.twin.mirrors = [] ∧
      s.changesOnly t (faultParts ++ [.mem])) ∧
    (twin → s.fenced = true → (s.twin.pairLost = true ∨ ∀ w, s.err.fenceAt = some w → w + 8000 < s.now) → Answers i s fun t => t = s.canon) ∧
    (∀ w, twin → s.fenced = true → s.twin.pairLost = false → s.err.fenceAt = some w → s.now ≤ w + 8000 → Answers i s fun t => t = s.bothFenced.canon ∧ t.twin.pairLost = true ∧
      t.twin.mirrors = [] ∧ s.changesOnly t faultParts)) ∧
  (∀ (s : State) (h : TwinHdr), let mine := s.fromTwin h.sender = true ∧ s.pairState ≠ 4
    (¬mine → Answers (.resyncBegin h) s fun t => t = s.canon) ∧
    (mine → h.crcOk = false → Answers (.resyncBegin h) s fun t => t = (s.heard.twinFault 1 1 s.heard.peer).startResync.canon ∧ t.pairState = 1) ∧
    (mine → h.crcOk = true → Answers (.resyncBegin h) s fun t => t.twin.rxSeq = h.seq ∧ t.twin.peerBegan = true ∧ t.twin.peerSynced = false ∧ t.twin.mirrors = [] ∧ t.twin.began = true ∧
      t.pairState = 1 ∧ s.changesOnly t (faultParts ++ [.mem, .seals]))) ∧
  (∀ (s : State),
    (let due := s.mirroring = true ∧ s.twin.lastSent + 2000 ≤ s.now
     (due → Answers .heartbeatSend s fun t => t.getF .TWIN_SEQ_TX = (s.getF .TWIN_SEQ_TX + 1) % 2 ^ 32 ∧ t.twin.lastSent = s.now ∧ t.twin.unacked = s.twin.unacked ∧
       (∃ w, t.out = .message "HEARTBEAT" s.peer w :: s.out) ∧ s.changesOnly t [.regs, .twin, .out]) ∧
     (¬due → Answers .heartbeatSend s fun t => t = s.canon)) ∧
    (let cut := (∃ w, s.fab.cubeDown = some w ∧ w + 10000 ≤ s.now) ∧ s.flag .FAB_CTRL_EN = true ∧ s.fenced = false
     (cut → Answers .isolated s fun t => t = (s.twinFault 7 4 s.self).canon ∧ s.changesOnly t faultParts) ∧ (¬cut → Answers .isolated s fun t => t = s.canon)))

/-- Modules that leave, hand-over, checkpoints (R391, R497, R506, R509, Table 17.5, Table 17.6). GONE of a module not heard of before is passed on, the ports that face it are down at once and what it held for this
one passes on or is lost; a request whose work it had is due to be sent again. A hold follows its request to the new owner. A checkpoint whose writes are all acknowledged is told to the twin. Images kept for
re-admission are kept no longer than said. -/
def Obligations.LeavingAndCheckpoints : Prop :=
  (∀ (s : State) (origin seq m at_ : Nat) (twin : Option Nat) (queues : List (Nat × Nat)), let i := Instr.gone origin seq m at_ twin queues
    let takes := (origin, seq) ∉ s.fab.seen ∧ s.getF .FAB_CTRL_EN ≠ 0 ∧ m ≠ s.self
    let pair := s.flag .TWIN_ID_PAIR_EN = true ∧ m = s.peer ∧ s.twin.mismatch = false
    (¬takes → Answers i s fun t => t = s.canon) ∧
    (takes → Answers i s fun t => m ∈ t.fab.gone ∧ (∀ k ∈ s.floodTo, .message "GONE" k [origin, seq, m, at_] ∈ t.out) ∧ s.changesOnly t (faultParts ++ [.mem, .seals, .step])) ∧
    let calm := (∀ p, ∀ o ∈ (s.port p).outq, ¬(o.msg.src = s.self ∧ o.msg.kind = 9)) ∧ ∀ c ∈ s.fab.cross, ¬(c.out.msg.src = s.self ∧ c.out.msg.kind = 9)
    (takes → s.fenced = true → calm → Answers i s fun t => t = (s.goneLinks origin seq m at_).canon ∧ s.changesOnly t (.fab :: noteParts) ∧
      (∀ p, p < 32 → s.portUp p = true → s.getF .FAB_PORT_STAT_PEER_ID (inst p) = m → s.flag .FAB_PORT_STAT_PEER_SWITCH (inst p) = false → t.portState p = 0)) ∧
    (takes → ¬pair → s.fenced = false → calm → s.ctxs = [] → s.coll.keys = [] → s.coll.subst = [] → s.scat = {} → s.tiers.migs = [] → (∀ c, c < 256 → s.flag .EXPMAP_CTRL_VALID (inst c) = false) →
      (∀ k ∈ s.liveEntries, (s.entry k).a.holder ≠ m) → Answers i s fun t => t.entries = s.entries ∧
        (∀ k ∈ s.liveEntries, t.req k = if (s.entry k).a.workOut = true ∧ (s.entry k).b.workModule = m then { s.req k with resendDue := true } else s.req k) ∧
        s.changesOnly t ([.fab, .reqs] ++ noteParts))) ∧
  (∀ (s : State) (owner old new : Nat), let i := Instr.ownerMoved owner old new
    (s.findHold old = none → Answers i s fun t => t = s.canon) ∧
    (∀ h, s.findHold old = some h → old ≠ new → Answers i s fun t => t.findHold new = some { h with handle := new, owner := owner } ∧ t.findHold old = none ∧
      (∀ k, k ≠ old → k ≠ new → t.findHold k = s.findHold k) ∧ s.changesOnly t [.regs, .twin, .out])) ∧
  (∀ (s : State) (handle : Nat), let i := Instr.checkpointAcked handle; let may := s.mirroring = true ∨ s.twin.leaving = true
    let copying := ∃ h, s.findHold handle = some h ∧ h.copy = 2
    (∀ h, s.findHold handle = some h → h.copy = 2 → (s.firmwareBusy 8 handle = true → Answers i s fun t => t = s.canon) ∧
      (s.firmwareBusy 8 handle = false → h.handle = handle ∧ Answers i s fun t => t = ((s.putHold { h with copy := 0 }).reportHold h).canon ∧
        (h.owner ≠ s.self → t.findHold handle = some { h with copy := 0 } ∧ t.out = .message "PAUSE_COPY_LANDED" h.owner [handle] :: s.out ∧ s.changesOnly t [.twin, .out]))) ∧
    (¬copying → (s.firmwareBusy 7 handle = true ∨ s.findHandle handle = none) → Answers i s fun t => t = s.canon) ∧
    (¬copying → s.firmwareBusy 7 handle = false → ∀ k, s.findHandle handle = some k →
      (((s.ckpt k).inFlight = none ∨ ¬may) → Answers i s fun t => t = s.canon) ∧
      (∀ f n, (s.ckpt k).inFlight = some (f, n) → may →
        let u := (s.sendTwin "CKPT" false handle (s.entry k).a.ctx (packBytes [(4, f), (4, n)])).setCkpt k { s.ckpt k with ckptLen := f + n, inFlight := none }
        ((s.fenced = true ∨ s.twin.handover = false) → Answers i s fun t => t = u.canon ∧
          t.ckpt k = { s.ckpt k with ckptLen := f + n, inFlight := none } ∧ (∀ j, j ≠ k → t.ckpt j = s.ckpt j) ∧ (∃ w, t.out = .message "CKPT" s.peer w :: s.out) ∧
          t.getF .TWIN_SEQ_TX = (s.getF .TWIN_SEQ_TX + 1) % 2 ^ 32 ∧ s.changesOnly t [.regs, .twin, .out]) ∧
        (s.fenced = false → s.twin.handover = true → Answers i s fun t => t = (u.checkpoint true k).handOver.canon) ∧
        (∀ x, s.fenced = false → s.twin.handover = true → s.twin.ckpts = [(k, x)] → (s.entry k).a.curLen ≤ f + n + 1 → s.pwr.handed = false → s.getF .TWIN_ID_PEER = s.getF .KEEL_TWIN_PEER →
          Answers i s fun t => t.pairState = 0 ∧ t.twin.handover = false ∧ t.twin.mirrors = [] ∧ t.twin.ckpts = [] ∧
          (∀ j, s.pairCtx (s.entry j).a.ctx = true → j ∈ s.liveEntries → (t.entry j).a.state = .free) ∧ .message "CLEAR_PAIR_EN" s.peer [s.self] ∈ t.out ∧
          s.changesOnly t (faultParts ++ [.mem, .seals]))))) ∧
  (∀ (s : State), Answers .readmitExpiry s fun t => t.twin = { s.twin with images := s.twin.images.filter fun x => decide (s.now < x.until_) } ∧ s.changesOnly t [.twin])

/-! ### The Keel (chapter 18) -/

/-- Keel orders (R472, R528 to R531, Table 18.9, Table 18.10). An order that arrives with four waiting is refused as busy; one that comes first is tested at once, and refused with the first code that fails, or kept
until it commits; any other waits. A refusal changes no Keel register but the counters. An order that passed answers, counts and becomes KEEL_ORDER_SEQ as it commits, and the next is tested. A step out of
lockstep drops the orders that wait. That an accepted order commits with the event of its kind is the model's choice (log 90). -/
def Obligations.KeelOrders : Prop :=
  (∀ (s : State) (q : Ask) (bs : List Nat), let i := Instr.keelOrder q bs; let u := s.mgmtArrives; let o : HeldOrder := { ask := q, bytes := bs }
    let refused := fun (code st : Nat) (t : State) => t.getF .KEEL_ORDERS_REFUSED = (u.getF .KEEL_ORDERS_REFUSED + 1) % 2 ^ Fld.KEEL_ORDERS_REFUSED.len ∧
      t.getF .KEEL_LAST_REFUSE_CODE = code ∧ t.getF .KEEL_LAST_REFUSE_SEQ = o.orderSeq % 2 ^ Fld.KEEL_LAST_REFUSE_SEQ.len ∧
      t.getF .KEEL_ORDER_SEQ_SEQ = u.getF .KEEL_ORDER_SEQ_SEQ ∧ .answer 0x20 q.seq st code (receipt code o.orderSeq) ∈ t.out ∧ u.changesOnly t noteParts
    (5 ≤ u.pwr.keelQueue.length → Answers i s (refused 0x0B 2)) ∧
    (u.pwr.keelQueue.length < 5 → u.pwr.keelQueue ≠ [] ∨ u.keelAwake = false → Answers i s fun t => t.pwr = { u.pwr with keelQueue := u.pwr.keelQueue ++ [o] } ∧ u.changesOnly t [.pwr]) ∧
    (u.pwr.keelQueue = [] → u.keelAwake = true → Answers i s fun t =>
      if u.keelCode o = 0 then t.pwr = { u.pwr with keelQueue := [o] } ∧ u.changesOnly t [.pwr] else refused (u.keelCode o) 4 t)) ∧
  (∀ (s : State) (o : HeldOrder), s.keelCode o = 0 → o.formatOk = true ∧ o.fld 16 16 = s.serial ∧ s.inScope o = true ∧ s.getF .KEEL_ORDER_SEQ_SEQ < o.orderSeq ∧
    s.expired (o.fld 40 8) = false ∧ (o.signer ≠ 2 → s.certOk o = true) ∧
    (s.pwr.anchor = [] → o.kind = 2 ∧ o.ask.src.overI3c = true ∧ o.signer = 2 ∧ Config.sigVerifies 3 o.newAnchor o.signed o.signature = true) ∧
    (s.pwr.anchor ≠ [] → o.signer = 2 → Config.sigVerifies 3 s.pwr.anchor o.signed o.signature = true) ∧
    (o.kind = 0 → ∀ w ∈ o.writes, keelValueOk w.1 w.2 = true)) ∧
  (∀ (s : State) (names : Option Nat), (s.acceptedOrder 0 = none → Answers (.writes names) s fun t => t = s.canon) ∧
    (s.acceptedOrder 1 = none → Answers .keyInstall s fun t => t = s.canon) ∧ (s.acceptedOrder 2 = none → Answers .anchorSet s fun t => t = s.canon)) ∧
  (∀ (s : State) (o : HeldOrder),
    let commits := fun (u : State) => u.getF .KEEL_ORDER_SEQ_SEQ = o.orderSeq % 2 ^ 64 ∧ u.getF .KEEL_ORDERS_ACCEPTED = (s.getF .KEEL_ORDERS_ACCEPTED + 1) % 2 ^ Fld.KEEL_ORDERS_ACCEPTED.len ∧
      u.out = .answer 0x20 o.ask.seq 0 0 (receipt 0 o.orderSeq) :: s.out ∧ u.pwr.keelQueue = s.pwr.keelQueue.tail
    let keys := [Reg.KEEL_ORDER_SEQ, Reg.KEEL_ORDERS, Reg.LOG_SUPPRESSED]; let off := fun (r : Nat) => r - Reg.KEEL_STATUS
    (∀ names, s.acceptedOrder 0 = some o → (∀ w ∈ o.writes, w.1 ∈ [off Reg.KEEL_CAP, off Reg.KEEL_THERM, off Reg.KEEL_ALARM]) → (o.writes.map Prod.fst).Nodup → Answers (.writes names) s fun t =>
      ∃ u : State, t = (u.keelHead 5).canon ∧ commits u ∧ (∀ w ∈ o.writes, u.regAt (Reg.KEEL_STATUS + w.1) = BitVec.ofNat 64 w.2) ∧
        s.changes u (keys ++ o.writes.map fun w => Reg.KEEL_STATUS + w.1) [.pwr, .log, .out]) ∧
    (∀ names v, s.acceptedOrder 0 = some o → o.writes = [(off Reg.KEEL_LOG_POLICY, v)] → Answers (.writes names) s fun t =>
      ∃ u : State, t = (u.keelHead 5).canon ∧ commits u ∧ u.regAt Reg.KEEL_LOG_POLICY = BitVec.ofNat 64 (v % 2 ^ 63) ∧ u.log.journal = (if natBit v 63 = true then [] else s.log.journal) ∧
        s.changes u (Reg.KEEL_LOG_POLICY :: keys) [.pwr, .log, .out]) ∧
    (∀ names, s.acceptedOrder 0 = some o → o.writes = [(off Reg.KEEL_POWER, 1)] → s.flag .KEEL_POWER_OFF = false → s.pwr.off = false → Answers (.writes names) s fun t =>
      ∃ u : State, t = (u.keelHead 5).canon ∧ u.getF .KEEL_ORDER_SEQ_SEQ = o.orderSeq % 2 ^ 64 ∧ .answer 0x20 o.ask.seq 0 0 (receipt 0 o.orderSeq) ∈ u.out ∧
        u.pwr.keelQueue = s.pwr.keelQueue.tail ∧ u.pwr.off = true ∧ u.getF .KEEL_POWER_OFF = 1 ∧ (∀ r, 3 ≤ r → r < 25 → u.getF .RAIL_STAT_STATE (inst r) = 0) ∧
        u.ctxs = [] ∧ u.log.journal = s.log.journal ∧ u.now = s.now) ∧
    (∀ names, s.acceptedOrder 0 = some o → o.writes = [(off Reg.KEEL_EMERG, 1)] → s.emergency = false → Answers (.writes names) s fun t =>
      ∃ u : State, t = (u.keelHead 5).canon ∧ u.getF .KEEL_ORDER_SEQ_SEQ = o.orderSeq % 2 ^ 64 ∧ u.getF .KEEL_STATUS_EMERG_ACTIVE = 1 ∧ u.getF .PWRCLK_CAP_STRETCH = 3 ∧
        .answer 0x20 o.ask.seq 0 0 (receipt 0 o.orderSeq) ∈ u.out ∧ s.changesOnly u (.pwr :: noteParts)) ∧
    (s.acceptedOrder 1 = some o → o.slot < 16 → Answers .keyInstall s fun t => let k := keySlotOff o.slot
      ∃ v : State, t = (((v.keyChanged o.slot).answerOp 0x20 o.ask 0 0 (receipt 0 o.orderSeq)).keelHead 5).canon ∧
        v.getF .KEEL_ORDER_SEQ_SEQ = o.orderSeq % 2 ^ 64 ∧ v.getF .KEEL_KEY_ID_KEY_ID k = bytesNum o.body 8 8 % 2 ^ 64 ∧ v.flag .KEEL_KEY_STATE_VALID k = true ∧
        v.flag .KEEL_KEY_STATE_REVOKED k = false ∧ (∀ j, j < 324 → v.getF .KEEL_KEY_DATA_KEY (0x1000 * o.slot + 8 * j) = bytesNum o.body (16 + 8 * j) 8 % 2 ^ 64) ∧
        (∀ j, j < 16 → j ≠ o.slot → v.slotKey j = s.slotKey j ∧ v.regAt (Reg.KEEL_KEY_STATE + keySlotOff j) = s.regAt (Reg.KEEL_KEY_STATE + keySlotOff j)) ∧
        s.changesOnly v [.regs, .pwr, .log]) ∧
    (s.acceptedOrder 2 = some o → Answers .anchorSet s fun t => ∃ u : State, t = (u.keelHead 5).canon ∧ commits u ∧ u.pwr = { s.pwr with keelQueue := s.pwr.keelQueue.tail, anchor := o.newAnchor } ∧
      u.getF .KEEL_ANCHOR_ID_ID = digestNum o.newAnchor % 2 ^ Fld.KEEL_ANCHOR_ID_ID.len ∧ u.flag .KEEL_STATUS_ANCHOR_SET = true ∧
      s.changes u ([Reg.KEEL_ANCHOR_ID, Reg.KEEL_STATUS] ++ keys) [.pwr, .log, .out])) ∧
  (∀ (s : State), Answers .keelLockstep s fun t => t.pwr = { s.pwr with keelQueue := [] } ∧ t.regAt Reg.KEEL_ORDERS = 0 ∧ t.regAt Reg.KEEL_LAST_REFUSE = 0 ∧
    t.getF .KEEL_ORDER_SEQ_SEQ = s.getF .KEEL_ORDER_SEQ_SEQ ∧ s.changesOnly t (.pwr :: faultParts))

/-! ### Observation (chapter 19) -/

/-- The error ring's consumer, the photo finish, performance counters (R549, R550, R557 to R561). CONS moves forward and not past PROD; backlog records enter in order as room is made. A trigger is numbered, told to
the modules its scope names, and latched here at its target, or at once and LATE when that is less than 20 us ahead. A latch holds every snapshot register; one within 1 us of the one before shares it, and is counted
in its header while it waits to be packed; with two waiting it is skipped. Packing takes the oldest latch into the next of four slots. These registers belong to the physical function. -/
def Obligations.RingAndPhotoFinish : Prop :=
  (∀ (s : State) (n v k q : Nat), ∀ x ∈ [(Instr.errRingCons (.vf n) v, Reg.ERR_RING_CONS), (.go (.vf n), Reg.SNAP_CTRL), (.clear (.vf n) k, Reg.PMC_SEL + 16 * (k % 16)),
    (.logSel (.vf n) q, Reg.LOG_SEL)], s.reached (.vf n) = true → Answers x.1 s fun t => t = (s.notice 0 nAccessHole x.2).canon ∧ s.changesOnly t noteParts) ∧
  (∀ (s : State) (m : Master) (v : Nat), (∀ n, m ≠ .vf n) → let i := Instr.errRingCons m v
    let fwd := (v % 2 ^ 32 + 2 ^ 32 - s.getF .ERR_RING_CONS_CONS) % 2 ^ 32
    (s.errHeld < fwd → Answers i s fun t => t = (s.notice 0x10 nAccessState Reg.ERR_RING_CONS).canon ∧ t.getF .ERR_RING_CONS_CONS = s.getF .ERR_RING_CONS_CONS ∧ s.changesOnly t noteParts) ∧
    (fwd ≤ s.errHeld → Answers i s fun t => let n := min s.err.backlog.length (1024 - (s.errHeld - fwd)); let p := s.getF .ERR_RING_PROD_PROD
      t.getF .ERR_RING_CONS_CONS = v % 2 ^ 32 ∧ t.getF .ERR_RING_PROD_PROD = (p + n) % 2 ^ 32 ∧ t.err.backlog = s.err.backlog.drop n ∧ t.err.seq = s.err.seq ∧
      (∀ j r, j < n → s.err.backlog[j]? = some r → t.err.slots.find? (fun x => x.1 == (p + j) % 2 ^ 32 % 1024) = some ((p + j) % 2 ^ 32 % 1024, r)) ∧
      s.changes t [Reg.ERR_RING_CONS, Reg.ERR_RING_PROD] [.err, .out])) ∧
  (∀ (s : State) (m : Master), (∀ n, m ≠ .vf n) → let scope := s.getF .SNAP_CTRL_SCOPE; let slice := s.getF .SNAP_CTRL_SLICE; let target := s.getF .SNAP_TARGET_T
    let c := (s.snap.count + 1) % 65536; let tr : Trigger := { id := s.self * 65536 + c, target := target, scope := scope, slice := slice, source := 0, late := false }
    (scope = 3 → Answers (.go m) s fun t => t = s.canon) ∧
    (scope ≠ 3 → Answers (.go m) s fun t => t.snap.count = c ∧
      (scope = 1 → ∀ k ∈ s.sliceOf slice, k ≠ s.self → .message "PHOTO_FINISH" k [tr.id, target, scope, slice] ∈ t.out) ∧
      (scope = 2 → .message "PHOTO_FINISH" everyModule [tr.id, target, scope, slice] ∈ t.out) ∧
      (s.inScopeOf scope slice = false → t.snap.scheduled = s.snap.scheduled ∧ s.changesOnly t [.snap, .out]) ∧
      (s.inScopeOf scope slice = true → s.now + 20000 ≤ target → t.snap = { s.snap with count := c, scheduled := s.snap.scheduled ++ [tr] } ∧ s.changesOnly t [.snap, .out]) ∧
      (s.inScopeOf scope slice = true → target < s.now + 20000 → s.fenced = false → s.pwr.off = false → s.snap.shadows = [] → s.sharesLatch s.now = false →
        ∃ sh, t.snap.shadows = [sh] ∧ sh.trig = { tr with late := true } ∧ sh.time = s.now ∧ t.snap.scheduled = s.snap.scheduled ∧ s.changesOnly t (.snap :: noteParts)))) ∧
  (∀ (s : State) (id target scope slice : Nat), let i := Instr.photoFinish id target scope slice
    let tr : Trigger := { id := id % 2 ^ 32, target := target, scope := scope % 3, slice := slice, source := 3, late := false }
    (s.inScopeOf (scope % 3) slice = false → Answers i s fun t => t = s.canon) ∧
    (s.inScopeOf (scope % 3) slice = true → s.now + 20000 ≤ target → Answers i s fun t => t.snap = { s.snap with scheduled := s.snap.scheduled ++ [tr] } ∧ s.changesOnly t [.snap]) ∧
    (s.inScopeOf (scope % 3) slice = true → target < s.now + 20000 → Answers i s fun t => t = (s.latch { tr with late := true }).canon ∧ s.changesOnly t (.snap :: noteParts))) ∧
  (∀ (s : State), let left := s.snap.scheduled.filter fun t => decide (s.now < t.target); let u : State := { s with snap := { s.snap with scheduled := left } }
    let due := s.snap.scheduled.filter fun t => decide (t.target ≤ s.now)
    Answers .snapshotLatch s fun t => t.snap.scheduled = left ∧ (due = [] → t.snap = u.snap ∧ s.changesOnly t [.snap]) ∧ (∀ tr, due = [tr] → t = (u.latch tr).canon) ∧
      s.changesOnly t (.snap :: noteParts)) ∧
  (∀ (u : State) (tr : Trigger), let t := u.latch tr; let at_ := if tr.late then u.now else tr.target
    let fresh := ∃ sh, t.snap.shadows = u.snap.shadows ++ [sh] ∧ sh.trig = tr ∧ sh.time = u.now ∧ sh.merged = 0 ∧ sh.skipped = u.snap.skipped ∧ t.snap.skipped = 0 ∧ t.snap.last = some (min u.now tr.target, u.now) ∧
      (tr.late = false → u.mstate ≠ 3 → u.sleepers = [] → ∀ k, snapRegs.contains (canonReg (canonOff (k % instStride))) = true →
        k ∉ [Reg.SL_STATES_0, Reg.SL_STATES_1, Reg.SL_STATES_2] → sh.value none k = u.regAt k) ∧
      t.getF .SNAP_LAST_ID_ID = tr.id % 2 ^ 32 ∧ t.getF .SNAP_LAST_T_T = u.now % 2 ^ 64 ∧ t.getF .SNAP_TAKEN_COUNT = (u.getF .SNAP_TAKEN_COUNT + 1) % 2 ^ 64
    (u.fenced = true ∨ u.pwr.off = true → t = u) ∧
    (u.fenced = false → u.pwr.off = false →
      (u.sharesLatch at_ = false → u.snap.shadows.length < 2 → fresh) ∧
      (u.sharesLatch at_ = true → (∀ a sh, u.snap.shadows = a ++ [sh] → t.snap = { u.snap with shadows := a ++ [{ sh with merged := sh.merged + 1 }] }) ∧ (u.snap.shadows = [] → t.snap = u.snap) ∧
        t.getF .SNAP_MERGED_COUNT = (u.getF .SNAP_MERGED_COUNT + 1) % 2 ^ 64 ∧ u.changes t [Reg.SNAP_MERGED] [.snap]) ∧
      (u.sharesLatch at_ = false → 2 ≤ u.snap.shadows.length → t.snap = { u.snap with skipped := u.snap.skipped + 1 } ∧
        t.getF .SNAP_SKIPPED_COUNT = (u.getF .SNAP_SKIPPED_COUNT + 1) % 2 ^ 64))) ∧
  (∀ (s : State) (at_ : Nat), s.sharesLatch at_ = true ↔ ∃ p, s.snap.last = some p ∧ p.1 ≤ at_ ∧ at_ ≤ p.2 + 1000) ∧
  (∀ (s : State),
    (s.snap.shadows = [] → Answers .snapshotPack s fun t => t = s.canon) ∧
    (∀ sh r, s.snap.shadows = sh :: r → Answers .snapshotPack s fun t => let slot := if s.snap.slots = [] then 0 else (s.snap.newest + 1) % 4
      let copy := s.flag .SNAP_CTRL_HOST_COPY = true ∧ s.getF .HOSTVI_LINK_WIDTH ≠ 0; let room := s.getF .SNAP_HOST_LEN_BYTES / 64
      let x : Snapshot := { shadow := sh, trunc := decide (copy ∧ room < sh.records) }
      t.snap.shadows = r ∧ t.snap.scheduled = s.snap.scheduled ∧ t.snap.newest = slot ∧ t.snap.slots.find? (fun p => p.1 == slot) = some (slot, x) ∧
      (copy → t.out = .hostData (s.getF .SNAP_HOST_ADDR_ADDR / 64 * 64) (((List.range (min room sh.records)).flatMap fun n => x.record n s.self).map fun b => BitVec.ofNat 8 b) false :: s.out) ∧ (¬copy → t.out = s.out) ∧ s.changesOnly t [.snap, .out])) ∧
  (∀ (s : State) (m : Master) (k : Nat), (∀ n, m ≠ .vf n) → Answers (.clear m k) s fun t => t.getF .PMC_COUNT (16 * (k % 16)) = 0 ∧ s.changes t [Reg.PMC + 16 * (k % 16)] [])

/-- The logbook (R562 to R567, Table 19.9a). LOG_SEL begins a fetch and LOG_READY ends it with the record or NOT_FOUND. A record programmed joins the journal, whose oldest sector goes when it is full; a sector that
fails is bad, and the record waits. PERIODIC and the daily records come when due, with the ledger. Records past 64 a second, or finding 512 waiting, are counted by kind and reported once. That a failed sector's
earlier records stay readable, and the bodies' widths, are the model's choice (log 93). -/
def Obligations.Logbook : Prop :=
  (∀ (s : State) (m : Master) (q : Nat), (∀ n, m ≠ .vf n) → Answers (.logSel m q) s fun t =>
    t.log = { s.log with fetch := (s.log.fetch.filter fun p => p.1 != m.code) ++ [(m.code, q % 2 ^ 32)], fetched := s.log.fetched.filter fun p => p.1 != m.code } ∧
    SMap.get 0 t.sel (selKey m Reg.LOG_SEL) = q % 2 ^ 32 ∧ (∀ k, k ≠ selKey m Reg.LOG_SEL → SMap.get 0 t.sel k = SMap.get 0 s.sel k) ∧ t.logFound m.code = none ∧
    (∀ k, k ≠ m.code → t.logFound k = s.logFound k) ∧ s.changesOnly t [.log, .sel]) ∧
  (∀ (s : State),
    (s.log.fetch = [] → Answers .logReady s fun t => t = s.canon) ∧
    (∀ m q rest, s.log.fetch = (m, q) :: rest → Answers .logReady s fun t => let r := s.log.journal.find? fun (x : LogRec) => x.seq % 2 ^ 32 == q
      t.log = { s.log with fetch := rest, fetched := (s.log.fetched.filter fun p => p.1 != m) ++ [(m, r)] } ∧ t.logFound m = some r ∧ (∀ k, k ≠ m → t.logFound k = s.logFound k) ∧
        s.changesOnly t [.log])) ∧
  (∀ (s : State) (m : Nat), getBits (s.logStatus m) 1 1 = bit ((s.logFound m).any fun r => r.isSome) ∧ getBits (s.logStatus m) 2 1 = bit ((s.logFound m).any fun r => r.isNone) ∧
    getBits (s.logStatus m) 0 1 = s.getF .LOG_STATUS_CAL_VALID ∧ getBits (s.logStatus m) 3 1 = s.getF .LOG_STATUS_WRITE_FAIL ∧
    (∀ r w, s.logFound m = some (some r) → s.logWord m w = wordOf (logBytes r) w)) ∧
  (∀ (s : State), let due := s.log.lastPeriodic + s.getF .KEEL_LOG_POLICY_PERIODIC_S * 1000000000 ≤ s.now
    (¬due → Answers .logPeriodic s fun t => t = s.canon) ∧
    (due → Answers .logPeriodic s fun t => t.log.lastPeriodic = s.now ∧ t.log.ledger = ledgerRegs.map (fun r => (r, s.regAt r)) ∧ t.log.ledgerSaves = s.log.ledgerSaves + 1 ∧
      t.log.journal = s.log.journal ∧ s.changes t [Reg.LOG_SUPPRESSED] [.log, .board]) ∧
    (due → (s.log.second ≠ s.now / 1000000000 ∨ s.log.accepted < 64) → s.log.buffered.length < 512 → Answers .logPeriodic s fun t =>
      ∃ r : LogRec, t.log.buffered = s.log.buffered ++ [r] ∧ r.kind = 2 ∧ r.seq = s.log.nextSeq ∧ r.body = s.periodicBody ∧ r.calendar = s.calendar ∧ t.log.nextSeq = s.log.nextSeq + 1)) ∧
  (∀ (s : State) (drifts : List Nat), let due := s.log.lastDaily + 86400 ≤ s.getF .LOG_POWER_ON_S_S
    (¬due → Answers (.logDaily drifts) s fun t => t = s.canon) ∧
    (due → Answers (.logDaily drifts) s fun t => t.log.lastDaily = s.getF .LOG_POWER_ON_S_S ∧ t.log.stackCe = [] ∧ t.log.stackUe = [] ∧
      (∀ k, k < 8 → t.getF .LOG_AGING_DRIFT (8 * k) = drifts.getD k 0 % 2 ^ 16) ∧ s.changes t (Reg.LOG_SUPPRESSED :: (List.range 8).map fun k => Reg.LOG_AGING + 8 * k) [.log]) ∧
    (due → s.log.second ≠ s.now / 1000000000 → s.log.buffered.length < 510 → Answers (.logDaily drifts) s fun t =>
      ∃ a b c : LogRec, t.log.buffered = s.log.buffered ++ [a, b, c] ∧ a.kind = 10 ∧ b.kind = 11 ∧ c.kind = 11 ∧ a.seq = s.log.nextSeq ∧ b.seq = a.seq + 1 ∧ c.seq = b.seq + 1)) ∧
  (∀ (s : State) (ok : Bool),
    (s.log.buffered = [] → Answers (.logProgram ok) s fun t => t = s.canon) ∧
    (∀ r a, s.log.buffered = r :: a → ok = true → Answers (.logProgram ok) s fun t => let j := s.log.journal ++ [r]
      t.log = { s.log with buffered := a, journal := if s.journalRoom < j.length then j.drop 1023 else j } ∧ s.changesOnly t [.log]) ∧
    (∀ r a, s.log.buffered = r :: a → ok = false → Answers (.logProgram ok) s fun t => t.log = { s.log with badSectors := s.log.badSectors + 1 } ∧ t.flag .LOG_STATUS_WRITE_FAIL = true ∧
      (s.afterFence 1 = false → natBit (t.getF .ERR_FAULT_FLAGS) 4 = true) ∧ s.changesOnly t noteParts)) ∧
  (∀ (s : State),
    (s.log.suppressed = [] → Answers .logSuppressed s fun t => t = s.canon) ∧
    (s.log.suppressed ≠ [] → s.log.buffered.length < 512 → Answers .logSuppressed s fun t => t.log.suppressed = [] ∧
      (∃ r : LogRec, t.log.buffered = s.log.buffered ++ [r] ∧ r.kind = 12 ∧ r.body = packBytes ((List.range 13).map fun k => (3, SMap.get 0 s.log.suppressed (k + 1)))) ∧
      (s.afterFence 0 = false → natBit (t.getF .ERR_FAULT_FLAGS) 5 = true) ∧ s.changesOnly t noteParts)) ∧
  (∀ (u : State) (kind : Nat) (body : List Nat), let t := u.logRec kind body; let now := u.now / 1000000000
    let capped := logUncapped kind = false ∧ u.log.second = now ∧ 64 ≤ u.log.accepted
    (capped ∨ 512 ≤ u.log.buffered.length → t.log = { u.log with suppressed := SMap.modify 0 u.log.suppressed kind (· + 1) } ∧
      t.getF .LOG_SUPPRESSED_COUNT = (u.getF .LOG_SUPPRESSED_COUNT + 1) % 2 ^ 64 ∧ u.changes t [Reg.LOG_SUPPRESSED] [.log]) ∧
    (¬capped → u.log.buffered.length < 512 → (∃ r : LogRec, t.log.buffered = u.log.buffered ++ [r] ∧ r.seq = u.log.nextSeq ∧ r.kind = kind ∧ r.body = body ∧ r.calendar = u.calendar ∧
      r.powerOn = u.getF .LOG_POWER_ON_S_S) ∧ t.log.nextSeq = u.log.nextSeq + 1 ∧ t.log.second = now ∧ t.log.suppressed = u.log.suppressed ∧ u.changesOnly t [.log]))

/-! ### Board and bring-up (chapter 20) -/

/-- References, rails, hold-up, resets (R565, R574, R575, R578, R581, R583, R584, Table 20.6, Table 20.14). A reference lost is counted and fences; with REF156 every port is down. Three announced PPS edges 10^9 ns
(200 ns more or less) apart lock the reference, and two seconds without one lose it. A rail's fault turns rails 3 to 8 off. When hold-up ends with the input gone, what no flash holds is lost. PERST_N acts as
DL_Down; MOD_RESET_N resets all but the Keel and the always-on domain; a full boot starts at B1. That the root follows the reference by slew, and that time restarts when all power is gone, are the model's
choice (log 95). -/
def Obligations.ReferencesRailsResets : Prop :=
  (∀ (s : State), ∀ x ∈ [(Instr.ref100Lost, Fld.REF_STAT_REF100_OK), (.ref156Lost, .REF_STAT_REF156_OK)], Answers x.1 s fun t => t.getF x.2 = 0 ∧
    t.getF .REF_STAT_LOSSES = min 65535 (s.getF .REF_STAT_LOSSES + 1) ∧ (s.err.handling = [] → t.fenced = true) ∧ t.board = { s.board with booting := false } ∧
    (s.board.booting = true → t.flag .BOOT_STATUS_FAILED = true ∧ t.getF .BOOT_STATUS_FAIL_CODE = 6) ∧
    (x.1 = .ref156Lost → ∀ p, p < 32 → s.portUp p = true → t.portUp p = false) ∧ (x.1 = .ref100Lost → t.getF .HOSTVI_LINK_WIDTH = 0) ∧ s.changesOnly t (.board :: faultParts)) ∧
  (∀ (s : State), s.getF .HOSTVI_LINK_WIDTH = 0 → s.endAll = s ∧ s.loseMirrors = { s with twin := { s.twin with mirrors := [] } }) ∧
  (∀ (s : State), let b := s.board; let gap := s.now - b.ppsLast; let lock := s.flag .REF_STAT_PPS_LOCK
    let edges := if b.ppsAnnounced = none then 0 else if 0 < b.ppsEdges ∧ 999999800 ≤ gap ∧ gap ≤ 1000000200 then min 3 (b.ppsEdges + 1) else 1
    Answers .timePps s fun t => t.board = { b with ppsEdges := edges, ppsLast := t.now, ppsAnnounced := none } ∧ t.flag .REF_STAT_PPS_LOCK = (lock || edges == 3) ∧
      (edges = 3 → lock = false → b.rootAllow = true → t.flag .FAB_CTRL_ROOT_OK = true) ∧
      ((edges ≠ 3 ∨ lock = true) → (lock = false ∨ b.ppsAnnounced = none ∨ s.flag .FAB_STATUS_TIME_ROOT = false) → s.changesOnly t [.board]) ∧
      (∀ sec : Nat, b.ppsAnnounced = some sec → lock = true → s.flag .FAB_STATUS_TIME_ROOT = true → s.getF .HOSTVI_DEV_STATUS_READY = 1 →
        t.fab = { s.fab with slew := (sec * 1000000000 : Nat) - (s.now : Int) } ∧ s.changesOnly t [.board, .fab]) ∧
      s.changesOnly t [.regs, .board, .fab, .log, .now]) ∧
  (∀ (s : State), let lost := s.flag .REF_STAT_PPS_LOCK = true ∧ s.board.ppsLast + 2000000000 ≤ s.now
    (¬lost → Answers .ppsLost s fun t => t = s.canon) ∧
    (lost → Answers .ppsLost s fun t => t.flag .REF_STAT_PPS_LOCK = false ∧ t.board = { s.board with ppsEdges := 0 } ∧ s.changesOnly t ([.board, .fab] ++ noteParts))) ∧
  (∀ (s : State) (rail : Nat), Answers (.railFault rail) s fun t => t.pwr.off = true ∧ t.getF .RAIL_STAT_STATE (inst (rail % 25)) = 3 ∧
    (∀ r, 3 ≤ r → r < 25 → r ≠ rail % 25 → t.regAt (Reg.RAIL_STAT + inst r) = 0) ∧ t.ctxs = [] ∧ t.entries = [] ∧ (∀ a, t.byteAt a = 0) ∧ t.log.journal = s.log.journal ∧ t.now = s.now) ∧
  (∀ (s : State),
    (s.pwr.inputLost = false → ∀ g, Answers (.holdupEnd g) s fun t => t = s.canon) ∧
    (s.pwr.inputLost = true → Answers (.holdupEnd false) s fun t => t = s.powerOff.canon ∧ t.pwr.off = true ∧ t.ctxs = [] ∧ t.log.journal = s.log.journal ∧
      t.log.buffered = s.log.buffered ∧ t.now = s.now) ∧
    (s.pwr.inputLost = true → Answers (.holdupEnd true) s fun t => t.pwr.off = true ∧ t.log.journal = s.log.journal ∧ t.log.buffered = [] ∧ t.now = 0 ∧ t.pwr.anchor = s.pwr.anchor ∧
      (∀ a, t.byteAt a = 0) ∧ (s.log.ledger = [] → ∀ k, flashReg k = true → t.regAt k = s.regAt k) ∧
      (∀ f : Nat → Word, s.log.ledger = ledgerRegs.map (fun r => (r, f r)) → (∀ r ∈ ledgerRegs, t.regAt r = f r) ∧ ∀ k, flashReg k = true → t.regAt k = s.regAt k))) ∧
  (∀ (s : State),
    Answers (.perstN false) s (fun t => natBit (t.getF .SIDEBAND_LEVELS) 3 = true ∧ t.board = { s.board with perst := false } ∧ s.changes t [Reg.SIDEBAND] [.board]) ∧
    Answers (.perstN true) s (fun t => natBit (t.getF .SIDEBAND_LEVELS) 3 = false ∧ t.board.perst = true ∧ t.board.vfEnable = false ∧ t.board.linkUp = false ∧ t.getF .HOSTVI_LINK_WIDTH = 0 ∧
      ∀ n, n < 256 → (t.vi n).enabled = false)) ∧
  (∀ (s : State),
    (s.pwr.inputLost = true → s.fenced = true → Answers .modResetN s fun t => t = s.canon) ∧
    (s.pwr.inputLost = false ∨ s.fenced = false → Answers .modResetN s fun t => t.board.resetHeld = true ∧ natBit (t.getF .SIDEBAND_LEVELS) 4 = false ∧ t.pwr.off = s.pwr.off ∧
      t.ctxs = [] ∧ t.entries = [] ∧ t.vis = [] ∧ t.rigs = [] ∧ t.twin = {} ∧ (∀ a, t.byteAt a = 0) ∧ (∀ u l, t.opLine u l = {}) ∧
      (∀ k, 0x00100000 ≤ k → k < 0x00200000 → t.regAt k = s.regAt k) ∧ (∀ k, retainedReg k = false → t.regAt k = resetWord k) ∧
      t.pwr.anchor = s.pwr.anchor ∧ t.log.journal = s.log.journal ∧ t.now = s.now)) ∧
  (∀ (s : State) (cause : Nat) (slot : Bool), let c := cause % 4; let i := Instr.fullBoot cause slot
    let may := (c = 1 → s.board.resetHeld = true) ∧ (c = 2 → s.pwr.inputLost = true)
    (¬may → Answers i s fun t => t = s.canon) ∧
    (may → Answers i s fun t => t.board.booting = true ∧ t.board.stages = 1 ∧ t.board.bootSince = s.now ∧ t.board.resetHeld = false ∧ t.pwr.off = (s.pwr.off || c != 1) ∧
      t.board.rootAllow = s.flag .BOOT_PARAM_ROOT_ALLOW ∧ t.getF .BOOT_STATUS_STAGE = 1 ∧ t.flag .BOOT_STATUS_FAILED = false ∧ t.flag .BOOT_STATUS_STANDALONE = s.flag .BOOT_PARAM_STANDALONE ∧
      t.getF .BOOT_CAUSE_CAUSE = c ∧ t.getF .BOOT_TIME_BOOTS = (s.getF .BOOT_TIME_BOOTS + 1) % 2 ^ 32 ∧ natBit (t.getF .SIDEBAND_LEVELS) 5 = slot ∧ t.ctxs = [] ∧ (∀ a, t.byteAt a = 0) ∧
      (∀ k, 0x00100000 ≤ k → k < 0x00200000 → t.regAt k = s.regAt k) ∧ t.log.journal = s.log.journal ∧ t.now = s.now))

/-- Stages of a full boot (R585 to R590, Table 20.8, Table 20.10, R378, R379). A stage completes once those it starts from have, B3 with the tray in and the module cool, B10 with a port up, B11 with the tables. What
each does; which failure withholds device-ready, with its code; B12 makes the module ready. A standalone module skips B10 and B11 and trains nothing. A DOWN port is retrained each second. That a stage's outcome
comes with the event, and that STAGE shows the lowest in progress, are the model's choice (log 94). -/
def Obligations.BringUp : Prop :=
  (∀ (s : State) (stage : Nat) (x : BootReport), let k := stage % 13; let i := Instr.bootStageComplete stage x
    let alone := s.flag .BOOT_STATUS_STANDALONE = true
    let may := s.board.booting = true ∧ natBit s.board.stages k = false ∧ (∀ j ∈ s.bootStarts k, natBit s.board.stages j = true) ∧ ¬(alone ∧ (k = 10 ∨ k = 11)) ∧ s.stageMay k = true
    let failed := fun (t : State) (code : Nat) => t.flag .BOOT_STATUS_FAILED = true ∧ t.getF .BOOT_STATUS_FAIL_CODE = code ∧ t.board.booting = false ∧ natBit (t.getF .SIDEBAND_LEVELS) 6 = false
    (¬may → Answers i s fun t => t = s.canon) ∧
    (may → Answers i s fun t => natBit t.board.stages k = true ∧ (∀ j, j ≠ k → natBit t.board.stages j = natBit s.board.stages j) ∧
      (t.board.booting = true → t.getF .BOOT_STATUS_STAGE = t.stageShown)) ∧
    (may → k = 1 → Answers i s fun t => ∀ r, r < 3 → t.getF .RAIL_STAT_STATE (inst r) = 2) ∧
    (may → k = 2 → x.keelOk = false → Answers i s fun t => failed t 5) ∧
    (may → k = 3 → Answers i s fun t => t.pwr.off = false ∧ t.getF .REF_STAT_REF100_OK = 1 ∧ t.getF .REF_STAT_REF156_OK = 1 ∧ (∀ r, 3 ≤ r → r < 25 → t.getF .RAIL_STAT_STATE (inst r) = 2) ∧
      s.changesOnly t [.regs, .pwr, .board, .out]) ∧
    (may → k = 4 → let good := fun (b : Bank) (ok : Bool) => ok && b.cox.verifies && b.phy.verifies; let a := good s.board.bankA x.okA; let b := good s.board.bankB x.okB
      Answers i s fun t => (a = false → b = false → failed t 1) ∧
      (a = true ∨ b = true → t.board.running = (if s.board.bankA.cox.version < s.board.bankB.cox.version then b else !a) ∧ t.flag .IDENT_FW_BANK = t.board.running)) ∧
    (may → k = 5 → Answers i s fun t => (∀ n, n < 8 → t.getF .NET_STATUS_READY (seatOff n) = 1) ∧
      (alone → ∀ p, p < 32 → t.portState p = s.portState p) ∧
      (¬alone → s.strapOk = true → t.flag .FAB_ID_VALID = true ∧ t.getF .FAB_ID_MODULE_ID = (64 * s.getF .KEEL_LOCATION_RACK + 2 * s.getF .KEEL_LOCATION_TRAY + s.getF .KEEL_LOCATION_SLOT) % 2 ^ 15 ∧
        ∀ p, p < 32 → s.portState p = 0 → s.flag .FAB_PORT_CTRL_DISABLE (inst p) = false → t.portState p = 1) ∧
      (¬alone → s.strapOk = false → t.flag .FAB_ID_VALID = false ∧ ∀ p, p < 32 → t.portState p = s.portState p)) ∧
    (may → k = 6 → Answers i s fun t => ((∃ n, n < 24 ∧ 2 ≤ x.hbm.getD n 0) → failed t 2) ∧
      ((∀ n, n < 24 → x.hbm.getD n 0 < 2) → t.getF .TIERS_CAP_STACKS_UP = 24 ∧ ∀ n, n < 24 → t.getF .TIERS_HBM_STAT_STATE (stackOff n) = 2)) ∧
    (may → k = 7 → Answers i s fun t => (∀ a, a < 0x022000000000 → t.byteAt a = 0 ∧ t.poisonAt (a / 64 * 64) = false) ∧ (∀ a, 0x022000000000 ≤ a → t.byteAt a = s.byteAt a) ∧
      s.changesOnly t [.regs, .mem, .board]) ∧
    (may → k = 8 → Answers i s fun t => (∀ u, u < 16384 → (t.unit u).retired = decide (u ∈ x.failed)) ∧ (x.seatsFailed ≠ [] → failed t 3)) ∧
    (may → k = 9 → x.cxl = [] → Answers i s fun t => s.changes t [Reg.BOOT_STATUS] [.board]) ∧
    (may → k = 10 → Answers i s fun t => if (s.fab.ports.any fun p => p.2.conflict) = true then failed t 4 else s.changes t [Reg.BOOT_STATUS] [.board]) ∧
    (may → k = 11 → Answers i s fun t => s.changes t [Reg.BOOT_STATUS] [.board]) ∧
    (may → k = 12 → s.flag .KEEL_TWIN_PAIR_EN = false → Answers i s fun t => t.getF .HOSTVI_DEV_STATUS_READY = 1 ∧ t.getF .BOOT_STATUS_STAGE = 12 ∧ t.board.booting = false ∧
      t.getF .TIERS_TILLER_CTRL_EN = 1 ∧ (t.flag .FAB_CTRL_EN = true ↔ ¬alone) ∧ t.getF .BOOT_TIME_MS = (s.now - s.board.bootSince) / 1000000 % 2 ^ 32 ∧
      (alone → t.flag .FAB_STATUS_TIME_ROOT = true) ∧ s.changesOnly t [.regs, .pwr, .board, .log, .now, .out])) ∧
  (∀ (s : State), let rack := natBit s.board.stages 5 = true ∧ s.flag .BOOT_STATUS_STANDALONE = false ∧ s.pwr.off = false ∧ s.fenced = false
    let down := fun (p : Nat) => s.portState p = 0 ∧ (s.port p).conflict = false ∧ s.flag .FAB_PORT_CTRL_DISABLE (inst p) = false
    (¬rack → Answers .portRetry s fun t => t = s.canon) ∧
    (rack → Answers .portRetry s fun t => (t.flag .BOOT_STATUS_RETRYING = true ↔ ∃ p, p < 32 ∧ down p) ∧ s.changesOnly t (.fab :: noteParts)) ∧
    (rack → s.flag .FAB_ID_VALID = false → Answers .portRetry s fun t => s.changes t [Reg.BOOT_STATUS] []) ∧
    (rack → s.flag .FAB_ID_VALID = true → Answers .portRetry s fun t => ∀ p, p < 32 → (down p → t.portState p = 6 ∧
      t.getF .FAB_PORT_STAT_RETRAINS (inst p) = min 65535 (s.getF .FAB_PORT_STAT_RETRAINS (inst p) + 1)) ∧ (¬down p → t.portState p = s.portState p)))

/-! ### Management (chapter 20) -/

/-- Operations of the endpoint (R23, R215, R269, R394, R436, R509, R518, R557, R560, R581, R590, R592). While the endpoint is down nothing answers. An operation counts as received and, in standby, wakes the module;
it is answered with its SEQ; from a source that may not operate the module an operator operation is answered NOT_PERMITTED and does nothing. What each does and answers is said of the state it reaches, its message
counted. A change that the twin's cox firmware has accepted is applied here and answered by the twin. What an answer's body holds beyond Table 20.9, and BUSY as the detail of a refused role, are the model's choice (log 96). -/
def Obligations.ManagementOperations : Prop :=
  (∀ (s : State) (q : Ask) (role : Nat), Answers (.setPoolRole q role none) s fun t =>
    (s.pairState ≠ 0 → role < 4 → t.board = { s.board with poolRole := role } ∧ s.changesOnly t [.board]) ∧ (s.pairState = 0 ∨ 4 ≤ role → t = s.canon)) ∧
  (∀ (s : State), let u := s.mgmtArrives
    u.getF .MGMT_RX_COUNT = (s.getF .MGMT_RX_COUNT + 1) % 2 ^ 64 ∧
    (s.mstate ≠ 3 ∨ s.pwr.leavingM3 = true → s.changes u [Reg.MGMT_RX] []) ∧ (s.mstate = 3 → u.pwr.leavingM3 = true ∧ s.changesOnly u [.regs, .pwr, .seats])) ∧
  (∀ (s : State) (q : Ask) (role slice table at_ vi domain seat port first count slot target scope t second utc component version index : Nat) (busy hand online alone root self_ : Bool)
    (members image sig key : List Nat) (payload : Descriptor) (k mask serial sensor : Option Nat),
    ∀ x ∈ [(Instr.getInfo q, 0x01, false), (.setPoolRole q role (some busy), 0x10, true), (.setSlice q slice table at_ members, 0x11, true), (.setVi q payload, 0x12, true),
        (.setDomain q vi domain k, 0x13, true), (.detach q hand, 0x14, true), (.powerReq q t mask, 0x15, true), (.snapshot q target scope slice, 0x16, true), (.retiredUnits q seat, 0x17, false),
        (.resolveId q serial, 0x18, true), (.bedrockPort q port online, 0x19, true), (.setBoot q alone root, 0x1A, true), (.logRead q first count, 0x21, false),
        (.snapRead q slot first count, 0x22, false), (.timeOfDay q second utc, 0x30, false), (.pldmMonitoring q sensor, pldmOp 2, false),
        (.pldmFirmwareUpdate q component version image key sig, pldmOp 5, false), (.activateFirmware q component self_, pldmOp 5, false), (.getCertificate q slot, spdmOp, false),
        (.challenge q slot, spdmOp, false), (.getMeasurements q index, spdmOp, false)],
      (s.endpointUp = false → Answers x.1 s fun t => t = s.canon) ∧
      (s.endpointUp = true → Answers x.1 s fun t => ∃ st d body, t.out.head? = some (.answer x.2.1 q.seq st d body) ∧ st ≤ 4) ∧
      (s.endpointUp = true → x.2.2 = true → q.src.operator = false → Answers x.1 s fun t => t.out = .answer x.2.1 q.seq 3 0 [] :: s.mgmtArrives.out ∧ s.mgmtArrives.changesOnly t [.out])) ∧
  (∀ (s : State) (q : Ask), s.endpointUp = true → let u := s.mgmtArrives
    let tells := fun (t : State) (op st d : Nat) (body : List Nat) => t.out.head? = some (.answer op q.seq st d body)
    (Answers (.getInfo q) s fun t => tells t 0x01 0 0 (packBytes [(8, (u.regAt Reg.IDENT_PART).toNat), (16, u.serial), (8, (u.regAt Reg.IDENT_FW).toNat),
      (4, (if u.board.running then u.board.bankB else u.board.bankA).phy.version), (8, (u.regAt Reg.BOOT_STATUS).toNat), (1, u.pairState), (1, u.board.poolRole)]) ∧ u.changesOnly t [.out]) ∧
    (∀ seat, Answers (.retiredUnits q seat) s fun t => (8 ≤ seat → tells t 0x17 1 0 []) ∧ (seat < 8 → tells t 0x17 0 0 (packBytes ((List.range 16).map fun w => (8, u.bistWord seat w)))) ∧
      u.changesOnly t [.out]) ∧
    (∀ first count, Answers (.logRead q first count) s fun t => (64 < count → tells t 0x21 1 0 []) ∧
      (count ≤ 64 → tells t 0x21 0 0 (((u.log.journal.filter fun (r : LogRec) => decide (first ≤ r.seq)).take count).flatMap logBytes)) ∧ u.changesOnly t [.out]) ∧
    (∀ slot first count, Answers (.snapRead q slot first count) s fun t => (64 < count ∨ 4 ≤ slot → tells t 0x22 1 0 []) ∧
      (∀ x, count ≤ 64 → slot < 4 → u.snap.slots.find? (fun p => p.1 == slot) = some (slot, x) →
        tells t 0x22 0 0 ((List.range (min count (x.shadow.records - first))).flatMap fun i => x.record (first + i) u.self)) ∧ u.changesOnly t [.out]) ∧
    (∀ second utc, Answers (.timeOfDay q second utc) s fun t => (q.src ≠ .busOwner → tells t 0x30 3 0 [] ∧ u.changesOnly t [.out]) ∧
      (q.src = .busOwner → tells t 0x30 0 0 [] ∧ t.board = { u.board with ppsAnnounced := some second, utcOffset := utc % 65536 } ∧ u.changesOnly t [.board, .out])) ∧
    (q.src.operator = true →
      (∀ role busy, let paired := u.pairState ≠ 0; let held := (∃ i ∈ u.liveEntries, (u.entry i).a.state.final = false) ∨ (paired ∧ busy = true)
        Answers (.setPoolRole q role (some busy)) s fun t => (4 ≤ role → tells t 0x10 1 0 [] ∧ u.changesOnly t [.out]) ∧ (role < 4 → held → tells t 0x10 4 roleBusy [] ∧ u.changesOnly t [.out]) ∧
          (role < 4 → ¬held → tells t 0x10 0 0 [] ∧ t.board = { u.board with poolRole := role } ∧ (paired → .message "POOL_ROLE" u.peer [role] ∈ t.out) ∧ u.changesOnly t [.board, .out])) ∧
      (∀ slice table at_ members, let bad := slice = 0 ∨ 4096 ≤ slice ∨ 16 ≤ table ∨ ∃ m ∈ members, 2 ^ 15 ≤ m
        Answers (.setSlice q slice table at_ members) s fun t => (bad → tells t 0x11 1 0 [] ∧ u.changesOnly t [.out]) ∧
          (¬bad → tells t 0x11 0 0 [] ∧ t.fab.members = (u.fab.members.filter fun x => x.1 != slice) ++ [(slice, members, table)] ∧
            (u.fab.oldUntil = none → u.getF .FAB_RT_SWAP_AT = 0 → t.flag .FAB_STATUS_SWAP_PEND = true ∧ t.getF .FAB_RT_SWAP_AT = at_ % 2 ^ Fld.FAB_RT_SWAP_AT.len) ∧
            u.changesOnly t [.regs, .fab, .out])) ∧
      (∀ payload, let c : Cmd := { opcode := 0x70, desc := payload }; Answers (.setVi q payload) s fun t => ((c.payloadClear = false ∨ c.inRange = false) → tells t 0x12 1 0 [] ∧ u.changesOnly t [.out]) ∧
        (c.payloadClear = true → c.inRange = true → t = ((u.viSetup c).2.opCode 0x12 q (u.viSetup c).1).canon ∧ ((u.viSetup c).1 = 0 → tells t 0x12 0 0 []) ∧ ((u.viSetup c).1 ≠ 0 → tells t 0x12 4 (u.viSetup c).1 []))) ∧
      (∀ vi domain key, let bad := 256 ≤ vi ∨ 65536 ≤ domain; let known := domain = 0 ∨ ∃ x ∈ u.sed.keys, x.domain = domain
        Answers (.setDomain q vi domain key) s fun t => (bad → tells t 0x13 1 0 [] ∧ u.changesOnly t [.out]) ∧
          (¬bad → tells t 0x13 0 0 [] ∧ t.vi vi = { u.vi vi with domain := domain } ∧ (∀ n, n ≠ vi → t.vi n = u.vi n) ∧ u.changesOnly t [.vis, .sed, .out] ∧
            (known → t.sed = u.sed) ∧ (∀ n, ¬known → key = some n → t.sed = { u.sed with keys := u.sed.keys ++ [DomainKey.mk domain n 0] }) ∧
            (¬known → key = none → ∃ n, t.sed = { u.sed with keys := u.sed.keys ++ [DomainKey.mk domain n 0] } ∧
              ∀ m ∈ u.sliceOf (u.vi vi).slice, m ≠ u.self → .message "DOMAIN_KEY" m [domain, n, 0] ∈ t.out) ∧
            (¬known → key = none → u.mirroring = true → ∃ n, .message "DOMAIN_KEY" u.peer [domain, n, 0] ∈ t.out))) ∧
      (∀ hand, Answers (.detach q hand) s fun t => (u.pairState = 2 → tells t 0x14 0 0 [] ∧ t = ((u.startDetach hand).opOk 0x14 q []).canon ∧ (u.board.poolRole = 2 → t.pairState = 5 ∧
          t.twin.detach = some hand ∧ t.twin.detachAt = u.now)) ∧ (u.pairState ≠ 2 → tells t 0x14 4 u.pairState [] ∧ u.changesOnly t [.out])) ∧
      (∀ t', Answers (.powerReq q t' none) s fun t => (t' = 2 ∨ 4 ≤ t' → tells t 0x15 1 0 [] ∧ u.changesOnly t [.out]) ∧
        (t' ∈ [0, 1, 3] → let r := (u.setF .PWRCLK_REQ_TARGET t').requestM t'; t = (r.2.opCode 0x15 q r.1).canon ∧ (r.1 = 0 → tells t 0x15 0 0 []) ∧ (r.1 ≠ 0 → tells t 0x15 4 r.1 []))) ∧
      (∀ t' m, Answers (.powerReq q t' (some m)) s fun t => let r := u.requestSeats (m % 256); t = (r.2.opCode 0x15 q r.1).canon ∧ (r.1 = 0 → tells t 0x15 0 0 []) ∧ (r.1 ≠ 0 → tells t 0x15 4 r.1 [])) ∧
      (∀ target scope slice, Answers (.snapshot q target scope slice) s fun t => (3 ≤ scope → tells t 0x16 1 0 [] ∧ u.changesOnly t [.out]) ∧
        (scope < 3 → tells t 0x16 0 0 [] ∧ t = ((u.startTrigger target scope slice 2).opOk 0x16 q []).canon ∧ t.snap.count = (u.snap.count + 1) % 65536 ∧ u.changesOnly t (.snap :: noteParts))) ∧
      (∀ serial, Answers (.resolveId q serial) s fun t => tells t 0x18 0 0 [] ∧ t.board = { u.board with excluded := serial } ∧
        (∀ p, p < 32 → let again := (u.port p).conflict = true ∧ some (u.port p).peerSerial ≠ serial
          (again → t.portState p = 1 ∧ (t.port p).conflict = false) ∧ (¬again → t.portState p = u.portState p ∧ t.port p = u.port p)) ∧
        (serial = some u.serial → t.flag .FAB_ID_VALID = false) ∧ (serial ≠ some u.serial → t.regAt Reg.FAB_ID = u.regAt Reg.FAB_ID) ∧ u.changesOnly t [.regs, .fab, .board, .out]) ∧
      (∀ port online, let st := u.getF .TIERS_BR_STAT_STATE (8 * port); Answers (.bedrockPort q port online) s fun t => (4 ≤ port → tells t 0x19 1 0 [] ∧ u.changesOnly t [.out]) ∧
        (port < 4 → online = true → st = 4 → tells t 0x19 0 0 [] ∧ t.getF .TIERS_BR_STAT_STATE (8 * port) = 2 ∧ u.changesOnly t [.regs, .out]) ∧
        (port < 4 → online = false → st = 2 → tells t 0x19 0 0 [] ∧ t.getF .TIERS_BR_STAT_STATE (8 * port) = 3 ∧ u.changesOnly t [.regs, .out]) ∧
        (port < 4 → st ≠ (if online then 4 else 2) → tells t 0x19 4 st [] ∧ u.changesOnly t [.out])) ∧
      (∀ alone root, Answers (.setBoot q alone root) s fun t => tells t 0x1A 0 0 [] ∧ t.flag .BOOT_PARAM_STANDALONE = alone ∧ t.flag .BOOT_PARAM_ROOT_ALLOW = root ∧
        u.changes t [Reg.BOOT_PARAM] [.out])))

/-- The protocols beside the Kartevi operations, and the test port (R591, R593 to R595, R598, Table 20.11, Table 20.12). Control messages give and take endpoint identifiers; a message of no known type, or one that
fails its checks, is rejected and counted. PLDM reads sensors, writes an image to the bank that does not run, and accepts its activation once it verifies. SPDM gives the certificate of slot 0, signs, and measures.
The test port's instruction acts, or selects BYPASS. Sensor numbers and the answers' codes are the model's own (log 81); what the identity signs is uninterpreted (log 11). -/
def Obligations.ManagementProtocols : Prop :=
  (∀ (s : State) (q : Ask) (type cmd eid : Nat) (good : Bool), let i := Instr.mctpControl q type good cmd eid; let u := s.mgmtArrives
    let tells := fun (t : State) (st : Nat) (body : List Nat) => t.out.head? = some (.answer 0 q.seq st 0 body)
    let known := good = true ∧ type ∈ [0x00, 0x01, 0x05, 0x7F]; let i3c := q.src = .busOwner ∨ q.src = .i3c
    let rejects := fun (t : State) => tells t 1 [] ∧ t.getF .MGMT_REJECTS_COUNT = (u.getF .MGMT_REJECTS_COUNT + 1) % 2 ^ 64 ∧ u.changesOnly t noteParts
    (s.endpointUp = false → Answers i s fun t => t = s.canon) ∧
    (s.endpointUp = true → ¬known → Answers i s rejects) ∧
    (s.endpointUp = true → known → type ≠ 0 → Answers i s fun t => t = u.canon) ∧
    (s.endpointUp = true → known → type = 0 →
      (cmd = 1 → q.src.operator = true → Answers i s fun t => tells t 0 [eid % 256] ∧ u.changesOnly t [.board, .out] ∧
        (i3c → t.board = { u.board with eidI3c := eid % 256 }) ∧ (¬i3c → t.board = { u.board with eidPcie := eid % 256 })) ∧
      (cmd = 1 → q.src.operator = false → Answers i s rejects) ∧
      (cmd = 2 → Answers i s fun t => (i3c → tells t 0 [u.board.eidI3c]) ∧ (¬i3c → tells t 0 [u.board.eidPcie]) ∧ u.changesOnly t [.out]) ∧
      (cmd = 4 → Answers i s fun t => tells t 0 [1] ∧ u.changesOnly t [.out]) ∧
      (cmd = 5 → Answers i s fun t => tells t 0 [0x00, 0x01, 0x05, 0x7F] ∧ u.changesOnly t [.out]) ∧
      (cmd ∉ [1, 2, 4, 5] → Answers i s rejects))) ∧
  (∀ (s : State) (q : Ask), s.endpointUp = true → let u := s.mgmtArrives
    let tells := fun (t : State) (op st : Nat) (body : List Nat) => t.out.head? = some (.answer op q.seq st 0 body)
    let rejects := fun (op : Nat) (t : State) => tells t op 1 [] ∧ t.getF .MGMT_REJECTS_COUNT = (u.getF .MGMT_REJECTS_COUNT + 1) % 2 ^ 64 ∧ u.changesOnly t noteParts
    Answers (.pldmMonitoring q none) s (fun t => tells t (pldmOp 2) 0 (List.range 42) ∧ u.changesOnly t [.out]) ∧
    (∀ n, (42 ≤ n → Answers (.pldmMonitoring q (some n)) s (rejects (pldmOp 2))) ∧
      (∀ v, u.sensor n = some v → Answers (.pldmMonitoring q (some n)) s fun t => tells t (pldmOp 2) 0 (packBytes [(4, v)]) ∧ u.changesOnly t [.out]) ∧ (n < 42 → (u.sensor n).isSome = true)) ∧
    (∀ component version image key sig, let i := Instr.pldmFirmwareUpdate q component version image key sig
      let ok := Config.sha384 key == Config.firmwareKeyDigest && Config.sigVerifies 1 key image sig; let x : FwImage := { version := version, verifies := ok }
      (0x4000000 < image.length ∨ component ∉ [1, 2] → Answers i s (rejects (pldmOp 5))) ∧
      (image.length ≤ 0x4000000 → component ∈ [1, 2] → Answers i s fun t => tells t (pldmOp 5) 0 [bit ok] ∧ t.board.running = u.board.running ∧
        t.inactiveBank = (if component = 1 then { u.inactiveBank with cox := x } else { u.inactiveBank with phy := x }) ∧
        (if u.board.running then t.board.bankB = u.board.bankB else t.board.bankA = u.board.bankA) ∧ u.changesOnly t [.board, .out])) ∧
    (∀ component self_, let ok := (component = 1 ∧ u.inactiveBank.cox.verifies = true) ∨ (component = 2 ∧ u.inactiveBank.phy.verifies = true)
      Answers (.activateFirmware q component self_) s fun t => (self_ = false → ok → tells t (pldmOp 5) 0 []) ∧ (self_ = true ∨ ¬ok → tells t (pldmOp 5) 4 []) ∧ u.changesOnly t [.out]) ∧
    (∀ slot, (slot ≠ 0 → Answers (.getCertificate q slot) s (rejects spdmOp) ∧ Answers (.challenge q slot) s (rejects spdmOp)) ∧
      (slot = 0 → Answers (.getCertificate q slot) s (fun t => tells t spdmOp 0 (bytes48 (Config.spdmAnswer 0 0).toNat ++ packBytes [(16, u.serial)]) ∧ u.changesOnly t [.out]) ∧
        Answers (.challenge q slot) s fun t => tells t spdmOp 0 (bytes48 (Config.spdmAnswer u.fresh 1).toNat) ∧ u.changesOnly t [.out])) ∧
    (∀ k, (k = 0 → Answers (.getMeasurements q k) s fun t => tells t spdmOp 0 [8] ∧ u.changesOnly t [.out]) ∧
      (8 < k → k ≠ 0xFF → Answers (.getMeasurements q k) s (rejects spdmOp)) ∧
      (1 ≤ k → k ≤ 8 → Answers (.getMeasurements q k) s fun t => tells t spdmOp 0 (bytes48 (u.measured k) ++ bytes48 (Config.spdmAnswer u.fresh 2).toNat) ∧ u.changesOnly t [.out]) ∧
      (k = 0xFF → Answers (.getMeasurements q k) s fun t => ∃ sig, tells t spdmOp 0 ((List.range 8).flatMap (fun j => bytes48 (u.measured (j + 1))) ++ sig) ∧ u.changesOnly t [.out]))) ∧
  (∀ (s : State) (i : TapInstr), let acts := i ∈ [.idcode, .bypass, .sample] ∨ (i ∈ [.extest, .network] ∧ s.board.resetHeld = true)
    Answers (.tapInstruction i) s fun t => t.board = { s.board with tapIr := if (i ∈ [.idcode, .bypass, .sample] ∨ (i ∈ [.extest, .network] ∧ s.board.resetHeld = true)) then i else .bypass } ∧
      (i = .idcode → t.out = .message "TAP_IDCODE" 0 [idcode] :: s.out) ∧ (i = .sample → t.out = .message "TAP_SAMPLE" 0 [s.getF .SIDEBAND_LEVELS] :: s.out) ∧
      (¬acts ∨ i = .bypass → t.out = s.out) ∧ s.changesOnly t [.board, .out])
end

