-- ==== Sys2Proof/Laws/Bits.lean ====
section
/-! SUPPORT. Laws of register fields: what a field holds after it is written, and that its neighbours keep their bits. -/

namespace Sys2Proof.Machine
set_option Elab.async false

/-- Places a word by number: exact while the field lies in the word. -/
theorem putBits_toNat (w : Word) (lo len v : Nat) (h : lo + len ≤ 64) :
    (putBits w lo len v).toNat = w.toNat % 2 ^ lo + (v % 2 ^ len) * 2 ^ lo + (w.toNat / 2 ^ (lo + len)) * 2 ^ (lo + len) := by
  unfold putBits
  rw [BitVec.toNat_ofNat, Nat.mod_eq_of_lt]
  have h1 : w.toNat % 2 ^ lo < 2 ^ lo := Nat.mod_lt _ (Nat.two_pow_pos _)
  have h2 : v % 2 ^ len < 2 ^ len := Nat.mod_lt _ (Nat.two_pow_pos _)
  have h3 : w.toNat < 2 ^ 64 := w.isLt
  have e : (2 : Nat) ^ 64 = 2 ^ (64 - (lo + len)) * 2 ^ (lo + len) := by rw [← Nat.pow_add]; congr 1; omega
  have h4 : w.toNat / 2 ^ (lo + len) < 2 ^ (64 - (lo + len)) := by
    apply Nat.div_lt_of_lt_mul; rw [Nat.mul_comm]; rw [← e]; exact h3
  have e2 : (2 : Nat) ^ (lo + len) = 2 ^ len * 2 ^ lo := by rw [← Nat.pow_add]; congr 1; omega
  have h5 : v % 2 ^ len * 2 ^ lo + 2 ^ lo ≤ 2 ^ (lo + len) := by
    rw [e2, ← Nat.succ_mul]; exact Nat.mul_le_mul_right _ h2
  have h6 : (w.toNat / 2 ^ (lo + len) + 1) * 2 ^ (lo + len) ≤ 2 ^ 64 := by
    rw [e]; exact Nat.mul_le_mul_right _ h4
  have h7 : (w.toNat / 2 ^ (lo + len) + 1) * 2 ^ (lo + len) = w.toNat / 2 ^ (lo + len) * 2 ^ (lo + len) + 2 ^ (lo + len) := Nat.succ_mul _ _
  omega

/-- A field reads as written, cut to its width. -/
theorem getBits_putBits (w : Word) (lo len v : Nat) (h : lo + len ≤ 64) : getBits (putBits w lo len v) lo len = v % 2 ^ len := by
  unfold getBits
  rw [putBits_toNat w lo len v h, Nat.shiftRight_eq_div_pow]
  have h1 : w.toNat % 2 ^ lo < 2 ^ lo := Nat.mod_lt _ (Nat.two_pow_pos _)
  have e2 : (2 : Nat) ^ (lo + len) = 2 ^ len * 2 ^ lo := by rw [← Nat.pow_add]; congr 1; omega
  have : (w.toNat % 2 ^ lo + v % 2 ^ len * 2 ^ lo + w.toNat / 2 ^ (lo + len) * 2 ^ (lo + len)) / 2 ^ lo
      = v % 2 ^ len + w.toNat / 2 ^ (lo + len) * 2 ^ len := by
    rw [e2, ← Nat.mul_assoc, Nat.add_assoc, ← Nat.add_mul, Nat.add_mul_div_right _ _ (Nat.two_pow_pos lo), Nat.div_eq_of_lt h1]
    simp
  rw [this, Nat.add_mul_mod_self_right, Nat.mod_mod]

/-- A field that ends below the one written keeps its value. -/
theorem getBits_putBits_below (w : Word) (lo len v lo' len' : Nat) (h : lo + len ≤ 64) (hd : lo' + len' ≤ lo) :
    getBits (putBits w lo len v) lo' len' = getBits w lo' len' := by
  unfold getBits
  rw [putBits_toNat w lo len v h, Nat.shiftRight_eq_div_pow, Nat.shiftRight_eq_div_pow]
  obtain ⟨k, rfl⟩ := Nat.exists_eq_add_of_le hd
  have key : ∀ (x n : Nat), x / 2 ^ lo' % 2 ^ len' = x % 2 ^ (lo' + len') / 2 ^ lo' := by
    intro x _; rw [Nat.pow_add, Nat.mod_mul_right_div_self]
  rw [key _ 0, key _ 0]
  congr 1
  have e : (2 : Nat) ^ (lo' + len' + k) = 2 ^ k * 2 ^ (lo' + len') := by rw [Nat.pow_add, Nat.mul_comm]
  have e3 : (2 : Nat) ^ (lo' + len' + k + len) = 2 ^ (k + len) * 2 ^ (lo' + len') := by
    rw [← Nat.pow_add]; congr 1; omega
  rw [e3, ← Nat.mul_assoc, Nat.add_mul_mod_self_right]
  rw [show v % 2 ^ len * 2 ^ (lo' + len' + k) = v % 2 ^ len * 2 ^ k * 2 ^ (lo' + len') by rw [e, Nat.mul_assoc], Nat.add_mul_mod_self_right]
  exact Nat.mod_mod_of_dvd _ (Nat.pow_dvd_pow 2 (by omega))

/-- A field that starts above the one written keeps its value. -/
theorem getBits_putBits_above (w : Word) (lo len v lo' len' : Nat) (h : lo + len ≤ 64) (hd : lo + len ≤ lo') :
    getBits (putBits w lo len v) lo' len' = getBits w lo' len' := by
  unfold getBits
  rw [putBits_toNat w lo len v h, Nat.shiftRight_eq_div_pow, Nat.shiftRight_eq_div_pow]
  obtain ⟨k, rfl⟩ := Nat.exists_eq_add_of_le hd
  congr 1
  rw [Nat.pow_add 2 (lo + len) k, ← Nat.div_div_eq_div_mul, ← Nat.div_div_eq_div_mul]
  congr 1
  have h1 : w.toNat % 2 ^ lo < 2 ^ lo := Nat.mod_lt _ (Nat.two_pow_pos _)
  have h2 : v % 2 ^ len < 2 ^ len := Nat.mod_lt _ (Nat.two_pow_pos _)
  have e2 : (2 : Nat) ^ (lo + len) = 2 ^ len * 2 ^ lo := by rw [← Nat.pow_add]; congr 1; omega
  have h5 : v % 2 ^ len * 2 ^ lo + 2 ^ lo ≤ 2 ^ (lo + len) := by
    rw [e2, ← Nat.succ_mul]; exact Nat.mul_le_mul_right _ h2
  rw [Nat.add_mul_div_right _ _ (Nat.two_pow_pos (lo + len)), Nat.div_eq_of_lt (by omega)]
  simp

/-- A field disjoint from the one written keeps its value. -/
theorem getBits_putBits_other (w : Word) (lo len v lo' len' : Nat) (h : lo + len ≤ 64) (hd : lo' + len' ≤ lo ∨ lo + len ≤ lo') :
    getBits (putBits w lo len v) lo' len' = getBits w lo' len' := by
  rcases hd with hd | hd
  · exact getBits_putBits_below w lo len v lo' len' h hd
  · exact getBits_putBits_above w lo len v lo' len' h hd

/-- A field's value is below 2 to its width. -/
theorem getBits_lt (w : Word) (lo len : Nat) : getBits w lo len < 2 ^ len := Nat.mod_lt _ (Nat.two_pow_pos _)

@[simp] theorem bit_true : bit true = 1 := (rfl)
@[simp] theorem bit_false : bit false = 0 := (rfl)

end Sys2Proof.Machine
end

