-- ==== Sys2Proof/Laws/Store.lean ====
section
/-! SUPPORT. Laws of the sparse stores: a read after a store, and the canonical form that every store keeps. -/

namespace Sys2Proof.Machine
set_option Elab.async false

theorem SMap.get_put_same {α : Type} (d : α) (m : SMap α) (k : Nat) (v : α) : (m.put k v).get d k = v := by
  induction m with
  | nil => simp [SMap.put, SMap.get]
  | cons p r ih =>
    obtain ⟨j, w⟩ := p
    unfold SMap.put
    split
    · simp [SMap.get]
    · split
      · simp [SMap.get]
      · rename_i h; simp [SMap.get, h, ih]

theorem SMap.get_put_other {α : Type} (d : α) (m : SMap α) (k j : Nat) (v : α) (h : j ≠ k) :
    (m.put k v).get d j = m.get d j := by
  induction m with
  | nil => simp [SMap.put, SMap.get, Ne.symm h]
  | cons p r ih =>
    obtain ⟨i, w⟩ := p
    unfold SMap.put
    split
    · simp [SMap.get, Ne.symm h]
    · split
      · rename_i e; subst e; simp [SMap.get, Ne.symm h]
      · simp [SMap.get, ih]

theorem SMap.get_drop_same {α : Type} (d : α) (m : SMap α) (k : Nat) : (m.drop k).get d k = d := by
  induction m with
  | nil => rfl
  | cons p r ih =>
    obtain ⟨j, w⟩ := p
    by_cases h : j = k
    · subst h; simpa [SMap.drop, SMap.get] using ih
    · simpa [SMap.drop, SMap.get, h] using ih

theorem SMap.get_drop_other {α : Type} (d : α) (m : SMap α) (k j : Nat) (h : j ≠ k) : (m.drop k).get d j = m.get d j := by
  induction m with
  | nil => rfl
  | cons p r ih =>
    obtain ⟨i, w⟩ := p
    by_cases e : i = k
    · subst e; simpa [SMap.drop, SMap.get, Ne.symm h] using ih
    · have ih' : SMap.get d (List.filter (fun p => p.1 != k) r) j = SMap.get d r j := ih
      simp [SMap.drop, SMap.get, e, ih']

/-- A read of what was stored gives it. -/
theorem SMap.get_set_same {α : Type} [DecidableEq α] (d : α) (m : SMap α) (k : Nat) (v : α) : (m.set d k v).get d k = v := by
  unfold SMap.set
  split
  · rename_i h; rw [SMap.get_drop_same, h]
  · exact SMap.get_put_same d m k v

/-- A store leaves every other key alone, whatever each key's default. -/
theorem SMap.get_set_other {α : Type} [DecidableEq α] (d e : α) (m : SMap α) (k j : Nat) (v : α) (h : j ≠ k) :
    (m.set d k v).get e j = m.get e j := by
  unfold SMap.set
  split
  · exact SMap.get_drop_other e m k j h
  · exact SMap.get_put_other e m k j v h

theorem SMap.get_set {α : Type} [DecidableEq α] (d : α) (m : SMap α) (k j : Nat) (v : α) :
    (m.set d k v).get d j = if j = k then v else m.get d j := by
  split
  · rename_i h; subst h; exact SMap.get_set_same d m j v
  · rename_i h; exact SMap.get_set_other d d m k j v h

theorem SMap.get_modify {α : Type} [DecidableEq α] (d : α) (m : SMap α) (k j : Nat) (f : α → α) :
    (m.modify d k f).get d j = if j = k then f (m.get d k) else m.get d j := SMap.get_set d m k j _

/-- Norming reads as before. -/
theorem SMap.get_norm {α : Type} [DecidableEq α] (d : Nat → α) (m : SMap α) (k : Nat) : (m.norm d).get (d k) k = m.get (d k) k := by
  induction m with
  | nil => rfl
  | cons p r ih =>
    obtain ⟨j, w⟩ := p
    by_cases h : j = k
    · subst h; simp [SMap.norm, SMap.get, SMap.get_set_same]
    · simp [SMap.norm, SMap.get, h, SMap.get_set_other _ _ _ _ _ _ (Ne.symm h), ih]

/-! ### The canonical form -/

/-- Every key of a store is at least `b`. -/
def SMap.above {α : Type} (b : Nat) (m : SMap α) : Prop := ∀ p ∈ m, b ≤ p.1

theorem SMap.sorted_cons {α : Type} (j : Nat) (w : α) (r : SMap α) :
    SMap.sorted ((j, w) :: r) = true ↔ SMap.above (j + 1) r ∧ r.sorted = true := by
  induction r generalizing j w with
  | nil => simp [SMap.sorted, SMap.above]
  | cons p r ih =>
    obtain ⟨k, v⟩ := p
    have h := ih k v
    simp only [SMap.sorted, Bool.and_eq_true, decide_eq_true_eq]
    constructor
    · rintro ⟨h1, h2⟩
      refine ⟨?_, h2⟩
      intro q hq
      rcases List.mem_cons.1 hq with rfl | hq
      · exact h1
      · have := (h.1 h2).1 q hq; omega
    · rintro ⟨h1, h2⟩
      exact ⟨h1 (k, v) (List.mem_cons_self ..), h2⟩

theorem SMap.above_put {α : Type} (b : Nat) (m : SMap α) (k : Nat) (v : α) (hk : b ≤ k) (h : m.above b) : (m.put k v).above b := by
  induction m with
  | nil => intro p hp; simp [SMap.put] at hp; simp [hp, hk]
  | cons p r ih =>
    obtain ⟨j, w⟩ := p
    have hj : b ≤ j := h (j, w) (List.mem_cons_self ..)
    have hr : SMap.above b r := fun q hq => h q (List.mem_cons_of_mem _ hq)
    unfold SMap.put
    split
    · intro q hq
      rcases List.mem_cons.1 hq with rfl | hq
      · exact hk
      · exact h q hq
    · split
      · intro q hq
        rcases List.mem_cons.1 hq with rfl | hq
        · exact hk
        · exact hr q hq
      · intro q hq
        rcases List.mem_cons.1 hq with rfl | hq
        · exact hj
        · exact ih hr q hq

theorem SMap.sorted_put {α : Type} (m : SMap α) (k : Nat) (v : α) (h : m.sorted = true) : (m.put k v).sorted = true := by
  induction m with
  | nil => rfl
  | cons p r ih =>
    obtain ⟨j, w⟩ := p
    have hs := (SMap.sorted_cons j w r).1 h
    unfold SMap.put
    split
    · rename_i hk
      rw [SMap.sorted_cons]
      refine ⟨?_, h⟩
      intro q hq
      rcases List.mem_cons.1 hq with rfl | hq
      · exact hk
      · have := hs.1 q hq; omega
    · split
      · rename_i hk e
        subst e
        rw [SMap.sorted_cons]
        exact hs
      · rename_i hk e
        rw [SMap.sorted_cons]
        exact ⟨SMap.above_put _ _ _ _ (by omega) hs.1, ih hs.2⟩

theorem SMap.sorted_filter {α : Type} (m : SMap α) (f : Nat × α → Bool) (h : m.sorted = true) :
    SMap.sorted (m.filter f) = true := by
  induction m with
  | nil => rfl
  | cons p r ih =>
    obtain ⟨j, w⟩ := p
    have hs := (SMap.sorted_cons j w r).1 h
    rw [List.filter_cons]
    split
    · rw [SMap.sorted_cons]
      exact ⟨fun q hq => hs.1 q (List.mem_filter.1 hq).1, ih hs.2⟩
    · exact ih hs.2

theorem SMap.mem_put {α : Type} (m : SMap α) (k : Nat) (v : α) (p : Nat × α) (h : p ∈ m.put k v) : p = (k, v) ∨ p ∈ m := by
  induction m with
  | nil => simpa [SMap.put] using h
  | cons q r ih =>
    obtain ⟨j, w⟩ := q
    unfold SMap.put at h
    split at h
    · rcases List.mem_cons.1 h with h | h
      · exact .inl h
      · exact .inr h
    · split at h
      · rcases List.mem_cons.1 h with h | h
        · exact .inl h
        · exact .inr (List.mem_cons_of_mem _ h)
      · rcases List.mem_cons.1 h with h | h
        · exact .inr (h ▸ List.mem_cons_self ..)
        · rcases ih h with h | h
          · exact .inl h
          · exact .inr (List.mem_cons_of_mem _ h)

theorem SMap.wf_iff {α : Type} [DecidableEq α] (d : Nat → α) (m : SMap α) :
    SMap.wf d m = true ↔ m.sorted = true ∧ ∀ p ∈ m, p.2 ≠ d p.1 := by
  simp [SMap.wf, List.all_eq_true]

/-- Storing keeps the canonical form. -/
theorem SMap.wf_set {α : Type} [DecidableEq α] (d : Nat → α) (m : SMap α) (k : Nat) (v : α) (h : SMap.wf d m = true) :
    SMap.wf d (m.set (d k) k v) = true := by
  rw [SMap.wf_iff] at h ⊢
  unfold SMap.set
  split
  · exact ⟨SMap.sorted_filter _ _ h.1, fun p hp => h.2 p (List.mem_filter.1 hp).1⟩
  · rename_i hv
    refine ⟨SMap.sorted_put _ _ _ h.1, fun p hp => ?_⟩
    rcases SMap.mem_put _ _ _ _ hp with rfl | hp
    · exact hv
    · exact h.2 p hp

/-- Leaving entries out keeps the canonical form. -/
theorem SMap.wf_filter {α : Type} [DecidableEq α] (d : Nat → α) (m : SMap α) (f : Nat × α → Bool) (h : SMap.wf d m = true) :
    SMap.wf d (m.filter f) = true := by
  rw [SMap.wf_iff] at h ⊢
  exact ⟨SMap.sorted_filter _ _ h.1, fun p hp => h.2 p (List.mem_filter.1 hp).1⟩

/-- Norming gives the canonical form. -/
theorem SMap.wf_norm {α : Type} [DecidableEq α] (d : Nat → α) (m : SMap α) : SMap.wf d (m.norm d) = true := by
  induction m with
  | nil => rfl
  | cons p r ih => exact SMap.wf_set d _ p.1 p.2 ih

/-- A canonical store stands as it is. -/
theorem SMap.norm_of_wf {α : Type} [DecidableEq α] (d : Nat → α) (m : SMap α) (h : SMap.wf d m = true) : m.norm d = m := by
  induction m with
  | nil => rfl
  | cons p r ih =>
    obtain ⟨j, w⟩ := p
    rw [SMap.wf_iff] at h
    have hs := (SMap.sorted_cons j w r).1 h.1
    have hr : SMap.wf d r = true := by
      rw [SMap.wf_iff]; exact ⟨hs.2, fun q hq => h.2 q (List.mem_cons_of_mem _ hq)⟩
    have hw : w ≠ d j := h.2 (j, w) (List.mem_cons_self ..)
    rw [SMap.norm, ih hr, SMap.set, if_neg hw]
    cases r with
    | nil => rfl
    | cons q r =>
      have : j + 1 ≤ q.1 := hs.1 q (List.mem_cons_self ..)
      rw [SMap.put, if_pos (by omega)]

end Sys2Proof.Machine
end

