-- ==== Sys2Proof/Laws/State.lean ====
section
/-! SUPPORT. What each basic update of the state leaves alone, field by field and read by read, each true by definition, so that no later proof
unfolds a record update. Each name says the update, then the field or read that stays. -/

namespace Sys2Proof.Machine
set_option Elab.async false

@[simp] theorem State.regPut_sel (s : State) (k : Nat) (w : Word) : (s.regPut k w).sel = s.sel := (rfl)
@[simp] theorem State.regPut_mem (s : State) (k : Nat) (w : Word) : (s.regPut k w).mem = s.mem := (rfl)
@[simp] theorem State.regPut_memPoison (s : State) (k : Nat) (w : Word) : (s.regPut k w).memPoison = s.memPoison := (rfl)
@[simp] theorem State.regPut_memTag (s : State) (k : Nat) (w : Word) : (s.regPut k w).memTag = s.memTag := (rfl)
@[simp] theorem State.regPut_ops (s : State) (k : Nat) (w : Word) : (s.regPut k w).ops = s.ops := (rfl)
@[simp] theorem State.regPut_planes (s : State) (k : Nat) (w : Word) : (s.regPut k w).planes = s.planes := (rfl)
@[simp] theorem State.regPut_units (s : State) (k : Nat) (w : Word) : (s.regPut k w).units = s.units := (rfl)
@[simp] theorem State.regPut_inPorts (s : State) (k : Nat) (w : Word) : (s.regPut k w).inPorts = s.inPorts := (rfl)
@[simp] theorem State.regPut_outPorts (s : State) (k : Nat) (w : Word) : (s.regPut k w).outPorts = s.outPorts := (rfl)
@[simp] theorem State.regPut_switches (s : State) (k : Nat) (w : Word) : (s.regPut k w).switches = s.switches := (rfl)
@[simp] theorem State.regPut_tiers (s : State) (k : Nat) (w : Word) : (s.regPut k w).tiers = s.tiers := (rfl)
@[simp] theorem State.regPut_streams (s : State) (k : Nat) (w : Word) : (s.regPut k w).streams = s.streams := (rfl)
@[simp] theorem State.regPut_twin (s : State) (k : Nat) (w : Word) : (s.regPut k w).twin = s.twin := (rfl)
@[simp] theorem State.regPut_rigs (s : State) (k : Nat) (w : Word) : (s.regPut k w).rigs = s.rigs := (rfl)
@[simp] theorem State.regPut_waves (s : State) (k : Nat) (w : Word) : (s.regPut k w).waves = s.waves := (rfl)
@[simp] theorem State.regPut_ctxs (s : State) (k : Nat) (w : Word) : (s.regPut k w).ctxs = s.ctxs := (rfl)
@[simp] theorem State.regPut_vis (s : State) (k : Nat) (w : Word) : (s.regPut k w).vis = s.vis := (rfl)
@[simp] theorem State.regPut_rings (s : State) (k : Nat) (w : Word) : (s.regPut k w).rings = s.rings := (rfl)
@[simp] theorem State.regPut_entries (s : State) (k : Nat) (w : Word) : (s.regPut k w).entries = s.entries := (rfl)
@[simp] theorem State.regPut_wpkg (s : State) (k : Nat) (w : Word) : (s.regPut k w).wpkg = s.wpkg := (rfl)
@[simp] theorem State.regPut_step (s : State) (k : Nat) (w : Word) : (s.regPut k w).step = s.step := (rfl)
@[simp] theorem State.regPut_sed (s : State) (k : Nat) (w : Word) : (s.regPut k w).sed = s.sed := (rfl)
@[simp] theorem State.regPut_seals (s : State) (k : Nat) (w : Word) : (s.regPut k w).seals = s.seals := (rfl)
@[simp] theorem State.regPut_scat (s : State) (k : Nat) (w : Word) : (s.regPut k w).scat = s.scat := (rfl)
@[simp] theorem State.regPut_fab (s : State) (k : Nat) (w : Word) : (s.regPut k w).fab = s.fab := (rfl)
@[simp] theorem State.regPut_coll (s : State) (k : Nat) (w : Word) : (s.regPut k w).coll = s.coll := (rfl)
@[simp] theorem State.regPut_reqs (s : State) (k : Nat) (w : Word) : (s.regPut k w).reqs = s.reqs := (rfl)
@[simp] theorem State.regPut_slices (s : State) (k : Nat) (w : Word) : (s.regPut k w).slices = s.slices := (rfl)
@[simp] theorem State.regPut_err (s : State) (k : Nat) (w : Word) : (s.regPut k w).err = s.err := (rfl)
@[simp] theorem State.regPut_snap (s : State) (k : Nat) (w : Word) : (s.regPut k w).snap = s.snap := (rfl)
@[simp] theorem State.regPut_log (s : State) (k : Nat) (w : Word) : (s.regPut k w).log = s.log := (rfl)
@[simp] theorem State.regPut_pwr (s : State) (k : Nat) (w : Word) : (s.regPut k w).pwr = s.pwr := (rfl)
@[simp] theorem State.regPut_seats (s : State) (k : Nat) (w : Word) : (s.regPut k w).seats = s.seats := (rfl)
@[simp] theorem State.regPut_board (s : State) (k : Nat) (w : Word) : (s.regPut k w).board = s.board := (rfl)
@[simp] theorem State.regPut_out (s : State) (k : Nat) (w : Word) : (s.regPut k w).out = s.out := (rfl)
@[simp] theorem State.regPut_now (s : State) (k : Nat) (w : Word) : (s.regPut k w).now = s.now := (rfl)
@[simp] theorem State.regPut_fresh (s : State) (k : Nat) (w : Word) : (s.regPut k w).fresh = s.fresh := (rfl)
@[simp] theorem State.regPut_pending (s : State) (k : Nat) (w : Word) : (s.regPut k w).pending = s.pending := (rfl)
@[simp] theorem State.regPut_byteAt (s : State) (k : Nat) (w : Word) (x : Nat) : (s.regPut k w).byteAt x = s.byteAt x := (rfl)
@[simp] theorem State.regPut_poisonAt (s : State) (k : Nat) (w : Word) (x : Nat) : (s.regPut k w).poisonAt x = s.poisonAt x := (rfl)
@[simp] theorem State.regPut_vi (s : State) (k : Nat) (w : Word) (m : Nat) : (s.regPut k w).vi m = s.vi m := (rfl)
@[simp] theorem State.regPut_ctx (s : State) (k : Nat) (w : Word) (m : Nat) : (s.regPut k w).ctx m = s.ctx m := (rfl)
@[simp] theorem State.regPut_ring (s : State) (k : Nat) (w : Word) (m : Nat) : (s.regPut k w).ring m = s.ring m := (rfl)
@[simp] theorem State.regPut_entry (s : State) (k : Nat) (w : Word) (m : Nat) : (s.regPut k w).entry m = s.entry m := (rfl)
@[simp] theorem State.regPut_req (s : State) (k : Nat) (w : Word) (m : Nat) : (s.regPut k w).req m = s.req m := (rfl)
@[simp] theorem State.regPut_unit (s : State) (k : Nat) (w : Word) (m : Nat) : (s.regPut k w).unit m = s.unit m := (rfl)
@[simp] theorem State.regPut_plane (s : State) (k : Nat) (w : Word) (m q : Nat) : (s.regPut k w).plane m q = s.plane m q := (rfl)
@[simp] theorem State.regPut_inPort (s : State) (k : Nat) (w : Word) (m q z : Nat) : (s.regPut k w).inPort m q z = s.inPort m q z := (rfl)
@[simp] theorem State.regPut_outPort (s : State) (k : Nat) (w : Word) (m q z : Nat) : (s.regPut k w).outPort m q z = s.outPort m q z := (rfl)
@[simp] theorem State.regPut_opLine (s : State) (k : Nat) (w : Word) (m z : Nat) : (s.regPut k w).opLine m z = s.opLine m z := (rfl)
@[simp] theorem State.regPut_rig (s : State) (k : Nat) (w : Word) (m : Nat) : (s.regPut k w).rig m = s.rig m := (rfl)
@[simp] theorem State.regPut_seat (s : State) (k : Nat) (w : Word) (m : Nat) : (s.regPut k w).seat m = s.seat m := (rfl)
@[simp] theorem State.regPut_switch (s : State) (k : Nat) (w : Word) (m : Nat) : (s.regPut k w).switch m = s.switch m := (rfl)

@[simp] theorem State.setF_sel (s : State) (f : Fld) (v d : Nat) : (s.setF f v d).sel = s.sel := (rfl)
@[simp] theorem State.setF_mem (s : State) (f : Fld) (v d : Nat) : (s.setF f v d).mem = s.mem := (rfl)
@[simp] theorem State.setF_memPoison (s : State) (f : Fld) (v d : Nat) : (s.setF f v d).memPoison = s.memPoison := (rfl)
@[simp] theorem State.setF_memTag (s : State) (f : Fld) (v d : Nat) : (s.setF f v d).memTag = s.memTag := (rfl)
@[simp] theorem State.setF_ops (s : State) (f : Fld) (v d : Nat) : (s.setF f v d).ops = s.ops := (rfl)
@[simp] theorem State.setF_planes (s : State) (f : Fld) (v d : Nat) : (s.setF f v d).planes = s.planes := (rfl)
@[simp] theorem State.setF_units (s : State) (f : Fld) (v d : Nat) : (s.setF f v d).units = s.units := (rfl)
@[simp] theorem State.setF_inPorts (s : State) (f : Fld) (v d : Nat) : (s.setF f v d).inPorts = s.inPorts := (rfl)
@[simp] theorem State.setF_outPorts (s : State) (f : Fld) (v d : Nat) : (s.setF f v d).outPorts = s.outPorts := (rfl)
@[simp] theorem State.setF_switches (s : State) (f : Fld) (v d : Nat) : (s.setF f v d).switches = s.switches := (rfl)
@[simp] theorem State.setF_tiers (s : State) (f : Fld) (v d : Nat) : (s.setF f v d).tiers = s.tiers := (rfl)
@[simp] theorem State.setF_streams (s : State) (f : Fld) (v d : Nat) : (s.setF f v d).streams = s.streams := (rfl)
@[simp] theorem State.setF_twin (s : State) (f : Fld) (v d : Nat) : (s.setF f v d).twin = s.twin := (rfl)
@[simp] theorem State.setF_rigs (s : State) (f : Fld) (v d : Nat) : (s.setF f v d).rigs = s.rigs := (rfl)
@[simp] theorem State.setF_waves (s : State) (f : Fld) (v d : Nat) : (s.setF f v d).waves = s.waves := (rfl)
@[simp] theorem State.setF_ctxs (s : State) (f : Fld) (v d : Nat) : (s.setF f v d).ctxs = s.ctxs := (rfl)
@[simp] theorem State.setF_vis (s : State) (f : Fld) (v d : Nat) : (s.setF f v d).vis = s.vis := (rfl)
@[simp] theorem State.setF_rings (s : State) (f : Fld) (v d : Nat) : (s.setF f v d).rings = s.rings := (rfl)
@[simp] theorem State.setF_entries (s : State) (f : Fld) (v d : Nat) : (s.setF f v d).entries = s.entries := (rfl)
@[simp] theorem State.setF_wpkg (s : State) (f : Fld) (v d : Nat) : (s.setF f v d).wpkg = s.wpkg := (rfl)
@[simp] theorem State.setF_step (s : State) (f : Fld) (v d : Nat) : (s.setF f v d).step = s.step := (rfl)
@[simp] theorem State.setF_sed (s : State) (f : Fld) (v d : Nat) : (s.setF f v d).sed = s.sed := (rfl)
@[simp] theorem State.setF_seals (s : State) (f : Fld) (v d : Nat) : (s.setF f v d).seals = s.seals := (rfl)
@[simp] theorem State.setF_scat (s : State) (f : Fld) (v d : Nat) : (s.setF f v d).scat = s.scat := (rfl)
@[simp] theorem State.setF_fab (s : State) (f : Fld) (v d : Nat) : (s.setF f v d).fab = s.fab := (rfl)
@[simp] theorem State.setF_coll (s : State) (f : Fld) (v d : Nat) : (s.setF f v d).coll = s.coll := (rfl)
@[simp] theorem State.setF_reqs (s : State) (f : Fld) (v d : Nat) : (s.setF f v d).reqs = s.reqs := (rfl)
@[simp] theorem State.setF_slices (s : State) (f : Fld) (v d : Nat) : (s.setF f v d).slices = s.slices := (rfl)
@[simp] theorem State.setF_err (s : State) (f : Fld) (v d : Nat) : (s.setF f v d).err = s.err := (rfl)
@[simp] theorem State.setF_snap (s : State) (f : Fld) (v d : Nat) : (s.setF f v d).snap = s.snap := (rfl)
@[simp] theorem State.setF_log (s : State) (f : Fld) (v d : Nat) : (s.setF f v d).log = s.log := (rfl)
@[simp] theorem State.setF_pwr (s : State) (f : Fld) (v d : Nat) : (s.setF f v d).pwr = s.pwr := (rfl)
@[simp] theorem State.setF_seats (s : State) (f : Fld) (v d : Nat) : (s.setF f v d).seats = s.seats := (rfl)
@[simp] theorem State.setF_board (s : State) (f : Fld) (v d : Nat) : (s.setF f v d).board = s.board := (rfl)
@[simp] theorem State.setF_out (s : State) (f : Fld) (v d : Nat) : (s.setF f v d).out = s.out := (rfl)
@[simp] theorem State.setF_now (s : State) (f : Fld) (v d : Nat) : (s.setF f v d).now = s.now := (rfl)
@[simp] theorem State.setF_fresh (s : State) (f : Fld) (v d : Nat) : (s.setF f v d).fresh = s.fresh := (rfl)
@[simp] theorem State.setF_pending (s : State) (f : Fld) (v d : Nat) : (s.setF f v d).pending = s.pending := (rfl)
@[simp] theorem State.setF_byteAt (s : State) (f : Fld) (v d : Nat) (x : Nat) : (s.setF f v d).byteAt x = s.byteAt x := (rfl)
@[simp] theorem State.setF_poisonAt (s : State) (f : Fld) (v d : Nat) (x : Nat) : (s.setF f v d).poisonAt x = s.poisonAt x := (rfl)
@[simp] theorem State.setF_vi (s : State) (f : Fld) (v d : Nat) (m : Nat) : (s.setF f v d).vi m = s.vi m := (rfl)
@[simp] theorem State.setF_ctx (s : State) (f : Fld) (v d : Nat) (m : Nat) : (s.setF f v d).ctx m = s.ctx m := (rfl)
@[simp] theorem State.setF_ring (s : State) (f : Fld) (v d : Nat) (m : Nat) : (s.setF f v d).ring m = s.ring m := (rfl)
@[simp] theorem State.setF_entry (s : State) (f : Fld) (v d : Nat) (m : Nat) : (s.setF f v d).entry m = s.entry m := (rfl)
@[simp] theorem State.setF_req (s : State) (f : Fld) (v d : Nat) (m : Nat) : (s.setF f v d).req m = s.req m := (rfl)
@[simp] theorem State.setF_unit (s : State) (f : Fld) (v d : Nat) (m : Nat) : (s.setF f v d).unit m = s.unit m := (rfl)
@[simp] theorem State.setF_plane (s : State) (f : Fld) (v d : Nat) (m q : Nat) : (s.setF f v d).plane m q = s.plane m q := (rfl)
@[simp] theorem State.setF_inPort (s : State) (f : Fld) (v d : Nat) (m q z : Nat) : (s.setF f v d).inPort m q z = s.inPort m q z := (rfl)
@[simp] theorem State.setF_outPort (s : State) (f : Fld) (v d : Nat) (m q z : Nat) : (s.setF f v d).outPort m q z = s.outPort m q z := (rfl)
@[simp] theorem State.setF_opLine (s : State) (f : Fld) (v d : Nat) (m z : Nat) : (s.setF f v d).opLine m z = s.opLine m z := (rfl)
@[simp] theorem State.setF_rig (s : State) (f : Fld) (v d : Nat) (m : Nat) : (s.setF f v d).rig m = s.rig m := (rfl)
@[simp] theorem State.setF_seat (s : State) (f : Fld) (v d : Nat) (m : Nat) : (s.setF f v d).seat m = s.seat m := (rfl)
@[simp] theorem State.setF_switch (s : State) (f : Fld) (v d : Nat) (m : Nat) : (s.setF f v d).switch m = s.switch m := (rfl)

@[simp] theorem State.bump_sel (s : State) (f : Fld) (n d : Nat) : (s.bump f n d).sel = s.sel := (rfl)
@[simp] theorem State.bump_mem (s : State) (f : Fld) (n d : Nat) : (s.bump f n d).mem = s.mem := (rfl)
@[simp] theorem State.bump_memPoison (s : State) (f : Fld) (n d : Nat) : (s.bump f n d).memPoison = s.memPoison := (rfl)
@[simp] theorem State.bump_memTag (s : State) (f : Fld) (n d : Nat) : (s.bump f n d).memTag = s.memTag := (rfl)
@[simp] theorem State.bump_ops (s : State) (f : Fld) (n d : Nat) : (s.bump f n d).ops = s.ops := (rfl)
@[simp] theorem State.bump_planes (s : State) (f : Fld) (n d : Nat) : (s.bump f n d).planes = s.planes := (rfl)
@[simp] theorem State.bump_units (s : State) (f : Fld) (n d : Nat) : (s.bump f n d).units = s.units := (rfl)
@[simp] theorem State.bump_inPorts (s : State) (f : Fld) (n d : Nat) : (s.bump f n d).inPorts = s.inPorts := (rfl)
@[simp] theorem State.bump_outPorts (s : State) (f : Fld) (n d : Nat) : (s.bump f n d).outPorts = s.outPorts := (rfl)
@[simp] theorem State.bump_switches (s : State) (f : Fld) (n d : Nat) : (s.bump f n d).switches = s.switches := (rfl)
@[simp] theorem State.bump_tiers (s : State) (f : Fld) (n d : Nat) : (s.bump f n d).tiers = s.tiers := (rfl)
@[simp] theorem State.bump_streams (s : State) (f : Fld) (n d : Nat) : (s.bump f n d).streams = s.streams := (rfl)
@[simp] theorem State.bump_twin (s : State) (f : Fld) (n d : Nat) : (s.bump f n d).twin = s.twin := (rfl)
@[simp] theorem State.bump_rigs (s : State) (f : Fld) (n d : Nat) : (s.bump f n d).rigs = s.rigs := (rfl)
@[simp] theorem State.bump_waves (s : State) (f : Fld) (n d : Nat) : (s.bump f n d).waves = s.waves := (rfl)
@[simp] theorem State.bump_ctxs (s : State) (f : Fld) (n d : Nat) : (s.bump f n d).ctxs = s.ctxs := (rfl)
@[simp] theorem State.bump_vis (s : State) (f : Fld) (n d : Nat) : (s.bump f n d).vis = s.vis := (rfl)
@[simp] theorem State.bump_rings (s : State) (f : Fld) (n d : Nat) : (s.bump f n d).rings = s.rings := (rfl)
@[simp] theorem State.bump_entries (s : State) (f : Fld) (n d : Nat) : (s.bump f n d).entries = s.entries := (rfl)
@[simp] theorem State.bump_wpkg (s : State) (f : Fld) (n d : Nat) : (s.bump f n d).wpkg = s.wpkg := (rfl)
@[simp] theorem State.bump_step (s : State) (f : Fld) (n d : Nat) : (s.bump f n d).step = s.step := (rfl)
@[simp] theorem State.bump_sed (s : State) (f : Fld) (n d : Nat) : (s.bump f n d).sed = s.sed := (rfl)
@[simp] theorem State.bump_seals (s : State) (f : Fld) (n d : Nat) : (s.bump f n d).seals = s.seals := (rfl)
@[simp] theorem State.bump_scat (s : State) (f : Fld) (n d : Nat) : (s.bump f n d).scat = s.scat := (rfl)
@[simp] theorem State.bump_fab (s : State) (f : Fld) (n d : Nat) : (s.bump f n d).fab = s.fab := (rfl)
@[simp] theorem State.bump_coll (s : State) (f : Fld) (n d : Nat) : (s.bump f n d).coll = s.coll := (rfl)
@[simp] theorem State.bump_reqs (s : State) (f : Fld) (n d : Nat) : (s.bump f n d).reqs = s.reqs := (rfl)
@[simp] theorem State.bump_slices (s : State) (f : Fld) (n d : Nat) : (s.bump f n d).slices = s.slices := (rfl)
@[simp] theorem State.bump_err (s : State) (f : Fld) (n d : Nat) : (s.bump f n d).err = s.err := (rfl)
@[simp] theorem State.bump_snap (s : State) (f : Fld) (n d : Nat) : (s.bump f n d).snap = s.snap := (rfl)
@[simp] theorem State.bump_log (s : State) (f : Fld) (n d : Nat) : (s.bump f n d).log = s.log := (rfl)
@[simp] theorem State.bump_pwr (s : State) (f : Fld) (n d : Nat) : (s.bump f n d).pwr = s.pwr := (rfl)
@[simp] theorem State.bump_seats (s : State) (f : Fld) (n d : Nat) : (s.bump f n d).seats = s.seats := (rfl)
@[simp] theorem State.bump_board (s : State) (f : Fld) (n d : Nat) : (s.bump f n d).board = s.board := (rfl)
@[simp] theorem State.bump_out (s : State) (f : Fld) (n d : Nat) : (s.bump f n d).out = s.out := (rfl)
@[simp] theorem State.bump_now (s : State) (f : Fld) (n d : Nat) : (s.bump f n d).now = s.now := (rfl)
@[simp] theorem State.bump_fresh (s : State) (f : Fld) (n d : Nat) : (s.bump f n d).fresh = s.fresh := (rfl)
@[simp] theorem State.bump_pending (s : State) (f : Fld) (n d : Nat) : (s.bump f n d).pending = s.pending := (rfl)
@[simp] theorem State.bump_byteAt (s : State) (f : Fld) (n d : Nat) (x : Nat) : (s.bump f n d).byteAt x = s.byteAt x := (rfl)
@[simp] theorem State.bump_poisonAt (s : State) (f : Fld) (n d : Nat) (x : Nat) : (s.bump f n d).poisonAt x = s.poisonAt x := (rfl)
@[simp] theorem State.bump_vi (s : State) (f : Fld) (n d : Nat) (m : Nat) : (s.bump f n d).vi m = s.vi m := (rfl)
@[simp] theorem State.bump_ctx (s : State) (f : Fld) (n d : Nat) (m : Nat) : (s.bump f n d).ctx m = s.ctx m := (rfl)
@[simp] theorem State.bump_ring (s : State) (f : Fld) (n d : Nat) (m : Nat) : (s.bump f n d).ring m = s.ring m := (rfl)
@[simp] theorem State.bump_entry (s : State) (f : Fld) (n d : Nat) (m : Nat) : (s.bump f n d).entry m = s.entry m := (rfl)
@[simp] theorem State.bump_req (s : State) (f : Fld) (n d : Nat) (m : Nat) : (s.bump f n d).req m = s.req m := (rfl)
@[simp] theorem State.bump_unit (s : State) (f : Fld) (n d : Nat) (m : Nat) : (s.bump f n d).unit m = s.unit m := (rfl)
@[simp] theorem State.bump_plane (s : State) (f : Fld) (n d : Nat) (m q : Nat) : (s.bump f n d).plane m q = s.plane m q := (rfl)
@[simp] theorem State.bump_inPort (s : State) (f : Fld) (n d : Nat) (m q z : Nat) : (s.bump f n d).inPort m q z = s.inPort m q z := (rfl)
@[simp] theorem State.bump_outPort (s : State) (f : Fld) (n d : Nat) (m q z : Nat) : (s.bump f n d).outPort m q z = s.outPort m q z := (rfl)
@[simp] theorem State.bump_opLine (s : State) (f : Fld) (n d : Nat) (m z : Nat) : (s.bump f n d).opLine m z = s.opLine m z := (rfl)
@[simp] theorem State.bump_rig (s : State) (f : Fld) (n d : Nat) (m : Nat) : (s.bump f n d).rig m = s.rig m := (rfl)
@[simp] theorem State.bump_seat (s : State) (f : Fld) (n d : Nat) (m : Nat) : (s.bump f n d).seat m = s.seat m := (rfl)
@[simp] theorem State.bump_switch (s : State) (f : Fld) (n d : Nat) (m : Nat) : (s.bump f n d).switch m = s.switch m := (rfl)

@[simp] theorem State.setBit_sel (s : State) (f : Fld) (i : Nat) (b : Bool) (d : Nat) : (s.setBit f i b d).sel = s.sel := (rfl)
@[simp] theorem State.setBit_mem (s : State) (f : Fld) (i : Nat) (b : Bool) (d : Nat) : (s.setBit f i b d).mem = s.mem := (rfl)
@[simp] theorem State.setBit_memPoison (s : State) (f : Fld) (i : Nat) (b : Bool) (d : Nat) : (s.setBit f i b d).memPoison = s.memPoison := (rfl)
@[simp] theorem State.setBit_memTag (s : State) (f : Fld) (i : Nat) (b : Bool) (d : Nat) : (s.setBit f i b d).memTag = s.memTag := (rfl)
@[simp] theorem State.setBit_ops (s : State) (f : Fld) (i : Nat) (b : Bool) (d : Nat) : (s.setBit f i b d).ops = s.ops := (rfl)
@[simp] theorem State.setBit_planes (s : State) (f : Fld) (i : Nat) (b : Bool) (d : Nat) : (s.setBit f i b d).planes = s.planes := (rfl)
@[simp] theorem State.setBit_units (s : State) (f : Fld) (i : Nat) (b : Bool) (d : Nat) : (s.setBit f i b d).units = s.units := (rfl)
@[simp] theorem State.setBit_inPorts (s : State) (f : Fld) (i : Nat) (b : Bool) (d : Nat) : (s.setBit f i b d).inPorts = s.inPorts := (rfl)
@[simp] theorem State.setBit_outPorts (s : State) (f : Fld) (i : Nat) (b : Bool) (d : Nat) : (s.setBit f i b d).outPorts = s.outPorts := (rfl)
@[simp] theorem State.setBit_switches (s : State) (f : Fld) (i : Nat) (b : Bool) (d : Nat) : (s.setBit f i b d).switches = s.switches := (rfl)
@[simp] theorem State.setBit_tiers (s : State) (f : Fld) (i : Nat) (b : Bool) (d : Nat) : (s.setBit f i b d).tiers = s.tiers := (rfl)
@[simp] theorem State.setBit_streams (s : State) (f : Fld) (i : Nat) (b : Bool) (d : Nat) : (s.setBit f i b d).streams = s.streams := (rfl)
@[simp] theorem State.setBit_twin (s : State) (f : Fld) (i : Nat) (b : Bool) (d : Nat) : (s.setBit f i b d).twin = s.twin := (rfl)
@[simp] theorem State.setBit_rigs (s : State) (f : Fld) (i : Nat) (b : Bool) (d : Nat) : (s.setBit f i b d).rigs = s.rigs := (rfl)
@[simp] theorem State.setBit_waves (s : State) (f : Fld) (i : Nat) (b : Bool) (d : Nat) : (s.setBit f i b d).waves = s.waves := (rfl)
@[simp] theorem State.setBit_ctxs (s : State) (f : Fld) (i : Nat) (b : Bool) (d : Nat) : (s.setBit f i b d).ctxs = s.ctxs := (rfl)
@[simp] theorem State.setBit_vis (s : State) (f : Fld) (i : Nat) (b : Bool) (d : Nat) : (s.setBit f i b d).vis = s.vis := (rfl)
@[simp] theorem State.setBit_rings (s : State) (f : Fld) (i : Nat) (b : Bool) (d : Nat) : (s.setBit f i b d).rings = s.rings := (rfl)
@[simp] theorem State.setBit_entries (s : State) (f : Fld) (i : Nat) (b : Bool) (d : Nat) : (s.setBit f i b d).entries = s.entries := (rfl)
@[simp] theorem State.setBit_wpkg (s : State) (f : Fld) (i : Nat) (b : Bool) (d : Nat) : (s.setBit f i b d).wpkg = s.wpkg := (rfl)
@[simp] theorem State.setBit_step (s : State) (f : Fld) (i : Nat) (b : Bool) (d : Nat) : (s.setBit f i b d).step = s.step := (rfl)
@[simp] theorem State.setBit_sed (s : State) (f : Fld) (i : Nat) (b : Bool) (d : Nat) : (s.setBit f i b d).sed = s.sed := (rfl)
@[simp] theorem State.setBit_seals (s : State) (f : Fld) (i : Nat) (b : Bool) (d : Nat) : (s.setBit f i b d).seals = s.seals := (rfl)
@[simp] theorem State.setBit_scat (s : State) (f : Fld) (i : Nat) (b : Bool) (d : Nat) : (s.setBit f i b d).scat = s.scat := (rfl)
@[simp] theorem State.setBit_fab (s : State) (f : Fld) (i : Nat) (b : Bool) (d : Nat) : (s.setBit f i b d).fab = s.fab := (rfl)
@[simp] theorem State.setBit_coll (s : State) (f : Fld) (i : Nat) (b : Bool) (d : Nat) : (s.setBit f i b d).coll = s.coll := (rfl)
@[simp] theorem State.setBit_reqs (s : State) (f : Fld) (i : Nat) (b : Bool) (d : Nat) : (s.setBit f i b d).reqs = s.reqs := (rfl)
@[simp] theorem State.setBit_slices (s : State) (f : Fld) (i : Nat) (b : Bool) (d : Nat) : (s.setBit f i b d).slices = s.slices := (rfl)
@[simp] theorem State.setBit_err (s : State) (f : Fld) (i : Nat) (b : Bool) (d : Nat) : (s.setBit f i b d).err = s.err := (rfl)
@[simp] theorem State.setBit_snap (s : State) (f : Fld) (i : Nat) (b : Bool) (d : Nat) : (s.setBit f i b d).snap = s.snap := (rfl)
@[simp] theorem State.setBit_log (s : State) (f : Fld) (i : Nat) (b : Bool) (d : Nat) : (s.setBit f i b d).log = s.log := (rfl)
@[simp] theorem State.setBit_pwr (s : State) (f : Fld) (i : Nat) (b : Bool) (d : Nat) : (s.setBit f i b d).pwr = s.pwr := (rfl)
@[simp] theorem State.setBit_seats (s : State) (f : Fld) (i : Nat) (b : Bool) (d : Nat) : (s.setBit f i b d).seats = s.seats := (rfl)
@[simp] theorem State.setBit_board (s : State) (f : Fld) (i : Nat) (b : Bool) (d : Nat) : (s.setBit f i b d).board = s.board := (rfl)
@[simp] theorem State.setBit_out (s : State) (f : Fld) (i : Nat) (b : Bool) (d : Nat) : (s.setBit f i b d).out = s.out := (rfl)
@[simp] theorem State.setBit_now (s : State) (f : Fld) (i : Nat) (b : Bool) (d : Nat) : (s.setBit f i b d).now = s.now := (rfl)
@[simp] theorem State.setBit_fresh (s : State) (f : Fld) (i : Nat) (b : Bool) (d : Nat) : (s.setBit f i b d).fresh = s.fresh := (rfl)
@[simp] theorem State.setBit_pending (s : State) (f : Fld) (i : Nat) (b : Bool) (d : Nat) : (s.setBit f i b d).pending = s.pending := (rfl)
@[simp] theorem State.setBit_byteAt (s : State) (f : Fld) (i : Nat) (b : Bool) (d : Nat) (x : Nat) : (s.setBit f i b d).byteAt x = s.byteAt x := (rfl)
@[simp] theorem State.setBit_poisonAt (s : State) (f : Fld) (i : Nat) (b : Bool) (d : Nat) (x : Nat) : (s.setBit f i b d).poisonAt x = s.poisonAt x := (rfl)
@[simp] theorem State.setBit_vi (s : State) (f : Fld) (i : Nat) (b : Bool) (d : Nat) (m : Nat) : (s.setBit f i b d).vi m = s.vi m := (rfl)
@[simp] theorem State.setBit_ctx (s : State) (f : Fld) (i : Nat) (b : Bool) (d : Nat) (m : Nat) : (s.setBit f i b d).ctx m = s.ctx m := (rfl)
@[simp] theorem State.setBit_ring (s : State) (f : Fld) (i : Nat) (b : Bool) (d : Nat) (m : Nat) : (s.setBit f i b d).ring m = s.ring m := (rfl)
@[simp] theorem State.setBit_entry (s : State) (f : Fld) (i : Nat) (b : Bool) (d : Nat) (m : Nat) : (s.setBit f i b d).entry m = s.entry m := (rfl)
@[simp] theorem State.setBit_req (s : State) (f : Fld) (i : Nat) (b : Bool) (d : Nat) (m : Nat) : (s.setBit f i b d).req m = s.req m := (rfl)
@[simp] theorem State.setBit_unit (s : State) (f : Fld) (i : Nat) (b : Bool) (d : Nat) (m : Nat) : (s.setBit f i b d).unit m = s.unit m := (rfl)
@[simp] theorem State.setBit_plane (s : State) (f : Fld) (i : Nat) (b : Bool) (d : Nat) (m q : Nat) : (s.setBit f i b d).plane m q = s.plane m q := (rfl)
@[simp] theorem State.setBit_inPort (s : State) (f : Fld) (i : Nat) (b : Bool) (d : Nat) (m q z : Nat) : (s.setBit f i b d).inPort m q z = s.inPort m q z := (rfl)
@[simp] theorem State.setBit_outPort (s : State) (f : Fld) (i : Nat) (b : Bool) (d : Nat) (m q z : Nat) : (s.setBit f i b d).outPort m q z = s.outPort m q z := (rfl)
@[simp] theorem State.setBit_opLine (s : State) (f : Fld) (i : Nat) (b : Bool) (d : Nat) (m z : Nat) : (s.setBit f i b d).opLine m z = s.opLine m z := (rfl)
@[simp] theorem State.setBit_rig (s : State) (f : Fld) (i : Nat) (b : Bool) (d : Nat) (m : Nat) : (s.setBit f i b d).rig m = s.rig m := (rfl)
@[simp] theorem State.setBit_seat (s : State) (f : Fld) (i : Nat) (b : Bool) (d : Nat) (m : Nat) : (s.setBit f i b d).seat m = s.seat m := (rfl)
@[simp] theorem State.setBit_switch (s : State) (f : Fld) (i : Nat) (b : Bool) (d : Nat) (m : Nat) : (s.setBit f i b d).switch m = s.switch m := (rfl)

@[simp] theorem State.emit_regs (s : State) (o : Output) : (s.emit o).regs = s.regs := (rfl)
@[simp] theorem State.emit_sel (s : State) (o : Output) : (s.emit o).sel = s.sel := (rfl)
@[simp] theorem State.emit_mem (s : State) (o : Output) : (s.emit o).mem = s.mem := (rfl)
@[simp] theorem State.emit_memPoison (s : State) (o : Output) : (s.emit o).memPoison = s.memPoison := (rfl)
@[simp] theorem State.emit_memTag (s : State) (o : Output) : (s.emit o).memTag = s.memTag := (rfl)
@[simp] theorem State.emit_ops (s : State) (o : Output) : (s.emit o).ops = s.ops := (rfl)
@[simp] theorem State.emit_planes (s : State) (o : Output) : (s.emit o).planes = s.planes := (rfl)
@[simp] theorem State.emit_units (s : State) (o : Output) : (s.emit o).units = s.units := (rfl)
@[simp] theorem State.emit_inPorts (s : State) (o : Output) : (s.emit o).inPorts = s.inPorts := (rfl)
@[simp] theorem State.emit_outPorts (s : State) (o : Output) : (s.emit o).outPorts = s.outPorts := (rfl)
@[simp] theorem State.emit_switches (s : State) (o : Output) : (s.emit o).switches = s.switches := (rfl)
@[simp] theorem State.emit_tiers (s : State) (o : Output) : (s.emit o).tiers = s.tiers := (rfl)
@[simp] theorem State.emit_streams (s : State) (o : Output) : (s.emit o).streams = s.streams := (rfl)
@[simp] theorem State.emit_twin (s : State) (o : Output) : (s.emit o).twin = s.twin := (rfl)
@[simp] theorem State.emit_rigs (s : State) (o : Output) : (s.emit o).rigs = s.rigs := (rfl)
@[simp] theorem State.emit_waves (s : State) (o : Output) : (s.emit o).waves = s.waves := (rfl)
@[simp] theorem State.emit_ctxs (s : State) (o : Output) : (s.emit o).ctxs = s.ctxs := (rfl)
@[simp] theorem State.emit_vis (s : State) (o : Output) : (s.emit o).vis = s.vis := (rfl)
@[simp] theorem State.emit_rings (s : State) (o : Output) : (s.emit o).rings = s.rings := (rfl)
@[simp] theorem State.emit_entries (s : State) (o : Output) : (s.emit o).entries = s.entries := (rfl)
@[simp] theorem State.emit_wpkg (s : State) (o : Output) : (s.emit o).wpkg = s.wpkg := (rfl)
@[simp] theorem State.emit_step (s : State) (o : Output) : (s.emit o).step = s.step := (rfl)
@[simp] theorem State.emit_sed (s : State) (o : Output) : (s.emit o).sed = s.sed := (rfl)
@[simp] theorem State.emit_seals (s : State) (o : Output) : (s.emit o).seals = s.seals := (rfl)
@[simp] theorem State.emit_scat (s : State) (o : Output) : (s.emit o).scat = s.scat := (rfl)
@[simp] theorem State.emit_fab (s : State) (o : Output) : (s.emit o).fab = s.fab := (rfl)
@[simp] theorem State.emit_coll (s : State) (o : Output) : (s.emit o).coll = s.coll := (rfl)
@[simp] theorem State.emit_reqs (s : State) (o : Output) : (s.emit o).reqs = s.reqs := (rfl)
@[simp] theorem State.emit_slices (s : State) (o : Output) : (s.emit o).slices = s.slices := (rfl)
@[simp] theorem State.emit_err (s : State) (o : Output) : (s.emit o).err = s.err := (rfl)
@[simp] theorem State.emit_snap (s : State) (o : Output) : (s.emit o).snap = s.snap := (rfl)
@[simp] theorem State.emit_log (s : State) (o : Output) : (s.emit o).log = s.log := (rfl)
@[simp] theorem State.emit_pwr (s : State) (o : Output) : (s.emit o).pwr = s.pwr := (rfl)
@[simp] theorem State.emit_seats (s : State) (o : Output) : (s.emit o).seats = s.seats := (rfl)
@[simp] theorem State.emit_board (s : State) (o : Output) : (s.emit o).board = s.board := (rfl)
@[simp] theorem State.emit_now (s : State) (o : Output) : (s.emit o).now = s.now := (rfl)
@[simp] theorem State.emit_fresh (s : State) (o : Output) : (s.emit o).fresh = s.fresh := (rfl)
@[simp] theorem State.emit_pending (s : State) (o : Output) : (s.emit o).pending = s.pending := (rfl)
@[simp] theorem State.emit_regAt (s : State) (o : Output) (j : Nat) : (s.emit o).regAt j = s.regAt j := (rfl)
@[simp] theorem State.emit_getF (s : State) (o : Output) (x : Fld) (y : Nat) : (s.emit o).getF x y = s.getF x y := (rfl)
@[simp] theorem State.emit_flag (s : State) (o : Output) (x : Fld) (y : Nat) : (s.emit o).flag x y = s.flag x y := (rfl)
@[simp] theorem State.emit_byteAt (s : State) (o : Output) (x : Nat) : (s.emit o).byteAt x = s.byteAt x := (rfl)
@[simp] theorem State.emit_poisonAt (s : State) (o : Output) (x : Nat) : (s.emit o).poisonAt x = s.poisonAt x := (rfl)
@[simp] theorem State.emit_vi (s : State) (o : Output) (m : Nat) : (s.emit o).vi m = s.vi m := (rfl)
@[simp] theorem State.emit_ctx (s : State) (o : Output) (m : Nat) : (s.emit o).ctx m = s.ctx m := (rfl)
@[simp] theorem State.emit_ring (s : State) (o : Output) (m : Nat) : (s.emit o).ring m = s.ring m := (rfl)
@[simp] theorem State.emit_entry (s : State) (o : Output) (m : Nat) : (s.emit o).entry m = s.entry m := (rfl)
@[simp] theorem State.emit_req (s : State) (o : Output) (m : Nat) : (s.emit o).req m = s.req m := (rfl)
@[simp] theorem State.emit_unit (s : State) (o : Output) (m : Nat) : (s.emit o).unit m = s.unit m := (rfl)
@[simp] theorem State.emit_plane (s : State) (o : Output) (m q : Nat) : (s.emit o).plane m q = s.plane m q := (rfl)
@[simp] theorem State.emit_inPort (s : State) (o : Output) (m q z : Nat) : (s.emit o).inPort m q z = s.inPort m q z := (rfl)
@[simp] theorem State.emit_outPort (s : State) (o : Output) (m q z : Nat) : (s.emit o).outPort m q z = s.outPort m q z := (rfl)
@[simp] theorem State.emit_opLine (s : State) (o : Output) (m z : Nat) : (s.emit o).opLine m z = s.opLine m z := (rfl)
@[simp] theorem State.emit_rig (s : State) (o : Output) (m : Nat) : (s.emit o).rig m = s.rig m := (rfl)
@[simp] theorem State.emit_seat (s : State) (o : Output) (m : Nat) : (s.emit o).seat m = s.seat m := (rfl)
@[simp] theorem State.emit_switch (s : State) (o : Output) (m : Nat) : (s.emit o).switch m = s.switch m := (rfl)

@[simp] theorem State.setVi_regs (s : State) (n : Nat) (v : ViSt) : (s.setVi n v).regs = s.regs := (rfl)
@[simp] theorem State.setVi_sel (s : State) (n : Nat) (v : ViSt) : (s.setVi n v).sel = s.sel := (rfl)
@[simp] theorem State.setVi_mem (s : State) (n : Nat) (v : ViSt) : (s.setVi n v).mem = s.mem := (rfl)
@[simp] theorem State.setVi_memPoison (s : State) (n : Nat) (v : ViSt) : (s.setVi n v).memPoison = s.memPoison := (rfl)
@[simp] theorem State.setVi_memTag (s : State) (n : Nat) (v : ViSt) : (s.setVi n v).memTag = s.memTag := (rfl)
@[simp] theorem State.setVi_ops (s : State) (n : Nat) (v : ViSt) : (s.setVi n v).ops = s.ops := (rfl)
@[simp] theorem State.setVi_planes (s : State) (n : Nat) (v : ViSt) : (s.setVi n v).planes = s.planes := (rfl)
@[simp] theorem State.setVi_units (s : State) (n : Nat) (v : ViSt) : (s.setVi n v).units = s.units := (rfl)
@[simp] theorem State.setVi_inPorts (s : State) (n : Nat) (v : ViSt) : (s.setVi n v).inPorts = s.inPorts := (rfl)
@[simp] theorem State.setVi_outPorts (s : State) (n : Nat) (v : ViSt) : (s.setVi n v).outPorts = s.outPorts := (rfl)
@[simp] theorem State.setVi_switches (s : State) (n : Nat) (v : ViSt) : (s.setVi n v).switches = s.switches := (rfl)
@[simp] theorem State.setVi_tiers (s : State) (n : Nat) (v : ViSt) : (s.setVi n v).tiers = s.tiers := (rfl)
@[simp] theorem State.setVi_streams (s : State) (n : Nat) (v : ViSt) : (s.setVi n v).streams = s.streams := (rfl)
@[simp] theorem State.setVi_twin (s : State) (n : Nat) (v : ViSt) : (s.setVi n v).twin = s.twin := (rfl)
@[simp] theorem State.setVi_rigs (s : State) (n : Nat) (v : ViSt) : (s.setVi n v).rigs = s.rigs := (rfl)
@[simp] theorem State.setVi_waves (s : State) (n : Nat) (v : ViSt) : (s.setVi n v).waves = s.waves := (rfl)
@[simp] theorem State.setVi_ctxs (s : State) (n : Nat) (v : ViSt) : (s.setVi n v).ctxs = s.ctxs := (rfl)
@[simp] theorem State.setVi_rings (s : State) (n : Nat) (v : ViSt) : (s.setVi n v).rings = s.rings := (rfl)
@[simp] theorem State.setVi_entries (s : State) (n : Nat) (v : ViSt) : (s.setVi n v).entries = s.entries := (rfl)
@[simp] theorem State.setVi_wpkg (s : State) (n : Nat) (v : ViSt) : (s.setVi n v).wpkg = s.wpkg := (rfl)
@[simp] theorem State.setVi_step (s : State) (n : Nat) (v : ViSt) : (s.setVi n v).step = s.step := (rfl)
@[simp] theorem State.setVi_sed (s : State) (n : Nat) (v : ViSt) : (s.setVi n v).sed = s.sed := (rfl)
@[simp] theorem State.setVi_seals (s : State) (n : Nat) (v : ViSt) : (s.setVi n v).seals = s.seals := (rfl)
@[simp] theorem State.setVi_scat (s : State) (n : Nat) (v : ViSt) : (s.setVi n v).scat = s.scat := (rfl)
@[simp] theorem State.setVi_fab (s : State) (n : Nat) (v : ViSt) : (s.setVi n v).fab = s.fab := (rfl)
@[simp] theorem State.setVi_coll (s : State) (n : Nat) (v : ViSt) : (s.setVi n v).coll = s.coll := (rfl)
@[simp] theorem State.setVi_reqs (s : State) (n : Nat) (v : ViSt) : (s.setVi n v).reqs = s.reqs := (rfl)
@[simp] theorem State.setVi_slices (s : State) (n : Nat) (v : ViSt) : (s.setVi n v).slices = s.slices := (rfl)
@[simp] theorem State.setVi_err (s : State) (n : Nat) (v : ViSt) : (s.setVi n v).err = s.err := (rfl)
@[simp] theorem State.setVi_snap (s : State) (n : Nat) (v : ViSt) : (s.setVi n v).snap = s.snap := (rfl)
@[simp] theorem State.setVi_log (s : State) (n : Nat) (v : ViSt) : (s.setVi n v).log = s.log := (rfl)
@[simp] theorem State.setVi_pwr (s : State) (n : Nat) (v : ViSt) : (s.setVi n v).pwr = s.pwr := (rfl)
@[simp] theorem State.setVi_seats (s : State) (n : Nat) (v : ViSt) : (s.setVi n v).seats = s.seats := (rfl)
@[simp] theorem State.setVi_board (s : State) (n : Nat) (v : ViSt) : (s.setVi n v).board = s.board := (rfl)
@[simp] theorem State.setVi_out (s : State) (n : Nat) (v : ViSt) : (s.setVi n v).out = s.out := (rfl)
@[simp] theorem State.setVi_now (s : State) (n : Nat) (v : ViSt) : (s.setVi n v).now = s.now := (rfl)
@[simp] theorem State.setVi_fresh (s : State) (n : Nat) (v : ViSt) : (s.setVi n v).fresh = s.fresh := (rfl)
@[simp] theorem State.setVi_pending (s : State) (n : Nat) (v : ViSt) : (s.setVi n v).pending = s.pending := (rfl)
@[simp] theorem State.setVi_regAt (s : State) (n : Nat) (v : ViSt) (j : Nat) : (s.setVi n v).regAt j = s.regAt j := (rfl)
@[simp] theorem State.setVi_getF (s : State) (n : Nat) (v : ViSt) (x : Fld) (y : Nat) : (s.setVi n v).getF x y = s.getF x y := (rfl)
@[simp] theorem State.setVi_flag (s : State) (n : Nat) (v : ViSt) (x : Fld) (y : Nat) : (s.setVi n v).flag x y = s.flag x y := (rfl)
@[simp] theorem State.setVi_byteAt (s : State) (n : Nat) (v : ViSt) (x : Nat) : (s.setVi n v).byteAt x = s.byteAt x := (rfl)
@[simp] theorem State.setVi_poisonAt (s : State) (n : Nat) (v : ViSt) (x : Nat) : (s.setVi n v).poisonAt x = s.poisonAt x := (rfl)
@[simp] theorem State.setVi_ctx (s : State) (n : Nat) (v : ViSt) (m : Nat) : (s.setVi n v).ctx m = s.ctx m := (rfl)
@[simp] theorem State.setVi_ring (s : State) (n : Nat) (v : ViSt) (m : Nat) : (s.setVi n v).ring m = s.ring m := (rfl)
@[simp] theorem State.setVi_entry (s : State) (n : Nat) (v : ViSt) (m : Nat) : (s.setVi n v).entry m = s.entry m := (rfl)
@[simp] theorem State.setVi_req (s : State) (n : Nat) (v : ViSt) (m : Nat) : (s.setVi n v).req m = s.req m := (rfl)
@[simp] theorem State.setVi_unit (s : State) (n : Nat) (v : ViSt) (m : Nat) : (s.setVi n v).unit m = s.unit m := (rfl)
@[simp] theorem State.setVi_plane (s : State) (n : Nat) (v : ViSt) (m q : Nat) : (s.setVi n v).plane m q = s.plane m q := (rfl)
@[simp] theorem State.setVi_inPort (s : State) (n : Nat) (v : ViSt) (m q z : Nat) : (s.setVi n v).inPort m q z = s.inPort m q z := (rfl)
@[simp] theorem State.setVi_outPort (s : State) (n : Nat) (v : ViSt) (m q z : Nat) : (s.setVi n v).outPort m q z = s.outPort m q z := (rfl)
@[simp] theorem State.setVi_opLine (s : State) (n : Nat) (v : ViSt) (m z : Nat) : (s.setVi n v).opLine m z = s.opLine m z := (rfl)
@[simp] theorem State.setVi_rig (s : State) (n : Nat) (v : ViSt) (m : Nat) : (s.setVi n v).rig m = s.rig m := (rfl)
@[simp] theorem State.setVi_seat (s : State) (n : Nat) (v : ViSt) (m : Nat) : (s.setVi n v).seat m = s.seat m := (rfl)
@[simp] theorem State.setVi_switch (s : State) (n : Nat) (v : ViSt) (m : Nat) : (s.setVi n v).switch m = s.switch m := (rfl)

@[simp] theorem State.setCtx_regs (s : State) (c : Nat) (v : CtxSt) : (s.setCtx c v).regs = s.regs := (rfl)
@[simp] theorem State.setCtx_sel (s : State) (c : Nat) (v : CtxSt) : (s.setCtx c v).sel = s.sel := (rfl)
@[simp] theorem State.setCtx_mem (s : State) (c : Nat) (v : CtxSt) : (s.setCtx c v).mem = s.mem := (rfl)
@[simp] theorem State.setCtx_memPoison (s : State) (c : Nat) (v : CtxSt) : (s.setCtx c v).memPoison = s.memPoison := (rfl)
@[simp] theorem State.setCtx_memTag (s : State) (c : Nat) (v : CtxSt) : (s.setCtx c v).memTag = s.memTag := (rfl)
@[simp] theorem State.setCtx_ops (s : State) (c : Nat) (v : CtxSt) : (s.setCtx c v).ops = s.ops := (rfl)
@[simp] theorem State.setCtx_planes (s : State) (c : Nat) (v : CtxSt) : (s.setCtx c v).planes = s.planes := (rfl)
@[simp] theorem State.setCtx_units (s : State) (c : Nat) (v : CtxSt) : (s.setCtx c v).units = s.units := (rfl)
@[simp] theorem State.setCtx_inPorts (s : State) (c : Nat) (v : CtxSt) : (s.setCtx c v).inPorts = s.inPorts := (rfl)
@[simp] theorem State.setCtx_outPorts (s : State) (c : Nat) (v : CtxSt) : (s.setCtx c v).outPorts = s.outPorts := (rfl)
@[simp] theorem State.setCtx_switches (s : State) (c : Nat) (v : CtxSt) : (s.setCtx c v).switches = s.switches := (rfl)
@[simp] theorem State.setCtx_tiers (s : State) (c : Nat) (v : CtxSt) : (s.setCtx c v).tiers = s.tiers := (rfl)
@[simp] theorem State.setCtx_streams (s : State) (c : Nat) (v : CtxSt) : (s.setCtx c v).streams = s.streams := (rfl)
@[simp] theorem State.setCtx_twin (s : State) (c : Nat) (v : CtxSt) : (s.setCtx c v).twin = s.twin := (rfl)
@[simp] theorem State.setCtx_rigs (s : State) (c : Nat) (v : CtxSt) : (s.setCtx c v).rigs = s.rigs := (rfl)
@[simp] theorem State.setCtx_waves (s : State) (c : Nat) (v : CtxSt) : (s.setCtx c v).waves = s.waves := (rfl)
@[simp] theorem State.setCtx_vis (s : State) (c : Nat) (v : CtxSt) : (s.setCtx c v).vis = s.vis := (rfl)
@[simp] theorem State.setCtx_rings (s : State) (c : Nat) (v : CtxSt) : (s.setCtx c v).rings = s.rings := (rfl)
@[simp] theorem State.setCtx_entries (s : State) (c : Nat) (v : CtxSt) : (s.setCtx c v).entries = s.entries := (rfl)
@[simp] theorem State.setCtx_wpkg (s : State) (c : Nat) (v : CtxSt) : (s.setCtx c v).wpkg = s.wpkg := (rfl)
@[simp] theorem State.setCtx_step (s : State) (c : Nat) (v : CtxSt) : (s.setCtx c v).step = s.step := (rfl)
@[simp] theorem State.setCtx_sed (s : State) (c : Nat) (v : CtxSt) : (s.setCtx c v).sed = s.sed := (rfl)
@[simp] theorem State.setCtx_seals (s : State) (c : Nat) (v : CtxSt) : (s.setCtx c v).seals = s.seals := (rfl)
@[simp] theorem State.setCtx_scat (s : State) (c : Nat) (v : CtxSt) : (s.setCtx c v).scat = s.scat := (rfl)
@[simp] theorem State.setCtx_fab (s : State) (c : Nat) (v : CtxSt) : (s.setCtx c v).fab = s.fab := (rfl)
@[simp] theorem State.setCtx_coll (s : State) (c : Nat) (v : CtxSt) : (s.setCtx c v).coll = s.coll := (rfl)
@[simp] theorem State.setCtx_reqs (s : State) (c : Nat) (v : CtxSt) : (s.setCtx c v).reqs = s.reqs := (rfl)
@[simp] theorem State.setCtx_slices (s : State) (c : Nat) (v : CtxSt) : (s.setCtx c v).slices = s.slices := (rfl)
@[simp] theorem State.setCtx_err (s : State) (c : Nat) (v : CtxSt) : (s.setCtx c v).err = s.err := (rfl)
@[simp] theorem State.setCtx_snap (s : State) (c : Nat) (v : CtxSt) : (s.setCtx c v).snap = s.snap := (rfl)
@[simp] theorem State.setCtx_log (s : State) (c : Nat) (v : CtxSt) : (s.setCtx c v).log = s.log := (rfl)
@[simp] theorem State.setCtx_pwr (s : State) (c : Nat) (v : CtxSt) : (s.setCtx c v).pwr = s.pwr := (rfl)
@[simp] theorem State.setCtx_seats (s : State) (c : Nat) (v : CtxSt) : (s.setCtx c v).seats = s.seats := (rfl)
@[simp] theorem State.setCtx_board (s : State) (c : Nat) (v : CtxSt) : (s.setCtx c v).board = s.board := (rfl)
@[simp] theorem State.setCtx_out (s : State) (c : Nat) (v : CtxSt) : (s.setCtx c v).out = s.out := (rfl)
@[simp] theorem State.setCtx_now (s : State) (c : Nat) (v : CtxSt) : (s.setCtx c v).now = s.now := (rfl)
@[simp] theorem State.setCtx_fresh (s : State) (c : Nat) (v : CtxSt) : (s.setCtx c v).fresh = s.fresh := (rfl)
@[simp] theorem State.setCtx_pending (s : State) (c : Nat) (v : CtxSt) : (s.setCtx c v).pending = s.pending := (rfl)
@[simp] theorem State.setCtx_regAt (s : State) (c : Nat) (v : CtxSt) (j : Nat) : (s.setCtx c v).regAt j = s.regAt j := (rfl)
@[simp] theorem State.setCtx_getF (s : State) (c : Nat) (v : CtxSt) (x : Fld) (y : Nat) : (s.setCtx c v).getF x y = s.getF x y := (rfl)
@[simp] theorem State.setCtx_flag (s : State) (c : Nat) (v : CtxSt) (x : Fld) (y : Nat) : (s.setCtx c v).flag x y = s.flag x y := (rfl)
@[simp] theorem State.setCtx_byteAt (s : State) (c : Nat) (v : CtxSt) (x : Nat) : (s.setCtx c v).byteAt x = s.byteAt x := (rfl)
@[simp] theorem State.setCtx_poisonAt (s : State) (c : Nat) (v : CtxSt) (x : Nat) : (s.setCtx c v).poisonAt x = s.poisonAt x := (rfl)
@[simp] theorem State.setCtx_vi (s : State) (c : Nat) (v : CtxSt) (m : Nat) : (s.setCtx c v).vi m = s.vi m := (rfl)
@[simp] theorem State.setCtx_ring (s : State) (c : Nat) (v : CtxSt) (m : Nat) : (s.setCtx c v).ring m = s.ring m := (rfl)
@[simp] theorem State.setCtx_entry (s : State) (c : Nat) (v : CtxSt) (m : Nat) : (s.setCtx c v).entry m = s.entry m := (rfl)
@[simp] theorem State.setCtx_req (s : State) (c : Nat) (v : CtxSt) (m : Nat) : (s.setCtx c v).req m = s.req m := (rfl)
@[simp] theorem State.setCtx_unit (s : State) (c : Nat) (v : CtxSt) (m : Nat) : (s.setCtx c v).unit m = s.unit m := (rfl)
@[simp] theorem State.setCtx_plane (s : State) (c : Nat) (v : CtxSt) (m q : Nat) : (s.setCtx c v).plane m q = s.plane m q := (rfl)
@[simp] theorem State.setCtx_inPort (s : State) (c : Nat) (v : CtxSt) (m q z : Nat) : (s.setCtx c v).inPort m q z = s.inPort m q z := (rfl)
@[simp] theorem State.setCtx_outPort (s : State) (c : Nat) (v : CtxSt) (m q z : Nat) : (s.setCtx c v).outPort m q z = s.outPort m q z := (rfl)
@[simp] theorem State.setCtx_opLine (s : State) (c : Nat) (v : CtxSt) (m z : Nat) : (s.setCtx c v).opLine m z = s.opLine m z := (rfl)
@[simp] theorem State.setCtx_rig (s : State) (c : Nat) (v : CtxSt) (m : Nat) : (s.setCtx c v).rig m = s.rig m := (rfl)
@[simp] theorem State.setCtx_seat (s : State) (c : Nat) (v : CtxSt) (m : Nat) : (s.setCtx c v).seat m = s.seat m := (rfl)
@[simp] theorem State.setCtx_switch (s : State) (c : Nat) (v : CtxSt) (m : Nat) : (s.setCtx c v).switch m = s.switch m := (rfl)

@[simp] theorem State.setRing_regs (s : State) (r : Nat) (v : RingSt) : (s.setRing r v).regs = s.regs := (rfl)
@[simp] theorem State.setRing_sel (s : State) (r : Nat) (v : RingSt) : (s.setRing r v).sel = s.sel := (rfl)
@[simp] theorem State.setRing_mem (s : State) (r : Nat) (v : RingSt) : (s.setRing r v).mem = s.mem := (rfl)
@[simp] theorem State.setRing_memPoison (s : State) (r : Nat) (v : RingSt) : (s.setRing r v).memPoison = s.memPoison := (rfl)
@[simp] theorem State.setRing_memTag (s : State) (r : Nat) (v : RingSt) : (s.setRing r v).memTag = s.memTag := (rfl)
@[simp] theorem State.setRing_ops (s : State) (r : Nat) (v : RingSt) : (s.setRing r v).ops = s.ops := (rfl)
@[simp] theorem State.setRing_planes (s : State) (r : Nat) (v : RingSt) : (s.setRing r v).planes = s.planes := (rfl)
@[simp] theorem State.setRing_units (s : State) (r : Nat) (v : RingSt) : (s.setRing r v).units = s.units := (rfl)
@[simp] theorem State.setRing_inPorts (s : State) (r : Nat) (v : RingSt) : (s.setRing r v).inPorts = s.inPorts := (rfl)
@[simp] theorem State.setRing_outPorts (s : State) (r : Nat) (v : RingSt) : (s.setRing r v).outPorts = s.outPorts := (rfl)
@[simp] theorem State.setRing_switches (s : State) (r : Nat) (v : RingSt) : (s.setRing r v).switches = s.switches := (rfl)
@[simp] theorem State.setRing_tiers (s : State) (r : Nat) (v : RingSt) : (s.setRing r v).tiers = s.tiers := (rfl)
@[simp] theorem State.setRing_streams (s : State) (r : Nat) (v : RingSt) : (s.setRing r v).streams = s.streams := (rfl)
@[simp] theorem State.setRing_twin (s : State) (r : Nat) (v : RingSt) : (s.setRing r v).twin = s.twin := (rfl)
@[simp] theorem State.setRing_rigs (s : State) (r : Nat) (v : RingSt) : (s.setRing r v).rigs = s.rigs := (rfl)
@[simp] theorem State.setRing_waves (s : State) (r : Nat) (v : RingSt) : (s.setRing r v).waves = s.waves := (rfl)
@[simp] theorem State.setRing_ctxs (s : State) (r : Nat) (v : RingSt) : (s.setRing r v).ctxs = s.ctxs := (rfl)
@[simp] theorem State.setRing_vis (s : State) (r : Nat) (v : RingSt) : (s.setRing r v).vis = s.vis := (rfl)
@[simp] theorem State.setRing_entries (s : State) (r : Nat) (v : RingSt) : (s.setRing r v).entries = s.entries := (rfl)
@[simp] theorem State.setRing_wpkg (s : State) (r : Nat) (v : RingSt) : (s.setRing r v).wpkg = s.wpkg := (rfl)
@[simp] theorem State.setRing_step (s : State) (r : Nat) (v : RingSt) : (s.setRing r v).step = s.step := (rfl)
@[simp] theorem State.setRing_sed (s : State) (r : Nat) (v : RingSt) : (s.setRing r v).sed = s.sed := (rfl)
@[simp] theorem State.setRing_seals (s : State) (r : Nat) (v : RingSt) : (s.setRing r v).seals = s.seals := (rfl)
@[simp] theorem State.setRing_scat (s : State) (r : Nat) (v : RingSt) : (s.setRing r v).scat = s.scat := (rfl)
@[simp] theorem State.setRing_fab (s : State) (r : Nat) (v : RingSt) : (s.setRing r v).fab = s.fab := (rfl)
@[simp] theorem State.setRing_coll (s : State) (r : Nat) (v : RingSt) : (s.setRing r v).coll = s.coll := (rfl)
@[simp] theorem State.setRing_reqs (s : State) (r : Nat) (v : RingSt) : (s.setRing r v).reqs = s.reqs := (rfl)
@[simp] theorem State.setRing_slices (s : State) (r : Nat) (v : RingSt) : (s.setRing r v).slices = s.slices := (rfl)
@[simp] theorem State.setRing_err (s : State) (r : Nat) (v : RingSt) : (s.setRing r v).err = s.err := (rfl)
@[simp] theorem State.setRing_snap (s : State) (r : Nat) (v : RingSt) : (s.setRing r v).snap = s.snap := (rfl)
@[simp] theorem State.setRing_log (s : State) (r : Nat) (v : RingSt) : (s.setRing r v).log = s.log := (rfl)
@[simp] theorem State.setRing_pwr (s : State) (r : Nat) (v : RingSt) : (s.setRing r v).pwr = s.pwr := (rfl)
@[simp] theorem State.setRing_seats (s : State) (r : Nat) (v : RingSt) : (s.setRing r v).seats = s.seats := (rfl)
@[simp] theorem State.setRing_board (s : State) (r : Nat) (v : RingSt) : (s.setRing r v).board = s.board := (rfl)
@[simp] theorem State.setRing_out (s : State) (r : Nat) (v : RingSt) : (s.setRing r v).out = s.out := (rfl)
@[simp] theorem State.setRing_now (s : State) (r : Nat) (v : RingSt) : (s.setRing r v).now = s.now := (rfl)
@[simp] theorem State.setRing_fresh (s : State) (r : Nat) (v : RingSt) : (s.setRing r v).fresh = s.fresh := (rfl)
@[simp] theorem State.setRing_pending (s : State) (r : Nat) (v : RingSt) : (s.setRing r v).pending = s.pending := (rfl)
@[simp] theorem State.setRing_regAt (s : State) (r : Nat) (v : RingSt) (j : Nat) : (s.setRing r v).regAt j = s.regAt j := (rfl)
@[simp] theorem State.setRing_getF (s : State) (r : Nat) (v : RingSt) (x : Fld) (y : Nat) : (s.setRing r v).getF x y = s.getF x y := (rfl)
@[simp] theorem State.setRing_flag (s : State) (r : Nat) (v : RingSt) (x : Fld) (y : Nat) : (s.setRing r v).flag x y = s.flag x y := (rfl)
@[simp] theorem State.setRing_byteAt (s : State) (r : Nat) (v : RingSt) (x : Nat) : (s.setRing r v).byteAt x = s.byteAt x := (rfl)
@[simp] theorem State.setRing_poisonAt (s : State) (r : Nat) (v : RingSt) (x : Nat) : (s.setRing r v).poisonAt x = s.poisonAt x := (rfl)
@[simp] theorem State.setRing_vi (s : State) (r : Nat) (v : RingSt) (m : Nat) : (s.setRing r v).vi m = s.vi m := (rfl)
@[simp] theorem State.setRing_ctx (s : State) (r : Nat) (v : RingSt) (m : Nat) : (s.setRing r v).ctx m = s.ctx m := (rfl)
@[simp] theorem State.setRing_entry (s : State) (r : Nat) (v : RingSt) (m : Nat) : (s.setRing r v).entry m = s.entry m := (rfl)
@[simp] theorem State.setRing_req (s : State) (r : Nat) (v : RingSt) (m : Nat) : (s.setRing r v).req m = s.req m := (rfl)
@[simp] theorem State.setRing_unit (s : State) (r : Nat) (v : RingSt) (m : Nat) : (s.setRing r v).unit m = s.unit m := (rfl)
@[simp] theorem State.setRing_plane (s : State) (r : Nat) (v : RingSt) (m q : Nat) : (s.setRing r v).plane m q = s.plane m q := (rfl)
@[simp] theorem State.setRing_inPort (s : State) (r : Nat) (v : RingSt) (m q z : Nat) : (s.setRing r v).inPort m q z = s.inPort m q z := (rfl)
@[simp] theorem State.setRing_outPort (s : State) (r : Nat) (v : RingSt) (m q z : Nat) : (s.setRing r v).outPort m q z = s.outPort m q z := (rfl)
@[simp] theorem State.setRing_opLine (s : State) (r : Nat) (v : RingSt) (m z : Nat) : (s.setRing r v).opLine m z = s.opLine m z := (rfl)
@[simp] theorem State.setRing_rig (s : State) (r : Nat) (v : RingSt) (m : Nat) : (s.setRing r v).rig m = s.rig m := (rfl)
@[simp] theorem State.setRing_seat (s : State) (r : Nat) (v : RingSt) (m : Nat) : (s.setRing r v).seat m = s.seat m := (rfl)
@[simp] theorem State.setRing_switch (s : State) (r : Nat) (v : RingSt) (m : Nat) : (s.setRing r v).switch m = s.switch m := (rfl)

@[simp] theorem State.setEntry_regs (s : State) (i : Nat) (e : Entry) : (s.setEntry i e).regs = s.regs := (rfl)
@[simp] theorem State.setEntry_sel (s : State) (i : Nat) (e : Entry) : (s.setEntry i e).sel = s.sel := (rfl)
@[simp] theorem State.setEntry_mem (s : State) (i : Nat) (e : Entry) : (s.setEntry i e).mem = s.mem := (rfl)
@[simp] theorem State.setEntry_memPoison (s : State) (i : Nat) (e : Entry) : (s.setEntry i e).memPoison = s.memPoison := (rfl)
@[simp] theorem State.setEntry_memTag (s : State) (i : Nat) (e : Entry) : (s.setEntry i e).memTag = s.memTag := (rfl)
@[simp] theorem State.setEntry_ops (s : State) (i : Nat) (e : Entry) : (s.setEntry i e).ops = s.ops := (rfl)
@[simp] theorem State.setEntry_planes (s : State) (i : Nat) (e : Entry) : (s.setEntry i e).planes = s.planes := (rfl)
@[simp] theorem State.setEntry_units (s : State) (i : Nat) (e : Entry) : (s.setEntry i e).units = s.units := (rfl)
@[simp] theorem State.setEntry_inPorts (s : State) (i : Nat) (e : Entry) : (s.setEntry i e).inPorts = s.inPorts := (rfl)
@[simp] theorem State.setEntry_outPorts (s : State) (i : Nat) (e : Entry) : (s.setEntry i e).outPorts = s.outPorts := (rfl)
@[simp] theorem State.setEntry_switches (s : State) (i : Nat) (e : Entry) : (s.setEntry i e).switches = s.switches := (rfl)
@[simp] theorem State.setEntry_tiers (s : State) (i : Nat) (e : Entry) : (s.setEntry i e).tiers = s.tiers := (rfl)
@[simp] theorem State.setEntry_streams (s : State) (i : Nat) (e : Entry) : (s.setEntry i e).streams = s.streams := (rfl)
@[simp] theorem State.setEntry_twin (s : State) (i : Nat) (e : Entry) : (s.setEntry i e).twin = s.twin := (rfl)
@[simp] theorem State.setEntry_rigs (s : State) (i : Nat) (e : Entry) : (s.setEntry i e).rigs = s.rigs := (rfl)
@[simp] theorem State.setEntry_waves (s : State) (i : Nat) (e : Entry) : (s.setEntry i e).waves = s.waves := (rfl)
@[simp] theorem State.setEntry_ctxs (s : State) (i : Nat) (e : Entry) : (s.setEntry i e).ctxs = s.ctxs := (rfl)
@[simp] theorem State.setEntry_vis (s : State) (i : Nat) (e : Entry) : (s.setEntry i e).vis = s.vis := (rfl)
@[simp] theorem State.setEntry_rings (s : State) (i : Nat) (e : Entry) : (s.setEntry i e).rings = s.rings := (rfl)
@[simp] theorem State.setEntry_wpkg (s : State) (i : Nat) (e : Entry) : (s.setEntry i e).wpkg = s.wpkg := (rfl)
@[simp] theorem State.setEntry_step (s : State) (i : Nat) (e : Entry) : (s.setEntry i e).step = s.step := (rfl)
@[simp] theorem State.setEntry_sed (s : State) (i : Nat) (e : Entry) : (s.setEntry i e).sed = s.sed := (rfl)
@[simp] theorem State.setEntry_seals (s : State) (i : Nat) (e : Entry) : (s.setEntry i e).seals = s.seals := (rfl)
@[simp] theorem State.setEntry_scat (s : State) (i : Nat) (e : Entry) : (s.setEntry i e).scat = s.scat := (rfl)
@[simp] theorem State.setEntry_fab (s : State) (i : Nat) (e : Entry) : (s.setEntry i e).fab = s.fab := (rfl)
@[simp] theorem State.setEntry_coll (s : State) (i : Nat) (e : Entry) : (s.setEntry i e).coll = s.coll := (rfl)
@[simp] theorem State.setEntry_reqs (s : State) (i : Nat) (e : Entry) : (s.setEntry i e).reqs = s.reqs := (rfl)
@[simp] theorem State.setEntry_slices (s : State) (i : Nat) (e : Entry) : (s.setEntry i e).slices = s.slices := (rfl)
@[simp] theorem State.setEntry_err (s : State) (i : Nat) (e : Entry) : (s.setEntry i e).err = s.err := (rfl)
@[simp] theorem State.setEntry_snap (s : State) (i : Nat) (e : Entry) : (s.setEntry i e).snap = s.snap := (rfl)
@[simp] theorem State.setEntry_log (s : State) (i : Nat) (e : Entry) : (s.setEntry i e).log = s.log := (rfl)
@[simp] theorem State.setEntry_pwr (s : State) (i : Nat) (e : Entry) : (s.setEntry i e).pwr = s.pwr := (rfl)
@[simp] theorem State.setEntry_seats (s : State) (i : Nat) (e : Entry) : (s.setEntry i e).seats = s.seats := (rfl)
@[simp] theorem State.setEntry_board (s : State) (i : Nat) (e : Entry) : (s.setEntry i e).board = s.board := (rfl)
@[simp] theorem State.setEntry_out (s : State) (i : Nat) (e : Entry) : (s.setEntry i e).out = s.out := (rfl)
@[simp] theorem State.setEntry_now (s : State) (i : Nat) (e : Entry) : (s.setEntry i e).now = s.now := (rfl)
@[simp] theorem State.setEntry_fresh (s : State) (i : Nat) (e : Entry) : (s.setEntry i e).fresh = s.fresh := (rfl)
@[simp] theorem State.setEntry_pending (s : State) (i : Nat) (e : Entry) : (s.setEntry i e).pending = s.pending := (rfl)
@[simp] theorem State.setEntry_regAt (s : State) (i : Nat) (e : Entry) (j : Nat) : (s.setEntry i e).regAt j = s.regAt j := (rfl)
@[simp] theorem State.setEntry_getF (s : State) (i : Nat) (e : Entry) (x : Fld) (y : Nat) : (s.setEntry i e).getF x y = s.getF x y := (rfl)
@[simp] theorem State.setEntry_flag (s : State) (i : Nat) (e : Entry) (x : Fld) (y : Nat) : (s.setEntry i e).flag x y = s.flag x y := (rfl)
@[simp] theorem State.setEntry_byteAt (s : State) (i : Nat) (e : Entry) (x : Nat) : (s.setEntry i e).byteAt x = s.byteAt x := (rfl)
@[simp] theorem State.setEntry_poisonAt (s : State) (i : Nat) (e : Entry) (x : Nat) : (s.setEntry i e).poisonAt x = s.poisonAt x := (rfl)
@[simp] theorem State.setEntry_vi (s : State) (i : Nat) (e : Entry) (m : Nat) : (s.setEntry i e).vi m = s.vi m := (rfl)
@[simp] theorem State.setEntry_ctx (s : State) (i : Nat) (e : Entry) (m : Nat) : (s.setEntry i e).ctx m = s.ctx m := (rfl)
@[simp] theorem State.setEntry_ring (s : State) (i : Nat) (e : Entry) (m : Nat) : (s.setEntry i e).ring m = s.ring m := (rfl)
@[simp] theorem State.setEntry_req (s : State) (i : Nat) (e : Entry) (m : Nat) : (s.setEntry i e).req m = s.req m := (rfl)
@[simp] theorem State.setEntry_unit (s : State) (i : Nat) (e : Entry) (m : Nat) : (s.setEntry i e).unit m = s.unit m := (rfl)
@[simp] theorem State.setEntry_plane (s : State) (i : Nat) (e : Entry) (m q : Nat) : (s.setEntry i e).plane m q = s.plane m q := (rfl)
@[simp] theorem State.setEntry_inPort (s : State) (i : Nat) (e : Entry) (m q z : Nat) : (s.setEntry i e).inPort m q z = s.inPort m q z := (rfl)
@[simp] theorem State.setEntry_outPort (s : State) (i : Nat) (e : Entry) (m q z : Nat) : (s.setEntry i e).outPort m q z = s.outPort m q z := (rfl)
@[simp] theorem State.setEntry_opLine (s : State) (i : Nat) (e : Entry) (m z : Nat) : (s.setEntry i e).opLine m z = s.opLine m z := (rfl)
@[simp] theorem State.setEntry_rig (s : State) (i : Nat) (e : Entry) (m : Nat) : (s.setEntry i e).rig m = s.rig m := (rfl)
@[simp] theorem State.setEntry_seat (s : State) (i : Nat) (e : Entry) (m : Nat) : (s.setEntry i e).seat m = s.seat m := (rfl)
@[simp] theorem State.setEntry_switch (s : State) (i : Nat) (e : Entry) (m : Nat) : (s.setEntry i e).switch m = s.switch m := (rfl)

@[simp] theorem State.setReq_regs (s : State) (i : Nat) (r : ReqSt) : (s.setReq i r).regs = s.regs := (rfl)
@[simp] theorem State.setReq_sel (s : State) (i : Nat) (r : ReqSt) : (s.setReq i r).sel = s.sel := (rfl)
@[simp] theorem State.setReq_mem (s : State) (i : Nat) (r : ReqSt) : (s.setReq i r).mem = s.mem := (rfl)
@[simp] theorem State.setReq_memPoison (s : State) (i : Nat) (r : ReqSt) : (s.setReq i r).memPoison = s.memPoison := (rfl)
@[simp] theorem State.setReq_memTag (s : State) (i : Nat) (r : ReqSt) : (s.setReq i r).memTag = s.memTag := (rfl)
@[simp] theorem State.setReq_ops (s : State) (i : Nat) (r : ReqSt) : (s.setReq i r).ops = s.ops := (rfl)
@[simp] theorem State.setReq_planes (s : State) (i : Nat) (r : ReqSt) : (s.setReq i r).planes = s.planes := (rfl)
@[simp] theorem State.setReq_units (s : State) (i : Nat) (r : ReqSt) : (s.setReq i r).units = s.units := (rfl)
@[simp] theorem State.setReq_inPorts (s : State) (i : Nat) (r : ReqSt) : (s.setReq i r).inPorts = s.inPorts := (rfl)
@[simp] theorem State.setReq_outPorts (s : State) (i : Nat) (r : ReqSt) : (s.setReq i r).outPorts = s.outPorts := (rfl)
@[simp] theorem State.setReq_switches (s : State) (i : Nat) (r : ReqSt) : (s.setReq i r).switches = s.switches := (rfl)
@[simp] theorem State.setReq_tiers (s : State) (i : Nat) (r : ReqSt) : (s.setReq i r).tiers = s.tiers := (rfl)
@[simp] theorem State.setReq_streams (s : State) (i : Nat) (r : ReqSt) : (s.setReq i r).streams = s.streams := (rfl)
@[simp] theorem State.setReq_twin (s : State) (i : Nat) (r : ReqSt) : (s.setReq i r).twin = s.twin := (rfl)
@[simp] theorem State.setReq_rigs (s : State) (i : Nat) (r : ReqSt) : (s.setReq i r).rigs = s.rigs := (rfl)
@[simp] theorem State.setReq_waves (s : State) (i : Nat) (r : ReqSt) : (s.setReq i r).waves = s.waves := (rfl)
@[simp] theorem State.setReq_ctxs (s : State) (i : Nat) (r : ReqSt) : (s.setReq i r).ctxs = s.ctxs := (rfl)
@[simp] theorem State.setReq_vis (s : State) (i : Nat) (r : ReqSt) : (s.setReq i r).vis = s.vis := (rfl)
@[simp] theorem State.setReq_rings (s : State) (i : Nat) (r : ReqSt) : (s.setReq i r).rings = s.rings := (rfl)
@[simp] theorem State.setReq_entries (s : State) (i : Nat) (r : ReqSt) : (s.setReq i r).entries = s.entries := (rfl)
@[simp] theorem State.setReq_wpkg (s : State) (i : Nat) (r : ReqSt) : (s.setReq i r).wpkg = s.wpkg := (rfl)
@[simp] theorem State.setReq_step (s : State) (i : Nat) (r : ReqSt) : (s.setReq i r).step = s.step := (rfl)
@[simp] theorem State.setReq_sed (s : State) (i : Nat) (r : ReqSt) : (s.setReq i r).sed = s.sed := (rfl)
@[simp] theorem State.setReq_seals (s : State) (i : Nat) (r : ReqSt) : (s.setReq i r).seals = s.seals := (rfl)
@[simp] theorem State.setReq_scat (s : State) (i : Nat) (r : ReqSt) : (s.setReq i r).scat = s.scat := (rfl)
@[simp] theorem State.setReq_fab (s : State) (i : Nat) (r : ReqSt) : (s.setReq i r).fab = s.fab := (rfl)
@[simp] theorem State.setReq_coll (s : State) (i : Nat) (r : ReqSt) : (s.setReq i r).coll = s.coll := (rfl)
@[simp] theorem State.setReq_slices (s : State) (i : Nat) (r : ReqSt) : (s.setReq i r).slices = s.slices := (rfl)
@[simp] theorem State.setReq_err (s : State) (i : Nat) (r : ReqSt) : (s.setReq i r).err = s.err := (rfl)
@[simp] theorem State.setReq_snap (s : State) (i : Nat) (r : ReqSt) : (s.setReq i r).snap = s.snap := (rfl)
@[simp] theorem State.setReq_log (s : State) (i : Nat) (r : ReqSt) : (s.setReq i r).log = s.log := (rfl)
@[simp] theorem State.setReq_pwr (s : State) (i : Nat) (r : ReqSt) : (s.setReq i r).pwr = s.pwr := (rfl)
@[simp] theorem State.setReq_seats (s : State) (i : Nat) (r : ReqSt) : (s.setReq i r).seats = s.seats := (rfl)
@[simp] theorem State.setReq_board (s : State) (i : Nat) (r : ReqSt) : (s.setReq i r).board = s.board := (rfl)
@[simp] theorem State.setReq_out (s : State) (i : Nat) (r : ReqSt) : (s.setReq i r).out = s.out := (rfl)
@[simp] theorem State.setReq_now (s : State) (i : Nat) (r : ReqSt) : (s.setReq i r).now = s.now := (rfl)
@[simp] theorem State.setReq_fresh (s : State) (i : Nat) (r : ReqSt) : (s.setReq i r).fresh = s.fresh := (rfl)
@[simp] theorem State.setReq_pending (s : State) (i : Nat) (r : ReqSt) : (s.setReq i r).pending = s.pending := (rfl)
@[simp] theorem State.setReq_regAt (s : State) (i : Nat) (r : ReqSt) (j : Nat) : (s.setReq i r).regAt j = s.regAt j := (rfl)
@[simp] theorem State.setReq_getF (s : State) (i : Nat) (r : ReqSt) (x : Fld) (y : Nat) : (s.setReq i r).getF x y = s.getF x y := (rfl)
@[simp] theorem State.setReq_flag (s : State) (i : Nat) (r : ReqSt) (x : Fld) (y : Nat) : (s.setReq i r).flag x y = s.flag x y := (rfl)
@[simp] theorem State.setReq_byteAt (s : State) (i : Nat) (r : ReqSt) (x : Nat) : (s.setReq i r).byteAt x = s.byteAt x := (rfl)
@[simp] theorem State.setReq_poisonAt (s : State) (i : Nat) (r : ReqSt) (x : Nat) : (s.setReq i r).poisonAt x = s.poisonAt x := (rfl)
@[simp] theorem State.setReq_vi (s : State) (i : Nat) (r : ReqSt) (m : Nat) : (s.setReq i r).vi m = s.vi m := (rfl)
@[simp] theorem State.setReq_ctx (s : State) (i : Nat) (r : ReqSt) (m : Nat) : (s.setReq i r).ctx m = s.ctx m := (rfl)
@[simp] theorem State.setReq_ring (s : State) (i : Nat) (r : ReqSt) (m : Nat) : (s.setReq i r).ring m = s.ring m := (rfl)
@[simp] theorem State.setReq_entry (s : State) (i : Nat) (r : ReqSt) (m : Nat) : (s.setReq i r).entry m = s.entry m := (rfl)
@[simp] theorem State.setReq_unit (s : State) (i : Nat) (r : ReqSt) (m : Nat) : (s.setReq i r).unit m = s.unit m := (rfl)
@[simp] theorem State.setReq_plane (s : State) (i : Nat) (r : ReqSt) (m q : Nat) : (s.setReq i r).plane m q = s.plane m q := (rfl)
@[simp] theorem State.setReq_inPort (s : State) (i : Nat) (r : ReqSt) (m q z : Nat) : (s.setReq i r).inPort m q z = s.inPort m q z := (rfl)
@[simp] theorem State.setReq_outPort (s : State) (i : Nat) (r : ReqSt) (m q z : Nat) : (s.setReq i r).outPort m q z = s.outPort m q z := (rfl)
@[simp] theorem State.setReq_opLine (s : State) (i : Nat) (r : ReqSt) (m z : Nat) : (s.setReq i r).opLine m z = s.opLine m z := (rfl)
@[simp] theorem State.setReq_rig (s : State) (i : Nat) (r : ReqSt) (m : Nat) : (s.setReq i r).rig m = s.rig m := (rfl)
@[simp] theorem State.setReq_seat (s : State) (i : Nat) (r : ReqSt) (m : Nat) : (s.setReq i r).seat m = s.seat m := (rfl)
@[simp] theorem State.setReq_switch (s : State) (i : Nat) (r : ReqSt) (m : Nat) : (s.setReq i r).switch m = s.switch m := (rfl)

@[simp] theorem State.setUnit_regs (s : State) (u : Nat) (v : UnitSt) : (s.setUnit u v).regs = s.regs := (rfl)
@[simp] theorem State.setUnit_sel (s : State) (u : Nat) (v : UnitSt) : (s.setUnit u v).sel = s.sel := (rfl)
@[simp] theorem State.setUnit_mem (s : State) (u : Nat) (v : UnitSt) : (s.setUnit u v).mem = s.mem := (rfl)
@[simp] theorem State.setUnit_memPoison (s : State) (u : Nat) (v : UnitSt) : (s.setUnit u v).memPoison = s.memPoison := (rfl)
@[simp] theorem State.setUnit_memTag (s : State) (u : Nat) (v : UnitSt) : (s.setUnit u v).memTag = s.memTag := (rfl)
@[simp] theorem State.setUnit_ops (s : State) (u : Nat) (v : UnitSt) : (s.setUnit u v).ops = s.ops := (rfl)
@[simp] theorem State.setUnit_planes (s : State) (u : Nat) (v : UnitSt) : (s.setUnit u v).planes = s.planes := (rfl)
@[simp] theorem State.setUnit_inPorts (s : State) (u : Nat) (v : UnitSt) : (s.setUnit u v).inPorts = s.inPorts := (rfl)
@[simp] theorem State.setUnit_outPorts (s : State) (u : Nat) (v : UnitSt) : (s.setUnit u v).outPorts = s.outPorts := (rfl)
@[simp] theorem State.setUnit_switches (s : State) (u : Nat) (v : UnitSt) : (s.setUnit u v).switches = s.switches := (rfl)
@[simp] theorem State.setUnit_tiers (s : State) (u : Nat) (v : UnitSt) : (s.setUnit u v).tiers = s.tiers := (rfl)
@[simp] theorem State.setUnit_streams (s : State) (u : Nat) (v : UnitSt) : (s.setUnit u v).streams = s.streams := (rfl)
@[simp] theorem State.setUnit_twin (s : State) (u : Nat) (v : UnitSt) : (s.setUnit u v).twin = s.twin := (rfl)
@[simp] theorem State.setUnit_rigs (s : State) (u : Nat) (v : UnitSt) : (s.setUnit u v).rigs = s.rigs := (rfl)
@[simp] theorem State.setUnit_waves (s : State) (u : Nat) (v : UnitSt) : (s.setUnit u v).waves = s.waves := (rfl)
@[simp] theorem State.setUnit_ctxs (s : State) (u : Nat) (v : UnitSt) : (s.setUnit u v).ctxs = s.ctxs := (rfl)
@[simp] theorem State.setUnit_vis (s : State) (u : Nat) (v : UnitSt) : (s.setUnit u v).vis = s.vis := (rfl)
@[simp] theorem State.setUnit_rings (s : State) (u : Nat) (v : UnitSt) : (s.setUnit u v).rings = s.rings := (rfl)
@[simp] theorem State.setUnit_entries (s : State) (u : Nat) (v : UnitSt) : (s.setUnit u v).entries = s.entries := (rfl)
@[simp] theorem State.setUnit_wpkg (s : State) (u : Nat) (v : UnitSt) : (s.setUnit u v).wpkg = s.wpkg := (rfl)
@[simp] theorem State.setUnit_step (s : State) (u : Nat) (v : UnitSt) : (s.setUnit u v).step = s.step := (rfl)
@[simp] theorem State.setUnit_sed (s : State) (u : Nat) (v : UnitSt) : (s.setUnit u v).sed = s.sed := (rfl)
@[simp] theorem State.setUnit_seals (s : State) (u : Nat) (v : UnitSt) : (s.setUnit u v).seals = s.seals := (rfl)
@[simp] theorem State.setUnit_scat (s : State) (u : Nat) (v : UnitSt) : (s.setUnit u v).scat = s.scat := (rfl)
@[simp] theorem State.setUnit_fab (s : State) (u : Nat) (v : UnitSt) : (s.setUnit u v).fab = s.fab := (rfl)
@[simp] theorem State.setUnit_coll (s : State) (u : Nat) (v : UnitSt) : (s.setUnit u v).coll = s.coll := (rfl)
@[simp] theorem State.setUnit_reqs (s : State) (u : Nat) (v : UnitSt) : (s.setUnit u v).reqs = s.reqs := (rfl)
@[simp] theorem State.setUnit_slices (s : State) (u : Nat) (v : UnitSt) : (s.setUnit u v).slices = s.slices := (rfl)
@[simp] theorem State.setUnit_err (s : State) (u : Nat) (v : UnitSt) : (s.setUnit u v).err = s.err := (rfl)
@[simp] theorem State.setUnit_snap (s : State) (u : Nat) (v : UnitSt) : (s.setUnit u v).snap = s.snap := (rfl)
@[simp] theorem State.setUnit_log (s : State) (u : Nat) (v : UnitSt) : (s.setUnit u v).log = s.log := (rfl)
@[simp] theorem State.setUnit_pwr (s : State) (u : Nat) (v : UnitSt) : (s.setUnit u v).pwr = s.pwr := (rfl)
@[simp] theorem State.setUnit_seats (s : State) (u : Nat) (v : UnitSt) : (s.setUnit u v).seats = s.seats := (rfl)
@[simp] theorem State.setUnit_board (s : State) (u : Nat) (v : UnitSt) : (s.setUnit u v).board = s.board := (rfl)
@[simp] theorem State.setUnit_out (s : State) (u : Nat) (v : UnitSt) : (s.setUnit u v).out = s.out := (rfl)
@[simp] theorem State.setUnit_now (s : State) (u : Nat) (v : UnitSt) : (s.setUnit u v).now = s.now := (rfl)
@[simp] theorem State.setUnit_fresh (s : State) (u : Nat) (v : UnitSt) : (s.setUnit u v).fresh = s.fresh := (rfl)
@[simp] theorem State.setUnit_pending (s : State) (u : Nat) (v : UnitSt) : (s.setUnit u v).pending = s.pending := (rfl)
@[simp] theorem State.setUnit_regAt (s : State) (u : Nat) (v : UnitSt) (j : Nat) : (s.setUnit u v).regAt j = s.regAt j := (rfl)
@[simp] theorem State.setUnit_getF (s : State) (u : Nat) (v : UnitSt) (x : Fld) (y : Nat) : (s.setUnit u v).getF x y = s.getF x y := (rfl)
@[simp] theorem State.setUnit_flag (s : State) (u : Nat) (v : UnitSt) (x : Fld) (y : Nat) : (s.setUnit u v).flag x y = s.flag x y := (rfl)
@[simp] theorem State.setUnit_byteAt (s : State) (u : Nat) (v : UnitSt) (x : Nat) : (s.setUnit u v).byteAt x = s.byteAt x := (rfl)
@[simp] theorem State.setUnit_poisonAt (s : State) (u : Nat) (v : UnitSt) (x : Nat) : (s.setUnit u v).poisonAt x = s.poisonAt x := (rfl)
@[simp] theorem State.setUnit_vi (s : State) (u : Nat) (v : UnitSt) (m : Nat) : (s.setUnit u v).vi m = s.vi m := (rfl)
@[simp] theorem State.setUnit_ctx (s : State) (u : Nat) (v : UnitSt) (m : Nat) : (s.setUnit u v).ctx m = s.ctx m := (rfl)
@[simp] theorem State.setUnit_ring (s : State) (u : Nat) (v : UnitSt) (m : Nat) : (s.setUnit u v).ring m = s.ring m := (rfl)
@[simp] theorem State.setUnit_entry (s : State) (u : Nat) (v : UnitSt) (m : Nat) : (s.setUnit u v).entry m = s.entry m := (rfl)
@[simp] theorem State.setUnit_req (s : State) (u : Nat) (v : UnitSt) (m : Nat) : (s.setUnit u v).req m = s.req m := (rfl)
@[simp] theorem State.setUnit_plane (s : State) (u : Nat) (v : UnitSt) (m q : Nat) : (s.setUnit u v).plane m q = s.plane m q := (rfl)
@[simp] theorem State.setUnit_inPort (s : State) (u : Nat) (v : UnitSt) (m q z : Nat) : (s.setUnit u v).inPort m q z = s.inPort m q z := (rfl)
@[simp] theorem State.setUnit_outPort (s : State) (u : Nat) (v : UnitSt) (m q z : Nat) : (s.setUnit u v).outPort m q z = s.outPort m q z := (rfl)
@[simp] theorem State.setUnit_opLine (s : State) (u : Nat) (v : UnitSt) (m z : Nat) : (s.setUnit u v).opLine m z = s.opLine m z := (rfl)
@[simp] theorem State.setUnit_rig (s : State) (u : Nat) (v : UnitSt) (m : Nat) : (s.setUnit u v).rig m = s.rig m := (rfl)
@[simp] theorem State.setUnit_seat (s : State) (u : Nat) (v : UnitSt) (m : Nat) : (s.setUnit u v).seat m = s.seat m := (rfl)
@[simp] theorem State.setUnit_switch (s : State) (u : Nat) (v : UnitSt) (m : Nat) : (s.setUnit u v).switch m = s.switch m := (rfl)

@[simp] theorem State.setPlane_regs (s : State) (u p : Nat) (v : Plane) : (s.setPlane u p v).regs = s.regs := (rfl)
@[simp] theorem State.setPlane_sel (s : State) (u p : Nat) (v : Plane) : (s.setPlane u p v).sel = s.sel := (rfl)
@[simp] theorem State.setPlane_mem (s : State) (u p : Nat) (v : Plane) : (s.setPlane u p v).mem = s.mem := (rfl)
@[simp] theorem State.setPlane_memPoison (s : State) (u p : Nat) (v : Plane) : (s.setPlane u p v).memPoison = s.memPoison := (rfl)
@[simp] theorem State.setPlane_memTag (s : State) (u p : Nat) (v : Plane) : (s.setPlane u p v).memTag = s.memTag := (rfl)
@[simp] theorem State.setPlane_ops (s : State) (u p : Nat) (v : Plane) : (s.setPlane u p v).ops = s.ops := (rfl)
@[simp] theorem State.setPlane_units (s : State) (u p : Nat) (v : Plane) : (s.setPlane u p v).units = s.units := (rfl)
@[simp] theorem State.setPlane_inPorts (s : State) (u p : Nat) (v : Plane) : (s.setPlane u p v).inPorts = s.inPorts := (rfl)
@[simp] theorem State.setPlane_outPorts (s : State) (u p : Nat) (v : Plane) : (s.setPlane u p v).outPorts = s.outPorts := (rfl)
@[simp] theorem State.setPlane_switches (s : State) (u p : Nat) (v : Plane) : (s.setPlane u p v).switches = s.switches := (rfl)
@[simp] theorem State.setPlane_tiers (s : State) (u p : Nat) (v : Plane) : (s.setPlane u p v).tiers = s.tiers := (rfl)
@[simp] theorem State.setPlane_streams (s : State) (u p : Nat) (v : Plane) : (s.setPlane u p v).streams = s.streams := (rfl)
@[simp] theorem State.setPlane_twin (s : State) (u p : Nat) (v : Plane) : (s.setPlane u p v).twin = s.twin := (rfl)
@[simp] theorem State.setPlane_rigs (s : State) (u p : Nat) (v : Plane) : (s.setPlane u p v).rigs = s.rigs := (rfl)
@[simp] theorem State.setPlane_waves (s : State) (u p : Nat) (v : Plane) : (s.setPlane u p v).waves = s.waves := (rfl)
@[simp] theorem State.setPlane_ctxs (s : State) (u p : Nat) (v : Plane) : (s.setPlane u p v).ctxs = s.ctxs := (rfl)
@[simp] theorem State.setPlane_vis (s : State) (u p : Nat) (v : Plane) : (s.setPlane u p v).vis = s.vis := (rfl)
@[simp] theorem State.setPlane_rings (s : State) (u p : Nat) (v : Plane) : (s.setPlane u p v).rings = s.rings := (rfl)
@[simp] theorem State.setPlane_entries (s : State) (u p : Nat) (v : Plane) : (s.setPlane u p v).entries = s.entries := (rfl)
@[simp] theorem State.setPlane_wpkg (s : State) (u p : Nat) (v : Plane) : (s.setPlane u p v).wpkg = s.wpkg := (rfl)
@[simp] theorem State.setPlane_step (s : State) (u p : Nat) (v : Plane) : (s.setPlane u p v).step = s.step := (rfl)
@[simp] theorem State.setPlane_sed (s : State) (u p : Nat) (v : Plane) : (s.setPlane u p v).sed = s.sed := (rfl)
@[simp] theorem State.setPlane_seals (s : State) (u p : Nat) (v : Plane) : (s.setPlane u p v).seals = s.seals := (rfl)
@[simp] theorem State.setPlane_scat (s : State) (u p : Nat) (v : Plane) : (s.setPlane u p v).scat = s.scat := (rfl)
@[simp] theorem State.setPlane_fab (s : State) (u p : Nat) (v : Plane) : (s.setPlane u p v).fab = s.fab := (rfl)
@[simp] theorem State.setPlane_coll (s : State) (u p : Nat) (v : Plane) : (s.setPlane u p v).coll = s.coll := (rfl)
@[simp] theorem State.setPlane_reqs (s : State) (u p : Nat) (v : Plane) : (s.setPlane u p v).reqs = s.reqs := (rfl)
@[simp] theorem State.setPlane_slices (s : State) (u p : Nat) (v : Plane) : (s.setPlane u p v).slices = s.slices := (rfl)
@[simp] theorem State.setPlane_err (s : State) (u p : Nat) (v : Plane) : (s.setPlane u p v).err = s.err := (rfl)
@[simp] theorem State.setPlane_snap (s : State) (u p : Nat) (v : Plane) : (s.setPlane u p v).snap = s.snap := (rfl)
@[simp] theorem State.setPlane_log (s : State) (u p : Nat) (v : Plane) : (s.setPlane u p v).log = s.log := (rfl)
@[simp] theorem State.setPlane_pwr (s : State) (u p : Nat) (v : Plane) : (s.setPlane u p v).pwr = s.pwr := (rfl)
@[simp] theorem State.setPlane_seats (s : State) (u p : Nat) (v : Plane) : (s.setPlane u p v).seats = s.seats := (rfl)
@[simp] theorem State.setPlane_board (s : State) (u p : Nat) (v : Plane) : (s.setPlane u p v).board = s.board := (rfl)
@[simp] theorem State.setPlane_out (s : State) (u p : Nat) (v : Plane) : (s.setPlane u p v).out = s.out := (rfl)
@[simp] theorem State.setPlane_now (s : State) (u p : Nat) (v : Plane) : (s.setPlane u p v).now = s.now := (rfl)
@[simp] theorem State.setPlane_fresh (s : State) (u p : Nat) (v : Plane) : (s.setPlane u p v).fresh = s.fresh := (rfl)
@[simp] theorem State.setPlane_pending (s : State) (u p : Nat) (v : Plane) : (s.setPlane u p v).pending = s.pending := (rfl)
@[simp] theorem State.setPlane_regAt (s : State) (u p : Nat) (v : Plane) (j : Nat) : (s.setPlane u p v).regAt j = s.regAt j := (rfl)
@[simp] theorem State.setPlane_getF (s : State) (u p : Nat) (v : Plane) (x : Fld) (y : Nat) : (s.setPlane u p v).getF x y = s.getF x y := (rfl)
@[simp] theorem State.setPlane_flag (s : State) (u p : Nat) (v : Plane) (x : Fld) (y : Nat) : (s.setPlane u p v).flag x y = s.flag x y := (rfl)
@[simp] theorem State.setPlane_byteAt (s : State) (u p : Nat) (v : Plane) (x : Nat) : (s.setPlane u p v).byteAt x = s.byteAt x := (rfl)
@[simp] theorem State.setPlane_poisonAt (s : State) (u p : Nat) (v : Plane) (x : Nat) : (s.setPlane u p v).poisonAt x = s.poisonAt x := (rfl)
@[simp] theorem State.setPlane_vi (s : State) (u p : Nat) (v : Plane) (m : Nat) : (s.setPlane u p v).vi m = s.vi m := (rfl)
@[simp] theorem State.setPlane_ctx (s : State) (u p : Nat) (v : Plane) (m : Nat) : (s.setPlane u p v).ctx m = s.ctx m := (rfl)
@[simp] theorem State.setPlane_ring (s : State) (u p : Nat) (v : Plane) (m : Nat) : (s.setPlane u p v).ring m = s.ring m := (rfl)
@[simp] theorem State.setPlane_entry (s : State) (u p : Nat) (v : Plane) (m : Nat) : (s.setPlane u p v).entry m = s.entry m := (rfl)
@[simp] theorem State.setPlane_req (s : State) (u p : Nat) (v : Plane) (m : Nat) : (s.setPlane u p v).req m = s.req m := (rfl)
@[simp] theorem State.setPlane_unit (s : State) (u p : Nat) (v : Plane) (m : Nat) : (s.setPlane u p v).unit m = s.unit m := (rfl)
@[simp] theorem State.setPlane_inPort (s : State) (u p : Nat) (v : Plane) (m q z : Nat) : (s.setPlane u p v).inPort m q z = s.inPort m q z := (rfl)
@[simp] theorem State.setPlane_outPort (s : State) (u p : Nat) (v : Plane) (m q z : Nat) : (s.setPlane u p v).outPort m q z = s.outPort m q z := (rfl)
@[simp] theorem State.setPlane_opLine (s : State) (u p : Nat) (v : Plane) (m z : Nat) : (s.setPlane u p v).opLine m z = s.opLine m z := (rfl)
@[simp] theorem State.setPlane_rig (s : State) (u p : Nat) (v : Plane) (m : Nat) : (s.setPlane u p v).rig m = s.rig m := (rfl)
@[simp] theorem State.setPlane_seat (s : State) (u p : Nat) (v : Plane) (m : Nat) : (s.setPlane u p v).seat m = s.seat m := (rfl)
@[simp] theorem State.setPlane_switch (s : State) (u p : Nat) (v : Plane) (m : Nat) : (s.setPlane u p v).switch m = s.switch m := (rfl)

@[simp] theorem State.setInPort_regs (s : State) (u p n : Nat) (v : PortSt) : (s.setInPort u p n v).regs = s.regs := (rfl)
@[simp] theorem State.setInPort_sel (s : State) (u p n : Nat) (v : PortSt) : (s.setInPort u p n v).sel = s.sel := (rfl)
@[simp] theorem State.setInPort_mem (s : State) (u p n : Nat) (v : PortSt) : (s.setInPort u p n v).mem = s.mem := (rfl)
@[simp] theorem State.setInPort_memPoison (s : State) (u p n : Nat) (v : PortSt) : (s.setInPort u p n v).memPoison = s.memPoison := (rfl)
@[simp] theorem State.setInPort_memTag (s : State) (u p n : Nat) (v : PortSt) : (s.setInPort u p n v).memTag = s.memTag := (rfl)
@[simp] theorem State.setInPort_ops (s : State) (u p n : Nat) (v : PortSt) : (s.setInPort u p n v).ops = s.ops := (rfl)
@[simp] theorem State.setInPort_planes (s : State) (u p n : Nat) (v : PortSt) : (s.setInPort u p n v).planes = s.planes := (rfl)
@[simp] theorem State.setInPort_units (s : State) (u p n : Nat) (v : PortSt) : (s.setInPort u p n v).units = s.units := (rfl)
@[simp] theorem State.setInPort_outPorts (s : State) (u p n : Nat) (v : PortSt) : (s.setInPort u p n v).outPorts = s.outPorts := (rfl)
@[simp] theorem State.setInPort_switches (s : State) (u p n : Nat) (v : PortSt) : (s.setInPort u p n v).switches = s.switches := (rfl)
@[simp] theorem State.setInPort_tiers (s : State) (u p n : Nat) (v : PortSt) : (s.setInPort u p n v).tiers = s.tiers := (rfl)
@[simp] theorem State.setInPort_streams (s : State) (u p n : Nat) (v : PortSt) : (s.setInPort u p n v).streams = s.streams := (rfl)
@[simp] theorem State.setInPort_twin (s : State) (u p n : Nat) (v : PortSt) : (s.setInPort u p n v).twin = s.twin := (rfl)
@[simp] theorem State.setInPort_rigs (s : State) (u p n : Nat) (v : PortSt) : (s.setInPort u p n v).rigs = s.rigs := (rfl)
@[simp] theorem State.setInPort_waves (s : State) (u p n : Nat) (v : PortSt) : (s.setInPort u p n v).waves = s.waves := (rfl)
@[simp] theorem State.setInPort_ctxs (s : State) (u p n : Nat) (v : PortSt) : (s.setInPort u p n v).ctxs = s.ctxs := (rfl)
@[simp] theorem State.setInPort_vis (s : State) (u p n : Nat) (v : PortSt) : (s.setInPort u p n v).vis = s.vis := (rfl)
@[simp] theorem State.setInPort_rings (s : State) (u p n : Nat) (v : PortSt) : (s.setInPort u p n v).rings = s.rings := (rfl)
@[simp] theorem State.setInPort_entries (s : State) (u p n : Nat) (v : PortSt) : (s.setInPort u p n v).entries = s.entries := (rfl)
@[simp] theorem State.setInPort_wpkg (s : State) (u p n : Nat) (v : PortSt) : (s.setInPort u p n v).wpkg = s.wpkg := (rfl)
@[simp] theorem State.setInPort_step (s : State) (u p n : Nat) (v : PortSt) : (s.setInPort u p n v).step = s.step := (rfl)
@[simp] theorem State.setInPort_sed (s : State) (u p n : Nat) (v : PortSt) : (s.setInPort u p n v).sed = s.sed := (rfl)
@[simp] theorem State.setInPort_seals (s : State) (u p n : Nat) (v : PortSt) : (s.setInPort u p n v).seals = s.seals := (rfl)
@[simp] theorem State.setInPort_scat (s : State) (u p n : Nat) (v : PortSt) : (s.setInPort u p n v).scat = s.scat := (rfl)
@[simp] theorem State.setInPort_fab (s : State) (u p n : Nat) (v : PortSt) : (s.setInPort u p n v).fab = s.fab := (rfl)
@[simp] theorem State.setInPort_coll (s : State) (u p n : Nat) (v : PortSt) : (s.setInPort u p n v).coll = s.coll := (rfl)
@[simp] theorem State.setInPort_reqs (s : State) (u p n : Nat) (v : PortSt) : (s.setInPort u p n v).reqs = s.reqs := (rfl)
@[simp] theorem State.setInPort_slices (s : State) (u p n : Nat) (v : PortSt) : (s.setInPort u p n v).slices = s.slices := (rfl)
@[simp] theorem State.setInPort_err (s : State) (u p n : Nat) (v : PortSt) : (s.setInPort u p n v).err = s.err := (rfl)
@[simp] theorem State.setInPort_snap (s : State) (u p n : Nat) (v : PortSt) : (s.setInPort u p n v).snap = s.snap := (rfl)
@[simp] theorem State.setInPort_log (s : State) (u p n : Nat) (v : PortSt) : (s.setInPort u p n v).log = s.log := (rfl)
@[simp] theorem State.setInPort_pwr (s : State) (u p n : Nat) (v : PortSt) : (s.setInPort u p n v).pwr = s.pwr := (rfl)
@[simp] theorem State.setInPort_seats (s : State) (u p n : Nat) (v : PortSt) : (s.setInPort u p n v).seats = s.seats := (rfl)
@[simp] theorem State.setInPort_board (s : State) (u p n : Nat) (v : PortSt) : (s.setInPort u p n v).board = s.board := (rfl)
@[simp] theorem State.setInPort_out (s : State) (u p n : Nat) (v : PortSt) : (s.setInPort u p n v).out = s.out := (rfl)
@[simp] theorem State.setInPort_now (s : State) (u p n : Nat) (v : PortSt) : (s.setInPort u p n v).now = s.now := (rfl)
@[simp] theorem State.setInPort_fresh (s : State) (u p n : Nat) (v : PortSt) : (s.setInPort u p n v).fresh = s.fresh := (rfl)
@[simp] theorem State.setInPort_pending (s : State) (u p n : Nat) (v : PortSt) : (s.setInPort u p n v).pending = s.pending := (rfl)
@[simp] theorem State.setInPort_regAt (s : State) (u p n : Nat) (v : PortSt) (j : Nat) : (s.setInPort u p n v).regAt j = s.regAt j := (rfl)
@[simp] theorem State.setInPort_getF (s : State) (u p n : Nat) (v : PortSt) (x : Fld) (y : Nat) : (s.setInPort u p n v).getF x y = s.getF x y := (rfl)
@[simp] theorem State.setInPort_flag (s : State) (u p n : Nat) (v : PortSt) (x : Fld) (y : Nat) : (s.setInPort u p n v).flag x y = s.flag x y := (rfl)
@[simp] theorem State.setInPort_byteAt (s : State) (u p n : Nat) (v : PortSt) (x : Nat) : (s.setInPort u p n v).byteAt x = s.byteAt x := (rfl)
@[simp] theorem State.setInPort_poisonAt (s : State) (u p n : Nat) (v : PortSt) (x : Nat) : (s.setInPort u p n v).poisonAt x = s.poisonAt x := (rfl)
@[simp] theorem State.setInPort_vi (s : State) (u p n : Nat) (v : PortSt) (m : Nat) : (s.setInPort u p n v).vi m = s.vi m := (rfl)
@[simp] theorem State.setInPort_ctx (s : State) (u p n : Nat) (v : PortSt) (m : Nat) : (s.setInPort u p n v).ctx m = s.ctx m := (rfl)
@[simp] theorem State.setInPort_ring (s : State) (u p n : Nat) (v : PortSt) (m : Nat) : (s.setInPort u p n v).ring m = s.ring m := (rfl)
@[simp] theorem State.setInPort_entry (s : State) (u p n : Nat) (v : PortSt) (m : Nat) : (s.setInPort u p n v).entry m = s.entry m := (rfl)
@[simp] theorem State.setInPort_req (s : State) (u p n : Nat) (v : PortSt) (m : Nat) : (s.setInPort u p n v).req m = s.req m := (rfl)
@[simp] theorem State.setInPort_unit (s : State) (u p n : Nat) (v : PortSt) (m : Nat) : (s.setInPort u p n v).unit m = s.unit m := (rfl)
@[simp] theorem State.setInPort_plane (s : State) (u p n : Nat) (v : PortSt) (m q : Nat) : (s.setInPort u p n v).plane m q = s.plane m q := (rfl)
@[simp] theorem State.setInPort_outPort (s : State) (u p n : Nat) (v : PortSt) (m q z : Nat) : (s.setInPort u p n v).outPort m q z = s.outPort m q z := (rfl)
@[simp] theorem State.setInPort_opLine (s : State) (u p n : Nat) (v : PortSt) (m z : Nat) : (s.setInPort u p n v).opLine m z = s.opLine m z := (rfl)
@[simp] theorem State.setInPort_rig (s : State) (u p n : Nat) (v : PortSt) (m : Nat) : (s.setInPort u p n v).rig m = s.rig m := (rfl)
@[simp] theorem State.setInPort_seat (s : State) (u p n : Nat) (v : PortSt) (m : Nat) : (s.setInPort u p n v).seat m = s.seat m := (rfl)
@[simp] theorem State.setInPort_switch (s : State) (u p n : Nat) (v : PortSt) (m : Nat) : (s.setInPort u p n v).switch m = s.switch m := (rfl)

@[simp] theorem State.setOutPort_regs (s : State) (u p n : Nat) (v : PortSt) : (s.setOutPort u p n v).regs = s.regs := (rfl)
@[simp] theorem State.setOutPort_sel (s : State) (u p n : Nat) (v : PortSt) : (s.setOutPort u p n v).sel = s.sel := (rfl)
@[simp] theorem State.setOutPort_mem (s : State) (u p n : Nat) (v : PortSt) : (s.setOutPort u p n v).mem = s.mem := (rfl)
@[simp] theorem State.setOutPort_memPoison (s : State) (u p n : Nat) (v : PortSt) : (s.setOutPort u p n v).memPoison = s.memPoison := (rfl)
@[simp] theorem State.setOutPort_memTag (s : State) (u p n : Nat) (v : PortSt) : (s.setOutPort u p n v).memTag = s.memTag := (rfl)
@[simp] theorem State.setOutPort_ops (s : State) (u p n : Nat) (v : PortSt) : (s.setOutPort u p n v).ops = s.ops := (rfl)
@[simp] theorem State.setOutPort_planes (s : State) (u p n : Nat) (v : PortSt) : (s.setOutPort u p n v).planes = s.planes := (rfl)
@[simp] theorem State.setOutPort_units (s : State) (u p n : Nat) (v : PortSt) : (s.setOutPort u p n v).units = s.units := (rfl)
@[simp] theorem State.setOutPort_inPorts (s : State) (u p n : Nat) (v : PortSt) : (s.setOutPort u p n v).inPorts = s.inPorts := (rfl)
@[simp] theorem State.setOutPort_switches (s : State) (u p n : Nat) (v : PortSt) : (s.setOutPort u p n v).switches = s.switches := (rfl)
@[simp] theorem State.setOutPort_tiers (s : State) (u p n : Nat) (v : PortSt) : (s.setOutPort u p n v).tiers = s.tiers := (rfl)
@[simp] theorem State.setOutPort_streams (s : State) (u p n : Nat) (v : PortSt) : (s.setOutPort u p n v).streams = s.streams := (rfl)
@[simp] theorem State.setOutPort_twin (s : State) (u p n : Nat) (v : PortSt) : (s.setOutPort u p n v).twin = s.twin := (rfl)
@[simp] theorem State.setOutPort_rigs (s : State) (u p n : Nat) (v : PortSt) : (s.setOutPort u p n v).rigs = s.rigs := (rfl)
@[simp] theorem State.setOutPort_waves (s : State) (u p n : Nat) (v : PortSt) : (s.setOutPort u p n v).waves = s.waves := (rfl)
@[simp] theorem State.setOutPort_ctxs (s : State) (u p n : Nat) (v : PortSt) : (s.setOutPort u p n v).ctxs = s.ctxs := (rfl)
@[simp] theorem State.setOutPort_vis (s : State) (u p n : Nat) (v : PortSt) : (s.setOutPort u p n v).vis = s.vis := (rfl)
@[simp] theorem State.setOutPort_rings (s : State) (u p n : Nat) (v : PortSt) : (s.setOutPort u p n v).rings = s.rings := (rfl)
@[simp] theorem State.setOutPort_entries (s : State) (u p n : Nat) (v : PortSt) : (s.setOutPort u p n v).entries = s.entries := (rfl)
@[simp] theorem State.setOutPort_wpkg (s : State) (u p n : Nat) (v : PortSt) : (s.setOutPort u p n v).wpkg = s.wpkg := (rfl)
@[simp] theorem State.setOutPort_step (s : State) (u p n : Nat) (v : PortSt) : (s.setOutPort u p n v).step = s.step := (rfl)
@[simp] theorem State.setOutPort_sed (s : State) (u p n : Nat) (v : PortSt) : (s.setOutPort u p n v).sed = s.sed := (rfl)
@[simp] theorem State.setOutPort_seals (s : State) (u p n : Nat) (v : PortSt) : (s.setOutPort u p n v).seals = s.seals := (rfl)
@[simp] theorem State.setOutPort_scat (s : State) (u p n : Nat) (v : PortSt) : (s.setOutPort u p n v).scat = s.scat := (rfl)
@[simp] theorem State.setOutPort_fab (s : State) (u p n : Nat) (v : PortSt) : (s.setOutPort u p n v).fab = s.fab := (rfl)
@[simp] theorem State.setOutPort_coll (s : State) (u p n : Nat) (v : PortSt) : (s.setOutPort u p n v).coll = s.coll := (rfl)
@[simp] theorem State.setOutPort_reqs (s : State) (u p n : Nat) (v : PortSt) : (s.setOutPort u p n v).reqs = s.reqs := (rfl)
@[simp] theorem State.setOutPort_slices (s : State) (u p n : Nat) (v : PortSt) : (s.setOutPort u p n v).slices = s.slices := (rfl)
@[simp] theorem State.setOutPort_err (s : State) (u p n : Nat) (v : PortSt) : (s.setOutPort u p n v).err = s.err := (rfl)
@[simp] theorem State.setOutPort_snap (s : State) (u p n : Nat) (v : PortSt) : (s.setOutPort u p n v).snap = s.snap := (rfl)
@[simp] theorem State.setOutPort_log (s : State) (u p n : Nat) (v : PortSt) : (s.setOutPort u p n v).log = s.log := (rfl)
@[simp] theorem State.setOutPort_pwr (s : State) (u p n : Nat) (v : PortSt) : (s.setOutPort u p n v).pwr = s.pwr := (rfl)
@[simp] theorem State.setOutPort_seats (s : State) (u p n : Nat) (v : PortSt) : (s.setOutPort u p n v).seats = s.seats := (rfl)
@[simp] theorem State.setOutPort_board (s : State) (u p n : Nat) (v : PortSt) : (s.setOutPort u p n v).board = s.board := (rfl)
@[simp] theorem State.setOutPort_out (s : State) (u p n : Nat) (v : PortSt) : (s.setOutPort u p n v).out = s.out := (rfl)
@[simp] theorem State.setOutPort_now (s : State) (u p n : Nat) (v : PortSt) : (s.setOutPort u p n v).now = s.now := (rfl)
@[simp] theorem State.setOutPort_fresh (s : State) (u p n : Nat) (v : PortSt) : (s.setOutPort u p n v).fresh = s.fresh := (rfl)
@[simp] theorem State.setOutPort_pending (s : State) (u p n : Nat) (v : PortSt) : (s.setOutPort u p n v).pending = s.pending := (rfl)
@[simp] theorem State.setOutPort_regAt (s : State) (u p n : Nat) (v : PortSt) (j : Nat) : (s.setOutPort u p n v).regAt j = s.regAt j := (rfl)
@[simp] theorem State.setOutPort_getF (s : State) (u p n : Nat) (v : PortSt) (x : Fld) (y : Nat) : (s.setOutPort u p n v).getF x y = s.getF x y := (rfl)
@[simp] theorem State.setOutPort_flag (s : State) (u p n : Nat) (v : PortSt) (x : Fld) (y : Nat) : (s.setOutPort u p n v).flag x y = s.flag x y := (rfl)
@[simp] theorem State.setOutPort_byteAt (s : State) (u p n : Nat) (v : PortSt) (x : Nat) : (s.setOutPort u p n v).byteAt x = s.byteAt x := (rfl)
@[simp] theorem State.setOutPort_poisonAt (s : State) (u p n : Nat) (v : PortSt) (x : Nat) : (s.setOutPort u p n v).poisonAt x = s.poisonAt x := (rfl)
@[simp] theorem State.setOutPort_vi (s : State) (u p n : Nat) (v : PortSt) (m : Nat) : (s.setOutPort u p n v).vi m = s.vi m := (rfl)
@[simp] theorem State.setOutPort_ctx (s : State) (u p n : Nat) (v : PortSt) (m : Nat) : (s.setOutPort u p n v).ctx m = s.ctx m := (rfl)
@[simp] theorem State.setOutPort_ring (s : State) (u p n : Nat) (v : PortSt) (m : Nat) : (s.setOutPort u p n v).ring m = s.ring m := (rfl)
@[simp] theorem State.setOutPort_entry (s : State) (u p n : Nat) (v : PortSt) (m : Nat) : (s.setOutPort u p n v).entry m = s.entry m := (rfl)
@[simp] theorem State.setOutPort_req (s : State) (u p n : Nat) (v : PortSt) (m : Nat) : (s.setOutPort u p n v).req m = s.req m := (rfl)
@[simp] theorem State.setOutPort_unit (s : State) (u p n : Nat) (v : PortSt) (m : Nat) : (s.setOutPort u p n v).unit m = s.unit m := (rfl)
@[simp] theorem State.setOutPort_plane (s : State) (u p n : Nat) (v : PortSt) (m q : Nat) : (s.setOutPort u p n v).plane m q = s.plane m q := (rfl)
@[simp] theorem State.setOutPort_inPort (s : State) (u p n : Nat) (v : PortSt) (m q z : Nat) : (s.setOutPort u p n v).inPort m q z = s.inPort m q z := (rfl)
@[simp] theorem State.setOutPort_opLine (s : State) (u p n : Nat) (v : PortSt) (m z : Nat) : (s.setOutPort u p n v).opLine m z = s.opLine m z := (rfl)
@[simp] theorem State.setOutPort_rig (s : State) (u p n : Nat) (v : PortSt) (m : Nat) : (s.setOutPort u p n v).rig m = s.rig m := (rfl)
@[simp] theorem State.setOutPort_seat (s : State) (u p n : Nat) (v : PortSt) (m : Nat) : (s.setOutPort u p n v).seat m = s.seat m := (rfl)
@[simp] theorem State.setOutPort_switch (s : State) (u p n : Nat) (v : PortSt) (m : Nat) : (s.setOutPort u p n v).switch m = s.switch m := (rfl)

@[simp] theorem State.setOpLine_regs (s : State) (u l : Nat) (v : OpLine) : (s.setOpLine u l v).regs = s.regs := (rfl)
@[simp] theorem State.setOpLine_sel (s : State) (u l : Nat) (v : OpLine) : (s.setOpLine u l v).sel = s.sel := (rfl)
@[simp] theorem State.setOpLine_mem (s : State) (u l : Nat) (v : OpLine) : (s.setOpLine u l v).mem = s.mem := (rfl)
@[simp] theorem State.setOpLine_memPoison (s : State) (u l : Nat) (v : OpLine) : (s.setOpLine u l v).memPoison = s.memPoison := (rfl)
@[simp] theorem State.setOpLine_memTag (s : State) (u l : Nat) (v : OpLine) : (s.setOpLine u l v).memTag = s.memTag := (rfl)
@[simp] theorem State.setOpLine_planes (s : State) (u l : Nat) (v : OpLine) : (s.setOpLine u l v).planes = s.planes := (rfl)
@[simp] theorem State.setOpLine_units (s : State) (u l : Nat) (v : OpLine) : (s.setOpLine u l v).units = s.units := (rfl)
@[simp] theorem State.setOpLine_inPorts (s : State) (u l : Nat) (v : OpLine) : (s.setOpLine u l v).inPorts = s.inPorts := (rfl)
@[simp] theorem State.setOpLine_outPorts (s : State) (u l : Nat) (v : OpLine) : (s.setOpLine u l v).outPorts = s.outPorts := (rfl)
@[simp] theorem State.setOpLine_switches (s : State) (u l : Nat) (v : OpLine) : (s.setOpLine u l v).switches = s.switches := (rfl)
@[simp] theorem State.setOpLine_tiers (s : State) (u l : Nat) (v : OpLine) : (s.setOpLine u l v).tiers = s.tiers := (rfl)
@[simp] theorem State.setOpLine_streams (s : State) (u l : Nat) (v : OpLine) : (s.setOpLine u l v).streams = s.streams := (rfl)
@[simp] theorem State.setOpLine_twin (s : State) (u l : Nat) (v : OpLine) : (s.setOpLine u l v).twin = s.twin := (rfl)
@[simp] theorem State.setOpLine_rigs (s : State) (u l : Nat) (v : OpLine) : (s.setOpLine u l v).rigs = s.rigs := (rfl)
@[simp] theorem State.setOpLine_waves (s : State) (u l : Nat) (v : OpLine) : (s.setOpLine u l v).waves = s.waves := (rfl)
@[simp] theorem State.setOpLine_ctxs (s : State) (u l : Nat) (v : OpLine) : (s.setOpLine u l v).ctxs = s.ctxs := (rfl)
@[simp] theorem State.setOpLine_vis (s : State) (u l : Nat) (v : OpLine) : (s.setOpLine u l v).vis = s.vis := (rfl)
@[simp] theorem State.setOpLine_rings (s : State) (u l : Nat) (v : OpLine) : (s.setOpLine u l v).rings = s.rings := (rfl)
@[simp] theorem State.setOpLine_entries (s : State) (u l : Nat) (v : OpLine) : (s.setOpLine u l v).entries = s.entries := (rfl)
@[simp] theorem State.setOpLine_wpkg (s : State) (u l : Nat) (v : OpLine) : (s.setOpLine u l v).wpkg = s.wpkg := (rfl)
@[simp] theorem State.setOpLine_step (s : State) (u l : Nat) (v : OpLine) : (s.setOpLine u l v).step = s.step := (rfl)
@[simp] theorem State.setOpLine_sed (s : State) (u l : Nat) (v : OpLine) : (s.setOpLine u l v).sed = s.sed := (rfl)
@[simp] theorem State.setOpLine_seals (s : State) (u l : Nat) (v : OpLine) : (s.setOpLine u l v).seals = s.seals := (rfl)
@[simp] theorem State.setOpLine_scat (s : State) (u l : Nat) (v : OpLine) : (s.setOpLine u l v).scat = s.scat := (rfl)
@[simp] theorem State.setOpLine_fab (s : State) (u l : Nat) (v : OpLine) : (s.setOpLine u l v).fab = s.fab := (rfl)
@[simp] theorem State.setOpLine_coll (s : State) (u l : Nat) (v : OpLine) : (s.setOpLine u l v).coll = s.coll := (rfl)
@[simp] theorem State.setOpLine_reqs (s : State) (u l : Nat) (v : OpLine) : (s.setOpLine u l v).reqs = s.reqs := (rfl)
@[simp] theorem State.setOpLine_slices (s : State) (u l : Nat) (v : OpLine) : (s.setOpLine u l v).slices = s.slices := (rfl)
@[simp] theorem State.setOpLine_err (s : State) (u l : Nat) (v : OpLine) : (s.setOpLine u l v).err = s.err := (rfl)
@[simp] theorem State.setOpLine_snap (s : State) (u l : Nat) (v : OpLine) : (s.setOpLine u l v).snap = s.snap := (rfl)
@[simp] theorem State.setOpLine_log (s : State) (u l : Nat) (v : OpLine) : (s.setOpLine u l v).log = s.log := (rfl)
@[simp] theorem State.setOpLine_pwr (s : State) (u l : Nat) (v : OpLine) : (s.setOpLine u l v).pwr = s.pwr := (rfl)
@[simp] theorem State.setOpLine_seats (s : State) (u l : Nat) (v : OpLine) : (s.setOpLine u l v).seats = s.seats := (rfl)
@[simp] theorem State.setOpLine_board (s : State) (u l : Nat) (v : OpLine) : (s.setOpLine u l v).board = s.board := (rfl)
@[simp] theorem State.setOpLine_out (s : State) (u l : Nat) (v : OpLine) : (s.setOpLine u l v).out = s.out := (rfl)
@[simp] theorem State.setOpLine_now (s : State) (u l : Nat) (v : OpLine) : (s.setOpLine u l v).now = s.now := (rfl)
@[simp] theorem State.setOpLine_fresh (s : State) (u l : Nat) (v : OpLine) : (s.setOpLine u l v).fresh = s.fresh := (rfl)
@[simp] theorem State.setOpLine_pending (s : State) (u l : Nat) (v : OpLine) : (s.setOpLine u l v).pending = s.pending := (rfl)
@[simp] theorem State.setOpLine_regAt (s : State) (u l : Nat) (v : OpLine) (j : Nat) : (s.setOpLine u l v).regAt j = s.regAt j := (rfl)
@[simp] theorem State.setOpLine_getF (s : State) (u l : Nat) (v : OpLine) (x : Fld) (y : Nat) : (s.setOpLine u l v).getF x y = s.getF x y := (rfl)
@[simp] theorem State.setOpLine_flag (s : State) (u l : Nat) (v : OpLine) (x : Fld) (y : Nat) : (s.setOpLine u l v).flag x y = s.flag x y := (rfl)
@[simp] theorem State.setOpLine_byteAt (s : State) (u l : Nat) (v : OpLine) (x : Nat) : (s.setOpLine u l v).byteAt x = s.byteAt x := (rfl)
@[simp] theorem State.setOpLine_poisonAt (s : State) (u l : Nat) (v : OpLine) (x : Nat) : (s.setOpLine u l v).poisonAt x = s.poisonAt x := (rfl)
@[simp] theorem State.setOpLine_vi (s : State) (u l : Nat) (v : OpLine) (m : Nat) : (s.setOpLine u l v).vi m = s.vi m := (rfl)
@[simp] theorem State.setOpLine_ctx (s : State) (u l : Nat) (v : OpLine) (m : Nat) : (s.setOpLine u l v).ctx m = s.ctx m := (rfl)
@[simp] theorem State.setOpLine_ring (s : State) (u l : Nat) (v : OpLine) (m : Nat) : (s.setOpLine u l v).ring m = s.ring m := (rfl)
@[simp] theorem State.setOpLine_entry (s : State) (u l : Nat) (v : OpLine) (m : Nat) : (s.setOpLine u l v).entry m = s.entry m := (rfl)
@[simp] theorem State.setOpLine_req (s : State) (u l : Nat) (v : OpLine) (m : Nat) : (s.setOpLine u l v).req m = s.req m := (rfl)
@[simp] theorem State.setOpLine_unit (s : State) (u l : Nat) (v : OpLine) (m : Nat) : (s.setOpLine u l v).unit m = s.unit m := (rfl)
@[simp] theorem State.setOpLine_plane (s : State) (u l : Nat) (v : OpLine) (m q : Nat) : (s.setOpLine u l v).plane m q = s.plane m q := (rfl)
@[simp] theorem State.setOpLine_inPort (s : State) (u l : Nat) (v : OpLine) (m q z : Nat) : (s.setOpLine u l v).inPort m q z = s.inPort m q z := (rfl)
@[simp] theorem State.setOpLine_outPort (s : State) (u l : Nat) (v : OpLine) (m q z : Nat) : (s.setOpLine u l v).outPort m q z = s.outPort m q z := (rfl)
@[simp] theorem State.setOpLine_rig (s : State) (u l : Nat) (v : OpLine) (m : Nat) : (s.setOpLine u l v).rig m = s.rig m := (rfl)
@[simp] theorem State.setOpLine_seat (s : State) (u l : Nat) (v : OpLine) (m : Nat) : (s.setOpLine u l v).seat m = s.seat m := (rfl)
@[simp] theorem State.setOpLine_switch (s : State) (u l : Nat) (v : OpLine) (m : Nat) : (s.setOpLine u l v).switch m = s.switch m := (rfl)

@[simp] theorem State.setRig_regs (s : State) (r : Nat) (v : RigSt) : (s.setRig r v).regs = s.regs := (rfl)
@[simp] theorem State.setRig_sel (s : State) (r : Nat) (v : RigSt) : (s.setRig r v).sel = s.sel := (rfl)
@[simp] theorem State.setRig_mem (s : State) (r : Nat) (v : RigSt) : (s.setRig r v).mem = s.mem := (rfl)
@[simp] theorem State.setRig_memPoison (s : State) (r : Nat) (v : RigSt) : (s.setRig r v).memPoison = s.memPoison := (rfl)
@[simp] theorem State.setRig_memTag (s : State) (r : Nat) (v : RigSt) : (s.setRig r v).memTag = s.memTag := (rfl)
@[simp] theorem State.setRig_ops (s : State) (r : Nat) (v : RigSt) : (s.setRig r v).ops = s.ops := (rfl)
@[simp] theorem State.setRig_planes (s : State) (r : Nat) (v : RigSt) : (s.setRig r v).planes = s.planes := (rfl)
@[simp] theorem State.setRig_units (s : State) (r : Nat) (v : RigSt) : (s.setRig r v).units = s.units := (rfl)
@[simp] theorem State.setRig_inPorts (s : State) (r : Nat) (v : RigSt) : (s.setRig r v).inPorts = s.inPorts := (rfl)
@[simp] theorem State.setRig_outPorts (s : State) (r : Nat) (v : RigSt) : (s.setRig r v).outPorts = s.outPorts := (rfl)
@[simp] theorem State.setRig_switches (s : State) (r : Nat) (v : RigSt) : (s.setRig r v).switches = s.switches := (rfl)
@[simp] theorem State.setRig_tiers (s : State) (r : Nat) (v : RigSt) : (s.setRig r v).tiers = s.tiers := (rfl)
@[simp] theorem State.setRig_streams (s : State) (r : Nat) (v : RigSt) : (s.setRig r v).streams = s.streams := (rfl)
@[simp] theorem State.setRig_twin (s : State) (r : Nat) (v : RigSt) : (s.setRig r v).twin = s.twin := (rfl)
@[simp] theorem State.setRig_waves (s : State) (r : Nat) (v : RigSt) : (s.setRig r v).waves = s.waves := (rfl)
@[simp] theorem State.setRig_ctxs (s : State) (r : Nat) (v : RigSt) : (s.setRig r v).ctxs = s.ctxs := (rfl)
@[simp] theorem State.setRig_vis (s : State) (r : Nat) (v : RigSt) : (s.setRig r v).vis = s.vis := (rfl)
@[simp] theorem State.setRig_rings (s : State) (r : Nat) (v : RigSt) : (s.setRig r v).rings = s.rings := (rfl)
@[simp] theorem State.setRig_entries (s : State) (r : Nat) (v : RigSt) : (s.setRig r v).entries = s.entries := (rfl)
@[simp] theorem State.setRig_wpkg (s : State) (r : Nat) (v : RigSt) : (s.setRig r v).wpkg = s.wpkg := (rfl)
@[simp] theorem State.setRig_step (s : State) (r : Nat) (v : RigSt) : (s.setRig r v).step = s.step := (rfl)
@[simp] theorem State.setRig_sed (s : State) (r : Nat) (v : RigSt) : (s.setRig r v).sed = s.sed := (rfl)
@[simp] theorem State.setRig_seals (s : State) (r : Nat) (v : RigSt) : (s.setRig r v).seals = s.seals := (rfl)
@[simp] theorem State.setRig_scat (s : State) (r : Nat) (v : RigSt) : (s.setRig r v).scat = s.scat := (rfl)
@[simp] theorem State.setRig_fab (s : State) (r : Nat) (v : RigSt) : (s.setRig r v).fab = s.fab := (rfl)
@[simp] theorem State.setRig_coll (s : State) (r : Nat) (v : RigSt) : (s.setRig r v).coll = s.coll := (rfl)
@[simp] theorem State.setRig_reqs (s : State) (r : Nat) (v : RigSt) : (s.setRig r v).reqs = s.reqs := (rfl)
@[simp] theorem State.setRig_slices (s : State) (r : Nat) (v : RigSt) : (s.setRig r v).slices = s.slices := (rfl)
@[simp] theorem State.setRig_err (s : State) (r : Nat) (v : RigSt) : (s.setRig r v).err = s.err := (rfl)
@[simp] theorem State.setRig_snap (s : State) (r : Nat) (v : RigSt) : (s.setRig r v).snap = s.snap := (rfl)
@[simp] theorem State.setRig_log (s : State) (r : Nat) (v : RigSt) : (s.setRig r v).log = s.log := (rfl)
@[simp] theorem State.setRig_pwr (s : State) (r : Nat) (v : RigSt) : (s.setRig r v).pwr = s.pwr := (rfl)
@[simp] theorem State.setRig_seats (s : State) (r : Nat) (v : RigSt) : (s.setRig r v).seats = s.seats := (rfl)
@[simp] theorem State.setRig_board (s : State) (r : Nat) (v : RigSt) : (s.setRig r v).board = s.board := (rfl)
@[simp] theorem State.setRig_out (s : State) (r : Nat) (v : RigSt) : (s.setRig r v).out = s.out := (rfl)
@[simp] theorem State.setRig_now (s : State) (r : Nat) (v : RigSt) : (s.setRig r v).now = s.now := (rfl)
@[simp] theorem State.setRig_fresh (s : State) (r : Nat) (v : RigSt) : (s.setRig r v).fresh = s.fresh := (rfl)
@[simp] theorem State.setRig_pending (s : State) (r : Nat) (v : RigSt) : (s.setRig r v).pending = s.pending := (rfl)
@[simp] theorem State.setRig_regAt (s : State) (r : Nat) (v : RigSt) (j : Nat) : (s.setRig r v).regAt j = s.regAt j := (rfl)
@[simp] theorem State.setRig_getF (s : State) (r : Nat) (v : RigSt) (x : Fld) (y : Nat) : (s.setRig r v).getF x y = s.getF x y := (rfl)
@[simp] theorem State.setRig_flag (s : State) (r : Nat) (v : RigSt) (x : Fld) (y : Nat) : (s.setRig r v).flag x y = s.flag x y := (rfl)
@[simp] theorem State.setRig_byteAt (s : State) (r : Nat) (v : RigSt) (x : Nat) : (s.setRig r v).byteAt x = s.byteAt x := (rfl)
@[simp] theorem State.setRig_poisonAt (s : State) (r : Nat) (v : RigSt) (x : Nat) : (s.setRig r v).poisonAt x = s.poisonAt x := (rfl)
@[simp] theorem State.setRig_vi (s : State) (r : Nat) (v : RigSt) (m : Nat) : (s.setRig r v).vi m = s.vi m := (rfl)
@[simp] theorem State.setRig_ctx (s : State) (r : Nat) (v : RigSt) (m : Nat) : (s.setRig r v).ctx m = s.ctx m := (rfl)
@[simp] theorem State.setRig_ring (s : State) (r : Nat) (v : RigSt) (m : Nat) : (s.setRig r v).ring m = s.ring m := (rfl)
@[simp] theorem State.setRig_entry (s : State) (r : Nat) (v : RigSt) (m : Nat) : (s.setRig r v).entry m = s.entry m := (rfl)
@[simp] theorem State.setRig_req (s : State) (r : Nat) (v : RigSt) (m : Nat) : (s.setRig r v).req m = s.req m := (rfl)
@[simp] theorem State.setRig_unit (s : State) (r : Nat) (v : RigSt) (m : Nat) : (s.setRig r v).unit m = s.unit m := (rfl)
@[simp] theorem State.setRig_plane (s : State) (r : Nat) (v : RigSt) (m q : Nat) : (s.setRig r v).plane m q = s.plane m q := (rfl)
@[simp] theorem State.setRig_inPort (s : State) (r : Nat) (v : RigSt) (m q z : Nat) : (s.setRig r v).inPort m q z = s.inPort m q z := (rfl)
@[simp] theorem State.setRig_outPort (s : State) (r : Nat) (v : RigSt) (m q z : Nat) : (s.setRig r v).outPort m q z = s.outPort m q z := (rfl)
@[simp] theorem State.setRig_opLine (s : State) (r : Nat) (v : RigSt) (m z : Nat) : (s.setRig r v).opLine m z = s.opLine m z := (rfl)
@[simp] theorem State.setRig_seat (s : State) (r : Nat) (v : RigSt) (m : Nat) : (s.setRig r v).seat m = s.seat m := (rfl)
@[simp] theorem State.setRig_switch (s : State) (r : Nat) (v : RigSt) (m : Nat) : (s.setRig r v).switch m = s.switch m := (rfl)

@[simp] theorem State.setSeat_regs (s : State) (n : Nat) (v : SeatPwr) : (s.setSeat n v).regs = s.regs := (rfl)
@[simp] theorem State.setSeat_sel (s : State) (n : Nat) (v : SeatPwr) : (s.setSeat n v).sel = s.sel := (rfl)
@[simp] theorem State.setSeat_mem (s : State) (n : Nat) (v : SeatPwr) : (s.setSeat n v).mem = s.mem := (rfl)
@[simp] theorem State.setSeat_memPoison (s : State) (n : Nat) (v : SeatPwr) : (s.setSeat n v).memPoison = s.memPoison := (rfl)
@[simp] theorem State.setSeat_memTag (s : State) (n : Nat) (v : SeatPwr) : (s.setSeat n v).memTag = s.memTag := (rfl)
@[simp] theorem State.setSeat_ops (s : State) (n : Nat) (v : SeatPwr) : (s.setSeat n v).ops = s.ops := (rfl)
@[simp] theorem State.setSeat_planes (s : State) (n : Nat) (v : SeatPwr) : (s.setSeat n v).planes = s.planes := (rfl)
@[simp] theorem State.setSeat_units (s : State) (n : Nat) (v : SeatPwr) : (s.setSeat n v).units = s.units := (rfl)
@[simp] theorem State.setSeat_inPorts (s : State) (n : Nat) (v : SeatPwr) : (s.setSeat n v).inPorts = s.inPorts := (rfl)
@[simp] theorem State.setSeat_outPorts (s : State) (n : Nat) (v : SeatPwr) : (s.setSeat n v).outPorts = s.outPorts := (rfl)
@[simp] theorem State.setSeat_switches (s : State) (n : Nat) (v : SeatPwr) : (s.setSeat n v).switches = s.switches := (rfl)
@[simp] theorem State.setSeat_tiers (s : State) (n : Nat) (v : SeatPwr) : (s.setSeat n v).tiers = s.tiers := (rfl)
@[simp] theorem State.setSeat_streams (s : State) (n : Nat) (v : SeatPwr) : (s.setSeat n v).streams = s.streams := (rfl)
@[simp] theorem State.setSeat_twin (s : State) (n : Nat) (v : SeatPwr) : (s.setSeat n v).twin = s.twin := (rfl)
@[simp] theorem State.setSeat_rigs (s : State) (n : Nat) (v : SeatPwr) : (s.setSeat n v).rigs = s.rigs := (rfl)
@[simp] theorem State.setSeat_waves (s : State) (n : Nat) (v : SeatPwr) : (s.setSeat n v).waves = s.waves := (rfl)
@[simp] theorem State.setSeat_ctxs (s : State) (n : Nat) (v : SeatPwr) : (s.setSeat n v).ctxs = s.ctxs := (rfl)
@[simp] theorem State.setSeat_vis (s : State) (n : Nat) (v : SeatPwr) : (s.setSeat n v).vis = s.vis := (rfl)
@[simp] theorem State.setSeat_rings (s : State) (n : Nat) (v : SeatPwr) : (s.setSeat n v).rings = s.rings := (rfl)
@[simp] theorem State.setSeat_entries (s : State) (n : Nat) (v : SeatPwr) : (s.setSeat n v).entries = s.entries := (rfl)
@[simp] theorem State.setSeat_wpkg (s : State) (n : Nat) (v : SeatPwr) : (s.setSeat n v).wpkg = s.wpkg := (rfl)
@[simp] theorem State.setSeat_step (s : State) (n : Nat) (v : SeatPwr) : (s.setSeat n v).step = s.step := (rfl)
@[simp] theorem State.setSeat_sed (s : State) (n : Nat) (v : SeatPwr) : (s.setSeat n v).sed = s.sed := (rfl)
@[simp] theorem State.setSeat_seals (s : State) (n : Nat) (v : SeatPwr) : (s.setSeat n v).seals = s.seals := (rfl)
@[simp] theorem State.setSeat_scat (s : State) (n : Nat) (v : SeatPwr) : (s.setSeat n v).scat = s.scat := (rfl)
@[simp] theorem State.setSeat_fab (s : State) (n : Nat) (v : SeatPwr) : (s.setSeat n v).fab = s.fab := (rfl)
@[simp] theorem State.setSeat_coll (s : State) (n : Nat) (v : SeatPwr) : (s.setSeat n v).coll = s.coll := (rfl)
@[simp] theorem State.setSeat_reqs (s : State) (n : Nat) (v : SeatPwr) : (s.setSeat n v).reqs = s.reqs := (rfl)
@[simp] theorem State.setSeat_slices (s : State) (n : Nat) (v : SeatPwr) : (s.setSeat n v).slices = s.slices := (rfl)
@[simp] theorem State.setSeat_err (s : State) (n : Nat) (v : SeatPwr) : (s.setSeat n v).err = s.err := (rfl)
@[simp] theorem State.setSeat_snap (s : State) (n : Nat) (v : SeatPwr) : (s.setSeat n v).snap = s.snap := (rfl)
@[simp] theorem State.setSeat_log (s : State) (n : Nat) (v : SeatPwr) : (s.setSeat n v).log = s.log := (rfl)
@[simp] theorem State.setSeat_pwr (s : State) (n : Nat) (v : SeatPwr) : (s.setSeat n v).pwr = s.pwr := (rfl)
@[simp] theorem State.setSeat_board (s : State) (n : Nat) (v : SeatPwr) : (s.setSeat n v).board = s.board := (rfl)
@[simp] theorem State.setSeat_out (s : State) (n : Nat) (v : SeatPwr) : (s.setSeat n v).out = s.out := (rfl)
@[simp] theorem State.setSeat_now (s : State) (n : Nat) (v : SeatPwr) : (s.setSeat n v).now = s.now := (rfl)
@[simp] theorem State.setSeat_fresh (s : State) (n : Nat) (v : SeatPwr) : (s.setSeat n v).fresh = s.fresh := (rfl)
@[simp] theorem State.setSeat_pending (s : State) (n : Nat) (v : SeatPwr) : (s.setSeat n v).pending = s.pending := (rfl)
@[simp] theorem State.setSeat_regAt (s : State) (n : Nat) (v : SeatPwr) (j : Nat) : (s.setSeat n v).regAt j = s.regAt j := (rfl)
@[simp] theorem State.setSeat_getF (s : State) (n : Nat) (v : SeatPwr) (x : Fld) (y : Nat) : (s.setSeat n v).getF x y = s.getF x y := (rfl)
@[simp] theorem State.setSeat_flag (s : State) (n : Nat) (v : SeatPwr) (x : Fld) (y : Nat) : (s.setSeat n v).flag x y = s.flag x y := (rfl)
@[simp] theorem State.setSeat_byteAt (s : State) (n : Nat) (v : SeatPwr) (x : Nat) : (s.setSeat n v).byteAt x = s.byteAt x := (rfl)
@[simp] theorem State.setSeat_poisonAt (s : State) (n : Nat) (v : SeatPwr) (x : Nat) : (s.setSeat n v).poisonAt x = s.poisonAt x := (rfl)
@[simp] theorem State.setSeat_vi (s : State) (n : Nat) (v : SeatPwr) (m : Nat) : (s.setSeat n v).vi m = s.vi m := (rfl)
@[simp] theorem State.setSeat_ctx (s : State) (n : Nat) (v : SeatPwr) (m : Nat) : (s.setSeat n v).ctx m = s.ctx m := (rfl)
@[simp] theorem State.setSeat_ring (s : State) (n : Nat) (v : SeatPwr) (m : Nat) : (s.setSeat n v).ring m = s.ring m := (rfl)
@[simp] theorem State.setSeat_entry (s : State) (n : Nat) (v : SeatPwr) (m : Nat) : (s.setSeat n v).entry m = s.entry m := (rfl)
@[simp] theorem State.setSeat_req (s : State) (n : Nat) (v : SeatPwr) (m : Nat) : (s.setSeat n v).req m = s.req m := (rfl)
@[simp] theorem State.setSeat_unit (s : State) (n : Nat) (v : SeatPwr) (m : Nat) : (s.setSeat n v).unit m = s.unit m := (rfl)
@[simp] theorem State.setSeat_plane (s : State) (n : Nat) (v : SeatPwr) (m q : Nat) : (s.setSeat n v).plane m q = s.plane m q := (rfl)
@[simp] theorem State.setSeat_inPort (s : State) (n : Nat) (v : SeatPwr) (m q z : Nat) : (s.setSeat n v).inPort m q z = s.inPort m q z := (rfl)
@[simp] theorem State.setSeat_outPort (s : State) (n : Nat) (v : SeatPwr) (m q z : Nat) : (s.setSeat n v).outPort m q z = s.outPort m q z := (rfl)
@[simp] theorem State.setSeat_opLine (s : State) (n : Nat) (v : SeatPwr) (m z : Nat) : (s.setSeat n v).opLine m z = s.opLine m z := (rfl)
@[simp] theorem State.setSeat_rig (s : State) (n : Nat) (v : SeatPwr) (m : Nat) : (s.setSeat n v).rig m = s.rig m := (rfl)
@[simp] theorem State.setSeat_switch (s : State) (n : Nat) (v : SeatPwr) (m : Nat) : (s.setSeat n v).switch m = s.switch m := (rfl)

@[simp] theorem State.setSwitch_regs (s : State) (k : Nat) (v : SwitchSt) : (s.setSwitch k v).regs = s.regs := (rfl)
@[simp] theorem State.setSwitch_sel (s : State) (k : Nat) (v : SwitchSt) : (s.setSwitch k v).sel = s.sel := (rfl)
@[simp] theorem State.setSwitch_mem (s : State) (k : Nat) (v : SwitchSt) : (s.setSwitch k v).mem = s.mem := (rfl)
@[simp] theorem State.setSwitch_memPoison (s : State) (k : Nat) (v : SwitchSt) : (s.setSwitch k v).memPoison = s.memPoison := (rfl)
@[simp] theorem State.setSwitch_memTag (s : State) (k : Nat) (v : SwitchSt) : (s.setSwitch k v).memTag = s.memTag := (rfl)
@[simp] theorem State.setSwitch_ops (s : State) (k : Nat) (v : SwitchSt) : (s.setSwitch k v).ops = s.ops := (rfl)
@[simp] theorem State.setSwitch_planes (s : State) (k : Nat) (v : SwitchSt) : (s.setSwitch k v).planes = s.planes := (rfl)
@[simp] theorem State.setSwitch_units (s : State) (k : Nat) (v : SwitchSt) : (s.setSwitch k v).units = s.units := (rfl)
@[simp] theorem State.setSwitch_inPorts (s : State) (k : Nat) (v : SwitchSt) : (s.setSwitch k v).inPorts = s.inPorts := (rfl)
@[simp] theorem State.setSwitch_outPorts (s : State) (k : Nat) (v : SwitchSt) : (s.setSwitch k v).outPorts = s.outPorts := (rfl)
@[simp] theorem State.setSwitch_tiers (s : State) (k : Nat) (v : SwitchSt) : (s.setSwitch k v).tiers = s.tiers := (rfl)
@[simp] theorem State.setSwitch_streams (s : State) (k : Nat) (v : SwitchSt) : (s.setSwitch k v).streams = s.streams := (rfl)
@[simp] theorem State.setSwitch_twin (s : State) (k : Nat) (v : SwitchSt) : (s.setSwitch k v).twin = s.twin := (rfl)
@[simp] theorem State.setSwitch_rigs (s : State) (k : Nat) (v : SwitchSt) : (s.setSwitch k v).rigs = s.rigs := (rfl)
@[simp] theorem State.setSwitch_waves (s : State) (k : Nat) (v : SwitchSt) : (s.setSwitch k v).waves = s.waves := (rfl)
@[simp] theorem State.setSwitch_ctxs (s : State) (k : Nat) (v : SwitchSt) : (s.setSwitch k v).ctxs = s.ctxs := (rfl)
@[simp] theorem State.setSwitch_vis (s : State) (k : Nat) (v : SwitchSt) : (s.setSwitch k v).vis = s.vis := (rfl)
@[simp] theorem State.setSwitch_rings (s : State) (k : Nat) (v : SwitchSt) : (s.setSwitch k v).rings = s.rings := (rfl)
@[simp] theorem State.setSwitch_entries (s : State) (k : Nat) (v : SwitchSt) : (s.setSwitch k v).entries = s.entries := (rfl)
@[simp] theorem State.setSwitch_wpkg (s : State) (k : Nat) (v : SwitchSt) : (s.setSwitch k v).wpkg = s.wpkg := (rfl)
@[simp] theorem State.setSwitch_step (s : State) (k : Nat) (v : SwitchSt) : (s.setSwitch k v).step = s.step := (rfl)
@[simp] theorem State.setSwitch_sed (s : State) (k : Nat) (v : SwitchSt) : (s.setSwitch k v).sed = s.sed := (rfl)
@[simp] theorem State.setSwitch_seals (s : State) (k : Nat) (v : SwitchSt) : (s.setSwitch k v).seals = s.seals := (rfl)
@[simp] theorem State.setSwitch_scat (s : State) (k : Nat) (v : SwitchSt) : (s.setSwitch k v).scat = s.scat := (rfl)
@[simp] theorem State.setSwitch_fab (s : State) (k : Nat) (v : SwitchSt) : (s.setSwitch k v).fab = s.fab := (rfl)
@[simp] theorem State.setSwitch_coll (s : State) (k : Nat) (v : SwitchSt) : (s.setSwitch k v).coll = s.coll := (rfl)
@[simp] theorem State.setSwitch_reqs (s : State) (k : Nat) (v : SwitchSt) : (s.setSwitch k v).reqs = s.reqs := (rfl)
@[simp] theorem State.setSwitch_slices (s : State) (k : Nat) (v : SwitchSt) : (s.setSwitch k v).slices = s.slices := (rfl)
@[simp] theorem State.setSwitch_err (s : State) (k : Nat) (v : SwitchSt) : (s.setSwitch k v).err = s.err := (rfl)
@[simp] theorem State.setSwitch_snap (s : State) (k : Nat) (v : SwitchSt) : (s.setSwitch k v).snap = s.snap := (rfl)
@[simp] theorem State.setSwitch_log (s : State) (k : Nat) (v : SwitchSt) : (s.setSwitch k v).log = s.log := (rfl)
@[simp] theorem State.setSwitch_pwr (s : State) (k : Nat) (v : SwitchSt) : (s.setSwitch k v).pwr = s.pwr := (rfl)
@[simp] theorem State.setSwitch_seats (s : State) (k : Nat) (v : SwitchSt) : (s.setSwitch k v).seats = s.seats := (rfl)
@[simp] theorem State.setSwitch_board (s : State) (k : Nat) (v : SwitchSt) : (s.setSwitch k v).board = s.board := (rfl)
@[simp] theorem State.setSwitch_out (s : State) (k : Nat) (v : SwitchSt) : (s.setSwitch k v).out = s.out := (rfl)
@[simp] theorem State.setSwitch_now (s : State) (k : Nat) (v : SwitchSt) : (s.setSwitch k v).now = s.now := (rfl)
@[simp] theorem State.setSwitch_fresh (s : State) (k : Nat) (v : SwitchSt) : (s.setSwitch k v).fresh = s.fresh := (rfl)
@[simp] theorem State.setSwitch_pending (s : State) (k : Nat) (v : SwitchSt) : (s.setSwitch k v).pending = s.pending := (rfl)
@[simp] theorem State.setSwitch_regAt (s : State) (k : Nat) (v : SwitchSt) (j : Nat) : (s.setSwitch k v).regAt j = s.regAt j := (rfl)
@[simp] theorem State.setSwitch_getF (s : State) (k : Nat) (v : SwitchSt) (x : Fld) (y : Nat) : (s.setSwitch k v).getF x y = s.getF x y := (rfl)
@[simp] theorem State.setSwitch_flag (s : State) (k : Nat) (v : SwitchSt) (x : Fld) (y : Nat) : (s.setSwitch k v).flag x y = s.flag x y := (rfl)
@[simp] theorem State.setSwitch_byteAt (s : State) (k : Nat) (v : SwitchSt) (x : Nat) : (s.setSwitch k v).byteAt x = s.byteAt x := (rfl)
@[simp] theorem State.setSwitch_poisonAt (s : State) (k : Nat) (v : SwitchSt) (x : Nat) : (s.setSwitch k v).poisonAt x = s.poisonAt x := (rfl)
@[simp] theorem State.setSwitch_vi (s : State) (k : Nat) (v : SwitchSt) (m : Nat) : (s.setSwitch k v).vi m = s.vi m := (rfl)
@[simp] theorem State.setSwitch_ctx (s : State) (k : Nat) (v : SwitchSt) (m : Nat) : (s.setSwitch k v).ctx m = s.ctx m := (rfl)
@[simp] theorem State.setSwitch_ring (s : State) (k : Nat) (v : SwitchSt) (m : Nat) : (s.setSwitch k v).ring m = s.ring m := (rfl)
@[simp] theorem State.setSwitch_entry (s : State) (k : Nat) (v : SwitchSt) (m : Nat) : (s.setSwitch k v).entry m = s.entry m := (rfl)
@[simp] theorem State.setSwitch_req (s : State) (k : Nat) (v : SwitchSt) (m : Nat) : (s.setSwitch k v).req m = s.req m := (rfl)
@[simp] theorem State.setSwitch_unit (s : State) (k : Nat) (v : SwitchSt) (m : Nat) : (s.setSwitch k v).unit m = s.unit m := (rfl)
@[simp] theorem State.setSwitch_plane (s : State) (k : Nat) (v : SwitchSt) (m q : Nat) : (s.setSwitch k v).plane m q = s.plane m q := (rfl)
@[simp] theorem State.setSwitch_inPort (s : State) (k : Nat) (v : SwitchSt) (m q z : Nat) : (s.setSwitch k v).inPort m q z = s.inPort m q z := (rfl)
@[simp] theorem State.setSwitch_outPort (s : State) (k : Nat) (v : SwitchSt) (m q z : Nat) : (s.setSwitch k v).outPort m q z = s.outPort m q z := (rfl)
@[simp] theorem State.setSwitch_opLine (s : State) (k : Nat) (v : SwitchSt) (m z : Nat) : (s.setSwitch k v).opLine m z = s.opLine m z := (rfl)
@[simp] theorem State.setSwitch_rig (s : State) (k : Nat) (v : SwitchSt) (m : Nat) : (s.setSwitch k v).rig m = s.rig m := (rfl)
@[simp] theorem State.setSwitch_seat (s : State) (k : Nat) (v : SwitchSt) (m : Nat) : (s.setSwitch k v).seat m = s.seat m := (rfl)

@[simp] theorem State.putLine_regs (s : State) (a : Nat) (l : Line) (b : Bool) : (s.putLine a l b).regs = s.regs := (rfl)
@[simp] theorem State.putLine_sel (s : State) (a : Nat) (l : Line) (b : Bool) : (s.putLine a l b).sel = s.sel := (rfl)
@[simp] theorem State.putLine_memTag (s : State) (a : Nat) (l : Line) (b : Bool) : (s.putLine a l b).memTag = s.memTag := (rfl)
@[simp] theorem State.putLine_ops (s : State) (a : Nat) (l : Line) (b : Bool) : (s.putLine a l b).ops = s.ops := (rfl)
@[simp] theorem State.putLine_planes (s : State) (a : Nat) (l : Line) (b : Bool) : (s.putLine a l b).planes = s.planes := (rfl)
@[simp] theorem State.putLine_units (s : State) (a : Nat) (l : Line) (b : Bool) : (s.putLine a l b).units = s.units := (rfl)
@[simp] theorem State.putLine_inPorts (s : State) (a : Nat) (l : Line) (b : Bool) : (s.putLine a l b).inPorts = s.inPorts := (rfl)
@[simp] theorem State.putLine_outPorts (s : State) (a : Nat) (l : Line) (b : Bool) : (s.putLine a l b).outPorts = s.outPorts := (rfl)
@[simp] theorem State.putLine_switches (s : State) (a : Nat) (l : Line) (b : Bool) : (s.putLine a l b).switches = s.switches := (rfl)
@[simp] theorem State.putLine_tiers (s : State) (a : Nat) (l : Line) (b : Bool) : (s.putLine a l b).tiers = s.tiers := (rfl)
@[simp] theorem State.putLine_streams (s : State) (a : Nat) (l : Line) (b : Bool) : (s.putLine a l b).streams = s.streams := (rfl)
@[simp] theorem State.putLine_twin (s : State) (a : Nat) (l : Line) (b : Bool) : (s.putLine a l b).twin = s.twin := (rfl)
@[simp] theorem State.putLine_rigs (s : State) (a : Nat) (l : Line) (b : Bool) : (s.putLine a l b).rigs = s.rigs := (rfl)
@[simp] theorem State.putLine_waves (s : State) (a : Nat) (l : Line) (b : Bool) : (s.putLine a l b).waves = s.waves := (rfl)
@[simp] theorem State.putLine_ctxs (s : State) (a : Nat) (l : Line) (b : Bool) : (s.putLine a l b).ctxs = s.ctxs := (rfl)
@[simp] theorem State.putLine_vis (s : State) (a : Nat) (l : Line) (b : Bool) : (s.putLine a l b).vis = s.vis := (rfl)
@[simp] theorem State.putLine_rings (s : State) (a : Nat) (l : Line) (b : Bool) : (s.putLine a l b).rings = s.rings := (rfl)
@[simp] theorem State.putLine_entries (s : State) (a : Nat) (l : Line) (b : Bool) : (s.putLine a l b).entries = s.entries := (rfl)
@[simp] theorem State.putLine_wpkg (s : State) (a : Nat) (l : Line) (b : Bool) : (s.putLine a l b).wpkg = s.wpkg := (rfl)
@[simp] theorem State.putLine_step (s : State) (a : Nat) (l : Line) (b : Bool) : (s.putLine a l b).step = s.step := (rfl)
@[simp] theorem State.putLine_sed (s : State) (a : Nat) (l : Line) (b : Bool) : (s.putLine a l b).sed = s.sed := (rfl)
@[simp] theorem State.putLine_seals (s : State) (a : Nat) (l : Line) (b : Bool) : (s.putLine a l b).seals = s.seals := (rfl)
@[simp] theorem State.putLine_scat (s : State) (a : Nat) (l : Line) (b : Bool) : (s.putLine a l b).scat = s.scat := (rfl)
@[simp] theorem State.putLine_fab (s : State) (a : Nat) (l : Line) (b : Bool) : (s.putLine a l b).fab = s.fab := (rfl)
@[simp] theorem State.putLine_coll (s : State) (a : Nat) (l : Line) (b : Bool) : (s.putLine a l b).coll = s.coll := (rfl)
@[simp] theorem State.putLine_reqs (s : State) (a : Nat) (l : Line) (b : Bool) : (s.putLine a l b).reqs = s.reqs := (rfl)
@[simp] theorem State.putLine_slices (s : State) (a : Nat) (l : Line) (b : Bool) : (s.putLine a l b).slices = s.slices := (rfl)
@[simp] theorem State.putLine_err (s : State) (a : Nat) (l : Line) (b : Bool) : (s.putLine a l b).err = s.err := (rfl)
@[simp] theorem State.putLine_snap (s : State) (a : Nat) (l : Line) (b : Bool) : (s.putLine a l b).snap = s.snap := (rfl)
@[simp] theorem State.putLine_log (s : State) (a : Nat) (l : Line) (b : Bool) : (s.putLine a l b).log = s.log := (rfl)
@[simp] theorem State.putLine_pwr (s : State) (a : Nat) (l : Line) (b : Bool) : (s.putLine a l b).pwr = s.pwr := (rfl)
@[simp] theorem State.putLine_seats (s : State) (a : Nat) (l : Line) (b : Bool) : (s.putLine a l b).seats = s.seats := (rfl)
@[simp] theorem State.putLine_board (s : State) (a : Nat) (l : Line) (b : Bool) : (s.putLine a l b).board = s.board := (rfl)
@[simp] theorem State.putLine_out (s : State) (a : Nat) (l : Line) (b : Bool) : (s.putLine a l b).out = s.out := (rfl)
@[simp] theorem State.putLine_now (s : State) (a : Nat) (l : Line) (b : Bool) : (s.putLine a l b).now = s.now := (rfl)
@[simp] theorem State.putLine_fresh (s : State) (a : Nat) (l : Line) (b : Bool) : (s.putLine a l b).fresh = s.fresh := (rfl)
@[simp] theorem State.putLine_pending (s : State) (a : Nat) (l : Line) (b : Bool) : (s.putLine a l b).pending = s.pending := (rfl)
@[simp] theorem State.putLine_regAt (s : State) (a : Nat) (l : Line) (b : Bool) (j : Nat) : (s.putLine a l b).regAt j = s.regAt j := (rfl)
@[simp] theorem State.putLine_getF (s : State) (a : Nat) (l : Line) (b : Bool) (x : Fld) (y : Nat) : (s.putLine a l b).getF x y = s.getF x y := (rfl)
@[simp] theorem State.putLine_flag (s : State) (a : Nat) (l : Line) (b : Bool) (x : Fld) (y : Nat) : (s.putLine a l b).flag x y = s.flag x y := (rfl)
@[simp] theorem State.putLine_vi (s : State) (a : Nat) (l : Line) (b : Bool) (m : Nat) : (s.putLine a l b).vi m = s.vi m := (rfl)
@[simp] theorem State.putLine_ctx (s : State) (a : Nat) (l : Line) (b : Bool) (m : Nat) : (s.putLine a l b).ctx m = s.ctx m := (rfl)
@[simp] theorem State.putLine_ring (s : State) (a : Nat) (l : Line) (b : Bool) (m : Nat) : (s.putLine a l b).ring m = s.ring m := (rfl)
@[simp] theorem State.putLine_entry (s : State) (a : Nat) (l : Line) (b : Bool) (m : Nat) : (s.putLine a l b).entry m = s.entry m := (rfl)
@[simp] theorem State.putLine_req (s : State) (a : Nat) (l : Line) (b : Bool) (m : Nat) : (s.putLine a l b).req m = s.req m := (rfl)
@[simp] theorem State.putLine_unit (s : State) (a : Nat) (l : Line) (b : Bool) (m : Nat) : (s.putLine a l b).unit m = s.unit m := (rfl)
@[simp] theorem State.putLine_plane (s : State) (a : Nat) (l : Line) (b : Bool) (m q : Nat) : (s.putLine a l b).plane m q = s.plane m q := (rfl)
@[simp] theorem State.putLine_inPort (s : State) (a : Nat) (l : Line) (b : Bool) (m q z : Nat) : (s.putLine a l b).inPort m q z = s.inPort m q z := (rfl)
@[simp] theorem State.putLine_outPort (s : State) (a : Nat) (l : Line) (b : Bool) (m q z : Nat) : (s.putLine a l b).outPort m q z = s.outPort m q z := (rfl)
@[simp] theorem State.putLine_opLine (s : State) (a : Nat) (l : Line) (b : Bool) (m z : Nat) : (s.putLine a l b).opLine m z = s.opLine m z := (rfl)
@[simp] theorem State.putLine_rig (s : State) (a : Nat) (l : Line) (b : Bool) (m : Nat) : (s.putLine a l b).rig m = s.rig m := (rfl)
@[simp] theorem State.putLine_seat (s : State) (a : Nat) (l : Line) (b : Bool) (m : Nat) : (s.putLine a l b).seat m = s.seat m := (rfl)
@[simp] theorem State.putLine_switch (s : State) (a : Nat) (l : Line) (b : Bool) (m : Nat) : (s.putLine a l b).switch m = s.switch m := (rfl)

@[simp] theorem State.putPart_regs (s : State) (a : Nat) (bs : List Byte) : (s.putPart a bs).regs = s.regs := (rfl)
@[simp] theorem State.putPart_sel (s : State) (a : Nat) (bs : List Byte) : (s.putPart a bs).sel = s.sel := (rfl)
@[simp] theorem State.putPart_memPoison (s : State) (a : Nat) (bs : List Byte) : (s.putPart a bs).memPoison = s.memPoison := (rfl)
@[simp] theorem State.putPart_memTag (s : State) (a : Nat) (bs : List Byte) : (s.putPart a bs).memTag = s.memTag := (rfl)
@[simp] theorem State.putPart_ops (s : State) (a : Nat) (bs : List Byte) : (s.putPart a bs).ops = s.ops := (rfl)
@[simp] theorem State.putPart_planes (s : State) (a : Nat) (bs : List Byte) : (s.putPart a bs).planes = s.planes := (rfl)
@[simp] theorem State.putPart_units (s : State) (a : Nat) (bs : List Byte) : (s.putPart a bs).units = s.units := (rfl)
@[simp] theorem State.putPart_inPorts (s : State) (a : Nat) (bs : List Byte) : (s.putPart a bs).inPorts = s.inPorts := (rfl)
@[simp] theorem State.putPart_outPorts (s : State) (a : Nat) (bs : List Byte) : (s.putPart a bs).outPorts = s.outPorts := (rfl)
@[simp] theorem State.putPart_switches (s : State) (a : Nat) (bs : List Byte) : (s.putPart a bs).switches = s.switches := (rfl)
@[simp] theorem State.putPart_tiers (s : State) (a : Nat) (bs : List Byte) : (s.putPart a bs).tiers = s.tiers := (rfl)
@[simp] theorem State.putPart_streams (s : State) (a : Nat) (bs : List Byte) : (s.putPart a bs).streams = s.streams := (rfl)
@[simp] theorem State.putPart_twin (s : State) (a : Nat) (bs : List Byte) : (s.putPart a bs).twin = s.twin := (rfl)
@[simp] theorem State.putPart_rigs (s : State) (a : Nat) (bs : List Byte) : (s.putPart a bs).rigs = s.rigs := (rfl)
@[simp] theorem State.putPart_waves (s : State) (a : Nat) (bs : List Byte) : (s.putPart a bs).waves = s.waves := (rfl)
@[simp] theorem State.putPart_ctxs (s : State) (a : Nat) (bs : List Byte) : (s.putPart a bs).ctxs = s.ctxs := (rfl)
@[simp] theorem State.putPart_vis (s : State) (a : Nat) (bs : List Byte) : (s.putPart a bs).vis = s.vis := (rfl)
@[simp] theorem State.putPart_rings (s : State) (a : Nat) (bs : List Byte) : (s.putPart a bs).rings = s.rings := (rfl)
@[simp] theorem State.putPart_entries (s : State) (a : Nat) (bs : List Byte) : (s.putPart a bs).entries = s.entries := (rfl)
@[simp] theorem State.putPart_wpkg (s : State) (a : Nat) (bs : List Byte) : (s.putPart a bs).wpkg = s.wpkg := (rfl)
@[simp] theorem State.putPart_step (s : State) (a : Nat) (bs : List Byte) : (s.putPart a bs).step = s.step := (rfl)
@[simp] theorem State.putPart_sed (s : State) (a : Nat) (bs : List Byte) : (s.putPart a bs).sed = s.sed := (rfl)
@[simp] theorem State.putPart_seals (s : State) (a : Nat) (bs : List Byte) : (s.putPart a bs).seals = s.seals := (rfl)
@[simp] theorem State.putPart_scat (s : State) (a : Nat) (bs : List Byte) : (s.putPart a bs).scat = s.scat := (rfl)
@[simp] theorem State.putPart_fab (s : State) (a : Nat) (bs : List Byte) : (s.putPart a bs).fab = s.fab := (rfl)
@[simp] theorem State.putPart_coll (s : State) (a : Nat) (bs : List Byte) : (s.putPart a bs).coll = s.coll := (rfl)
@[simp] theorem State.putPart_reqs (s : State) (a : Nat) (bs : List Byte) : (s.putPart a bs).reqs = s.reqs := (rfl)
@[simp] theorem State.putPart_slices (s : State) (a : Nat) (bs : List Byte) : (s.putPart a bs).slices = s.slices := (rfl)
@[simp] theorem State.putPart_err (s : State) (a : Nat) (bs : List Byte) : (s.putPart a bs).err = s.err := (rfl)
@[simp] theorem State.putPart_snap (s : State) (a : Nat) (bs : List Byte) : (s.putPart a bs).snap = s.snap := (rfl)
@[simp] theorem State.putPart_log (s : State) (a : Nat) (bs : List Byte) : (s.putPart a bs).log = s.log := (rfl)
@[simp] theorem State.putPart_pwr (s : State) (a : Nat) (bs : List Byte) : (s.putPart a bs).pwr = s.pwr := (rfl)
@[simp] theorem State.putPart_seats (s : State) (a : Nat) (bs : List Byte) : (s.putPart a bs).seats = s.seats := (rfl)
@[simp] theorem State.putPart_board (s : State) (a : Nat) (bs : List Byte) : (s.putPart a bs).board = s.board := (rfl)
@[simp] theorem State.putPart_out (s : State) (a : Nat) (bs : List Byte) : (s.putPart a bs).out = s.out := (rfl)
@[simp] theorem State.putPart_now (s : State) (a : Nat) (bs : List Byte) : (s.putPart a bs).now = s.now := (rfl)
@[simp] theorem State.putPart_fresh (s : State) (a : Nat) (bs : List Byte) : (s.putPart a bs).fresh = s.fresh := (rfl)
@[simp] theorem State.putPart_pending (s : State) (a : Nat) (bs : List Byte) : (s.putPart a bs).pending = s.pending := (rfl)
@[simp] theorem State.putPart_regAt (s : State) (a : Nat) (bs : List Byte) (j : Nat) : (s.putPart a bs).regAt j = s.regAt j := (rfl)
@[simp] theorem State.putPart_getF (s : State) (a : Nat) (bs : List Byte) (x : Fld) (y : Nat) : (s.putPart a bs).getF x y = s.getF x y := (rfl)
@[simp] theorem State.putPart_flag (s : State) (a : Nat) (bs : List Byte) (x : Fld) (y : Nat) : (s.putPart a bs).flag x y = s.flag x y := (rfl)
@[simp] theorem State.putPart_poisonAt (s : State) (a : Nat) (bs : List Byte) (x : Nat) : (s.putPart a bs).poisonAt x = s.poisonAt x := (rfl)
@[simp] theorem State.putPart_vi (s : State) (a : Nat) (bs : List Byte) (m : Nat) : (s.putPart a bs).vi m = s.vi m := (rfl)
@[simp] theorem State.putPart_ctx (s : State) (a : Nat) (bs : List Byte) (m : Nat) : (s.putPart a bs).ctx m = s.ctx m := (rfl)
@[simp] theorem State.putPart_ring (s : State) (a : Nat) (bs : List Byte) (m : Nat) : (s.putPart a bs).ring m = s.ring m := (rfl)
@[simp] theorem State.putPart_entry (s : State) (a : Nat) (bs : List Byte) (m : Nat) : (s.putPart a bs).entry m = s.entry m := (rfl)
@[simp] theorem State.putPart_req (s : State) (a : Nat) (bs : List Byte) (m : Nat) : (s.putPart a bs).req m = s.req m := (rfl)
@[simp] theorem State.putPart_unit (s : State) (a : Nat) (bs : List Byte) (m : Nat) : (s.putPart a bs).unit m = s.unit m := (rfl)
@[simp] theorem State.putPart_plane (s : State) (a : Nat) (bs : List Byte) (m q : Nat) : (s.putPart a bs).plane m q = s.plane m q := (rfl)
@[simp] theorem State.putPart_inPort (s : State) (a : Nat) (bs : List Byte) (m q z : Nat) : (s.putPart a bs).inPort m q z = s.inPort m q z := (rfl)
@[simp] theorem State.putPart_outPort (s : State) (a : Nat) (bs : List Byte) (m q z : Nat) : (s.putPart a bs).outPort m q z = s.outPort m q z := (rfl)
@[simp] theorem State.putPart_opLine (s : State) (a : Nat) (bs : List Byte) (m z : Nat) : (s.putPart a bs).opLine m z = s.opLine m z := (rfl)
@[simp] theorem State.putPart_rig (s : State) (a : Nat) (bs : List Byte) (m : Nat) : (s.putPart a bs).rig m = s.rig m := (rfl)
@[simp] theorem State.putPart_seat (s : State) (a : Nat) (bs : List Byte) (m : Nat) : (s.putPart a bs).seat m = s.seat m := (rfl)
@[simp] theorem State.putPart_switch (s : State) (a : Nat) (bs : List Byte) (m : Nat) : (s.putPart a bs).switch m = s.switch m := (rfl)

@[simp] theorem State.putTagged_regs (s : State) (a : Nat) (l : Line) (b : Bool) (g : Nat) : (s.putTagged a l b g).regs = s.regs := (rfl)
@[simp] theorem State.putTagged_sel (s : State) (a : Nat) (l : Line) (b : Bool) (g : Nat) : (s.putTagged a l b g).sel = s.sel := (rfl)
@[simp] theorem State.putTagged_ops (s : State) (a : Nat) (l : Line) (b : Bool) (g : Nat) : (s.putTagged a l b g).ops = s.ops := (rfl)
@[simp] theorem State.putTagged_planes (s : State) (a : Nat) (l : Line) (b : Bool) (g : Nat) : (s.putTagged a l b g).planes = s.planes := (rfl)
@[simp] theorem State.putTagged_units (s : State) (a : Nat) (l : Line) (b : Bool) (g : Nat) : (s.putTagged a l b g).units = s.units := (rfl)
@[simp] theorem State.putTagged_inPorts (s : State) (a : Nat) (l : Line) (b : Bool) (g : Nat) : (s.putTagged a l b g).inPorts = s.inPorts := (rfl)
@[simp] theorem State.putTagged_outPorts (s : State) (a : Nat) (l : Line) (b : Bool) (g : Nat) : (s.putTagged a l b g).outPorts = s.outPorts := (rfl)
@[simp] theorem State.putTagged_switches (s : State) (a : Nat) (l : Line) (b : Bool) (g : Nat) : (s.putTagged a l b g).switches = s.switches := (rfl)
@[simp] theorem State.putTagged_tiers (s : State) (a : Nat) (l : Line) (b : Bool) (g : Nat) : (s.putTagged a l b g).tiers = s.tiers := (rfl)
@[simp] theorem State.putTagged_streams (s : State) (a : Nat) (l : Line) (b : Bool) (g : Nat) : (s.putTagged a l b g).streams = s.streams := (rfl)
@[simp] theorem State.putTagged_twin (s : State) (a : Nat) (l : Line) (b : Bool) (g : Nat) : (s.putTagged a l b g).twin = s.twin := (rfl)
@[simp] theorem State.putTagged_rigs (s : State) (a : Nat) (l : Line) (b : Bool) (g : Nat) : (s.putTagged a l b g).rigs = s.rigs := (rfl)
@[simp] theorem State.putTagged_waves (s : State) (a : Nat) (l : Line) (b : Bool) (g : Nat) : (s.putTagged a l b g).waves = s.waves := (rfl)
@[simp] theorem State.putTagged_ctxs (s : State) (a : Nat) (l : Line) (b : Bool) (g : Nat) : (s.putTagged a l b g).ctxs = s.ctxs := (rfl)
@[simp] theorem State.putTagged_vis (s : State) (a : Nat) (l : Line) (b : Bool) (g : Nat) : (s.putTagged a l b g).vis = s.vis := (rfl)
@[simp] theorem State.putTagged_rings (s : State) (a : Nat) (l : Line) (b : Bool) (g : Nat) : (s.putTagged a l b g).rings = s.rings := (rfl)
@[simp] theorem State.putTagged_entries (s : State) (a : Nat) (l : Line) (b : Bool) (g : Nat) : (s.putTagged a l b g).entries = s.entries := (rfl)
@[simp] theorem State.putTagged_wpkg (s : State) (a : Nat) (l : Line) (b : Bool) (g : Nat) : (s.putTagged a l b g).wpkg = s.wpkg := (rfl)
@[simp] theorem State.putTagged_step (s : State) (a : Nat) (l : Line) (b : Bool) (g : Nat) : (s.putTagged a l b g).step = s.step := (rfl)
@[simp] theorem State.putTagged_sed (s : State) (a : Nat) (l : Line) (b : Bool) (g : Nat) : (s.putTagged a l b g).sed = s.sed := (rfl)
@[simp] theorem State.putTagged_seals (s : State) (a : Nat) (l : Line) (b : Bool) (g : Nat) : (s.putTagged a l b g).seals = s.seals := (rfl)
@[simp] theorem State.putTagged_scat (s : State) (a : Nat) (l : Line) (b : Bool) (g : Nat) : (s.putTagged a l b g).scat = s.scat := (rfl)
@[simp] theorem State.putTagged_fab (s : State) (a : Nat) (l : Line) (b : Bool) (g : Nat) : (s.putTagged a l b g).fab = s.fab := (rfl)
@[simp] theorem State.putTagged_coll (s : State) (a : Nat) (l : Line) (b : Bool) (g : Nat) : (s.putTagged a l b g).coll = s.coll := (rfl)
@[simp] theorem State.putTagged_reqs (s : State) (a : Nat) (l : Line) (b : Bool) (g : Nat) : (s.putTagged a l b g).reqs = s.reqs := (rfl)
@[simp] theorem State.putTagged_slices (s : State) (a : Nat) (l : Line) (b : Bool) (g : Nat) : (s.putTagged a l b g).slices = s.slices := (rfl)
@[simp] theorem State.putTagged_err (s : State) (a : Nat) (l : Line) (b : Bool) (g : Nat) : (s.putTagged a l b g).err = s.err := (rfl)
@[simp] theorem State.putTagged_snap (s : State) (a : Nat) (l : Line) (b : Bool) (g : Nat) : (s.putTagged a l b g).snap = s.snap := (rfl)
@[simp] theorem State.putTagged_log (s : State) (a : Nat) (l : Line) (b : Bool) (g : Nat) : (s.putTagged a l b g).log = s.log := (rfl)
@[simp] theorem State.putTagged_pwr (s : State) (a : Nat) (l : Line) (b : Bool) (g : Nat) : (s.putTagged a l b g).pwr = s.pwr := (rfl)
@[simp] theorem State.putTagged_seats (s : State) (a : Nat) (l : Line) (b : Bool) (g : Nat) : (s.putTagged a l b g).seats = s.seats := (rfl)
@[simp] theorem State.putTagged_board (s : State) (a : Nat) (l : Line) (b : Bool) (g : Nat) : (s.putTagged a l b g).board = s.board := (rfl)
@[simp] theorem State.putTagged_out (s : State) (a : Nat) (l : Line) (b : Bool) (g : Nat) : (s.putTagged a l b g).out = s.out := (rfl)
@[simp] theorem State.putTagged_now (s : State) (a : Nat) (l : Line) (b : Bool) (g : Nat) : (s.putTagged a l b g).now = s.now := (rfl)
@[simp] theorem State.putTagged_fresh (s : State) (a : Nat) (l : Line) (b : Bool) (g : Nat) : (s.putTagged a l b g).fresh = s.fresh := (rfl)
@[simp] theorem State.putTagged_pending (s : State) (a : Nat) (l : Line) (b : Bool) (g : Nat) : (s.putTagged a l b g).pending = s.pending := (rfl)
@[simp] theorem State.putTagged_regAt (s : State) (a : Nat) (l : Line) (b : Bool) (g : Nat) (j : Nat) : (s.putTagged a l b g).regAt j = s.regAt j := (rfl)
@[simp] theorem State.putTagged_getF (s : State) (a : Nat) (l : Line) (b : Bool) (g : Nat) (x : Fld) (y : Nat) : (s.putTagged a l b g).getF x y = s.getF x y := (rfl)
@[simp] theorem State.putTagged_flag (s : State) (a : Nat) (l : Line) (b : Bool) (g : Nat) (x : Fld) (y : Nat) : (s.putTagged a l b g).flag x y = s.flag x y := (rfl)
@[simp] theorem State.putTagged_vi (s : State) (a : Nat) (l : Line) (b : Bool) (g : Nat) (m : Nat) : (s.putTagged a l b g).vi m = s.vi m := (rfl)
@[simp] theorem State.putTagged_ctx (s : State) (a : Nat) (l : Line) (b : Bool) (g : Nat) (m : Nat) : (s.putTagged a l b g).ctx m = s.ctx m := (rfl)
@[simp] theorem State.putTagged_ring (s : State) (a : Nat) (l : Line) (b : Bool) (g : Nat) (m : Nat) : (s.putTagged a l b g).ring m = s.ring m := (rfl)
@[simp] theorem State.putTagged_entry (s : State) (a : Nat) (l : Line) (b : Bool) (g : Nat) (m : Nat) : (s.putTagged a l b g).entry m = s.entry m := (rfl)
@[simp] theorem State.putTagged_req (s : State) (a : Nat) (l : Line) (b : Bool) (g : Nat) (m : Nat) : (s.putTagged a l b g).req m = s.req m := (rfl)
@[simp] theorem State.putTagged_unit (s : State) (a : Nat) (l : Line) (b : Bool) (g : Nat) (m : Nat) : (s.putTagged a l b g).unit m = s.unit m := (rfl)
@[simp] theorem State.putTagged_plane (s : State) (a : Nat) (l : Line) (b : Bool) (g : Nat) (m q : Nat) : (s.putTagged a l b g).plane m q = s.plane m q := (rfl)
@[simp] theorem State.putTagged_inPort (s : State) (a : Nat) (l : Line) (b : Bool) (g : Nat) (m q z : Nat) : (s.putTagged a l b g).inPort m q z = s.inPort m q z := (rfl)
@[simp] theorem State.putTagged_outPort (s : State) (a : Nat) (l : Line) (b : Bool) (g : Nat) (m q z : Nat) : (s.putTagged a l b g).outPort m q z = s.outPort m q z := (rfl)
@[simp] theorem State.putTagged_opLine (s : State) (a : Nat) (l : Line) (b : Bool) (g : Nat) (m z : Nat) : (s.putTagged a l b g).opLine m z = s.opLine m z := (rfl)
@[simp] theorem State.putTagged_rig (s : State) (a : Nat) (l : Line) (b : Bool) (g : Nat) (m : Nat) : (s.putTagged a l b g).rig m = s.rig m := (rfl)
@[simp] theorem State.putTagged_seat (s : State) (a : Nat) (l : Line) (b : Bool) (g : Nat) (m : Nat) : (s.putTagged a l b g).seat m = s.seat m := (rfl)
@[simp] theorem State.putTagged_switch (s : State) (a : Nat) (l : Line) (b : Bool) (g : Nat) (m : Nat) : (s.putTagged a l b g).switch m = s.switch m := (rfl)

@[simp] theorem State.putBytes_regs (s : State) (a : Nat) (bs : List Byte) : (s.putBytes a bs).regs = s.regs := (rfl)
@[simp] theorem State.putBytes_sel (s : State) (a : Nat) (bs : List Byte) : (s.putBytes a bs).sel = s.sel := (rfl)
@[simp] theorem State.putBytes_memTag (s : State) (a : Nat) (bs : List Byte) : (s.putBytes a bs).memTag = s.memTag := (rfl)
@[simp] theorem State.putBytes_ops (s : State) (a : Nat) (bs : List Byte) : (s.putBytes a bs).ops = s.ops := (rfl)
@[simp] theorem State.putBytes_planes (s : State) (a : Nat) (bs : List Byte) : (s.putBytes a bs).planes = s.planes := (rfl)
@[simp] theorem State.putBytes_units (s : State) (a : Nat) (bs : List Byte) : (s.putBytes a bs).units = s.units := (rfl)
@[simp] theorem State.putBytes_inPorts (s : State) (a : Nat) (bs : List Byte) : (s.putBytes a bs).inPorts = s.inPorts := (rfl)
@[simp] theorem State.putBytes_outPorts (s : State) (a : Nat) (bs : List Byte) : (s.putBytes a bs).outPorts = s.outPorts := (rfl)
@[simp] theorem State.putBytes_switches (s : State) (a : Nat) (bs : List Byte) : (s.putBytes a bs).switches = s.switches := (rfl)
@[simp] theorem State.putBytes_tiers (s : State) (a : Nat) (bs : List Byte) : (s.putBytes a bs).tiers = s.tiers := (rfl)
@[simp] theorem State.putBytes_streams (s : State) (a : Nat) (bs : List Byte) : (s.putBytes a bs).streams = s.streams := (rfl)
@[simp] theorem State.putBytes_twin (s : State) (a : Nat) (bs : List Byte) : (s.putBytes a bs).twin = s.twin := (rfl)
@[simp] theorem State.putBytes_rigs (s : State) (a : Nat) (bs : List Byte) : (s.putBytes a bs).rigs = s.rigs := (rfl)
@[simp] theorem State.putBytes_waves (s : State) (a : Nat) (bs : List Byte) : (s.putBytes a bs).waves = s.waves := (rfl)
@[simp] theorem State.putBytes_ctxs (s : State) (a : Nat) (bs : List Byte) : (s.putBytes a bs).ctxs = s.ctxs := (rfl)
@[simp] theorem State.putBytes_vis (s : State) (a : Nat) (bs : List Byte) : (s.putBytes a bs).vis = s.vis := (rfl)
@[simp] theorem State.putBytes_rings (s : State) (a : Nat) (bs : List Byte) : (s.putBytes a bs).rings = s.rings := (rfl)
@[simp] theorem State.putBytes_entries (s : State) (a : Nat) (bs : List Byte) : (s.putBytes a bs).entries = s.entries := (rfl)
@[simp] theorem State.putBytes_wpkg (s : State) (a : Nat) (bs : List Byte) : (s.putBytes a bs).wpkg = s.wpkg := (rfl)
@[simp] theorem State.putBytes_step (s : State) (a : Nat) (bs : List Byte) : (s.putBytes a bs).step = s.step := (rfl)
@[simp] theorem State.putBytes_sed (s : State) (a : Nat) (bs : List Byte) : (s.putBytes a bs).sed = s.sed := (rfl)
@[simp] theorem State.putBytes_seals (s : State) (a : Nat) (bs : List Byte) : (s.putBytes a bs).seals = s.seals := (rfl)
@[simp] theorem State.putBytes_scat (s : State) (a : Nat) (bs : List Byte) : (s.putBytes a bs).scat = s.scat := (rfl)
@[simp] theorem State.putBytes_fab (s : State) (a : Nat) (bs : List Byte) : (s.putBytes a bs).fab = s.fab := (rfl)
@[simp] theorem State.putBytes_coll (s : State) (a : Nat) (bs : List Byte) : (s.putBytes a bs).coll = s.coll := (rfl)
@[simp] theorem State.putBytes_reqs (s : State) (a : Nat) (bs : List Byte) : (s.putBytes a bs).reqs = s.reqs := (rfl)
@[simp] theorem State.putBytes_slices (s : State) (a : Nat) (bs : List Byte) : (s.putBytes a bs).slices = s.slices := (rfl)
@[simp] theorem State.putBytes_err (s : State) (a : Nat) (bs : List Byte) : (s.putBytes a bs).err = s.err := (rfl)
@[simp] theorem State.putBytes_snap (s : State) (a : Nat) (bs : List Byte) : (s.putBytes a bs).snap = s.snap := (rfl)
@[simp] theorem State.putBytes_log (s : State) (a : Nat) (bs : List Byte) : (s.putBytes a bs).log = s.log := (rfl)
@[simp] theorem State.putBytes_pwr (s : State) (a : Nat) (bs : List Byte) : (s.putBytes a bs).pwr = s.pwr := (rfl)
@[simp] theorem State.putBytes_seats (s : State) (a : Nat) (bs : List Byte) : (s.putBytes a bs).seats = s.seats := (rfl)
@[simp] theorem State.putBytes_board (s : State) (a : Nat) (bs : List Byte) : (s.putBytes a bs).board = s.board := (rfl)
@[simp] theorem State.putBytes_out (s : State) (a : Nat) (bs : List Byte) : (s.putBytes a bs).out = s.out := (rfl)
@[simp] theorem State.putBytes_now (s : State) (a : Nat) (bs : List Byte) : (s.putBytes a bs).now = s.now := (rfl)
@[simp] theorem State.putBytes_fresh (s : State) (a : Nat) (bs : List Byte) : (s.putBytes a bs).fresh = s.fresh := (rfl)
@[simp] theorem State.putBytes_pending (s : State) (a : Nat) (bs : List Byte) : (s.putBytes a bs).pending = s.pending := (rfl)
@[simp] theorem State.putBytes_regAt (s : State) (a : Nat) (bs : List Byte) (j : Nat) : (s.putBytes a bs).regAt j = s.regAt j := (rfl)
@[simp] theorem State.putBytes_getF (s : State) (a : Nat) (bs : List Byte) (x : Fld) (y : Nat) : (s.putBytes a bs).getF x y = s.getF x y := (rfl)
@[simp] theorem State.putBytes_flag (s : State) (a : Nat) (bs : List Byte) (x : Fld) (y : Nat) : (s.putBytes a bs).flag x y = s.flag x y := (rfl)
@[simp] theorem State.putBytes_vi (s : State) (a : Nat) (bs : List Byte) (m : Nat) : (s.putBytes a bs).vi m = s.vi m := (rfl)
@[simp] theorem State.putBytes_ctx (s : State) (a : Nat) (bs : List Byte) (m : Nat) : (s.putBytes a bs).ctx m = s.ctx m := (rfl)
@[simp] theorem State.putBytes_ring (s : State) (a : Nat) (bs : List Byte) (m : Nat) : (s.putBytes a bs).ring m = s.ring m := (rfl)
@[simp] theorem State.putBytes_entry (s : State) (a : Nat) (bs : List Byte) (m : Nat) : (s.putBytes a bs).entry m = s.entry m := (rfl)
@[simp] theorem State.putBytes_req (s : State) (a : Nat) (bs : List Byte) (m : Nat) : (s.putBytes a bs).req m = s.req m := (rfl)
@[simp] theorem State.putBytes_unit (s : State) (a : Nat) (bs : List Byte) (m : Nat) : (s.putBytes a bs).unit m = s.unit m := (rfl)
@[simp] theorem State.putBytes_plane (s : State) (a : Nat) (bs : List Byte) (m q : Nat) : (s.putBytes a bs).plane m q = s.plane m q := (rfl)
@[simp] theorem State.putBytes_inPort (s : State) (a : Nat) (bs : List Byte) (m q z : Nat) : (s.putBytes a bs).inPort m q z = s.inPort m q z := (rfl)
@[simp] theorem State.putBytes_outPort (s : State) (a : Nat) (bs : List Byte) (m q z : Nat) : (s.putBytes a bs).outPort m q z = s.outPort m q z := (rfl)
@[simp] theorem State.putBytes_opLine (s : State) (a : Nat) (bs : List Byte) (m z : Nat) : (s.putBytes a bs).opLine m z = s.opLine m z := (rfl)
@[simp] theorem State.putBytes_rig (s : State) (a : Nat) (bs : List Byte) (m : Nat) : (s.putBytes a bs).rig m = s.rig m := (rfl)
@[simp] theorem State.putBytes_seat (s : State) (a : Nat) (bs : List Byte) (m : Nat) : (s.putBytes a bs).seat m = s.seat m := (rfl)
@[simp] theorem State.putBytes_switch (s : State) (a : Nat) (bs : List Byte) (m : Nat) : (s.putBytes a bs).switch m = s.switch m := (rfl)

@[simp] theorem State.zeroRange_regs (s : State) (a n : Nat) : (s.zeroRange a n).regs = s.regs := (rfl)
@[simp] theorem State.zeroRange_sel (s : State) (a n : Nat) : (s.zeroRange a n).sel = s.sel := (rfl)
@[simp] theorem State.zeroRange_ops (s : State) (a n : Nat) : (s.zeroRange a n).ops = s.ops := (rfl)
@[simp] theorem State.zeroRange_planes (s : State) (a n : Nat) : (s.zeroRange a n).planes = s.planes := (rfl)
@[simp] theorem State.zeroRange_units (s : State) (a n : Nat) : (s.zeroRange a n).units = s.units := (rfl)
@[simp] theorem State.zeroRange_inPorts (s : State) (a n : Nat) : (s.zeroRange a n).inPorts = s.inPorts := (rfl)
@[simp] theorem State.zeroRange_outPorts (s : State) (a n : Nat) : (s.zeroRange a n).outPorts = s.outPorts := (rfl)
@[simp] theorem State.zeroRange_switches (s : State) (a n : Nat) : (s.zeroRange a n).switches = s.switches := (rfl)
@[simp] theorem State.zeroRange_tiers (s : State) (a n : Nat) : (s.zeroRange a n).tiers = s.tiers := (rfl)
@[simp] theorem State.zeroRange_streams (s : State) (a n : Nat) : (s.zeroRange a n).streams = s.streams := (rfl)
@[simp] theorem State.zeroRange_twin (s : State) (a n : Nat) : (s.zeroRange a n).twin = s.twin := (rfl)
@[simp] theorem State.zeroRange_rigs (s : State) (a n : Nat) : (s.zeroRange a n).rigs = s.rigs := (rfl)
@[simp] theorem State.zeroRange_waves (s : State) (a n : Nat) : (s.zeroRange a n).waves = s.waves := (rfl)
@[simp] theorem State.zeroRange_ctxs (s : State) (a n : Nat) : (s.zeroRange a n).ctxs = s.ctxs := (rfl)
@[simp] theorem State.zeroRange_vis (s : State) (a n : Nat) : (s.zeroRange a n).vis = s.vis := (rfl)
@[simp] theorem State.zeroRange_rings (s : State) (a n : Nat) : (s.zeroRange a n).rings = s.rings := (rfl)
@[simp] theorem State.zeroRange_entries (s : State) (a n : Nat) : (s.zeroRange a n).entries = s.entries := (rfl)
@[simp] theorem State.zeroRange_wpkg (s : State) (a n : Nat) : (s.zeroRange a n).wpkg = s.wpkg := (rfl)
@[simp] theorem State.zeroRange_step (s : State) (a n : Nat) : (s.zeroRange a n).step = s.step := (rfl)
@[simp] theorem State.zeroRange_sed (s : State) (a n : Nat) : (s.zeroRange a n).sed = s.sed := (rfl)
@[simp] theorem State.zeroRange_seals (s : State) (a n : Nat) : (s.zeroRange a n).seals = s.seals := (rfl)
@[simp] theorem State.zeroRange_scat (s : State) (a n : Nat) : (s.zeroRange a n).scat = s.scat := (rfl)
@[simp] theorem State.zeroRange_fab (s : State) (a n : Nat) : (s.zeroRange a n).fab = s.fab := (rfl)
@[simp] theorem State.zeroRange_coll (s : State) (a n : Nat) : (s.zeroRange a n).coll = s.coll := (rfl)
@[simp] theorem State.zeroRange_reqs (s : State) (a n : Nat) : (s.zeroRange a n).reqs = s.reqs := (rfl)
@[simp] theorem State.zeroRange_slices (s : State) (a n : Nat) : (s.zeroRange a n).slices = s.slices := (rfl)
@[simp] theorem State.zeroRange_err (s : State) (a n : Nat) : (s.zeroRange a n).err = s.err := (rfl)
@[simp] theorem State.zeroRange_snap (s : State) (a n : Nat) : (s.zeroRange a n).snap = s.snap := (rfl)
@[simp] theorem State.zeroRange_log (s : State) (a n : Nat) : (s.zeroRange a n).log = s.log := (rfl)
@[simp] theorem State.zeroRange_pwr (s : State) (a n : Nat) : (s.zeroRange a n).pwr = s.pwr := (rfl)
@[simp] theorem State.zeroRange_seats (s : State) (a n : Nat) : (s.zeroRange a n).seats = s.seats := (rfl)
@[simp] theorem State.zeroRange_board (s : State) (a n : Nat) : (s.zeroRange a n).board = s.board := (rfl)
@[simp] theorem State.zeroRange_out (s : State) (a n : Nat) : (s.zeroRange a n).out = s.out := (rfl)
@[simp] theorem State.zeroRange_now (s : State) (a n : Nat) : (s.zeroRange a n).now = s.now := (rfl)
@[simp] theorem State.zeroRange_fresh (s : State) (a n : Nat) : (s.zeroRange a n).fresh = s.fresh := (rfl)
@[simp] theorem State.zeroRange_pending (s : State) (a n : Nat) : (s.zeroRange a n).pending = s.pending := (rfl)
@[simp] theorem State.zeroRange_regAt (s : State) (a n : Nat) (j : Nat) : (s.zeroRange a n).regAt j = s.regAt j := (rfl)
@[simp] theorem State.zeroRange_getF (s : State) (a n : Nat) (x : Fld) (y : Nat) : (s.zeroRange a n).getF x y = s.getF x y := (rfl)
@[simp] theorem State.zeroRange_flag (s : State) (a n : Nat) (x : Fld) (y : Nat) : (s.zeroRange a n).flag x y = s.flag x y := (rfl)
@[simp] theorem State.zeroRange_vi (s : State) (a n : Nat) (m : Nat) : (s.zeroRange a n).vi m = s.vi m := (rfl)
@[simp] theorem State.zeroRange_ctx (s : State) (a n : Nat) (m : Nat) : (s.zeroRange a n).ctx m = s.ctx m := (rfl)
@[simp] theorem State.zeroRange_ring (s : State) (a n : Nat) (m : Nat) : (s.zeroRange a n).ring m = s.ring m := (rfl)
@[simp] theorem State.zeroRange_entry (s : State) (a n : Nat) (m : Nat) : (s.zeroRange a n).entry m = s.entry m := (rfl)
@[simp] theorem State.zeroRange_req (s : State) (a n : Nat) (m : Nat) : (s.zeroRange a n).req m = s.req m := (rfl)
@[simp] theorem State.zeroRange_unit (s : State) (a n : Nat) (m : Nat) : (s.zeroRange a n).unit m = s.unit m := (rfl)
@[simp] theorem State.zeroRange_plane (s : State) (a n : Nat) (m q : Nat) : (s.zeroRange a n).plane m q = s.plane m q := (rfl)
@[simp] theorem State.zeroRange_inPort (s : State) (a n : Nat) (m q z : Nat) : (s.zeroRange a n).inPort m q z = s.inPort m q z := (rfl)
@[simp] theorem State.zeroRange_outPort (s : State) (a n : Nat) (m q z : Nat) : (s.zeroRange a n).outPort m q z = s.outPort m q z := (rfl)
@[simp] theorem State.zeroRange_opLine (s : State) (a n : Nat) (m z : Nat) : (s.zeroRange a n).opLine m z = s.opLine m z := (rfl)
@[simp] theorem State.zeroRange_rig (s : State) (a n : Nat) (m : Nat) : (s.zeroRange a n).rig m = s.rig m := (rfl)
@[simp] theorem State.zeroRange_seat (s : State) (a n : Nat) (m : Nat) : (s.zeroRange a n).seat m = s.seat m := (rfl)
@[simp] theorem State.zeroRange_switch (s : State) (a n : Nat) (m : Nat) : (s.zeroRange a n).switch m = s.switch m := (rfl)

@[simp] theorem State.canon_planes (s : State) : (s.canon).planes = s.planes := (rfl)
@[simp] theorem State.canon_units (s : State) : (s.canon).units = s.units := (rfl)
@[simp] theorem State.canon_inPorts (s : State) : (s.canon).inPorts = s.inPorts := (rfl)
@[simp] theorem State.canon_outPorts (s : State) : (s.canon).outPorts = s.outPorts := (rfl)
@[simp] theorem State.canon_switches (s : State) : (s.canon).switches = s.switches := (rfl)
@[simp] theorem State.canon_tiers (s : State) : (s.canon).tiers = s.tiers := (rfl)
@[simp] theorem State.canon_streams (s : State) : (s.canon).streams = s.streams := (rfl)
@[simp] theorem State.canon_twin (s : State) : (s.canon).twin = s.twin := (rfl)
@[simp] theorem State.canon_rigs (s : State) : (s.canon).rigs = s.rigs := (rfl)
@[simp] theorem State.canon_waves (s : State) : (s.canon).waves = s.waves := (rfl)
@[simp] theorem State.canon_ctxs (s : State) : (s.canon).ctxs = s.ctxs := (rfl)
@[simp] theorem State.canon_vis (s : State) : (s.canon).vis = s.vis := (rfl)
@[simp] theorem State.canon_rings (s : State) : (s.canon).rings = s.rings := (rfl)
@[simp] theorem State.canon_entries (s : State) : (s.canon).entries = s.entries := (rfl)
@[simp] theorem State.canon_wpkg (s : State) : (s.canon).wpkg = s.wpkg := (rfl)
@[simp] theorem State.canon_step (s : State) : (s.canon).step = s.step := (rfl)
@[simp] theorem State.canon_sed (s : State) : (s.canon).sed = s.sed := (rfl)
@[simp] theorem State.canon_seals (s : State) : (s.canon).seals = s.seals := (rfl)
@[simp] theorem State.canon_scat (s : State) : (s.canon).scat = s.scat := (rfl)
@[simp] theorem State.canon_fab (s : State) : (s.canon).fab = s.fab := (rfl)
@[simp] theorem State.canon_coll (s : State) : (s.canon).coll = s.coll := (rfl)
@[simp] theorem State.canon_reqs (s : State) : (s.canon).reqs = s.reqs := (rfl)
@[simp] theorem State.canon_slices (s : State) : (s.canon).slices = s.slices := (rfl)
@[simp] theorem State.canon_err (s : State) : (s.canon).err = s.err := (rfl)
@[simp] theorem State.canon_snap (s : State) : (s.canon).snap = s.snap := (rfl)
@[simp] theorem State.canon_log (s : State) : (s.canon).log = s.log := (rfl)
@[simp] theorem State.canon_pwr (s : State) : (s.canon).pwr = s.pwr := (rfl)
@[simp] theorem State.canon_seats (s : State) : (s.canon).seats = s.seats := (rfl)
@[simp] theorem State.canon_board (s : State) : (s.canon).board = s.board := (rfl)
@[simp] theorem State.canon_out (s : State) : (s.canon).out = s.out := (rfl)
@[simp] theorem State.canon_now (s : State) : (s.canon).now = s.now := (rfl)
@[simp] theorem State.canon_fresh (s : State) : (s.canon).fresh = s.fresh := (rfl)
@[simp] theorem State.canon_pending (s : State) : (s.canon).pending = s.pending := (rfl)
@[simp] theorem State.canon_vi (s : State) (m : Nat) : (s.canon).vi m = s.vi m := (rfl)
@[simp] theorem State.canon_ctx (s : State) (m : Nat) : (s.canon).ctx m = s.ctx m := (rfl)
@[simp] theorem State.canon_ring (s : State) (m : Nat) : (s.canon).ring m = s.ring m := (rfl)
@[simp] theorem State.canon_entry (s : State) (m : Nat) : (s.canon).entry m = s.entry m := (rfl)
@[simp] theorem State.canon_req (s : State) (m : Nat) : (s.canon).req m = s.req m := (rfl)
@[simp] theorem State.canon_unit (s : State) (m : Nat) : (s.canon).unit m = s.unit m := (rfl)
@[simp] theorem State.canon_plane (s : State) (m q : Nat) : (s.canon).plane m q = s.plane m q := (rfl)
@[simp] theorem State.canon_inPort (s : State) (m q z : Nat) : (s.canon).inPort m q z = s.inPort m q z := (rfl)
@[simp] theorem State.canon_outPort (s : State) (m q z : Nat) : (s.canon).outPort m q z = s.outPort m q z := (rfl)
@[simp] theorem State.canon_rig (s : State) (m : Nat) : (s.canon).rig m = s.rig m := (rfl)
@[simp] theorem State.canon_seat (s : State) (m : Nat) : (s.canon).seat m = s.seat m := (rfl)
@[simp] theorem State.canon_switch (s : State) (m : Nat) : (s.canon).switch m = s.switch m := (rfl)

/-! ### Reads depend on their own field alone -/

theorem State.regAt_congr (s t : State) (h : s.regs = t.regs) (j : Nat) : s.regAt j = t.regAt j := by
  simp only [State.regAt, h]
theorem State.getF_congr (s t : State) (h : s.regs = t.regs) (x : Fld) (y : Nat) : s.getF x y = t.getF x y := by
  simp only [State.getF, State.regAt, h]
theorem State.flag_congr (s t : State) (h : s.regs = t.regs) (x : Fld) (y : Nat) : s.flag x y = t.flag x y := by
  simp only [State.flag, State.getF, State.regAt, h]
theorem State.byteAt_congr (s t : State) (h : s.mem = t.mem) (x : Nat) : s.byteAt x = t.byteAt x := by
  simp only [State.byteAt, h]
theorem State.poisonAt_congr (s t : State) (h : s.memPoison = t.memPoison) (x : Nat) : s.poisonAt x = t.poisonAt x := by
  simp only [State.poisonAt, h]
theorem State.vi_congr (s t : State) (h : s.vis = t.vis) (m : Nat) : s.vi m = t.vi m := by
  simp only [State.vi, h]
theorem State.ctx_congr (s t : State) (h : s.ctxs = t.ctxs) (m : Nat) : s.ctx m = t.ctx m := by
  simp only [State.ctx, h]
theorem State.ring_congr (s t : State) (h : s.rings = t.rings) (m : Nat) : s.ring m = t.ring m := by
  simp only [State.ring, h]
theorem State.entry_congr (s t : State) (h : s.entries = t.entries) (m : Nat) : s.entry m = t.entry m := by
  simp only [State.entry, h]
theorem State.req_congr (s t : State) (h : s.reqs = t.reqs) (m : Nat) : s.req m = t.req m := by
  simp only [State.req, h]
theorem State.unit_congr (s t : State) (h : s.units = t.units) (m : Nat) : s.unit m = t.unit m := by
  simp only [State.unit, h]
theorem State.plane_congr (s t : State) (h : s.planes = t.planes) (m q : Nat) : s.plane m q = t.plane m q := by
  simp only [State.plane, h]
theorem State.inPort_congr (s t : State) (h : s.inPorts = t.inPorts) (m q z : Nat) : s.inPort m q z = t.inPort m q z := by
  simp only [State.inPort, h]
theorem State.outPort_congr (s t : State) (h : s.outPorts = t.outPorts) (m q z : Nat) : s.outPort m q z = t.outPort m q z := by
  simp only [State.outPort, h]
theorem State.opLine_congr (s t : State) (h : s.ops = t.ops) (m z : Nat) : s.opLine m z = t.opLine m z := by
  simp only [State.opLine, h]
theorem State.rig_congr (s t : State) (h : s.rigs = t.rigs) (m : Nat) : s.rig m = t.rig m := by
  simp only [State.rig, h]
theorem State.seat_congr (s t : State) (h : s.seats = t.seats) (m : Nat) : s.seat m = t.seat m := by
  simp only [State.seat, h]
theorem State.switch_congr (s t : State) (h : s.switches = t.switches) (m : Nat) : s.switch m = t.switch m := by
  simp only [State.switch, h]

/-! ### The canonical form reads as before -/

@[simp] theorem State.canon_regAt (s : State) (k : Nat) : s.canon.regAt k = s.regAt k := SMap.get_norm resetWord s.regs k
@[simp] theorem State.canon_getF (s : State) (f : Fld) (d : Nat) : s.canon.getF f d = s.getF f d := by
  simp only [State.getF, State.canon_regAt]
@[simp] theorem State.canon_flag (s : State) (f : Fld) (d : Nat) : s.canon.flag f d = s.flag f d := by
  simp only [State.flag, State.canon_getF]
@[simp] theorem State.canon_byteAt (s : State) (a : Nat) : s.canon.byteAt a = s.byteAt a := SMap.get_norm (fun _ => (0 : BitVec 8)) s.mem a
@[simp] theorem State.canon_poisonAt (s : State) (a : Nat) : s.canon.poisonAt a = s.poisonAt a :=
  SMap.get_norm (fun _ => false) s.memPoison (lineOf a)
@[simp] theorem State.canon_memTag_get (s : State) (l : Nat) : SMap.get 0 s.canon.memTag l = SMap.get 0 s.memTag l :=
  SMap.get_norm (fun _ => (0 : Nat)) s.memTag l
@[simp] theorem State.canon_sel_get (s : State) (k : Nat) : SMap.get 0 s.canon.sel k = SMap.get 0 s.sel k :=
  SMap.get_norm (fun _ => (0 : Nat)) s.sel k
@[simp] theorem State.canon_opLine (s : State) (u l : Nat) : s.canon.opLine u l = s.opLine u l :=
  SMap.get_norm (fun _ => ({} : OpLine)) s.ops (u * 4096 + l)

/-- A canonical state stands as it is. -/
theorem State.canon_of_wf (s : State) (h : s.wf = true) : s.canon = s := by
  simp only [State.wf, Memory.wf, Bool.and_eq_true] at h
  obtain ⟨⟨⟨⟨⟨h1, h2⟩, h3⟩, h4⟩, h5⟩, h6⟩ := h
  simp only [State.canon, SMap.norm_of_wf _ _ h1, SMap.norm_of_wf _ _ h2, SMap.norm_of_wf _ _ h3, SMap.norm_of_wf _ _ h4,
    SMap.norm_of_wf _ _ h5, SMap.norm_of_wf _ _ h6]

/-- The canonical form is canonical. -/
theorem State.canon_wf (s : State) : s.canon.wf = true := by
  simp only [State.wf, Memory.wf, State.canon, SMap.wf_norm, Bool.and_self]

/-! ### Registers and fields after a write -/

@[simp] theorem State.regAt_regPut (s : State) (k j : Nat) (w : Word) : (s.regPut k w).regAt j = if j = k then w else s.regAt j := by
  unfold State.regAt State.regPut
  split
  · rename_i h; subst h; exact SMap.get_set_same _ _ _ _
  · rename_i h; exact SMap.get_set_other _ _ _ _ _ _ h

theorem State.getF_regPut_other (s : State) (k : Nat) (w : Word) (g : Fld) (e : Nat) (h : g.reg + e ≠ k) :
    (s.regPut k w).getF g e = s.getF g e := by
  simp only [State.getF, State.regAt_regPut, if_neg h]

/-- A field reads as written, cut to its width. -/
theorem State.getF_setF_same (s : State) (f : Fld) (v d : Nat) (h : f.lo + f.len ≤ 64) : (s.setF f v d).getF f d = v % 2 ^ f.len := by
  simp only [State.getF, State.setF, State.regAt_regPut, if_true, getBits_putBits _ _ _ _ h]

/-- A field of another register keeps its value. -/
theorem State.getF_setF_other (s : State) (f g : Fld) (v d e : Nat) (h : g.reg + e ≠ f.reg + d) : (s.setF f v d).getF g e = s.getF g e := by
  simp only [State.getF, State.setF, State.regAt_regPut, if_neg h]

/-- A disjoint field keeps its value, whichever register either is in. -/
theorem State.getF_setF_disjoint (s : State) (f g : Fld) (v d e : Nat) (hf : f.lo + f.len ≤ 64)
    (h : g.lo + g.len ≤ f.lo ∨ f.lo + f.len ≤ g.lo) : (s.setF f v d).getF g e = s.getF g e := by
  by_cases hr : g.reg + e = f.reg + d
  · simp only [State.getF, State.setF, State.regAt_regPut, hr, if_true, getBits_putBits_other _ _ _ _ _ _ hf h]
  · exact State.getF_setF_other s f g v d e hr

/-- Another register keeps its word. -/
theorem State.regAt_setF_other (s : State) (f : Fld) (v d j : Nat) (h : j ≠ f.reg + d) : (s.setF f v d).regAt j = s.regAt j := by
  simp only [State.setF, State.regAt_regPut, if_neg h]

/-- A counter advances, wrapping at its width. -/
theorem State.getF_bump_same (s : State) (f : Fld) (n d : Nat) (h : f.lo + f.len ≤ 64) :
    (s.bump f n d).getF f d = (s.getF f d + n) % 2 ^ f.len := State.getF_setF_same s f _ d h

theorem State.getF_bump_other (s : State) (f g : Fld) (n d e : Nat) (h : g.reg + e ≠ f.reg + d) :
    (s.bump f n d).getF g e = s.getF g e := State.getF_setF_other s f g _ d e h

theorem State.getF_bump_disjoint (s : State) (f g : Fld) (n d e : Nat) (hf : f.lo + f.len ≤ 64)
    (h : g.lo + g.len ≤ f.lo ∨ f.lo + f.len ≤ g.lo) : (s.bump f n d).getF g e = s.getF g e :=
  State.getF_setF_disjoint s f g _ d e hf h

theorem State.regAt_bump_other (s : State) (f : Fld) (n d j : Nat) (h : j ≠ f.reg + d) : (s.bump f n d).regAt j = s.regAt j :=
  State.regAt_setF_other s f _ d j h

theorem State.getF_setBit_other (s : State) (f g : Fld) (i : Nat) (b : Bool) (d e : Nat) (h : g.reg + e ≠ f.reg + d) :
    (s.setBit f i b d).getF g e = s.getF g e := State.getF_setF_other s f g _ d e h

theorem State.getF_setBit_disjoint (s : State) (f g : Fld) (i : Nat) (b : Bool) (d e : Nat) (hf : f.lo + f.len ≤ 64)
    (h : g.lo + g.len ≤ f.lo ∨ f.lo + f.len ≤ g.lo) : (s.setBit f i b d).getF g e = s.getF g e :=
  State.getF_setF_disjoint s f g _ d e hf h

theorem State.regAt_setBit_other (s : State) (f : Fld) (i : Nat) (b : Bool) (d j : Nat) (h : j ≠ f.reg + d) :
    (s.setBit f i b d).regAt j = s.regAt j := State.regAt_setF_other s f _ d j h

/-- A field's value is below 2 to its width. -/
theorem State.getF_lt (s : State) (f : Fld) (d : Nat) : s.getF f d < 2 ^ f.len := getBits_lt _ _ _

/-! ### Typed stores after a write -/

@[simp] theorem State.vi_setVi (s : State) (k j : Nat) (v : ViSt) : (s.setVi k v).vi j = if j = k then v else s.vi j := by
  unfold State.vi State.setVi
  split
  · rename_i h; subst h; exact SMap.get_set_same _ _ _ _
  · rename_i h; exact SMap.get_set_other _ _ _ _ _ _ h

@[simp] theorem State.ctx_setCtx (s : State) (k j : Nat) (v : CtxSt) : (s.setCtx k v).ctx j = if j = k then v else s.ctx j := by
  unfold State.ctx State.setCtx
  split
  · rename_i h; subst h; exact SMap.get_set_same _ _ _ _
  · rename_i h; exact SMap.get_set_other _ _ _ _ _ _ h

@[simp] theorem State.ring_setRing (s : State) (k j : Nat) (v : RingSt) : (s.setRing k v).ring j = if j = k then v else s.ring j := by
  unfold State.ring State.setRing
  split
  · rename_i h; subst h; exact SMap.get_set_same _ _ _ _
  · rename_i h; exact SMap.get_set_other _ _ _ _ _ _ h

@[simp] theorem State.entry_setEntry (s : State) (k j : Nat) (v : Entry) : (s.setEntry k v).entry j = if j = k then v else s.entry j := by
  unfold State.entry State.setEntry
  split
  · rename_i h; subst h; exact SMap.get_set_same _ _ _ _
  · rename_i h; exact SMap.get_set_other _ _ _ _ _ _ h

@[simp] theorem State.req_setReq (s : State) (k j : Nat) (v : ReqSt) : (s.setReq k v).req j = if j = k then v else s.req j := by
  unfold State.req State.setReq
  split
  · rename_i h; subst h; exact SMap.get_set_same _ _ _ _
  · rename_i h; exact SMap.get_set_other _ _ _ _ _ _ h

@[simp] theorem State.unit_setUnit (s : State) (k j : Nat) (v : UnitSt) : (s.setUnit k v).unit j = if j = k then v else s.unit j := by
  unfold State.unit State.setUnit
  split
  · rename_i h; subst h; exact SMap.get_set_same _ _ _ _
  · rename_i h; exact SMap.get_set_other _ _ _ _ _ _ h

@[simp] theorem State.rig_setRig (s : State) (k j : Nat) (v : RigSt) : (s.setRig k v).rig j = if j = k then v else s.rig j := by
  unfold State.rig State.setRig
  split
  · rename_i h; subst h; exact SMap.get_set_same _ _ _ _
  · rename_i h; exact SMap.get_set_other _ _ _ _ _ _ h

@[simp] theorem State.seat_setSeat (s : State) (k j : Nat) (v : SeatPwr) : (s.setSeat k v).seat j = if j = k then v else s.seat j := by
  unfold State.seat State.setSeat
  split
  · rename_i h; subst h; exact SMap.get_set_same _ _ _ _
  · rename_i h; exact SMap.get_set_other _ _ _ _ _ _ h

@[simp] theorem State.switch_setSwitch (s : State) (k j : Nat) (v : SwitchSt) : (s.setSwitch k v).switch j = if j = k then v else s.switch j := by
  unfold State.switch State.setSwitch
  split
  · rename_i h; subst h; exact SMap.get_set_same _ _ _ _
  · rename_i h; exact SMap.get_set_other _ _ _ _ _ _ h

/-- Planes have keys of their own. -/
theorem planeKey_inj (u p v q : Nat) (hp : p < 8) (hq : q < 8) : planeKey u p = planeKey v q ↔ u = v ∧ p = q := by
  unfold planeKey; omega

theorem State.plane_setPlane_same (s : State) (u p : Nat) (v : Plane) : (s.setPlane u p v).plane u p = v := SMap.get_set_same _ _ _ _

theorem State.plane_setPlane_other (s : State) (u p u' p' : Nat) (v : Plane) (h : planeKey u' p' ≠ planeKey u p) :
    (s.setPlane u p v).plane u' p' = s.plane u' p' := SMap.get_set_other _ _ _ _ _ _ h

theorem State.inPort_setInPort_same (s : State) (u p n : Nat) (v : PortSt) : (s.setInPort u p n v).inPort u p n = v :=
  SMap.get_set_same _ _ _ _

theorem State.outPort_setOutPort_same (s : State) (u p n : Nat) (v : PortSt) : (s.setOutPort u p n v).outPort u p n = v :=
  SMap.get_set_same _ _ _ _

theorem State.opLine_setOpLine_same (s : State) (u l : Nat) (v : OpLine) : (s.setOpLine u l v).opLine u l = v := SMap.get_set_same _ _ _ _

theorem State.opLine_setOpLine_other (s : State) (u l u' l' : Nat) (v : OpLine) (h : u' * 4096 + l' ≠ u * 4096 + l) :
    (s.setOpLine u l v).opLine u' l' = s.opLine u' l' := SMap.get_set_other _ _ _ _ _ _ h

end Sys2Proof.Machine
end

