-- ==== Sys2Proof/Laws/Faults.lean ====
section
/-! SUPPORT. What counting, logging and a fault of no scope do: they touch registers, the error machinery, the logbook and what is sent, and
nothing else of the state; and of the registers only those of the error block, the block's own fault registers. -/

namespace Sys2Proof.Machine
set_option Elab.async false

/-- The state without its registers, error machinery, logbook and what it has sent: what a fault of no scope leaves alone. -/
def State.noErr (s : State) : State := { s with regs := [], err := {}, log := {}, out := [] }

@[simp] theorem State.noErr_regPut (s : State) (k : Nat) (w : Word) : (s.regPut k w).noErr = s.noErr := (rfl)
@[simp] theorem State.noErr_setF (s : State) (f : Fld) (v d : Nat) : (s.setF f v d).noErr = s.noErr := (rfl)
@[simp] theorem State.noErr_bump (s : State) (f : Fld) (n d : Nat) : (s.bump f n d).noErr = s.noErr := (rfl)
@[simp] theorem State.noErr_setBit (s : State) (f : Fld) (i : Nat) (b : Bool) (d : Nat) : (s.setBit f i b d).noErr = s.noErr := (rfl)
@[simp] theorem State.noErr_emit (s : State) (o : Output) : (s.emit o).noErr = s.noErr := (rfl)
@[simp] theorem State.noErr_err (s : State) (e : ErrSt) : State.noErr { s with err := e } = s.noErr := (rfl)
@[simp] theorem State.noErr_log (s : State) (l : LogSt) : State.noErr { s with log := l } = s.noErr := (rfl)

theorem State.noErr_ite {c : Prop} [Decidable c] {a b s : State} (ha : a.noErr = s.noErr) (hb : b.noErr = s.noErr) :
    (if c then a else b).noErr = s.noErr := by split <;> assumption

theorem State.noErr_foldl {α : Type} (f : State → α → State) (h : ∀ s x, (f s x).noErr = s.noErr) (l : List α) (s : State) :
    (l.foldl f s).noErr = s.noErr := by
  induction l generalizing s with
  | nil => rfl
  | cons x r ih => rw [List.foldl_cons, ih, h]

@[simp] theorem State.noErr_logRec (s : State) (k : Nat) (b : List Nat) : (s.logRec k b).noErr = s.noErr := by
  unfold State.logRec
  extract_lets sec acc t r
  exact State.noErr_ite ((State.noErr_log t _).trans (State.noErr_bump s _ _ _)) (State.noErr_log s _)

@[simp] theorem State.noErr_pmc (s : State) (ev n : Nat) (c : Option Nat) : (s.pmc ev n c).noErr = s.noErr :=
  State.noErr_foldl _ (fun s _ => State.noErr_ite (State.noErr_bump s _ _ _) rfl) _ _

@[simp] theorem State.noErr_ringPlace (s : State) (r : ErrRec) : (s.ringPlace r).noErr = s.noErr := by
  unfold State.ringPlace
  extract_lets p e0 t v
  have h : v.noErr = s.noErr := (State.noErr_setF t _ _ _).trans (State.noErr_err s _)
  exact State.noErr_ite ((State.noErr_emit v _).trans h) h

@[simp] theorem State.noErr_placeLow (s : State) (r : ErrRec) : (s.placeLow r).noErr = s.noErr := by
  unfold State.placeLow
  exact State.noErr_ite (State.noErr_ringPlace s r) (State.noErr_bump s _ _ _)

@[simp] theorem State.noErr_numbered (s : State) (r : ErrRec) : (s.numbered r).2.noErr = s.noErr := State.noErr_err s _

/-- What a fault of the error block itself does, its steps named. -/
theorem State.errobs_eq (s : State) (b sev : Nat) : s.errobs b sev =
    if s.afterFence sev then s else
    (let t := (s.setBit .ERR_FAULT_FLAGS b true).bump .ERR_RAISED_S_COUNT 1 (8 * sev)
     let n := t.numbered { time := t.now, sev := sev, raw := sev, block := 0x10, fault := b }
     let v := n.2.placeLow n.1
     if v.getF .KEEL_LOG_POLICY_MIN_SEV ≤ sev then v.logRec 3 (errBytes n.1 v.self (v.getF .TWIN_ID_PAIR)) else v) := rfl

@[simp] theorem State.noErr_errobs (s : State) (b sev : Nat) : (s.errobs b sev).noErr = s.noErr := by
  rw [State.errobs_eq]
  refine State.noErr_ite rfl ?_
  extract_lets t n v
  have ht : t.noErr = s.noErr := (State.noErr_bump _ _ _ _).trans (State.noErr_setBit s _ _ _ _)
  have h : v.noErr = s.noErr := (State.noErr_placeLow n.2 n.1).trans ((State.noErr_numbered t _).trans ht)
  exact State.noErr_ite ((State.noErr_logRec _ _ _).trans h) h

@[simp] theorem State.noErr_placeHigh (s : State) (r : ErrRec) : (s.placeHigh r).noErr = s.noErr := by
  unfold State.placeHigh
  split
  · exact State.noErr_ringPlace s r
  · extract_lets w e0 t v
    have ht : t.noErr = s.noErr := State.noErr_err s _
    have h : v.noErr = s.noErr := State.noErr_ite ((State.noErr_errobs t _ _).trans ht) ht
    exact State.noErr_ite ((State.noErr_errobs _ _ _).trans h) h

/-- Placing a record, its steps named. -/
theorem State.place_eq (s : State) (r : ErrRec) : s.place r =
    (let n := s.numbered r
     let v := if n.1.sev ≤ 1 then n.2.placeLow n.1 else n.2.placeHigh n.1
     if v.getF .KEEL_LOG_POLICY_MIN_SEV ≤ n.1.sev then v.logRec 3 (errBytes n.1 v.self (v.getF .TWIN_ID_PAIR)) else v) := rfl

@[simp] theorem State.noErr_place (s : State) (r : ErrRec) : (s.place r).noErr = s.noErr := by
  rw [State.place_eq]
  extract_lets n v
  have hn : n.2.noErr = s.noErr := State.noErr_numbered s r
  have h : v.noErr = s.noErr := State.noErr_ite ((State.noErr_placeLow n.2 n.1).trans hn) ((State.noErr_placeHigh n.2 n.1).trans hn)
  exact State.noErr_ite ((State.noErr_logRec _ _ _).trans h) h

/-- A fault of no scope widens to none. -/
theorem State.escalate_scope_none (s : State) (n : Nat) (r : Report) (e : Bool) (h : r.scope = .none) :
    (s.escalate n r e).1.scope = .none := by
  induction n generalizing r e with
  | zero => exact h
  | succ n ih =>
    have h1 : (s.escalateOnce r e).1.scope = .none := by
      unfold State.escalateOnce
      split
      · exact h
      · split
        · simp only [State.outer, h]
        · exact h
    unfold State.escalate
    dsimp only
    split
    · exact h
    · exact ih _ _ h1

theorem State.act_none (s : State) (r : Report) (h : r.scope = .none) : s.act r = s := by unfold State.act; rw [h]

/-- Raising a fault, its steps named. -/
theorem State.raise_eq (s : State) (r : Report) : s.raise r =
    (if s.consequence r then s
     else
      let x := s.escalate 4 r false
      let absorbed := s.absorbedBy x.1
      let a := if x.2 then s.bump .ERR_ESCALATED_COUNT else s
      let b := if absorbed then a.bump .ERR_ABSORBED_COUNT else a
      let v := (b.bump .ERR_RAISED_S_COUNT 1 (8 * x.1.sev)).place
        { time := (b.bump .ERR_RAISED_S_COUNT 1 (8 * x.1.sev)).now, sev := x.1.sev, raw := r.sev, esc := x.2, absorbed := absorbed, block := x.1.block,
          fault := x.1.fault, scope := x.1.scope, ctx := x.1.ctx, whereKind := x.1.whereKind, whereIs := x.1.whereIs, info := x.1.info }
      if absorbed then v else v.act x.1) := rfl

theorem State.noErr_raise_none (s : State) (r : Report) (h : r.scope = .none) : (s.raise r).noErr = s.noErr := by
  rw [State.raise_eq]
  refine State.noErr_ite rfl ?_
  extract_lets x absorbed a b v
  have hs : x.1.scope = .none := State.escalate_scope_none s 4 r false h
  have ha : a.noErr = s.noErr := State.noErr_ite (State.noErr_bump s _ _ _) rfl
  have hb : b.noErr = s.noErr := State.noErr_ite ((State.noErr_bump a _ _ _).trans ha) ha
  have hv : v.noErr = s.noErr := (State.noErr_place _ _).trans ((State.noErr_bump b _ _ _).trans hb)
  rw [State.act_none _ _ hs]
  exact State.noErr_ite hv hv

theorem State.noErr_fault_none (s : State) (f : FaultRegs) (r : Report) (d : Nat) (h : r.scope = .none) :
    (s.fault f r d).noErr = s.noErr := by
  unfold State.fault
  extract_lets r' first a b
  refine State.noErr_ite rfl ?_
  have ha : a.noErr = s.noErr := State.noErr_setBit s _ _ _ _
  have hb : b.noErr = s.noErr := State.noErr_ite ((State.noErr_regPut a _ _).trans ha) ha
  exact (State.noErr_raise_none b r' h).trans hb

theorem State.noErr_notice (s : State) (b f i : Nat) : (s.notice b f i).noErr = s.noErr := State.noErr_raise_none _ _ rfl

/-! ### Registers a fault of no scope leaves alone -/

/-- Registers outside the error block read the same in both states. -/
def State.sameOutsideErr (s t : State) : Prop := ∀ k, errKey k = false → t.regAt k = s.regAt k

theorem State.sameOutsideErr.refl (s : State) : s.sameOutsideErr s := fun _ _ => rfl

theorem State.sameOutsideErr.trans {s t u : State} (h : s.sameOutsideErr t) (g : t.sameOutsideErr u) : s.sameOutsideErr u :=
  fun k hk => (g k hk).trans (h k hk)

theorem State.sameOutsideErr_setF (s : State) (f : Fld) (v d : Nat) (h : errKey (f.reg + d) = true) : s.sameOutsideErr (s.setF f v d) := by
  intro k hk
  apply State.regAt_setF_other
  intro e; rw [e, h] at hk; exact Bool.noConfusion hk

theorem State.sameOutsideErr_bump (s : State) (f : Fld) (n d : Nat) (h : errKey (f.reg + d) = true) : s.sameOutsideErr (s.bump f n d) :=
  State.sameOutsideErr_setF s f _ d h

theorem State.sameOutsideErr_foldl {α : Type} (f : State → α → State) (h : ∀ (s : State) x, s.sameOutsideErr (f s x)) (l : List α) (s : State) :
    s.sameOutsideErr (l.foldl f s) := by
  induction l generalizing s with
  | nil => exact .refl s
  | cons x r ih => exact (h s x).trans (ih _)

theorem State.sameOutsideErr_log (s : State) (l : LogSt) : s.sameOutsideErr { s with log := l } := fun _ _ => rfl
theorem State.sameOutsideErr_err (s : State) (e : ErrSt) : s.sameOutsideErr { s with err := e } := fun _ _ => rfl
theorem State.sameOutsideErr_emit (s : State) (o : Output) : s.sameOutsideErr (s.emit o) := fun _ _ => rfl

theorem State.sameOutsideErr_ite {c : Prop} [Decidable c] {a b s : State} (ha : s.sameOutsideErr a) (hb : s.sameOutsideErr b) :
    s.sameOutsideErr (if c then a else b) := by split <;> assumption

theorem State.sameOutsideErr_logRec (s : State) (k : Nat) (b : List Nat) : s.sameOutsideErr (s.logRec k b) := by
  unfold State.logRec
  extract_lets sec acc t r
  exact State.sameOutsideErr_ite ((State.sameOutsideErr_bump s .LOG_SUPPRESSED_COUNT 1 0 (by decide)).trans (State.sameOutsideErr_log t _))
    (State.sameOutsideErr_log s _)

theorem State.sameOutsideErr_ringPlace (s : State) (r : ErrRec) : s.sameOutsideErr (s.ringPlace r) := by
  unfold State.ringPlace
  extract_lets p e0 t v
  have h : s.sameOutsideErr v := (State.sameOutsideErr_err s _).trans (State.sameOutsideErr_setF t .ERR_RING_PROD_PROD (p + 1) 0 (by decide))
  exact State.sameOutsideErr_ite (h.trans (State.sameOutsideErr_emit v _)) h

theorem State.sameOutsideErr_placeLow (s : State) (r : ErrRec) : s.sameOutsideErr (s.placeLow r) :=
  State.sameOutsideErr_ite (State.sameOutsideErr_ringPlace s r) (State.sameOutsideErr_bump s _ 1 0 (by decide))

theorem State.sameOutsideErr_raised (s : State) (sev : Nat) (hs : sev ≤ 5) : s.sameOutsideErr (s.bump .ERR_RAISED_S_COUNT 1 (8 * sev)) :=
  State.sameOutsideErr_bump s _ 1 _
    (by
      show (decide (0x00400000 ≤ 0x00400040 + 8 * sev) && decide (0x00400040 + 8 * sev < 0x00800000)) = true
      simp only [Bool.and_eq_true, decide_eq_true_eq]
      omega)

theorem State.sameOutsideErr_errobs (s : State) (b sev : Nat) (hs : sev ≤ 5) : s.sameOutsideErr (s.errobs b sev) := by
  rw [State.errobs_eq]
  refine State.sameOutsideErr_ite (.refl s) ?_
  extract_lets t n v
  have h1 : s.sameOutsideErr (s.setBit .ERR_FAULT_FLAGS b true) := State.sameOutsideErr_setF s _ _ 0 (by decide)
  have h2 : s.sameOutsideErr t := h1.trans (State.sameOutsideErr_raised _ sev hs)
  have h3 : s.sameOutsideErr v := (h2.trans (State.sameOutsideErr_err t _)).trans (State.sameOutsideErr_placeLow n.2 n.1)
  exact State.sameOutsideErr_ite (h3.trans (State.sameOutsideErr_logRec _ _ _)) h3

theorem State.sameOutsideErr_placeHigh (s : State) (r : ErrRec) : s.sameOutsideErr (s.placeHigh r) := by
  unfold State.placeHigh
  split
  · exact State.sameOutsideErr_ringPlace s r
  · extract_lets w e0 t v
    have h0 : s.sameOutsideErr t := State.sameOutsideErr_err s _
    have h : s.sameOutsideErr v := State.sameOutsideErr_ite (h0.trans (State.sameOutsideErr_errobs t 0 1 (by decide))) h0
    exact State.sameOutsideErr_ite (h.trans (State.sameOutsideErr_errobs v 1 1 (by decide))) h

theorem State.sameOutsideErr_place (s : State) (r : ErrRec) : s.sameOutsideErr (s.place r) := by
  rw [State.place_eq]
  extract_lets n v
  have h0 : s.sameOutsideErr n.2 := State.sameOutsideErr_err s _
  have h : s.sameOutsideErr v :=
    State.sameOutsideErr_ite (h0.trans (State.sameOutsideErr_placeLow _ _)) (h0.trans (State.sameOutsideErr_placeHigh _ _))
  exact State.sameOutsideErr_ite (h.trans (State.sameOutsideErr_logRec _ _ _)) h

/-- Escalation stays at severity 5 or below. -/
theorem State.escalate_sev (s : State) (n : Nat) (r : Report) (e : Bool) (h : r.sev ≤ 5) : (s.escalate n r e).1.sev ≤ 5 := by
  induction n generalizing r e with
  | zero => exact h
  | succ n ih =>
    have h1 : (s.escalateOnce r e).1.sev ≤ 5 := by
      unfold State.escalateOnce
      split
      · exact h
      · split
        · exact Nat.min_le_right _ _
        · exact h
    unfold State.escalate
    dsimp only
    split
    · exact h
    · exact ih _ _ h1

theorem State.sameOutsideErr_raise_none (s : State) (r : Report) (h : r.scope = .none) (hs : r.sev ≤ 5) : s.sameOutsideErr (s.raise r) := by
  rw [State.raise_eq]
  refine State.sameOutsideErr_ite (.refl s) ?_
  extract_lets x absorbed a b v
  have h0 : x.1.scope = .none := State.escalate_scope_none s 4 r false h
  have h1 : x.1.sev ≤ 5 := State.escalate_sev s 4 r false hs
  have ha : s.sameOutsideErr a := State.sameOutsideErr_ite (State.sameOutsideErr_bump s _ 1 0 (by decide)) (.refl s)
  have hb : s.sameOutsideErr b := State.sameOutsideErr_ite (ha.trans (State.sameOutsideErr_bump a _ 1 0 (by decide))) ha
  have hv : s.sameOutsideErr v := (hb.trans (State.sameOutsideErr_raised b _ h1)).trans (State.sameOutsideErr_place _ _)
  rw [State.act_none _ _ h0]
  exact State.sameOutsideErr_ite hv hv

theorem State.sameOutsideErr_notice (s : State) (b f i : Nat) : s.sameOutsideErr (s.notice b f i) :=
  State.sameOutsideErr_raise_none s _ rfl (Nat.zero_le 5)

/-- A fault of no scope leaves every register alone but its block's flags and first-fault register and the error block's. -/
theorem State.regAt_fault_none (s : State) (f : FaultRegs) (r : Report) (d k : Nat) (h : r.scope = .none) (hs : r.sev ≤ 5)
    (hk : errKey k = false) (h1 : k ≠ f.flags.reg + d) (h2 : k ≠ f.info + d) : (s.fault f r d).regAt k = s.regAt k := by
  unfold State.fault
  extract_lets r' first a b
  split
  · rfl
  · rw [State.sameOutsideErr_raise_none b r' h hs k hk]
    have ha : a.regAt k = s.regAt k := State.regAt_setBit_other _ _ _ _ _ _ h1
    show (if first = true then a.regPut (f.info + d) (BitVec.ofNat 64 r'.info) else a).regAt k = s.regAt k
    split
    · rw [State.regAt_regPut, if_neg h2, ha]
    · exact ha

end Sys2Proof.Machine
end

