-- ==== Sys2Proof/Laws/Memory.lean ====
section
/-! SUPPORT. Laws of memory (R21, R219, R603): a read after a write, the bytes a write leaves alone, and the canonical form that every memory
operation keeps. -/

namespace Sys2Proof.Machine
set_option Elab.async false

theorem SMap.get_filter {α : Type} (d : α) (m : SMap α) (f : Nat → Bool) (k : Nat) :
    SMap.get d (m.filter fun p => f p.1) k = if f k then m.get d k else d := by
  induction m with
  | nil => simp [SMap.get]
  | cons p r ih =>
    obtain ⟨j, w⟩ := p
    rw [List.filter_cons]
    by_cases hj : f j = true
    · simp only [hj, if_true, SMap.get]
      by_cases e : j = k
      · subst e; simp [hj]
      · simp [e, ih]
    · simp only [hj, SMap.get]
      by_cases e : j = k
      · subst e; simp [hj, ih]
      · simp [e, ih]

/-! ### Bytes -/

theorem memPut_get (m : List Host.Cell) (a x : Nat) (b : Byte) :
    SMap.get 0 (memPut m a b) x = if x = a then b else SMap.get 0 m x := SMap.get_set 0 m a x b

/-- A byte after a write of bytes from `a` upward: the byte written there, or as before. -/
theorem memPuts_get (bs : List Byte) (m : List Host.Cell) (a x : Nat) :
    SMap.get 0 (memPuts m a bs) x = if a ≤ x ∧ x < a + bs.length then bs.getD (x - a) 0 else SMap.get 0 m x := by
  induction bs generalizing m a with
  | nil => simp [memPuts] <;> omega
  | cons b r ih =>
    rw [memPuts, ih, memPut_get]
    by_cases h : x = a
    · subst h
      rw [if_neg (by omega)]; simp
    · by_cases h2 : a + 1 ≤ x ∧ x < a + 1 + r.length
      · rw [if_pos h2, if_pos (by simp; omega)]
        have e : x - a = (x - (a + 1)) + 1 := by omega
        rw [e, List.getD_cons_succ]
      · rw [if_neg h2, if_neg h, if_neg (by simp; omega)]

theorem leBytes_length (n v : Nat) : (leBytes n v).length = n := by
  induction n generalizing v with
  | zero => rfl
  | succ n ih => simp [leBytes, ih]

/-- Byte `i` of a number's little-endian bytes. -/
theorem leBytes_getD (n v i : Nat) (h : i < n) : (leBytes n v).getD i 0 = BitVec.ofNat 8 (v / 256 ^ i % 256) := by
  induction n generalizing v i with
  | zero => omega
  | succ n ih =>
    cases i with
    | zero => simp [leBytes]
    | succ i =>
      rw [leBytes, List.getD_cons_succ, ih _ _ (by omega), Nat.div_div_eq_div_mul, ← Nat.pow_succ']

/-- Little-endian bytes read back as the number they spell. -/
theorem leNat_leBytes (n v : Nat) : leNat (leBytes n v) = v % 256 ^ n := by
  induction n generalizing v with
  | zero => simp [leBytes, leNat]; omega
  | succ n ih =>
    rw [leBytes, leNat, ih, BitVec.toNat_ofNat]
    have h1 : v % 256 % 2 ^ 8 = v % 256 := by omega
    rw [h1, Nat.pow_succ', Nat.mod_mul]

/-! ### A line, a range -/

/-- Every byte after a line is written: the line's own bytes are the data's, the rest as before. -/
theorem State.putLine_byteAt (s : State) (a x : Nat) (l : Line) (p : Bool) :
    (s.putLine a l p).byteAt x =
      if lineOf x = lineOf a then BitVec.ofNat 8 (l.toNat / 256 ^ (x - lineOf a * 64) % 256) else s.byteAt x := by
  unfold State.byteAt State.putLine
  simp only [memPuts_get, leBytes_length]
  by_cases h : lineOf x = lineOf a
  · have h1 : lineOf a * 64 ≤ x ∧ x < lineOf a * 64 + 64 := by unfold lineOf at *; omega
    rw [if_pos h, if_pos h1, leBytes_getD _ _ _ (by omega)]
  · have h1 : ¬(lineOf a * 64 ≤ x ∧ x < lineOf a * 64 + 64) := by unfold lineOf at *; omega
    rw [if_neg h, if_neg h1]

theorem State.putLine_poisonAt (s : State) (a x : Nat) (l : Line) (p : Bool) :
    (s.putLine a l p).poisonAt x = if lineOf x = lineOf a then p else s.poisonAt x := SMap.get_set false s.memPoison _ _ p

/-- Every byte after bytes are written from `a` upward. -/
theorem State.putBytes_byteAt (s : State) (a x : Nat) (bs : List Byte) :
    (s.putBytes a bs).byteAt x = if a ≤ x ∧ x < a + bs.length then bs.getD (x - a) 0 else s.byteAt x :=
  memPuts_get bs s.mem a x

theorem State.putPart_byteAt (s : State) (a x : Nat) (bs : List Byte) :
    (s.putPart a bs).byteAt x = if a ≤ x ∧ x < a + bs.length then bs.getD (x - a) 0 else s.byteAt x :=
  memPuts_get bs s.mem a x

/-- Every byte after a range is filled with zeros (R219). -/
theorem State.zeroRange_byteAt (s : State) (a n x : Nat) :
    (s.zeroRange a n).byteAt x = if a ≤ x ∧ x < a + n then 0 else s.byteAt x := by
  refine (SMap.get_filter 0 s.mem (fun k => !(decide (a ≤ k) && decide (k < a + n))) x).trans ?_
  by_cases h : a ≤ x ∧ x < a + n
  · simp [h]
  · rw [if_neg h]
    have : (!(decide (a ≤ x) && decide (x < a + n))) = true := by
      simp only [Bool.not_eq_true', Bool.and_eq_false_iff, decide_eq_false_iff_not]; omega
    simp only [this, if_true]; rfl

/-! ### The canonical form of memory -/

theorem Memory.wf_memPut (m : List Host.Cell) (a : Nat) (b : Byte) (h : Memory.wf m = true) : Memory.wf (memPut m a b) = true :=
  SMap.wf_set (fun _ => (0 : BitVec 8)) m a b h

theorem Memory.wf_memPuts (bs : List Byte) (m : List Host.Cell) (a : Nat) (h : Memory.wf m = true) :
    Memory.wf (memPuts m a bs) = true := by
  induction bs generalizing m a with
  | nil => exact h
  | cons b r ih => exact ih _ _ (Memory.wf_memPut m a b h)

theorem Memory.wf_putLine (s : State) (a : Nat) (l : Line) (p : Bool) (h : Memory.wf s.mem = true) :
    Memory.wf (s.putLine a l p).mem = true := Memory.wf_memPuts _ _ _ h

theorem Memory.wf_putPart (s : State) (a : Nat) (bs : List Byte) (h : Memory.wf s.mem = true) :
    Memory.wf (s.putPart a bs).mem = true := Memory.wf_memPuts _ _ _ h

theorem Memory.wf_putBytes (s : State) (a : Nat) (bs : List Byte) (h : Memory.wf s.mem = true) :
    Memory.wf (s.putBytes a bs).mem = true := Memory.wf_memPuts _ _ _ h

theorem Memory.wf_putTagged (s : State) (a : Nat) (l : Line) (p : Bool) (g : Nat) (h : Memory.wf s.mem = true) :
    Memory.wf (s.putTagged a l p g).mem = true := Memory.wf_memPuts _ _ _ h

theorem Memory.wf_zeroRange (s : State) (a n : Nat) (h : Memory.wf s.mem = true) :
    Memory.wf (s.zeroRange a n).mem = true := SMap.wf_filter _ _ _ h

theorem Memory.wf_reset : Memory.wf State.reset.mem = true := rfl

end Sys2Proof.Machine
end

