-- ==== Sys2Proof/Laws/Frames.lean ====
section
/-! SUPPORT. Laws of the frame predicates: each holds of a state and itself, chains, and does not see the canonical form; and the two weaker
equalities, up to registers, errors and what is sent, and up to what a catch touches, give them. -/

namespace Sys2Proof.Machine
set_option Elab.async false

theorem State.sameNet_refl (s : State) : s.sameNet s := ⟨rfl, rfl, rfl, rfl, rfl, rfl, rfl⟩
theorem State.sameNet.trans {s t u : State} (h : s.sameNet t) (g : t.sameNet u) : s.sameNet u := by
  obtain ⟨h0, h1, h2, h3, h4, h5, h6⟩ := h
  obtain ⟨g0, g1, g2, g3, g4, g5, g6⟩ := g
  exact ⟨g0.trans h0, g1.trans h1, g2.trans h2, g3.trans h3, g4.trans h4, g5.trans h5, g6.trans h6⟩
@[simp] theorem State.sameNet_canon (s t : State) : s.sameNet t.canon ↔ s.sameNet t := ⟨id, id⟩
theorem State.sameNet_of_noErr {s t : State} (h : t.noErr = s.noErr) : s.sameNet t :=
  ⟨(congrArg State.planes h : t.noErr.planes = s.noErr.planes), (congrArg State.units h : t.noErr.units = s.noErr.units), (congrArg State.inPorts h : t.noErr.inPorts = s.noErr.inPorts), (congrArg State.outPorts h : t.noErr.outPorts = s.noErr.outPorts), (congrArg State.switches h : t.noErr.switches = s.noErr.switches), (congrArg State.rigs h : t.noErr.rigs = s.noErr.rigs), (congrArg State.waves h : t.noErr.waves = s.noErr.waves)⟩

theorem State.sameTiers_refl (s : State) : s.sameTiers s := ⟨rfl, rfl, rfl, rfl, rfl⟩
theorem State.sameTiers.trans {s t u : State} (h : s.sameTiers t) (g : t.sameTiers u) : s.sameTiers u := by
  obtain ⟨h0, h1, h2, h3, h4⟩ := h
  obtain ⟨g0, g1, g2, g3, g4⟩ := g
  exact ⟨g0.trans h0, g1.trans h1, g2.trans h2, g3.trans h3, g4.trans h4⟩
@[simp] theorem State.sameTiers_canon (s t : State) : s.sameTiers t.canon ↔ s.sameTiers t := ⟨id, id⟩
theorem State.sameTiers_of_noErr {s t : State} (h : t.noErr = s.noErr) : s.sameTiers t :=
  ⟨(congrArg State.tiers h : t.noErr.tiers = s.noErr.tiers), (congrArg State.streams h : t.noErr.streams = s.noErr.streams), (congrArg State.seals h : t.noErr.seals = s.noErr.seals), (congrArg State.sed h : t.noErr.sed = s.noErr.sed), (congrArg State.wpkg h : t.noErr.wpkg = s.noErr.wpkg)⟩

theorem State.sameHost_refl (s : State) : s.sameHost s := ⟨rfl, rfl, rfl, rfl, rfl, rfl⟩
theorem State.sameHost.trans {s t u : State} (h : s.sameHost t) (g : t.sameHost u) : s.sameHost u := by
  obtain ⟨h0, h1, h2, h3, h4, h5⟩ := h
  obtain ⟨g0, g1, g2, g3, g4, g5⟩ := g
  exact ⟨g0.trans h0, g1.trans h1, g2.trans h2, g3.trans h3, g4.trans h4, g5.trans h5⟩
@[simp] theorem State.sameHost_canon (s t : State) : s.sameHost t.canon ↔ s.sameHost t := ⟨id, id⟩
theorem State.sameHost_of_noErr {s t : State} (h : t.noErr = s.noErr) : s.sameHost t :=
  ⟨(congrArg State.ctxs h : t.noErr.ctxs = s.noErr.ctxs), (congrArg State.vis h : t.noErr.vis = s.noErr.vis), (congrArg State.rings h : t.noErr.rings = s.noErr.rings), (congrArg State.entries h : t.noErr.entries = s.noErr.entries), (congrArg State.reqs h : t.noErr.reqs = s.noErr.reqs), (congrArg State.step h : t.noErr.step = s.noErr.step)⟩

theorem State.sameFabric_refl (s : State) : s.sameFabric s := ⟨rfl, rfl, rfl, rfl, rfl⟩
theorem State.sameFabric.trans {s t u : State} (h : s.sameFabric t) (g : t.sameFabric u) : s.sameFabric u := by
  obtain ⟨h0, h1, h2, h3, h4⟩ := h
  obtain ⟨g0, g1, g2, g3, g4⟩ := g
  exact ⟨g0.trans h0, g1.trans h1, g2.trans h2, g3.trans h3, g4.trans h4⟩
@[simp] theorem State.sameFabric_canon (s t : State) : s.sameFabric t.canon ↔ s.sameFabric t := ⟨id, id⟩
theorem State.sameFabric_of_noErr {s t : State} (h : t.noErr = s.noErr) : s.sameFabric t :=
  ⟨(congrArg State.scat h : t.noErr.scat = s.noErr.scat), (congrArg State.fab h : t.noErr.fab = s.noErr.fab), (congrArg State.coll h : t.noErr.coll = s.noErr.coll), (congrArg State.slices h : t.noErr.slices = s.noErr.slices), (congrArg State.twin h : t.noErr.twin = s.noErr.twin)⟩

theorem State.samePower_refl (s : State) : s.samePower s := ⟨rfl, rfl, rfl⟩
theorem State.samePower.trans {s t u : State} (h : s.samePower t) (g : t.samePower u) : s.samePower u := by
  obtain ⟨h0, h1, h2⟩ := h
  obtain ⟨g0, g1, g2⟩ := g
  exact ⟨g0.trans h0, g1.trans h1, g2.trans h2⟩
@[simp] theorem State.samePower_canon (s t : State) : s.samePower t.canon ↔ s.samePower t := ⟨id, id⟩
theorem State.samePower_of_noErr {s t : State} (h : t.noErr = s.noErr) : s.samePower t :=
  ⟨(congrArg State.pwr h : t.noErr.pwr = s.noErr.pwr), (congrArg State.seats h : t.noErr.seats = s.noErr.seats), (congrArg State.board h : t.noErr.board = s.noErr.board)⟩

theorem State.sameErr_refl (s : State) : s.sameErr s := ⟨rfl, rfl, rfl⟩
theorem State.sameErr.trans {s t u : State} (h : s.sameErr t) (g : t.sameErr u) : s.sameErr u := by
  obtain ⟨h0, h1, h2⟩ := h
  obtain ⟨g0, g1, g2⟩ := g
  exact ⟨g0.trans h0, g1.trans h1, g2.trans h2⟩
@[simp] theorem State.sameErr_canon (s t : State) : s.sameErr t.canon ↔ s.sameErr t := ⟨id, id⟩

theorem State.sameTime_refl (s : State) : s.sameTime s := ⟨rfl, rfl⟩
theorem State.sameTime.trans {s t u : State} (h : s.sameTime t) (g : t.sameTime u) : s.sameTime u := by
  obtain ⟨h0, h1⟩ := h
  obtain ⟨g0, g1⟩ := g
  exact ⟨g0.trans h0, g1.trans h1⟩
@[simp] theorem State.sameTime_canon (s t : State) : s.sameTime t.canon ↔ s.sameTime t := ⟨id, id⟩
theorem State.sameTime_of_noErr {s t : State} (h : t.noErr = s.noErr) : s.sameTime t :=
  ⟨(congrArg State.now h : t.noErr.now = s.noErr.now), (congrArg State.pending h : t.noErr.pending = s.noErr.pending)⟩

theorem State.sel_of_noErr {s t : State} (h : t.noErr = s.noErr) : t.sel = s.sel := (congrArg State.sel h : t.noErr.sel = s.noErr.sel)
theorem State.mem_of_noErr {s t : State} (h : t.noErr = s.noErr) : t.mem = s.mem := (congrArg State.mem h : t.noErr.mem = s.noErr.mem)
theorem State.memPoison_of_noErr {s t : State} (h : t.noErr = s.noErr) : t.memPoison = s.memPoison := (congrArg State.memPoison h : t.noErr.memPoison = s.noErr.memPoison)
theorem State.memTag_of_noErr {s t : State} (h : t.noErr = s.noErr) : t.memTag = s.memTag := (congrArg State.memTag h : t.noErr.memTag = s.noErr.memTag)
theorem State.ops_of_noErr {s t : State} (h : t.noErr = s.noErr) : t.ops = s.ops := (congrArg State.ops h : t.noErr.ops = s.noErr.ops)
theorem State.planes_of_noErr {s t : State} (h : t.noErr = s.noErr) : t.planes = s.planes := (congrArg State.planes h : t.noErr.planes = s.noErr.planes)
theorem State.units_of_noErr {s t : State} (h : t.noErr = s.noErr) : t.units = s.units := (congrArg State.units h : t.noErr.units = s.noErr.units)
theorem State.inPorts_of_noErr {s t : State} (h : t.noErr = s.noErr) : t.inPorts = s.inPorts := (congrArg State.inPorts h : t.noErr.inPorts = s.noErr.inPorts)
theorem State.outPorts_of_noErr {s t : State} (h : t.noErr = s.noErr) : t.outPorts = s.outPorts := (congrArg State.outPorts h : t.noErr.outPorts = s.noErr.outPorts)
theorem State.switches_of_noErr {s t : State} (h : t.noErr = s.noErr) : t.switches = s.switches := (congrArg State.switches h : t.noErr.switches = s.noErr.switches)
theorem State.tiers_of_noErr {s t : State} (h : t.noErr = s.noErr) : t.tiers = s.tiers := (congrArg State.tiers h : t.noErr.tiers = s.noErr.tiers)
theorem State.streams_of_noErr {s t : State} (h : t.noErr = s.noErr) : t.streams = s.streams := (congrArg State.streams h : t.noErr.streams = s.noErr.streams)
theorem State.twin_of_noErr {s t : State} (h : t.noErr = s.noErr) : t.twin = s.twin := (congrArg State.twin h : t.noErr.twin = s.noErr.twin)
theorem State.rigs_of_noErr {s t : State} (h : t.noErr = s.noErr) : t.rigs = s.rigs := (congrArg State.rigs h : t.noErr.rigs = s.noErr.rigs)
theorem State.waves_of_noErr {s t : State} (h : t.noErr = s.noErr) : t.waves = s.waves := (congrArg State.waves h : t.noErr.waves = s.noErr.waves)
theorem State.ctxs_of_noErr {s t : State} (h : t.noErr = s.noErr) : t.ctxs = s.ctxs := (congrArg State.ctxs h : t.noErr.ctxs = s.noErr.ctxs)
theorem State.vis_of_noErr {s t : State} (h : t.noErr = s.noErr) : t.vis = s.vis := (congrArg State.vis h : t.noErr.vis = s.noErr.vis)
theorem State.rings_of_noErr {s t : State} (h : t.noErr = s.noErr) : t.rings = s.rings := (congrArg State.rings h : t.noErr.rings = s.noErr.rings)
theorem State.entries_of_noErr {s t : State} (h : t.noErr = s.noErr) : t.entries = s.entries := (congrArg State.entries h : t.noErr.entries = s.noErr.entries)
theorem State.wpkg_of_noErr {s t : State} (h : t.noErr = s.noErr) : t.wpkg = s.wpkg := (congrArg State.wpkg h : t.noErr.wpkg = s.noErr.wpkg)
theorem State.step_of_noErr {s t : State} (h : t.noErr = s.noErr) : t.step = s.step := (congrArg State.step h : t.noErr.step = s.noErr.step)
theorem State.sed_of_noErr {s t : State} (h : t.noErr = s.noErr) : t.sed = s.sed := (congrArg State.sed h : t.noErr.sed = s.noErr.sed)
theorem State.seals_of_noErr {s t : State} (h : t.noErr = s.noErr) : t.seals = s.seals := (congrArg State.seals h : t.noErr.seals = s.noErr.seals)
theorem State.scat_of_noErr {s t : State} (h : t.noErr = s.noErr) : t.scat = s.scat := (congrArg State.scat h : t.noErr.scat = s.noErr.scat)
theorem State.fab_of_noErr {s t : State} (h : t.noErr = s.noErr) : t.fab = s.fab := (congrArg State.fab h : t.noErr.fab = s.noErr.fab)
theorem State.coll_of_noErr {s t : State} (h : t.noErr = s.noErr) : t.coll = s.coll := (congrArg State.coll h : t.noErr.coll = s.noErr.coll)
theorem State.reqs_of_noErr {s t : State} (h : t.noErr = s.noErr) : t.reqs = s.reqs := (congrArg State.reqs h : t.noErr.reqs = s.noErr.reqs)
theorem State.slices_of_noErr {s t : State} (h : t.noErr = s.noErr) : t.slices = s.slices := (congrArg State.slices h : t.noErr.slices = s.noErr.slices)
theorem State.snap_of_noErr {s t : State} (h : t.noErr = s.noErr) : t.snap = s.snap := (congrArg State.snap h : t.noErr.snap = s.noErr.snap)
theorem State.pwr_of_noErr {s t : State} (h : t.noErr = s.noErr) : t.pwr = s.pwr := (congrArg State.pwr h : t.noErr.pwr = s.noErr.pwr)
theorem State.seats_of_noErr {s t : State} (h : t.noErr = s.noErr) : t.seats = s.seats := (congrArg State.seats h : t.noErr.seats = s.noErr.seats)
theorem State.board_of_noErr {s t : State} (h : t.noErr = s.noErr) : t.board = s.board := (congrArg State.board h : t.noErr.board = s.noErr.board)
theorem State.now_of_noErr {s t : State} (h : t.noErr = s.noErr) : t.now = s.now := (congrArg State.now h : t.noErr.now = s.noErr.now)
theorem State.fresh_of_noErr {s t : State} (h : t.noErr = s.noErr) : t.fresh = s.fresh := (congrArg State.fresh h : t.noErr.fresh = s.noErr.fresh)
theorem State.pending_of_noErr {s t : State} (h : t.noErr = s.noErr) : t.pending = s.pending := (congrArg State.pending h : t.noErr.pending = s.noErr.pending)

theorem State.sameMemory_refl (s : State) : s.sameMemory s := fun _ => ⟨rfl, rfl, rfl⟩
theorem State.sameMemory.trans {s t u : State} (h : s.sameMemory t) (g : t.sameMemory u) : s.sameMemory u := fun a =>
  ⟨(g a).1.trans (h a).1, (g a).2.1.trans (h a).2.1, (g a).2.2.trans (h a).2.2⟩
@[simp] theorem State.sameMemory_canon (s t : State) : s.sameMemory t.canon ↔ s.sameMemory t := by
  simp only [State.sameMemory, State.canon_byteAt, State.canon_poisonAt, State.canon_memTag_get]
theorem State.sameMemory_of (s t : State) (h : t.mem = s.mem) (p : t.memPoison = s.memPoison) (g : t.memTag = s.memTag) : s.sameMemory t :=
  fun a => ⟨State.byteAt_congr t s h a, State.poisonAt_congr t s p a, by rw [g]⟩
theorem State.sameMemory_of_noErr {s t : State} (h : t.noErr = s.noErr) : s.sameMemory t :=
  State.sameMemory_of s t (congrArg State.mem h : t.noErr.mem = s.noErr.mem) (congrArg State.memPoison h : t.noErr.memPoison = s.noErr.memPoison)
    (congrArg State.memTag h : t.noErr.memTag = s.noErr.memTag)

theorem State.sameOps_refl (s : State) : s.sameOps s := fun _ _ => rfl
theorem State.sameOps.trans {s t u : State} (h : s.sameOps t) (g : t.sameOps u) : s.sameOps u := fun a b => (g a b).trans (h a b)
@[simp] theorem State.sameOps_canon (s t : State) : s.sameOps t.canon ↔ s.sameOps t := by simp only [State.sameOps, State.canon_opLine]
theorem State.sameOps_of (s t : State) (h : t.ops = s.ops) : s.sameOps t := fun u l => State.opLine_congr t s h u l
theorem State.sameOps_of_noErr {s t : State} (h : t.noErr = s.noErr) : s.sameOps t := State.sameOps_of s t (congrArg State.ops h : t.noErr.ops = s.noErr.ops)

theorem State.sameRegsBut_refl (s : State) (ks : List Nat) : s.sameRegsBut s ks := fun _ _ => rfl
@[simp] theorem State.sameRegsBut_canon (s t : State) (ks : List Nat) : s.sameRegsBut t.canon ks ↔ s.sameRegsBut t ks := by
  simp only [State.sameRegsBut, State.canon_regAt]
theorem State.sameRegsBut_of (s t : State) (ks : List Nat) (h : t.regs = s.regs) : s.sameRegsBut t ks := fun k _ => State.regAt_congr t s h k
theorem State.sameRegsBut.trans {s t u : State} {ks : List Nat} (h : s.sameRegsBut t ks) (g : t.sameRegsBut u ks) : s.sameRegsBut u ks :=
  fun k hk => (g k hk).trans (h k hk)
theorem State.sameRegsBut_setF (s : State) (f : Fld) (v d : Nat) (ks : List Nat) (h : ks.contains (f.reg + d) = true) :
    s.sameRegsBut (s.setF f v d) ks := fun k hk => State.regAt_setF_other _ _ _ _ _ (by intro e; rw [e, h] at hk; exact Bool.noConfusion hk)
theorem State.sameRegsBut_regPut (s : State) (k : Nat) (w : Word) (ks : List Nat) (h : ks.contains k = true) : s.sameRegsBut (s.regPut k w) ks := by
  intro j hj
  rw [State.regAt_regPut, if_neg]
  intro e; rw [e, h] at hj; exact Bool.noConfusion hj

theorem State.sameRegs_refl (s : State) : s.sameRegs s := ⟨fun _ => rfl, fun _ => rfl⟩
@[simp] theorem State.sameRegs_canon (s t : State) : s.sameRegs t.canon ↔ s.sameRegs t := by
  simp only [State.sameRegs, State.canon_regAt, State.canon_sel_get]
theorem State.sameRegs_of (s t : State) (h : t.regs = s.regs) (g : t.sel = s.sel) : s.sameRegs t :=
  ⟨fun k => State.regAt_congr t s h k, fun k => by rw [g]⟩

theorem State.sameStores_refl (s : State) : s.sameStores s :=
  ⟨s.sameMemory_refl, s.sameOps_refl, s.sameNet_refl, s.sameTiers_refl, s.sameHost_refl, s.sameFabric_refl, s.samePower_refl, s.sameErr_refl,
    s.sameTime_refl⟩
@[simp] theorem State.sameStores_canon (s t : State) : s.sameStores t.canon ↔ s.sameStores t := by
  simp only [State.sameStores, State.sameMemory_canon, State.sameOps_canon, State.sameNet_canon, State.sameTiers_canon, State.sameHost_canon,
    State.sameFabric_canon, State.samePower_canon, State.sameErr_canon, State.sameTime_canon]
theorem State.sameStores.trans {s t u : State} (h : s.sameStores t) (g : t.sameStores u) : s.sameStores u := by
  obtain ⟨h1, h2, h3, h4, h5, h6, h7, h8, h9⟩ := h
  obtain ⟨g1, g2, g3, g4, g5, g6, g7, g8, g9⟩ := g
  exact ⟨h1.trans g1, h2.trans g2, h3.trans g3, h4.trans g4, h5.trans g5, h6.trans g6, h7.trans g7, h8.trans g8, h9.trans g9⟩

/-- A state that differs in its registers, selectors and what it has sent alone. -/
theorem State.sameStores_of (s t : State) (h : { t with regs := s.regs, sel := s.sel, out := s.out } = s) : s.sameStores t := by
  have e : ∀ (α : Type) (π : State → α), (∀ (t : State) r z o, π { t with regs := r, sel := z, out := o } = π t) → π t = π s := by
    intro α π hπ
    have := congrArg π h
    rwa [hπ] at this
  exact ⟨State.sameMemory_of s t (e _ State.mem fun _ _ _ _ => rfl) (e _ State.memPoison fun _ _ _ _ => rfl) (e _ State.memTag fun _ _ _ _ => rfl),
    State.sameOps_of s t (e _ State.ops fun _ _ _ _ => rfl),
    ⟨e _ State.planes fun _ _ _ _ => rfl, e _ State.units fun _ _ _ _ => rfl, e _ State.inPorts fun _ _ _ _ => rfl,
      e _ State.outPorts fun _ _ _ _ => rfl, e _ State.switches fun _ _ _ _ => rfl, e _ State.rigs fun _ _ _ _ => rfl,
      e _ State.waves fun _ _ _ _ => rfl⟩,
    ⟨e _ State.tiers fun _ _ _ _ => rfl, e _ State.streams fun _ _ _ _ => rfl, e _ State.seals fun _ _ _ _ => rfl, e _ State.sed fun _ _ _ _ => rfl,
      e _ State.wpkg fun _ _ _ _ => rfl⟩,
    ⟨e _ State.ctxs fun _ _ _ _ => rfl, e _ State.vis fun _ _ _ _ => rfl, e _ State.rings fun _ _ _ _ => rfl, e _ State.entries fun _ _ _ _ => rfl,
      e _ State.reqs fun _ _ _ _ => rfl, e _ State.step fun _ _ _ _ => rfl⟩,
    ⟨e _ State.scat fun _ _ _ _ => rfl, e _ State.fab fun _ _ _ _ => rfl, e _ State.coll fun _ _ _ _ => rfl, e _ State.slices fun _ _ _ _ => rfl,
      e _ State.twin fun _ _ _ _ => rfl⟩,
    ⟨e _ State.pwr fun _ _ _ _ => rfl, e _ State.seats fun _ _ _ _ => rfl, e _ State.board fun _ _ _ _ => rfl⟩,
    ⟨e _ State.err fun _ _ _ _ => rfl, e _ State.snap fun _ _ _ _ => rfl, e _ State.log fun _ _ _ _ => rfl⟩,
    ⟨e _ State.now fun _ _ _ _ => rfl, e _ State.pending fun _ _ _ _ => rfl⟩⟩

theorem State.sameStores_setF (s : State) (f : Fld) (v d : Nat) : s.sameStores (s.setF f v d) := State.sameStores_of s _ rfl
theorem State.sameStores_bump (s : State) (f : Fld) (v d : Nat) : s.sameStores (s.bump f v d) := State.sameStores_of s _ rfl
theorem State.sameStores_setBit (s : State) (f : Fld) (i : Nat) (b : Bool) (d : Nat) : s.sameStores (s.setBit f i b d) := State.sameStores_of s _ rfl
theorem State.sameStores_regPut (s : State) (k : Nat) (w : Word) : s.sameStores (s.regPut k w) := State.sameStores_of s _ rfl
theorem State.sameStores_emit (s : State) (o : Output) : s.sameStores (s.emit o) := State.sameStores_of s _ rfl
theorem State.sameStores_sel (s : State) (z : SMap Nat) : s.sameStores { s with sel := z } := State.sameStores_of s _ rfl

/-- A command answers once its effect is known to satisfy what is asked, read through the canonical form. -/
theorem answers_of {i : Instr} {s x : State} {P : State → Prop} (h : exec i s = done x) (hp : P x.canon) : Answers i s P := ⟨x.canon, h, hp⟩

end Sys2Proof.Machine
end

