-- ==== Sys2Proof/Laws/Access.lean ====
section
/-! SUPPORT. Laws of register accesses (R13-R17, R605): what a write to an awake block does, and what the performance counters add to it. -/

namespace Sys2Proof.Machine
set_option Elab.async false

/-- With no seat asleep a write acts at once. -/
theorem State.regWrite_awake (s : State) (m : Master) (off size v : Nat) (h : ∀ k, s.asleep k = false) : s.regWrite m off size v = s.writeReg m off size v := by
  unfold State.regWrite
  split
  · split
    · unfold State.holdFor; rw [h]; simp
    · rfl
  · rfl

theorem State.pmcAfter_sel (s t : State) : (s.pmcAfter t).sel = t.sel := by
  unfold State.pmcAfter
  generalize List.range 16 = l
  induction l generalizing t with
  | nil => rfl
  | cons k r ih =>
    rw [List.foldl_cons, ih]
    dsimp only
    split
    · exact State.setF_sel _ _ _ _
    · rfl

end Sys2Proof.Machine
end

