-- ==== Sys2Proof/Laws/Changes.lean ====
section
/-! SUPPORT. Which parts of the machine each shared operation may change: one lemma for each, read as "a state that has changed in these parts alone
still has after the operation". -/

namespace Sys2Proof.Machine
set_option Elab.async false

theorem State.changesOnly_refl (s : State) (ps : List Part) : s.changesOnly s ps := by
  intro p _; cases p <;> first | exact fun _ => rfl | exact fun _ _ => rfl | exact fun _ => ⟨rfl, rfl, rfl⟩ | rfl
theorem State.same.trans {s t u : State} {p : Part} (h : s.same t p) (g : t.same u p) : s.same u p := by
  cases p
  case regs => exact fun k => (g k).trans (h k)
  case sel => exact fun k => (g k).trans (h k)
  case mem => exact State.sameMemory.trans h g
  case ops => exact State.sameOps.trans h g
  all_goals exact Eq.trans g h
theorem State.changesOnly.trans {s t u : State} {ps : List Part} (h : s.changesOnly t ps) (g : t.changesOnly u ps) : s.changesOnly u ps :=
  fun p hp => State.same.trans (h p hp) (g p hp)
theorem State.changesOnly.mono {s t : State} {ps qs : List Part} (h : s.changesOnly t ps) (hq : ∀ p ∈ ps, qs.contains p = true) : s.changesOnly t qs := by
  intro p hp
  refine h p ?_
  cases hc : ps.contains p with
  | false => rfl
  | true => have := hq p (List.contains_iff_mem.1 hc); rw [this] at hp; exact Bool.noConfusion hp
@[simp] theorem State.changesOnly_canon (s t : State) (ps : List Part) : s.changesOnly t.canon ps ↔ s.changesOnly t ps := by
  have key : ∀ p, s.same t.canon p ↔ s.same t p := by
    intro p
    cases p
    case regs => simp only [State.same, State.canon_regAt]
    case sel => simp only [State.same, State.canon_sel_get]
    case mem => simp only [State.same, State.sameMemory_canon]
    case ops => simp only [State.same, State.sameOps_canon]
    all_goals exact Iff.rfl
  exact ⟨fun h p hp => (key p).1 (h p hp), fun h p hp => (key p).2 (h p hp)⟩

section
variable {s t : State} {ps : List Part}

theorem State.changesOnly_ite {c : Prop} [Decidable c] {a b : State} (ha : s.changesOnly a ps) (hb : s.changesOnly b ps) :
    s.changesOnly (if c then a else b) ps := by split <;> assumption
theorem State.changesOnly_foldl {α : Type} {f : State → α → State} {l : List α} (h : s.changesOnly t ps)
    (hf : ∀ z x, s.changesOnly z ps → s.changesOnly (f z x) ps) : s.changesOnly (l.foldl f t) ps := by
  induction l generalizing t with
  | nil => exact h
  | cons x l ih => exact ih (hf t x h)
/-- A state reached by a change of listed parts alone. -/
theorem State.changesOnly_via {u : State} (h : s.changesOnly t ps) (g : ∀ p, ps.contains p = false → t.same u p) : s.changesOnly u ps :=
  fun p hp => State.same.trans (h p hp) (g p hp)

theorem State.changesOnly_regPut (k : Nat) (w : Word) (h : s.changesOnly t ps) (h0 : ps.contains .regs = true) : s.changesOnly (t.regPut k w) ps :=
  State.changesOnly_via h (by intro p hp; cases p <;> first | exact Bool.noConfusion (h0.symm.trans hp) | exact fun _ => rfl | exact fun _ _ => rfl | exact fun _ => ⟨rfl, rfl, rfl⟩ | rfl)
theorem State.changesOnly_setF (f : Fld) (v d : Nat) (h : s.changesOnly t ps) (h0 : ps.contains .regs = true) : s.changesOnly (t.setF f v d) ps :=
  State.changesOnly_via h (by intro p hp; cases p <;> first | exact Bool.noConfusion (h0.symm.trans hp) | exact fun _ => rfl | exact fun _ _ => rfl | exact fun _ => ⟨rfl, rfl, rfl⟩ | rfl)
theorem State.changesOnly_bump (f : Fld) (n d : Nat) (h : s.changesOnly t ps) (h0 : ps.contains .regs = true) : s.changesOnly (t.bump f n d) ps :=
  State.changesOnly_via h (by intro p hp; cases p <;> first | exact Bool.noConfusion (h0.symm.trans hp) | exact fun _ => rfl | exact fun _ _ => rfl | exact fun _ => ⟨rfl, rfl, rfl⟩ | rfl)
theorem State.changesOnly_setBit (f : Fld) (i : Nat) (b : Bool) (d : Nat) (h : s.changesOnly t ps) (h0 : ps.contains .regs = true) : s.changesOnly (t.setBit f i b d) ps :=
  State.changesOnly_via h (by intro p hp; cases p <;> first | exact Bool.noConfusion (h0.symm.trans hp) | exact fun _ => rfl | exact fun _ _ => rfl | exact fun _ => ⟨rfl, rfl, rfl⟩ | rfl)
theorem State.changesOnly_emit (o : Output) (h : s.changesOnly t ps) (h0 : ps.contains .out = true) : s.changesOnly (t.emit o) ps :=
  State.changesOnly_via h (by intro p hp; cases p <;> first | exact Bool.noConfusion (h0.symm.trans hp) | exact fun _ => rfl | exact fun _ _ => rfl | exact fun _ => ⟨rfl, rfl, rfl⟩ | rfl)
theorem State.changesOnly_setVi (n : Nat) (v : ViSt) (h : s.changesOnly t ps) (h0 : ps.contains .vis = true) : s.changesOnly (t.setVi n v) ps :=
  State.changesOnly_via h (by intro p hp; cases p <;> first | exact Bool.noConfusion (h0.symm.trans hp) | exact fun _ => rfl | exact fun _ _ => rfl | exact fun _ => ⟨rfl, rfl, rfl⟩ | rfl)
theorem State.changesOnly_setCtx (c : Nat) (v : CtxSt) (h : s.changesOnly t ps) (h0 : ps.contains .ctxs = true) : s.changesOnly (t.setCtx c v) ps :=
  State.changesOnly_via h (by intro p hp; cases p <;> first | exact Bool.noConfusion (h0.symm.trans hp) | exact fun _ => rfl | exact fun _ _ => rfl | exact fun _ => ⟨rfl, rfl, rfl⟩ | rfl)
theorem State.changesOnly_setRing (r : Nat) (v : RingSt) (h : s.changesOnly t ps) (h0 : ps.contains .rings = true) : s.changesOnly (t.setRing r v) ps :=
  State.changesOnly_via h (by intro p hp; cases p <;> first | exact Bool.noConfusion (h0.symm.trans hp) | exact fun _ => rfl | exact fun _ _ => rfl | exact fun _ => ⟨rfl, rfl, rfl⟩ | rfl)
theorem State.changesOnly_setEntry (i : Nat) (e : Entry) (h : s.changesOnly t ps) (h0 : ps.contains .entries = true) : s.changesOnly (t.setEntry i e) ps :=
  State.changesOnly_via h (by intro p hp; cases p <;> first | exact Bool.noConfusion (h0.symm.trans hp) | exact fun _ => rfl | exact fun _ _ => rfl | exact fun _ => ⟨rfl, rfl, rfl⟩ | rfl)
theorem State.changesOnly_setReq (i : Nat) (r : ReqSt) (h : s.changesOnly t ps) (h0 : ps.contains .reqs = true) : s.changesOnly (t.setReq i r) ps :=
  State.changesOnly_via h (by intro p hp; cases p <;> first | exact Bool.noConfusion (h0.symm.trans hp) | exact fun _ => rfl | exact fun _ _ => rfl | exact fun _ => ⟨rfl, rfl, rfl⟩ | rfl)
theorem State.changesOnly_setUnit (u : Nat) (v : UnitSt) (h : s.changesOnly t ps) (h0 : ps.contains .units = true) : s.changesOnly (t.setUnit u v) ps :=
  State.changesOnly_via h (by intro p hp; cases p <;> first | exact Bool.noConfusion (h0.symm.trans hp) | exact fun _ => rfl | exact fun _ _ => rfl | exact fun _ => ⟨rfl, rfl, rfl⟩ | rfl)
theorem State.changesOnly_setPlane (u p : Nat) (v : Plane) (h : s.changesOnly t ps) (h0 : ps.contains .planes = true) : s.changesOnly (t.setPlane u p v) ps :=
  State.changesOnly_via h (by intro p hp; cases p <;> first | exact Bool.noConfusion (h0.symm.trans hp) | exact fun _ => rfl | exact fun _ _ => rfl | exact fun _ => ⟨rfl, rfl, rfl⟩ | rfl)
theorem State.changesOnly_setInPort (u p n : Nat) (v : PortSt) (h : s.changesOnly t ps) (h0 : ps.contains .inPorts = true) : s.changesOnly (t.setInPort u p n v) ps :=
  State.changesOnly_via h (by intro p hp; cases p <;> first | exact Bool.noConfusion (h0.symm.trans hp) | exact fun _ => rfl | exact fun _ _ => rfl | exact fun _ => ⟨rfl, rfl, rfl⟩ | rfl)
theorem State.changesOnly_setOutPort (u p n : Nat) (v : PortSt) (h : s.changesOnly t ps) (h0 : ps.contains .outPorts = true) : s.changesOnly (t.setOutPort u p n v) ps :=
  State.changesOnly_via h (by intro p hp; cases p <;> first | exact Bool.noConfusion (h0.symm.trans hp) | exact fun _ => rfl | exact fun _ _ => rfl | exact fun _ => ⟨rfl, rfl, rfl⟩ | rfl)
theorem State.changesOnly_setOpLine (u l : Nat) (v : OpLine) (h : s.changesOnly t ps) (h0 : ps.contains .ops = true) : s.changesOnly (t.setOpLine u l v) ps :=
  State.changesOnly_via h (by intro p hp; cases p <;> first | exact Bool.noConfusion (h0.symm.trans hp) | exact fun _ => rfl | exact fun _ _ => rfl | exact fun _ => ⟨rfl, rfl, rfl⟩ | rfl)
theorem State.changesOnly_setRig (r : Nat) (v : RigSt) (h : s.changesOnly t ps) (h0 : ps.contains .rigs = true) : s.changesOnly (t.setRig r v) ps :=
  State.changesOnly_via h (by intro p hp; cases p <;> first | exact Bool.noConfusion (h0.symm.trans hp) | exact fun _ => rfl | exact fun _ _ => rfl | exact fun _ => ⟨rfl, rfl, rfl⟩ | rfl)
theorem State.changesOnly_setSeat (n : Nat) (v : SeatPwr) (h : s.changesOnly t ps) (h0 : ps.contains .seats = true) : s.changesOnly (t.setSeat n v) ps :=
  State.changesOnly_via h (by intro p hp; cases p <;> first | exact Bool.noConfusion (h0.symm.trans hp) | exact fun _ => rfl | exact fun _ _ => rfl | exact fun _ => ⟨rfl, rfl, rfl⟩ | rfl)
theorem State.changesOnly_setSwitch (k : Nat) (v : SwitchSt) (h : s.changesOnly t ps) (h0 : ps.contains .switches = true) : s.changesOnly (t.setSwitch k v) ps :=
  State.changesOnly_via h (by intro p hp; cases p <;> first | exact Bool.noConfusion (h0.symm.trans hp) | exact fun _ => rfl | exact fun _ _ => rfl | exact fun _ => ⟨rfl, rfl, rfl⟩ | rfl)
theorem State.changesOnly_planes (x : _) (h : s.changesOnly t ps) (h0 : ps.contains .planes = true) : s.changesOnly { t with planes := x } ps :=
  State.changesOnly_via h (by intro p hp; cases p <;> first | exact Bool.noConfusion (h0.symm.trans hp) | exact fun _ => rfl | exact fun _ _ => rfl | exact fun _ => ⟨rfl, rfl, rfl⟩ | rfl)
theorem State.changesOnly_units (x : _) (h : s.changesOnly t ps) (h0 : ps.contains .units = true) : s.changesOnly { t with units := x } ps :=
  State.changesOnly_via h (by intro p hp; cases p <;> first | exact Bool.noConfusion (h0.symm.trans hp) | exact fun _ => rfl | exact fun _ _ => rfl | exact fun _ => ⟨rfl, rfl, rfl⟩ | rfl)
theorem State.changesOnly_inPorts (x : _) (h : s.changesOnly t ps) (h0 : ps.contains .inPorts = true) : s.changesOnly { t with inPorts := x } ps :=
  State.changesOnly_via h (by intro p hp; cases p <;> first | exact Bool.noConfusion (h0.symm.trans hp) | exact fun _ => rfl | exact fun _ _ => rfl | exact fun _ => ⟨rfl, rfl, rfl⟩ | rfl)
theorem State.changesOnly_outPorts (x : _) (h : s.changesOnly t ps) (h0 : ps.contains .outPorts = true) : s.changesOnly { t with outPorts := x } ps :=
  State.changesOnly_via h (by intro p hp; cases p <;> first | exact Bool.noConfusion (h0.symm.trans hp) | exact fun _ => rfl | exact fun _ _ => rfl | exact fun _ => ⟨rfl, rfl, rfl⟩ | rfl)
theorem State.changesOnly_switches (x : _) (h : s.changesOnly t ps) (h0 : ps.contains .switches = true) : s.changesOnly { t with switches := x } ps :=
  State.changesOnly_via h (by intro p hp; cases p <;> first | exact Bool.noConfusion (h0.symm.trans hp) | exact fun _ => rfl | exact fun _ _ => rfl | exact fun _ => ⟨rfl, rfl, rfl⟩ | rfl)
theorem State.changesOnly_tiers (x : _) (h : s.changesOnly t ps) (h0 : ps.contains .tiers = true) : s.changesOnly { t with tiers := x } ps :=
  State.changesOnly_via h (by intro p hp; cases p <;> first | exact Bool.noConfusion (h0.symm.trans hp) | exact fun _ => rfl | exact fun _ _ => rfl | exact fun _ => ⟨rfl, rfl, rfl⟩ | rfl)
theorem State.changesOnly_streams (x : _) (h : s.changesOnly t ps) (h0 : ps.contains .streams = true) : s.changesOnly { t with streams := x } ps :=
  State.changesOnly_via h (by intro p hp; cases p <;> first | exact Bool.noConfusion (h0.symm.trans hp) | exact fun _ => rfl | exact fun _ _ => rfl | exact fun _ => ⟨rfl, rfl, rfl⟩ | rfl)
theorem State.changesOnly_twin (x : _) (h : s.changesOnly t ps) (h0 : ps.contains .twin = true) : s.changesOnly { t with twin := x } ps :=
  State.changesOnly_via h (by intro p hp; cases p <;> first | exact Bool.noConfusion (h0.symm.trans hp) | exact fun _ => rfl | exact fun _ _ => rfl | exact fun _ => ⟨rfl, rfl, rfl⟩ | rfl)
theorem State.changesOnly_rigs (x : _) (h : s.changesOnly t ps) (h0 : ps.contains .rigs = true) : s.changesOnly { t with rigs := x } ps :=
  State.changesOnly_via h (by intro p hp; cases p <;> first | exact Bool.noConfusion (h0.symm.trans hp) | exact fun _ => rfl | exact fun _ _ => rfl | exact fun _ => ⟨rfl, rfl, rfl⟩ | rfl)
theorem State.changesOnly_waves (x : _) (h : s.changesOnly t ps) (h0 : ps.contains .waves = true) : s.changesOnly { t with waves := x } ps :=
  State.changesOnly_via h (by intro p hp; cases p <;> first | exact Bool.noConfusion (h0.symm.trans hp) | exact fun _ => rfl | exact fun _ _ => rfl | exact fun _ => ⟨rfl, rfl, rfl⟩ | rfl)
theorem State.changesOnly_ctxs (x : _) (h : s.changesOnly t ps) (h0 : ps.contains .ctxs = true) : s.changesOnly { t with ctxs := x } ps :=
  State.changesOnly_via h (by intro p hp; cases p <;> first | exact Bool.noConfusion (h0.symm.trans hp) | exact fun _ => rfl | exact fun _ _ => rfl | exact fun _ => ⟨rfl, rfl, rfl⟩ | rfl)
theorem State.changesOnly_vis (x : _) (h : s.changesOnly t ps) (h0 : ps.contains .vis = true) : s.changesOnly { t with vis := x } ps :=
  State.changesOnly_via h (by intro p hp; cases p <;> first | exact Bool.noConfusion (h0.symm.trans hp) | exact fun _ => rfl | exact fun _ _ => rfl | exact fun _ => ⟨rfl, rfl, rfl⟩ | rfl)
theorem State.changesOnly_rings (x : _) (h : s.changesOnly t ps) (h0 : ps.contains .rings = true) : s.changesOnly { t with rings := x } ps :=
  State.changesOnly_via h (by intro p hp; cases p <;> first | exact Bool.noConfusion (h0.symm.trans hp) | exact fun _ => rfl | exact fun _ _ => rfl | exact fun _ => ⟨rfl, rfl, rfl⟩ | rfl)
theorem State.changesOnly_entries (x : _) (h : s.changesOnly t ps) (h0 : ps.contains .entries = true) : s.changesOnly { t with entries := x } ps :=
  State.changesOnly_via h (by intro p hp; cases p <;> first | exact Bool.noConfusion (h0.symm.trans hp) | exact fun _ => rfl | exact fun _ _ => rfl | exact fun _ => ⟨rfl, rfl, rfl⟩ | rfl)
theorem State.changesOnly_wpkg (x : _) (h : s.changesOnly t ps) (h0 : ps.contains .wpkg = true) : s.changesOnly { t with wpkg := x } ps :=
  State.changesOnly_via h (by intro p hp; cases p <;> first | exact Bool.noConfusion (h0.symm.trans hp) | exact fun _ => rfl | exact fun _ _ => rfl | exact fun _ => ⟨rfl, rfl, rfl⟩ | rfl)
theorem State.changesOnly_step (x : _) (h : s.changesOnly t ps) (h0 : ps.contains .step = true) : s.changesOnly { t with step := x } ps :=
  State.changesOnly_via h (by intro p hp; cases p <;> first | exact Bool.noConfusion (h0.symm.trans hp) | exact fun _ => rfl | exact fun _ _ => rfl | exact fun _ => ⟨rfl, rfl, rfl⟩ | rfl)
theorem State.changesOnly_sed (x : _) (h : s.changesOnly t ps) (h0 : ps.contains .sed = true) : s.changesOnly { t with sed := x } ps :=
  State.changesOnly_via h (by intro p hp; cases p <;> first | exact Bool.noConfusion (h0.symm.trans hp) | exact fun _ => rfl | exact fun _ _ => rfl | exact fun _ => ⟨rfl, rfl, rfl⟩ | rfl)
theorem State.changesOnly_seals (x : _) (h : s.changesOnly t ps) (h0 : ps.contains .seals = true) : s.changesOnly { t with seals := x } ps :=
  State.changesOnly_via h (by intro p hp; cases p <;> first | exact Bool.noConfusion (h0.symm.trans hp) | exact fun _ => rfl | exact fun _ _ => rfl | exact fun _ => ⟨rfl, rfl, rfl⟩ | rfl)
theorem State.changesOnly_scat (x : _) (h : s.changesOnly t ps) (h0 : ps.contains .scat = true) : s.changesOnly { t with scat := x } ps :=
  State.changesOnly_via h (by intro p hp; cases p <;> first | exact Bool.noConfusion (h0.symm.trans hp) | exact fun _ => rfl | exact fun _ _ => rfl | exact fun _ => ⟨rfl, rfl, rfl⟩ | rfl)
theorem State.changesOnly_fab (x : _) (h : s.changesOnly t ps) (h0 : ps.contains .fab = true) : s.changesOnly { t with fab := x } ps :=
  State.changesOnly_via h (by intro p hp; cases p <;> first | exact Bool.noConfusion (h0.symm.trans hp) | exact fun _ => rfl | exact fun _ _ => rfl | exact fun _ => ⟨rfl, rfl, rfl⟩ | rfl)
theorem State.changesOnly_coll (x : _) (h : s.changesOnly t ps) (h0 : ps.contains .coll = true) : s.changesOnly { t with coll := x } ps :=
  State.changesOnly_via h (by intro p hp; cases p <;> first | exact Bool.noConfusion (h0.symm.trans hp) | exact fun _ => rfl | exact fun _ _ => rfl | exact fun _ => ⟨rfl, rfl, rfl⟩ | rfl)
theorem State.changesOnly_reqs (x : _) (h : s.changesOnly t ps) (h0 : ps.contains .reqs = true) : s.changesOnly { t with reqs := x } ps :=
  State.changesOnly_via h (by intro p hp; cases p <;> first | exact Bool.noConfusion (h0.symm.trans hp) | exact fun _ => rfl | exact fun _ _ => rfl | exact fun _ => ⟨rfl, rfl, rfl⟩ | rfl)
theorem State.changesOnly_slices (x : _) (h : s.changesOnly t ps) (h0 : ps.contains .slices = true) : s.changesOnly { t with slices := x } ps :=
  State.changesOnly_via h (by intro p hp; cases p <;> first | exact Bool.noConfusion (h0.symm.trans hp) | exact fun _ => rfl | exact fun _ _ => rfl | exact fun _ => ⟨rfl, rfl, rfl⟩ | rfl)
theorem State.changesOnly_err (x : _) (h : s.changesOnly t ps) (h0 : ps.contains .err = true) : s.changesOnly { t with err := x } ps :=
  State.changesOnly_via h (by intro p hp; cases p <;> first | exact Bool.noConfusion (h0.symm.trans hp) | exact fun _ => rfl | exact fun _ _ => rfl | exact fun _ => ⟨rfl, rfl, rfl⟩ | rfl)
theorem State.changesOnly_snap (x : _) (h : s.changesOnly t ps) (h0 : ps.contains .snap = true) : s.changesOnly { t with snap := x } ps :=
  State.changesOnly_via h (by intro p hp; cases p <;> first | exact Bool.noConfusion (h0.symm.trans hp) | exact fun _ => rfl | exact fun _ _ => rfl | exact fun _ => ⟨rfl, rfl, rfl⟩ | rfl)
theorem State.changesOnly_log (x : _) (h : s.changesOnly t ps) (h0 : ps.contains .log = true) : s.changesOnly { t with log := x } ps :=
  State.changesOnly_via h (by intro p hp; cases p <;> first | exact Bool.noConfusion (h0.symm.trans hp) | exact fun _ => rfl | exact fun _ _ => rfl | exact fun _ => ⟨rfl, rfl, rfl⟩ | rfl)
theorem State.changesOnly_pwr (x : _) (h : s.changesOnly t ps) (h0 : ps.contains .pwr = true) : s.changesOnly { t with pwr := x } ps :=
  State.changesOnly_via h (by intro p hp; cases p <;> first | exact Bool.noConfusion (h0.symm.trans hp) | exact fun _ => rfl | exact fun _ _ => rfl | exact fun _ => ⟨rfl, rfl, rfl⟩ | rfl)
theorem State.changesOnly_seats (x : _) (h : s.changesOnly t ps) (h0 : ps.contains .seats = true) : s.changesOnly { t with seats := x } ps :=
  State.changesOnly_via h (by intro p hp; cases p <;> first | exact Bool.noConfusion (h0.symm.trans hp) | exact fun _ => rfl | exact fun _ _ => rfl | exact fun _ => ⟨rfl, rfl, rfl⟩ | rfl)
theorem State.changesOnly_board (x : _) (h : s.changesOnly t ps) (h0 : ps.contains .board = true) : s.changesOnly { t with board := x } ps :=
  State.changesOnly_via h (by intro p hp; cases p <;> first | exact Bool.noConfusion (h0.symm.trans hp) | exact fun _ => rfl | exact fun _ _ => rfl | exact fun _ => ⟨rfl, rfl, rfl⟩ | rfl)
theorem State.changesOnly_out (x : _) (h : s.changesOnly t ps) (h0 : ps.contains .out = true) : s.changesOnly { t with out := x } ps :=
  State.changesOnly_via h (by intro p hp; cases p <;> first | exact Bool.noConfusion (h0.symm.trans hp) | exact fun _ => rfl | exact fun _ _ => rfl | exact fun _ => ⟨rfl, rfl, rfl⟩ | rfl)
theorem State.changesOnly_now (x : _) (h : s.changesOnly t ps) (h0 : ps.contains .now = true) : s.changesOnly { t with now := x } ps :=
  State.changesOnly_via h (by intro p hp; cases p <;> first | exact Bool.noConfusion (h0.symm.trans hp) | exact fun _ => rfl | exact fun _ _ => rfl | exact fun _ => ⟨rfl, rfl, rfl⟩ | rfl)
theorem State.changesOnly_pending (x : _) (h : s.changesOnly t ps) (h0 : ps.contains .pending = true) : s.changesOnly { t with pending := x } ps :=
  State.changesOnly_via h (by intro p hp; cases p <;> first | exact Bool.noConfusion (h0.symm.trans hp) | exact fun _ => rfl | exact fun _ _ => rfl | exact fun _ => ⟨rfl, rfl, rfl⟩ | rfl)
theorem State.changesOnly_fresh (x : _) (h : s.changesOnly t ps) : s.changesOnly { t with fresh := x } ps :=
  State.changesOnly_via h (by intro p hp; cases p <;> first | exact fun _ => rfl | exact fun _ _ => rfl | exact fun _ => ⟨rfl, rfl, rfl⟩ | rfl)
theorem State.changesOnly_errTwin (x : ErrSt) (y : TwinSt) (h : s.changesOnly t ps) (h0 : ps.contains .err = true) (h1 : ps.contains .twin = true) :
    s.changesOnly { t with err := x, twin := y } ps := State.changesOnly_twin (t := { t with err := x }) y (State.changesOnly_err x h h0) h1
theorem State.changesOnly_takeFree (h : s.changesOnly t ps) : s.changesOnly t.takeFree.2 ps := State.changesOnly_fresh _ h
/-- Parts that are all allowed are so when fewer are asked for. -/
theorem Part.sub {qs rs : List Part} (hp : ∀ p ∈ qs, ps.contains p = true) (h : ∀ p ∈ rs, p ∈ qs := by decide) : ∀ p ∈ rs, ps.contains p = true :=
  fun p m => hp p (h p m)

/-! ### Records, errors -/

theorem State.changesOnly_logRec (k : Nat) (b : List Nat) (h : s.changesOnly t ps) (hp : ∀ p ∈ ([.regs, .log] : List Part), ps.contains p = true) :
    s.changesOnly (t.logRec k b) ps := by
  unfold State.logRec
  extract_lets sec acc
  split
  · exact State.changesOnly_log _ (State.changesOnly_bump _ _ _ h (hp _ (by decide))) (hp _ (by decide))
  · exact State.changesOnly_log _ h (hp _ (by decide))
theorem State.changesOnly_pmc (ev n : Nat) (c : Option Nat) (h : s.changesOnly t ps) (hp : ∀ p ∈ ([.regs] : List Part), ps.contains p = true) :
    s.changesOnly (t.pmc ev n c) ps := by
  exact State.changesOnly_foldl h fun z x hz => State.changesOnly_ite (State.changesOnly_bump _ _ _ hz (hp _ (by decide))) hz
theorem State.changesOnly_ringPlace (r : ErrRec) (h : s.changesOnly t ps) (hp : ∀ p ∈ ([.regs, .err, .out] : List Part), ps.contains p = true) :
    s.changesOnly (t.ringPlace r) ps := by
  unfold State.ringPlace
  extract_lets p e0 a b
  have hb : s.changesOnly b ps := State.changesOnly_setF _ _ _ (State.changesOnly_err _ h (hp _ (by decide))) (hp _ (by decide))
  exact State.changesOnly_ite (State.changesOnly_emit _ hb (hp _ (by decide))) hb
theorem State.changesOnly_placeLow (r : ErrRec) (h : s.changesOnly t ps) (hp : ∀ p ∈ ([.regs, .err, .out] : List Part), ps.contains p = true) :
    s.changesOnly (t.placeLow r) ps := by
  exact State.changesOnly_ite (State.changesOnly_ringPlace _ h (Part.sub hp)) (State.changesOnly_bump _ _ _ h (hp _ (by decide)))
theorem State.changesOnly_numbered (r : ErrRec) (h : s.changesOnly t ps) (hp : ∀ p ∈ ([.err] : List Part), ps.contains p = true) :
    s.changesOnly (t.numbered r).2 ps := by
  exact State.changesOnly_err _ h (hp _ (by decide))
theorem State.changesOnly_errobs (b sev : Nat) (h : s.changesOnly t ps) (hp : ∀ p ∈ ([.regs, .err, .log, .out] : List Part), ps.contains p = true) :
    s.changesOnly (t.errobs b sev) ps := by
  rw [State.errobs_eq]
  refine State.changesOnly_ite h ?_
  extract_lets x n v
  have hx : s.changesOnly x ps := State.changesOnly_bump _ _ _ (State.changesOnly_setBit _ _ _ _ h (hp _ (by decide))) (hp _ (by decide))
  have hv : s.changesOnly v ps := State.changesOnly_placeLow _ (State.changesOnly_numbered _ hx (Part.sub hp)) (Part.sub hp)
  exact State.changesOnly_ite (State.changesOnly_logRec _ _ hv (Part.sub hp)) hv
theorem State.changesOnly_placeHigh (r : ErrRec) (h : s.changesOnly t ps) (hp : ∀ p ∈ ([.regs, .err, .log, .out] : List Part), ps.contains p = true) :
    s.changesOnly (t.placeHigh r) ps := by
  unfold State.placeHigh
  split
  · exact State.changesOnly_ringPlace _ h (Part.sub hp)
  · extract_lets w e0 x v
    have hx : s.changesOnly x ps := State.changesOnly_err _ h (hp _ (by decide))
    have hv : s.changesOnly v ps := State.changesOnly_ite (State.changesOnly_errobs _ _ hx (Part.sub hp)) hx
    exact State.changesOnly_ite (State.changesOnly_errobs _ _ hv (Part.sub hp)) hv
theorem State.changesOnly_place (r : ErrRec) (h : s.changesOnly t ps) (hp : ∀ p ∈ ([.regs, .err, .log, .out] : List Part), ps.contains p = true) :
    s.changesOnly (t.place r) ps := by
  rw [State.place_eq]
  extract_lets n v
  have hn : s.changesOnly n.2 ps := State.changesOnly_numbered _ h (Part.sub hp)
  have hv : s.changesOnly v ps := State.changesOnly_ite (State.changesOnly_placeLow _ hn (Part.sub hp)) (State.changesOnly_placeHigh _ hn (Part.sub hp))
  exact State.changesOnly_ite (State.changesOnly_logRec _ _ hv (Part.sub hp)) hv
/-! ### Pins, rings, completion -/

theorem State.changesOnly_faultPin (b : Bool) (h : s.changesOnly t ps) (hp : ∀ p ∈ ([.regs, .out] : List Part), ps.contains p = true) :
    s.changesOnly (t.faultPin b) ps := by
  exact State.changesOnly_emit _ (State.changesOnly_setBit _ _ _ _ h (hp _ (by decide))) (hp _ (by decide))
theorem State.changesOnly_pldmEvent (a b : Nat) (h : s.changesOnly t ps) (hp : ∀ p ∈ ([.out] : List Part), ps.contains p = true) :
    s.changesOnly (t.pldmEvent a b) ps := by
  exact State.changesOnly_emit _ h (hp _ (by decide))
theorem State.changesOnly_setReady (b : Bool) (h : s.changesOnly t ps) (hp : ∀ p ∈ ([.regs, .out] : List Part), ps.contains p = true) :
    s.changesOnly (t.setReady b) ps := by
  exact State.changesOnly_ite h (State.changesOnly_emit _ (State.changesOnly_setF _ _ _ h (hp _ (by decide))) (hp _ (by decide)))
theorem State.changesOnly_ringIrq (r : Nat) (h : s.changesOnly t ps) (hp : ∀ p ∈ ([.rings, .out] : List Part), ps.contains p = true) :
    s.changesOnly (t.ringIrq r) ps := by
  unfold State.ringIrq
  extract_lets a
  exact State.changesOnly_setRing _ _ (State.changesOnly_emit _ h (hp _ (by decide))) (hp _ (by decide))
theorem State.changesOnly_ringWritten (r n : Nat) (h : s.changesOnly t ps) (hp : ∀ p ∈ ([.regs, .rings, .out] : List Part), ps.contains p = true) :
    s.changesOnly (t.ringWritten r n) ps := by
  unfold State.ringWritten
  extract_lets x a b r0 d
  have hd : s.changesOnly d ps := State.changesOnly_setRing _ _ (State.changesOnly_emit _ (State.changesOnly_setF _ _ _ h (hp _ (by decide))) (hp _ (by decide))) (hp _ (by decide))
  exact State.changesOnly_ite (State.changesOnly_ringIrq _ hd (Part.sub hp)) hd
theorem State.changesOnly_writeRecord (cq : Nat) (r : ComplRec) (h : s.changesOnly t ps) (hp : ∀ p ∈ ([.regs, .rings, .out] : List Part), ps.contains p = true) :
    s.changesOnly (t.writeRecord cq r) ps := by
  exact State.changesOnly_ringWritten _ _ (State.changesOnly_emit _ h (hp _ (by decide))) hp
theorem State.changesOnly_postRecord (cq : Nat) (r : ComplRec) (h : s.changesOnly t ps) (hp : ∀ p ∈ ([.regs, .rings, .out] : List Part), ps.contains p = true) :
    s.changesOnly (t.postRecord cq r) ps := by
  unfold State.postRecord
  exact State.changesOnly_ite h (State.changesOnly_ite (State.changesOnly_writeRecord _ _ h hp) (State.changesOnly_setRing _ _ h (hp _ (by decide))))
theorem State.changesOnly_flushKept (cq : Nat) (h : s.changesOnly t ps) (hp : ∀ p ∈ ([.regs, .rings, .out] : List Part), ps.contains p = true) :
    s.changesOnly (t.flushKept cq) ps := by
  refine State.changesOnly_foldl h fun z x hz => ?_
  have ha := State.changesOnly_setRing cq { z.ring cq with kept := (z.ring cq).kept.drop 1 } hz (hp _ (by decide))
  exact State.changesOnly_ite (State.changesOnly_writeRecord _ _ ha hp) (State.changesOnly_setRing _ _ ha (hp _ (by decide)))
theorem State.changesOnly_unreserve (cq : Nat) (h : s.changesOnly t ps) (hp : ∀ p ∈ ([.rings] : List Part), ps.contains p = true) :
    s.changesOnly (t.unreserve cq) ps := by
  exact State.changesOnly_setRing _ _ h (hp _ (by decide))
theorem State.changesOnly_complete (c : Cmd) (st v hd : Nat) (h : s.changesOnly t ps) (hp : ∀ p ∈ ([.regs, .rings, .out] : List Part), ps.contains p = true) :
    s.changesOnly (t.complete c st v hd) ps := by
  unfold State.complete
  extract_lets g cq n a b d
  have hd : s.changesOnly d ps := State.changesOnly_postRecord _ _ (State.changesOnly_unreserve _ (State.changesOnly_setRing _ _ h (hp _ (by decide))) (Part.sub hp)) hp
  exact State.changesOnly_ite (State.changesOnly_ringIrq _ hd (Part.sub hp)) hd
theorem State.changesOnly_dropRun (c : Cmd) (h : s.changesOnly t ps) (hp : ∀ p ∈ ([.streams] : List Part), ps.contains p = true) :
    s.changesOnly (t.dropRun c) ps := by
  exact State.changesOnly_streams _ h (hp _ (by decide))
theorem State.changesOnly_abortCmds (cs : List Cmd) (h : s.changesOnly t ps) (hp : ∀ p ∈ ([.regs, .rings, .out, .streams] : List Part), ps.contains p = true) :
    s.changesOnly (t.abortCmds cs) ps := by
  exact State.changesOnly_foldl h fun z x hz => State.changesOnly_complete _ _ _ _ (State.changesOnly_dropRun _ hz (Part.sub hp)) (Part.sub hp)
theorem State.changesOnly_haltRing (r code : Nat) (h : s.changesOnly t ps) (hp : ∀ p ∈ ([.regs, .rings, .out, .streams] : List Part), ps.contains p = true) :
    s.changesOnly (t.haltRing r code) ps := by
  exact State.changesOnly_setF _ _ _ (State.changesOnly_setF _ _ _ (State.changesOnly_abortCmds _ h hp) (hp _ (by decide))) (hp _ (by decide))
theorem State.changesOnly_endHandling (sc : Scope) (h : s.changesOnly t ps) (hp : ∀ p ∈ ([.err] : List Part), ps.contains p = true) :
    s.changesOnly (t.endHandling sc) ps := by
  exact State.changesOnly_err _ h (hp _ (by decide))
theorem State.changesOnly_beginHandling (sc : Scope) (n : Nat) (h : s.changesOnly t ps) (hp : ∀ p ∈ ([.err] : List Part), ps.contains p = true) :
    s.changesOnly (t.beginHandling sc n) ps := by
  exact State.changesOnly_err _ h (hp _ (by decide))
/-! ### Requests, contexts, the fence -/

theorem State.changesOnly_postEnd (i : Nat) (h : s.changesOnly t ps) (hp : ∀ p ∈ ([.regs, .rings, .out, .reqs, .err] : List Part), ps.contains p = true) :
    s.changesOnly (t.postEnd i) ps := by
  unfold State.postEnd
  extract_lets e r a b d
  have ha : s.changesOnly a ps := State.changesOnly_setReq _ _ h (hp _ (by decide))
  have hb : s.changesOnly b ps := State.changesOnly_ite ha (State.changesOnly_unreserve _ ha (Part.sub hp))
  exact State.changesOnly_ite h (State.changesOnly_endHandling _ (State.changesOnly_postRecord _ _ hb (Part.sub hp)) (Part.sub hp))
theorem State.changesOnly_setEnd (i : Nat) (st : ReqState) (code : Nat) (h : s.changesOnly t ps) (hp : ∀ p ∈ ([.regs, .entries, .reqs] : List Part), ps.contains p = true) :
    s.changesOnly (t.setEnd i st code) ps := by
  unfold State.setEnd
  extract_lets e ea eb a r0 b
  have hb : s.changesOnly b ps := State.changesOnly_setReq _ _ (State.changesOnly_setEntry _ _ h (hp _ (by decide))) (hp _ (by decide))
  refine State.changesOnly_ite h ?_
  split
  · exact State.changesOnly_bump _ _ _ hb (hp _ (by decide))
  · exact State.changesOnly_bump _ _ _ hb (hp _ (by decide))
  · exact State.changesOnly_bump _ _ _ hb (hp _ (by decide))
theorem State.changesOnly_sendTwin (k : String) (sync : Bool) (hd c : Nat) (b : List Nat) (m : Bool) (h : s.changesOnly t ps) (hp : ∀ p ∈ ([.regs, .twin, .out] : List Part), ps.contains p = true) :
    s.changesOnly (t.sendTwin k sync hd c b m) ps := by
  unfold State.sendTwin
  extract_lets q a d t0 e
  exact State.changesOnly_emit _ (State.changesOnly_twin _ (State.changesOnly_bump _ _ _ (State.changesOnly_setF _ _ _ h (hp _ (by decide))) (hp _ (by decide))) (hp _ (by decide))) (hp _ (by decide))
theorem State.changesOnly_sendTokens (hd c first : Nat) (ids : List Nat) (h : s.changesOnly t ps) (hp : ∀ p ∈ ([.regs, .twin, .out] : List Part), ps.contains p = true) :
    s.changesOnly (t.sendTokens hd c first ids) ps := by
  exact State.changesOnly_foldl h fun z x hz => State.changesOnly_sendTwin _ _ _ _ _ _ hz hp
theorem State.changesOnly_sendEntry (hd : Nat) (e : Entry) (h : s.changesOnly t ps) (hp : ∀ p ∈ ([.regs, .twin, .out] : List Part), ps.contains p = true) :
    s.changesOnly (t.sendEntry hd e) ps := by
  exact State.changesOnly_sendTwin _ _ _ _ _ _ h hp
theorem State.changesOnly_mirrorEntry (i : Nat) (h : s.changesOnly t ps) (hp : ∀ p ∈ ([.regs, .entries, .twin, .out] : List Part), ps.contains p = true) :
    s.changesOnly (t.mirrorEntry i) ps := by
  unfold State.mirrorEntry
  extract_lets e
  refine State.changesOnly_ite ?_ h
  extract_lets e1
  exact State.changesOnly_sendEntry _ _ (State.changesOnly_setEntry _ _ h (hp _ (by decide))) (Part.sub hp)
theorem State.changesOnly_sendRequest (i : Nat) (e : Entry) (r : ReqSt) (h : s.changesOnly t ps) (hp : ∀ p ∈ ([.regs, .twin, .out] : List Part), ps.contains p = true) :
    s.changesOnly (t.sendRequest i e r) ps := by
  unfold State.sendRequest
  extract_lets g vocab a
  exact State.changesOnly_sendEntry _ _ (State.changesOnly_sendTokens _ _ _ _ (State.changesOnly_sendTwin _ _ _ _ _ _ h hp) hp) hp
theorem State.changesOnly_sendWrite (a c va : Nat) (p : Bool) (bs : List Nat) (g j hd : Nat) (h : s.changesOnly t ps) (hp : ∀ p ∈ ([.fab, .out] : List Part), ps.contains p = true) :
    s.changesOnly (t.sendWrite a c va p bs g j hd) ps := by
  unfold State.sendWrite
  extract_lets q a d
  exact State.changesOnly_emit _ (State.changesOnly_fab _ h (hp _ (by decide))) (hp _ (by decide))
theorem State.changesOnly_voidStreams (c : Nat) (h : s.changesOnly t ps) (hp : ∀ p ∈ ([.streams] : List Part), ps.contains p = true) :
    s.changesOnly (t.voidStreams c) ps := by
  exact State.changesOnly_streams _ h (hp _ (by decide))
theorem State.changesOnly_clearSlot (k : Nat) (h : s.changesOnly t ps) (hp : ∀ p ∈ ([.regs] : List Part), ps.contains p = true) :
    s.changesOnly (t.clearSlot k) ps := by
  exact State.changesOnly_regPut _ _ h (hp _ (by decide))
theorem State.changesOnly_dropPlanes (c : Nat) (h : s.changesOnly t ps) (hp : ∀ p ∈ ([.units, .inPorts, .outPorts, .planes, .rigs, .waves, .fab] : List Part), ps.contains p = true) :
    s.changesOnly (t.dropPlanes c) ps := by
  refine State.changesOnly_via h ?_
  unfold State.dropPlanes
  intro p hpp
  cases p <;> first | exact Bool.noConfusion ((hp _ (by decide)).symm.trans hpp) | exact fun _ => rfl | exact fun _ _ => rfl | exact fun _ => ⟨rfl, rfl, rfl⟩ | rfl
theorem State.changesOnly_scrubFrames (c : Nat) (h : s.changesOnly t ps) (hp : ∀ p ∈ ([.tiers] : List Part), ps.contains p = true) :
    s.changesOnly (t.scrubFrames c) ps := by
  exact State.changesOnly_tiers _ h (hp _ (by decide))
theorem State.changesOnly_dropRoots (c : Nat) (h : s.changesOnly t ps) (hp : ∀ p ∈ ([.regs, .tiers] : List Part), ps.contains p = true) :
    s.changesOnly (t.dropRoots c) ps := by
  unfold State.dropRoots
  extract_lets _tt a b d e f g i j
  have ha : s.changesOnly a ps := State.changesOnly_tiers _ h (hp _ (by decide))
  have he : s.changesOnly e ps := State.changesOnly_setF _ _ _ (State.changesOnly_setF _ _ _ (State.changesOnly_setF _ _ _ ha (hp _ (by decide))) (hp _ (by decide))) (hp _ (by decide))
  exact State.changesOnly_setF _ _ _ (State.changesOnly_setF _ _ _ (State.changesOnly_setF _ _ _ (State.changesOnly_setF _ _ _ (State.changesOnly_setF _ _ _ he (hp _ (by decide))) (hp _ (by decide))) (hp _ (by decide))) (hp _ (by decide))) (hp _ (by decide))
theorem State.changesOnly_dropVersions (c : Nat) (h : s.changesOnly t ps) (hp : ∀ p ∈ ([.regs, .wpkg] : List Part), ps.contains p = true) :
    s.changesOnly (t.dropVersions c) ps := by
  unfold State.dropVersions
  refine State.changesOnly_ite ?_ h
  extract_lets fr f vs w0 a b d
  exact State.changesOnly_setF _ _ _ (State.changesOnly_setF _ _ _ (State.changesOnly_setF _ _ _ (State.changesOnly_wpkg _ h (hp _ (by decide))) (hp _ (by decide))) (hp _ (by decide))) (hp _ (by decide))
theorem State.changesOnly_dropColl (c : Nat) (h : s.changesOnly t ps) (hp : ∀ p ∈ ([.coll] : List Part), ps.contains p = true) :
    s.changesOnly (t.dropColl c) ps := by
  exact State.changesOnly_coll _ h (hp _ (by decide))
theorem State.changesOnly_dropScat (c : Nat) (h : s.changesOnly t ps) (hp : ∀ p ∈ ([.regs, .scat, .fab] : List Part), ps.contains p = true) :
    s.changesOnly (t.dropScat c) ps := by
  unfold State.dropScat
  extract_lets x s0 a f0 b d e g
  exact State.changesOnly_setF _ _ _ (State.changesOnly_setF _ _ _ (State.changesOnly_setF _ _ _ (State.changesOnly_regPut _ _ (State.changesOnly_fab _ (State.changesOnly_scat _ h (hp _ (by decide))) (hp _ (by decide))) (hp _ (by decide))) (hp _ (by decide))) (hp _ (by decide))) (hp _ (by decide))
theorem State.changesOnly_teardown (c status : Nat) (keep : Option Cmd) (tell : Bool) (h : s.changesOnly t ps) (hp : ∀ p ∈ ([.regs, .err, .out, .units, .planes, .inPorts, .outPorts, .tiers, .streams, .twin, .rigs, .waves, .ctxs, .rings, .entries, .wpkg, .scat, .fab, .coll, .reqs] : List Part), ps.contains p = true) :
    s.changesOnly (t.teardown c status keep tell) ps := by
  unfold State.teardown
  extract_lets x isKeep a1 a2 a3 a4 a5 a6 a7 a8 a9 a10 bound a11 a12 a13 a14 c0 a15 a16
  refine State.changesOnly_ite h ?_
  have h1 : s.changesOnly a1 ps := State.changesOnly_setCtx _ _ h (hp _ (by decide))
  have h2 : s.changesOnly a2 ps := State.changesOnly_foldl h1 fun z x hz => State.changesOnly_abortCmds _ hz (Part.sub hp)
  have h4 : s.changesOnly a4 ps := State.changesOnly_dropPlanes _ (State.changesOnly_voidStreams _ h2 (Part.sub hp)) (Part.sub hp)
  have h5 : s.changesOnly a5 ps := State.changesOnly_foldl h4 fun z x hz => State.changesOnly_abortCmds _ hz (Part.sub hp)
  have h6 : s.changesOnly a6 ps := State.changesOnly_foldl h5 fun z x hz => State.changesOnly_postEnd _ (State.changesOnly_mirrorEntry _ (State.changesOnly_setEnd _ _ _ hz (Part.sub hp)) (Part.sub hp)) (Part.sub hp)
  have h8 : s.changesOnly a8 ps := State.changesOnly_dropColl _ (State.changesOnly_dropScat _ (State.changesOnly_dropVersions _ h6 (Part.sub hp)) (Part.sub hp)) (Part.sub hp)
  have h10 : s.changesOnly a10 ps := State.changesOnly_dropRoots _ (State.changesOnly_scrubFrames _ h8 (Part.sub hp)) (Part.sub hp)
  have h11 : s.changesOnly a11 ps := State.changesOnly_ite h10 (State.changesOnly_postRecord _ _ h10 (Part.sub hp))
  have h12 : s.changesOnly a12 ps := State.changesOnly_foldl h11 fun z x hz => State.changesOnly_haltRing _ _ hz (Part.sub hp)
  have h13 : s.changesOnly a13 ps := by
    show s.changesOnly (match keep with | some d => a12.complete d 0 0 0 | none => a12) ps
    split
    · exact State.changesOnly_complete _ _ _ _ h12 (Part.sub hp)
    · exact h12
  have h16 : s.changesOnly a16 ps := State.changesOnly_endHandling _ (State.changesOnly_setCtx _ _ (State.changesOnly_ite (State.changesOnly_bump _ _ _ h13 (hp _ (by decide))) h13) (hp _ (by decide))) (Part.sub hp)
  exact State.changesOnly_ite (State.changesOnly_foldl h16 fun z x hz => State.changesOnly_ite hz (State.changesOnly_emit _ hz (hp _ (by decide)))) h16
theorem State.changesOnly_twinBit (b : Nat) (h : s.changesOnly t ps) (hp : ∀ p ∈ ([.regs] : List Part), ps.contains p = true) :
    s.changesOnly (t.twinBit b) ps := by
  unfold State.twinBit
  extract_lets a
  exact State.changesOnly_setBit _ _ _ _ (State.changesOnly_ite (State.changesOnly_setF _ _ _ (State.changesOnly_setF _ _ _ h (hp _ (by decide))) (hp _ (by decide))) h) (hp _ (by decide))
theorem State.changesOnly_loseMirrors  (h : s.changesOnly t ps) (hp : ∀ p ∈ ([.regs, .rings, .out, .twin] : List Part), ps.contains p = true) :
    s.changesOnly t.loseMirrors ps := by
  unfold State.loseMirrors
  extract_lets a
  refine State.changesOnly_twin _ (State.changesOnly_ite h (State.changesOnly_foldl h fun z x hz => ?_)) (hp _ (by decide))
  exact State.changesOnly_ite hz (State.changesOnly_postRecord _ _ hz (Part.sub hp))
theorem State.changesOnly_endAll  (h : s.changesOnly t ps) (hp : ∀ p ∈ ([.regs, .rings, .out, .reqs, .err, .entries] : List Part), ps.contains p = true) :
    s.changesOnly t.endAll ps := by
  exact State.changesOnly_ite h (State.changesOnly_foldl h fun z x hz => State.changesOnly_postEnd _ (State.changesOnly_setEnd _ _ _ hz (Part.sub hp)) (Part.sub hp))
theorem State.changesOnly_tellFence (word : String) (lost : Bool) (h : s.changesOnly t ps) (hp : ∀ p ∈ ([.regs, .twin, .out] : List Part), ps.contains p = true) :
    s.changesOnly (t.tellFence word lost) ps := by
  exact State.changesOnly_ite (State.changesOnly_sendTwin _ _ _ _ _ _ h hp) h
theorem State.changesOnly_fence (word : String) (lost : Bool) (h : s.changesOnly t ps) (hp : ∀ p ∈ ([.regs, .rings, .out, .reqs, .err, .entries, .twin, .log, .streams] : List Part), ps.contains p = true) :
    s.changesOnly (t.fence word lost) ps := by
  unfold State.fence
  extract_lets wd w1 tp old alone last lost' a b d e f g g1 g2 tw er j k
  have ha : s.changesOnly a ps := State.changesOnly_foldl h fun z x hz => State.changesOnly_abortCmds _ (State.changesOnly_abortCmds _ hz (Part.sub hp)) (Part.sub hp)
  clear_value a wd old alone last lost'
  have hb : s.changesOnly b ps := State.changesOnly_ite (State.changesOnly_endAll ha (Part.sub hp)) ha
  clear_value b
  have hd : s.changesOnly d ps := State.changesOnly_ite (State.changesOnly_loseMirrors hb (Part.sub hp)) hb
  clear_value d
  have he : s.changesOnly e ps := State.changesOnly_twinBit _ (State.changesOnly_ite (State.changesOnly_twinBit _ hd (Part.sub hp)) hd) (Part.sub hp)
  clear_value e
  have hg : s.changesOnly g ps := State.changesOnly_pldmEvent _ _ (State.changesOnly_setF _ _ _ (State.changesOnly_faultPin _ (State.changesOnly_setReady _ he (Part.sub hp)) (Part.sub hp)) (hp _ (by decide))) (Part.sub hp)
  clear_value g
  have hg2 : s.changesOnly g2 ps := State.changesOnly_bump _ _ _ (State.changesOnly_setF _ _ _ hg (hp _ (by decide))) (hp _ (by decide))
  clear_value g2
  have hj : s.changesOnly j ps := State.changesOnly_errTwin _ _ hg2 (hp _ (by decide)) (hp _ (by decide))
  clear_value j
  have hk : s.changesOnly k ps := State.changesOnly_logRec _ _ hj (Part.sub hp)
  have hw1 : s.changesOnly w1 ps := State.changesOnly_tellFence _ _ (State.changesOnly_twinBit _ h (Part.sub hp)) (Part.sub hp)
  clear_value k w1
  exact State.changesOnly_ite (State.changesOnly_ite (State.changesOnly_twin _ hw1 (hp _ (by decide))) h) (State.changesOnly_tellFence _ _ hk (Part.sub hp))
/-! ### Faults -/

theorem State.changesOnly_latchNew (x : Trigger) (h : s.changesOnly t ps) (hp : ∀ p ∈ ([.regs, .err, .log, .out, .snap] : List Part), ps.contains p = true) :
    s.changesOnly (t.latchNew x) ps := by
  unfold State.latchNew
  extract_lets a sb sh sn b d
  have ha : s.changesOnly a ps := State.changesOnly_ite (State.changesOnly_errobs _ _ h (Part.sub hp)) h
  exact State.changesOnly_bump _ _ _ (State.changesOnly_setF _ _ _ (State.changesOnly_setF _ _ _ (State.changesOnly_snap _ ha (hp _ (by decide))) (hp _ (by decide))) (hp _ (by decide))) (hp _ (by decide))
theorem State.changesOnly_latch (x : Trigger) (h : s.changesOnly t ps) (hp : ∀ p ∈ ([.regs, .err, .log, .out, .snap] : List Part), ps.contains p = true) :
    s.changesOnly (t.latch x) ps := by
  unfold State.latch
  refine State.changesOnly_ite h (State.changesOnly_ite ?_ (State.changesOnly_ite ?_ (State.changesOnly_latchNew _ h (Part.sub hp))))
  · extract_lets sh
    exact State.changesOnly_snap _ (State.changesOnly_bump _ _ _ h (hp _ (by decide))) (hp _ (by decide))
  · exact State.changesOnly_errobs _ _ (State.changesOnly_snap _ (State.changesOnly_bump _ _ _ h (hp _ (by decide))) (hp _ (by decide))) (Part.sub hp)
theorem State.changesOnly_newTrigger (a b d e : Nat) (h : s.changesOnly t ps) (hp : ∀ p ∈ ([.snap] : List Part), ps.contains p = true) :
    s.changesOnly (t.newTrigger a b d e).2 ps := by
  exact State.changesOnly_snap _ h (hp _ (by decide))
theorem State.changesOnly_schedule (x : Trigger) (h : s.changesOnly t ps) (hp : ∀ p ∈ ([.regs, .err, .log, .out, .snap] : List Part), ps.contains p = true) :
    s.changesOnly (t.schedule x) ps := by
  exact State.changesOnly_ite (State.changesOnly_latch _ h hp) (State.changesOnly_snap _ h (hp _ (by decide)))
theorem State.changesOnly_latchS4  (h : s.changesOnly t ps) (hp : ∀ p ∈ ([.regs, .err, .log, .out, .snap] : List Part), ps.contains p = true) :
    s.changesOnly t.latchS4 ps := by
  unfold State.latchS4
  exact State.changesOnly_schedule _ (State.changesOnly_newTrigger t.now 0 0 1 h (Part.sub hp)) hp
theorem State.changesOnly_act (r : Report) (h : s.changesOnly t ps) (hp : ∀ p ∈ (faultParts : List Part), ps.contains p = true) :
    s.changesOnly (t.act r) ps := by
  unfold State.act
  split
  · exact h
  · split
    · exact State.changesOnly_setEnd _ _ _ (State.changesOnly_beginHandling _ _ h (Part.sub hp)) (Part.sub hp)
    · exact h
  · exact State.changesOnly_endHandling _ (State.changesOnly_teardown _ _ _ _ (State.changesOnly_beginHandling _ _ h (Part.sub hp)) (Part.sub hp)) (Part.sub hp)
  · exact State.changesOnly_endHandling _ (State.changesOnly_haltRing _ _ (State.changesOnly_beginHandling _ _ h (Part.sub hp)) (Part.sub hp)) (Part.sub hp)
  · exact State.changesOnly_fence _ _ (State.changesOnly_latchS4 h (Part.sub hp)) (Part.sub hp)
  · exact State.changesOnly_beginHandling _ _ (State.changesOnly_fence _ _ (State.changesOnly_latchS4 h (Part.sub hp)) (Part.sub hp)) (Part.sub hp)
theorem State.changesOnly_raise (r : Report) (h : s.changesOnly t ps) (hp : ∀ p ∈ (faultParts : List Part), ps.contains p = true) :
    s.changesOnly (t.raise r) ps := by
  rw [State.raise_eq]
  refine State.changesOnly_ite h ?_
  extract_lets x ab a b v
  have ha : s.changesOnly a ps := State.changesOnly_ite (State.changesOnly_bump _ _ _ h (hp _ (by decide))) h
  have hb : s.changesOnly b ps := State.changesOnly_ite (State.changesOnly_bump _ _ _ ha (hp _ (by decide))) ha
  have hv : s.changesOnly v ps := State.changesOnly_place _ (State.changesOnly_bump _ _ _ hb (hp _ (by decide))) (Part.sub hp)
  exact State.changesOnly_ite hv (State.changesOnly_act _ hv hp)
theorem State.changesOnly_fault (f : FaultRegs) (r : Report) (d : Nat) (h : s.changesOnly t ps) (hp : ∀ p ∈ (faultParts : List Part), ps.contains p = true) :
    s.changesOnly (t.fault f r d) ps := by
  unfold State.fault
  extract_lets r' first a b
  have hb : s.changesOnly b ps := State.changesOnly_ite (State.changesOnly_regPut _ _ (State.changesOnly_setBit _ _ _ _ h (hp _ (by decide))) (hp _ (by decide))) (State.changesOnly_setBit _ _ _ _ h (hp _ (by decide)))
  exact State.changesOnly_ite h (State.changesOnly_raise _ hb hp)
theorem State.changesOnly_boardFault (b sev rail : Nat) (h : s.changesOnly t ps) (hp : ∀ p ∈ (faultParts : List Part), ps.contains p = true) :
    s.changesOnly (t.boardFault b sev rail) ps := by
  exact State.changesOnly_fault _ _ _ h hp
theorem State.changesOnly_pwrFault (b sev : Nat) (h : s.changesOnly t ps) (hp : ∀ p ∈ (faultParts : List Part), ps.contains p = true) :
    s.changesOnly (t.pwrFault b sev) ps := by
  unfold State.pwrFault
  extract_lets r
  exact State.changesOnly_ite h (State.changesOnly_raise _ (State.changesOnly_setBit _ _ _ _ h (hp _ (by decide))) hp)
theorem State.changesOnly_poisonOrigin (a : Nat) (h : s.changesOnly t ps) (hp : ∀ p ∈ ([.regs] : List Part), ps.contains p = true) :
    s.changesOnly (t.poisonOrigin a) ps := by
  exact State.changesOnly_setF _ _ _ (State.changesOnly_setF _ _ _ h (hp _ (by decide))) (hp _ (by decide))

end

end Sys2Proof.Machine
end

