-- ==== Sys2Proof/Laws/Units.lean ====
section
/-! SUPPORT. What a catch does (R48-R53): where an entry fires, its engine work is the only thing that touches the operand store, memory and
the streams; the rest of a catch touches the unit, its planes and ports, registers and the error machinery. -/

namespace Sys2Proof.Machine
set_option Elab.async false

/-- An entry that fires runs. -/
theorem State.catchEntry_fires (s : State) (u : Nat) (mine : Nat → Bool) (work : State → Nat → Nat → Nat → Work) (size : Nat → Nat → Nat × Nat)
    (h : s.fires u mine = true) : s.catchEntry u mine work size = s.fire u work size := by
  simp only [State.fires, Bool.and_eq_true, Bool.not_eq_true'] at h
  obtain ⟨⟨⟨⟨⟨h1, h2⟩, h3⟩, h4⟩, h5⟩, h6⟩ := h
  unfold State.catchEntry
  simp only [h1, h2, h3, h4, h5, h6, Bool.not_true, Bool.or_self, Bool.false_eq_true, if_false]

/-- An entry that is not due, or whose plane may not issue, is left where it stands. -/
theorem State.catchEntry_waits (s : State) (u : Nat) (mine : Nat → Bool) (work : State → Nat → Nat → Nat → Work) (size : Nat → Nat → Nat × Nat)
    (h : s.atEntry u = false) : s.catchEntry u mine work size = s := by
  unfold State.catchEntry
  simp only [h, Bool.not_false, if_true]

/-- The work of a catch: what the entry's engine does, or nothing when its predicate suppresses it. -/
def State.workOf (s : State) (u : Nat) (work : State → Nat → Nat → Nat → Work) (size : Nat → Nat → Nat × Nat) : Work :=
  if (s.plane u (s.curPlane u)).suppresses (s.curEntry u) then
    { s := s.beginCatch u, left := (size (s.plane u (s.curPlane u)).cfg (s.curEntry u)).1 - 1 }
  else work (s.beginCatch u) u (s.curPlane u) (s.curEntry u)

theorem State.fire_eq (s : State) (u : Nat) (work : State → Nat → Nat → Nat → Work) (size : Nat → Nat → Nat × Nat) :
    s.fire u work size =
      if !((s.workOf u work size).s.plane u (s.curPlane u)).valid then (s.workOf u work size).s
      else State.endCatch u (s.curPlane u) (s.curEntry u) (s.unit u).nextId ((s.plane u (s.curPlane u)).suppresses (s.curEntry u))
        (s.entryRanges u (s.plane u (s.curPlane u)).cfg (s.curEntry u)) (size (s.plane u (s.curPlane u)).cfg (s.curEntry u)) (s.workOf u work size) :=
  rfl

/-! ### What the frame of a catch leaves alone -/

/-- The state without what a catch touches beside its engine work: the unit, its planes and ports, registers, the error machinery, free values. -/
def State.noFlow (s : State) : State := { s.noErr with fresh := 0, inPorts := [], outPorts := [], units := [], planes := [] }

theorem State.noFlow_of_noErr {s t : State} (h : t.noErr = s.noErr) : t.noFlow = s.noFlow := by unfold State.noFlow; rw [h]

@[simp] theorem State.noFlow_setUnit (s : State) (u : Nat) (v : UnitSt) : (s.setUnit u v).noFlow = s.noFlow := (rfl)
@[simp] theorem State.noFlow_setPlane (s : State) (u p : Nat) (v : Plane) : (s.setPlane u p v).noFlow = s.noFlow := (rfl)
@[simp] theorem State.noFlow_setInPort (s : State) (u p n : Nat) (v : PortSt) : (s.setInPort u p n v).noFlow = s.noFlow := (rfl)
@[simp] theorem State.noFlow_setOutPort (s : State) (u p n : Nat) (v : PortSt) : (s.setOutPort u p n v).noFlow = s.noFlow := (rfl)
@[simp] theorem State.noFlow_emit (s : State) (o : Output) : (s.emit o).noFlow = s.noFlow := (rfl)
@[simp] theorem State.noFlow_bump (s : State) (f : Fld) (n d : Nat) : (s.bump f n d).noFlow = s.noFlow := (rfl)
@[simp] theorem State.noFlow_regPut (s : State) (k : Nat) (w : Word) : (s.regPut k w).noFlow = s.noFlow := (rfl)
@[simp] theorem State.noFlow_pmc (s : State) (ev n : Nat) (c : Option Nat) : (s.pmc ev n c).noFlow = s.noFlow :=
  State.noFlow_of_noErr (State.noErr_pmc s ev n c)

theorem State.noFlow_ite {c : Prop} [Decidable c] {a b s : State} (ha : a.noFlow = s.noFlow) (hb : b.noFlow = s.noFlow) :
    (if c then a else b).noFlow = s.noFlow := by split <;> assumption

theorem State.noFlow_foldl {α : Type} (f : State → α → State) (h : ∀ s x, (f s x).noFlow = s.noFlow) (l : List α) (s : State) :
    (l.foldl f s).noFlow = s.noFlow := by
  induction l generalizing s with
  | nil => rfl
  | cons x r ih => rw [List.foldl_cons, ih, h]

theorem State.noFlow_entryFault (s : State) (u p b : Nat) : (s.entryFault u p b 0).noFlow = s.noFlow :=
  State.noFlow_of_noErr (State.noErr_fault_none _ _ _ _ rfl)

theorem State.noFlow_unitFault (s : State) (u b c p e k n v : Nat) : (s.unitFault u b 0 c p e k n v).noFlow = s.noFlow :=
  State.noFlow_of_noErr (State.noErr_fault_none _ _ _ _ rfl)

theorem State.noFlow_countMoved (s : State) (u p : Nat) : (s.countMoved u p).noFlow = s.noFlow := State.noFlow_setUnit s u _

theorem State.noFlow_popBeat (s : State) (u p n : Nat) : (s.popBeat u p n).noFlow = s.noFlow := by
  unfold State.popBeat
  extract_lets q
  split
  · exact (State.noFlow_emit _ _).trans ((State.noFlow_countMoved _ _ _).trans (State.noFlow_setInPort s _ _ _ _))
  · exact (State.noFlow_countMoved _ _ _).trans (State.noFlow_setInPort s _ _ _ _)

theorem State.noFlow_popBeats (s : State) (u p m : Nat) : (s.popBeats u p m).noFlow = s.noFlow :=
  State.noFlow_foldl _ (fun s n => State.noFlow_popBeat s u p n) _ _

theorem State.noFlow_pushBeats (s : State) (u p m id : Nat) (bs : List Beat) : (s.pushBeats u p m id bs).noFlow = s.noFlow :=
  State.noFlow_foldl _ (fun s n => State.noFlow_setOutPort s u p n _) _ _

theorem State.noFlow_nullLog (s : State) (u p e m : Nat) : (s.nullLog u p e m).noFlow = s.noFlow :=
  State.noFlow_foldl _ (fun s n => State.noFlow_ite (State.noFlow_unitFault s u 10 _ p e 0 0 0) rfl) _ _

theorem State.noFlow_nullHeads (s : State) (u p e : Nat) (sup : Bool) : (s.nullHeads u p e sup).noFlow = s.noFlow :=
  State.noFlow_ite rfl (State.noFlow_nullLog s u p _ _)

theorem State.noFlow_endRun (s : State) (u p : Nat) : (s.endRun u p).noFlow = s.noFlow := State.noFlow_setPlane s u p _

theorem State.noFlow_goOn (s : State) (u p e : Nat) : (s.goOn u p e).noFlow = s.noFlow := by
  unfold State.goOn
  exact State.noFlow_ite (State.noFlow_endRun s u p) (State.noFlow_setPlane s u p _)

/-- The predicate value that a catch writes, and the beats it offers. -/
def catchPred (u p e : Nat) (w : Work) : Bool := enPsetEn e && w.s.psetValue u p e w.lanes
def catchOuts (u p e : Nat) (sup : Bool) (sz : Nat × Nat) (w : Work) : List Beat :=
  (if sup then nullBeats (if sz.2 = 0 then 0 else if sz.1 = 0 then sz.2 else 1) (w.s.plane u p).epoch (catchPred u p e w) else w.outs).map
    fun (b : Beat) => { b with pred := catchPred u p e w }

/-- The end of a catch, its steps named. -/
theorem State.endCatch_eq (u p e id : Nat) (sup : Bool) (r : List (Nat × Nat) × List (Nat × Nat)) (sz : Nat × Nat) (w : Work) :
    State.endCatch u p e id sup r sz w =
      (let a := ((w.s.nullHeads u p e sup).popBeats u p (enInPop e)).pushBeats u p (enOutMask e) id (catchOuts u p e sup sz w)
       let b := if enClass e = 0 then a
         else a.setUnit u { a.unit u with inflight := (a.unit u).inflight ++
           [flightOf (w.s.plane u p) p id e sup r w (if sup then sz.2 else w.owes) (catchPred u p e w)] }
       (b.setPlane u p (planeAfter (b.plane u p) e sup sz.2 (catchPred u p e w) b.now)).goOn u p e) := rfl

theorem State.noFlow_endCatch (u p e id : Nat) (sup : Bool) (r : List (Nat × Nat) × List (Nat × Nat)) (sz : Nat × Nat) (w : Work) :
    (State.endCatch u p e id sup r sz w).noFlow = w.s.noFlow := by
  rw [State.endCatch_eq]
  extract_lets a e0 b
  have ha : a.noFlow = w.s.noFlow :=
    (State.noFlow_pushBeats _ _ _ _ _ _).trans ((State.noFlow_popBeats _ _ _ _).trans (State.noFlow_nullHeads w.s u p e sup))
  have hb : b.noFlow = w.s.noFlow := State.noFlow_ite ha ((State.noFlow_setUnit a _ _).trans ha)
  exact (State.noFlow_goOn _ _ _ _).trans ((State.noFlow_setPlane b _ _ _).trans hb)

theorem State.noFlow_beginCatch (s : State) (u : Nat) : (s.beginCatch u).noFlow = s.noFlow := by
  unfold State.beginCatch
  extract_lets pl d sup e0 a b
  have hb : b.noFlow = s.noFlow := (State.noFlow_pmc _ _ _ _).trans ((State.noFlow_bump a _ _ _).trans (State.noFlow_setUnit s _ _))
  exact State.noFlow_ite ((State.noFlow_pmc _ _ _ _).trans ((State.noFlow_bump b _ _ _).trans hb)) hb

/-- Whatever a catch's work leaves outside the unit, the catch leaves. -/
theorem State.noFlow_fire (s : State) (u : Nat) (work : State → Nat → Nat → Nat → Work) (size : Nat → Nat → Nat × Nat) :
    (s.fire u work size).noFlow = (s.workOf u work size).s.noFlow := by
  rw [State.fire_eq]
  exact State.noFlow_ite rfl (State.noFlow_endCatch _ _ _ _ _ _ _ _)

/-! ### The parts of a catch's end -/

theorem State.noErr_nullHeads (s : State) (u p e : Nat) (sup : Bool) : (s.nullHeads u p e sup).noErr = s.noErr := by
  unfold State.nullHeads State.nullLog
  refine State.noErr_ite rfl (State.noErr_foldl _ (fun t n => ?_) _ _)
  exact State.noErr_ite (State.noErr_fault_none _ _ _ _ rfl) rfl

theorem State.countMoved_unit (s : State) (u p v : Nat) :
    ∃ k, (s.countMoved u p).unit v = if v = u then { s.unit u with moved := (s.unit u).moved + k } else s.unit v :=
  ⟨bit (p == s.curPlane u), State.unit_setUnit s u v _⟩

/-- Popping a beat leaves planes, output ports, registers and time alone, and of the unit counts what moved. -/
theorem State.popBeat_keeps (s : State) (u p n : Nat) :
    (s.popBeat u p n).planes = s.planes ∧ (s.popBeat u p n).outPorts = s.outPorts ∧ (s.popBeat u p n).regs = s.regs ∧
      (s.popBeat u p n).now = s.now ∧
      (∃ k, ∀ v, (s.popBeat u p n).unit v = if v = u then { s.unit u with moved := (s.unit u).moved + k } else s.unit v) := by
  unfold State.popBeat
  extract_lets q
  split
  · exact ⟨rfl, rfl, rfl, rfl, bit (p == s.curPlane u), fun v => State.unit_setUnit _ u v _⟩
  · exact ⟨rfl, rfl, rfl, rfl, bit (p == s.curPlane u), fun v => State.unit_setUnit _ u v _⟩

/-- Popping beats does the same. -/
theorem State.popBeats_keeps (s : State) (u p m : Nat) :
    (s.popBeats u p m).planes = s.planes ∧ (s.popBeats u p m).outPorts = s.outPorts ∧ (s.popBeats u p m).regs = s.regs ∧
      (s.popBeats u p m).now = s.now ∧ (∃ k, (s.popBeats u p m).unit u = { s.unit u with moved := (s.unit u).moved + k }) ∧
      ∀ v, v ≠ u → (s.popBeats u p m).unit v = s.unit v := by
  unfold State.popBeats
  generalize maskPorts m = l
  induction l generalizing s with
  | nil => exact ⟨rfl, rfl, rfl, rfl, ⟨0, rfl⟩, fun _ _ => rfl⟩
  | cons n r ih =>
    rw [List.foldl_cons]
    obtain ⟨h1, h2, h3, h4, ⟨k, h5⟩, h6⟩ := ih (s.popBeat u p n)
    obtain ⟨g1, g2, g3, g4, j, e⟩ := State.popBeat_keeps s u p n
    have eu := e u
    rw [if_pos rfl] at eu
    refine ⟨h1.trans g1, h2.trans g2, h3.trans g3, h4.trans g4, ⟨j + k, ?_⟩, ?_⟩
    · rw [h5, eu, Nat.add_assoc]
    · intro v hv
      rw [h6 v hv, e v, if_neg hv]

/-- Beats offered on the ports of a mask stand behind those already offered. -/
theorem State.pushBeats_outPort (s : State) (u p m id n : Nat) (bs : List Beat) (hn : n < 8) :
    ((s.pushBeats u p m id bs).outPort u p n).pending =
      if natBit m n = true then (s.outPort u p n).pending ++ bs.map fun b => (id, b) else (s.outPort u p n).pending := by
  unfold State.pushBeats
  have hl : ∀ (l : List Nat) (t : State), l.Nodup →
      ((l.foldl (fun s n => s.setOutPort u p n { s.outPort u p n with pending := (s.outPort u p n).pending ++ bs.map fun b => (id, b) }) t).outPort
        u p n).pending = if n ∈ l then (t.outPort u p n).pending ++ bs.map fun b => (id, b) else (t.outPort u p n).pending := by
    intro l
    induction l with
    | nil => intro t _; simp
    | cons k r ih =>
      intro t hnd
      rw [List.foldl_cons, ih _ (List.nodup_cons.1 hnd).2]
      by_cases hk : n = k
      · subst hk
        rw [if_neg (List.nodup_cons.1 hnd).1, if_pos (List.mem_cons_self ..), State.outPort_setOutPort_same]
      · have hne : (t.setOutPort u p k { t.outPort u p k with pending := (t.outPort u p k).pending ++ bs.map fun b => (id, b) }).outPort u p n =
            t.outPort u p n := SMap.get_set_other _ _ _ _ _ _ (by unfold portKey; omega)
        rw [hne]
        by_cases hr : n ∈ r
        · rw [if_pos hr, if_pos (List.mem_cons_of_mem _ hr)]
        · rw [if_neg hr, if_neg (by simp [hk, hr])]
  have := hl (maskPorts m) s (List.Nodup.sublist List.filter_sublist List.nodup_range)
  refine this.trans ?_
  have hm : n ∈ maskPorts m ↔ natBit m n = true := by
    unfold maskPorts
    rw [List.mem_filter, List.mem_range]
    exact ⟨fun h => h.2, fun h => ⟨hn, h⟩⟩
  by_cases h : natBit m n = true
  · rw [if_pos (hm.2 h), if_pos h]
  · rw [if_neg (fun h' => h (hm.1 h')), if_neg h]

theorem State.pushBeats_keeps (s : State) (u p m id : Nat) (bs : List Beat) :
    (s.pushBeats u p m id bs).planes = s.planes ∧ (s.pushBeats u p m id bs).units = s.units ∧ (s.pushBeats u p m id bs).regs = s.regs ∧
      (s.pushBeats u p m id bs).now = s.now ∧ (s.pushBeats u p m id bs).inPorts = s.inPorts := by
  unfold State.pushBeats
  generalize maskPorts m = l
  induction l generalizing s with
  | nil => exact ⟨rfl, rfl, rfl, rfl, rfl⟩
  | cons n r ih =>
    rw [List.foldl_cons]
    obtain ⟨h1, h2, h3, h4, h5⟩ := ih (s.setOutPort u p n { s.outPort u p n with pending := (s.outPort u p n).pending ++ bs.map fun b => (id, b) })
    exact ⟨h1.trans rfl, h2.trans rfl, h3.trans rfl, h4.trans rfl, h5.trans rfl⟩

/-- Registers outside the error block and the unit's fault registers are as the work left them. -/
theorem State.regAt_nullHeads (s : State) (u p e : Nat) (sup : Bool) (k : Nat) (hk : errKey k = false) (h1 : k ≠ Reg.UNIT_FAULT + unitOff u)
    (h2 : k ≠ Reg.UNIT_FAULT_INFO + unitOff u) : (s.nullHeads u p e sup).regAt k = s.regAt k := by
  unfold State.nullHeads State.nullLog
  split
  · rfl
  · generalize maskPorts (enInPop e) = l
    generalize (s.plane u p).pc = pc
    induction l generalizing s with
    | nil => rfl
    | cons n r ih =>
      rw [List.foldl_cons, ih]
      split
      · exact State.regAt_fault_none s unitRegs _ (unitOff u) k rfl (Nat.zero_le 5) hk h1 h2
      · rfl

/-- What a catch's end makes of the unit, its plane, its ports and the registers, from the state its work left. -/
theorem State.endCatch_parts (u p e id : Nat) (sup : Bool) (r : List (Nat × Nat) × List (Nat × Nat)) (sz : Nat × Nat) (w : Work) :
    (∃ k, (State.endCatch u p e id sup r sz w).unit u = { w.s.unit u with
      moved := (w.s.unit u).moved + k
      inflight := if enClass e = 0 then (w.s.unit u).inflight
        else (w.s.unit u).inflight ++ [flightOf (w.s.plane u p) p id e sup r w (if sup then sz.2 else w.owes) (catchPred u p e w)] }) ∧
    (∃ z : State, z.planes = w.s.planes ∧ z.now = w.s.now ∧ (State.endCatch u p e id sup r sz w).planes =
      ((z.setPlane u p (planeAfter (w.s.plane u p) e sup sz.2 (catchPred u p e w) w.s.now)).goOn u p e).planes) ∧
    (∀ n, n < 8 → ((State.endCatch u p e id sup r sz w).outPort u p n).pending =
      if natBit (enOutMask e) n = true then (w.s.outPort u p n).pending ++ (catchOuts u p e sup sz w).map fun b => (id, b)
      else (w.s.outPort u p n).pending) ∧
    (∀ j, errKey j = false → j ≠ Reg.UNIT_FAULT + unitOff u → j ≠ Reg.UNIT_FAULT_INFO + unitOff u →
      (State.endCatch u p e id sup r sz w).regAt j = w.s.regAt j) := by
  rw [State.endCatch_eq]
  extract_lets a e0 b
  have hN : (w.s.nullHeads u p e sup).noErr = w.s.noErr := State.noErr_nullHeads _ _ _ _ _
  obtain ⟨p1, p2, p3, p4, ⟨k, p5⟩, _⟩ := State.popBeats_keeps (w.s.nullHeads u p e sup) u p (enInPop e)
  obtain ⟨q1, q2, q3, q4, _⟩ :=
    State.pushBeats_keeps ((w.s.nullHeads u p e sup).popBeats u p (enInPop e)) u p (enOutMask e) id (catchOuts u p e sup sz w)
  have ha : a.planes = w.s.planes := q1.trans (p1.trans (State.planes_of_noErr hN))
  have hau : a.unit u = { w.s.unit u with moved := (w.s.unit u).moved + k } := by
    have e1 : a.unit u = ((w.s.nullHeads u p e sup).popBeats u p (enInPop e)).unit u := State.unit_congr _ _ q2 u
    have e2 : (w.s.nullHeads u p e sup).unit u = w.s.unit u := State.unit_congr _ _ (State.units_of_noErr hN) u
    rw [e1, p5, e2]
  have han : a.now = w.s.now := q4.trans (p4.trans (State.now_of_noErr hN))
  have hbk : b.planes = a.planes ∧ b.now = a.now ∧ b.regs = a.regs ∧ b.outPorts = a.outPorts := by
    show (if enClass e = 0 then a else a.setUnit u _).planes = a.planes ∧ (if enClass e = 0 then a else a.setUnit u _).now = a.now ∧
      (if enClass e = 0 then a else a.setUnit u _).regs = a.regs ∧ (if enClass e = 0 then a else a.setUnit u _).outPorts = a.outPorts
    split
    · exact ⟨rfl, rfl, rfl, rfl⟩
    · exact ⟨rfl, rfl, rfl, rfl⟩
  obtain ⟨hb, hbn, hbr, hbo⟩ := hbk
  have hg : ∀ (t : State) (y : Plane), ((t.setPlane u p y).goOn u p e).units = t.units ∧ ((t.setPlane u p y).goOn u p e).outPorts = t.outPorts ∧
      ((t.setPlane u p y).goOn u p e).regs = t.regs := by
    intro t y
    unfold State.goOn
    extract_lets pl pc
    split
    · exact ⟨rfl, rfl, rfl⟩
    · exact ⟨rfl, rfl, rfl⟩
  have hpl : b.plane u p = w.s.plane u p := State.plane_congr _ _ (hb.trans ha) u p
  refine ⟨⟨k, ?_⟩, ⟨b, hb.trans ha, hbn.trans han, ?_⟩, ?_, ?_⟩
  · rw [State.unit_congr _ _ (hg b _).1 u]
    show (if enClass e = 0 then a else a.setUnit u _).unit u = _
    by_cases hc : enClass e = 0
    · rw [if_pos hc, if_pos hc, hau]
    · have he : e0 = { w.s.unit u with moved := (w.s.unit u).moved + k } := hau
      rw [if_neg hc, if_neg hc, State.unit_setUnit, if_pos rfl, hau, he]
  · rw [hpl, hbn.trans han]
  · intro m hm
    rw [State.outPort_congr _ _ ((hg b _).2.1.trans hbo) u p m]
    have e2 : ((w.s.nullHeads u p e sup).popBeats u p (enInPop e)).outPort u p m = w.s.outPort u p m :=
      State.outPort_congr _ _ (p2.trans (State.outPorts_of_noErr hN)) u p m
    have := State.pushBeats_outPort ((w.s.nullHeads u p e sup).popBeats u p (enInPop e)) u p (enOutMask e) id m (catchOuts u p e sup sz w) hm
    rw [e2] at this
    exact this
  · intro j hj h1 h2
    rw [State.regAt_congr _ _ ((hg b _).2.2.trans hbr) j, State.regAt_congr _ _ (q3.trans p3) j, State.regAt_nullHeads _ _ _ _ _ _ hj h1 h2]

end Sys2Proof.Machine
end

