-- ==== Sys2Proof/Laws/Engines.lean ====
section
/-! SUPPORT. What the engines' work at a catch leaves alone: each touches the unit's operand-store lines, its numeric registers, a pass's place in the
unit, free values and, for a null beat, the error machinery. -/

namespace Sys2Proof.Machine
set_option Elab.async false

/-- Registers that engine work may change. -/
def workKeys (u : Nat) : List Nat :=
  [Reg.UNIT_NUM_FLAGS, Reg.UNIT_ACC_OVF, Reg.UNIT_SFN_FTZ, Reg.UNIT_STAT_CLAMP, Reg.UNIT_FAULT, Reg.UNIT_FAULT_INFO].map fun r => r + unitOff u

/-- The state without what a catch touches, and without the operand stores. -/
def State.noWork (s : State) : State := { s.noFlow with ops := [] }

/-- What engine work from `c` leaves alone in `z`. -/
structure WorkKeeps (u : Nat) (c z : State) : Prop where
  planes : z.planes = c.planes
  inPorts : z.inPorts = c.inPorts
  outPorts : z.outPorts = c.outPorts
  unit : ∃ pa, z.unit u = { c.unit u with pass := pa }
  rest : z.noWork = c.noWork
  ops : ∀ v l, v ≠ u → l < 4096 → z.opLine v l = c.opLine v l
  regs : ∀ k, errKey k = false → (workKeys u).contains k = false → z.regAt k = c.regAt k

theorem WorkKeeps.refl (u : Nat) (c : State) : WorkKeeps u c c :=
  ⟨rfl, rfl, rfl, ⟨(c.unit u).pass, rfl⟩, rfl, fun _ _ _ _ => rfl, fun _ _ _ => rfl⟩

theorem WorkKeeps.trans {u : Nat} {a b c : State} (h : WorkKeeps u a b) (g : WorkKeeps u b c) : WorkKeeps u a c := by
  obtain ⟨pa, hp⟩ := h.unit
  obtain ⟨pb, gp⟩ := g.unit
  refine ⟨g.planes.trans h.planes, g.inPorts.trans h.inPorts, g.outPorts.trans h.outPorts, ⟨pb, ?_⟩, g.rest.trans h.rest,
    fun v l hv hl => (g.ops v l hv hl).trans (h.ops v l hv hl), fun k hk hw => (g.regs k hk hw).trans (h.regs k hk hw)⟩
  rw [gp, hp]

theorem WorkKeeps.ite {u : Nat} {c : State} {p : Prop} [Decidable p] {a b : State} (ha : WorkKeeps u c a) (hb : WorkKeeps u c b) :
    WorkKeeps u c (if p then a else b) := by split <;> assumption

theorem workKeeps_regPut (u : Nat) (s : State) (k : Nat) (w : Word) (h : (workKeys u).contains k = true) : WorkKeeps u s (s.regPut k w) := by
  refine ⟨State.regPut_planes _ _ _, State.regPut_inPorts _ _ _, State.regPut_outPorts _ _ _, ⟨(s.unit u).pass, State.regPut_unit _ _ _ _⟩, ?_,
    fun v l _ _ => State.regPut_opLine _ _ _ _ _, ?_⟩
  · unfold State.noWork; rw [State.noFlow_regPut]
  · intro j _ hj
    rw [State.regAt_regPut, if_neg]
    intro e; rw [e, h] at hj; exact Bool.noConfusion hj

theorem workKeeps_bump (u : Nat) (s : State) (f : Fld) (n d : Nat) (h : (workKeys u).contains (f.reg + d) = true) :
    WorkKeeps u s (s.bump f n d) := workKeeps_regPut u s _ _ h

theorem workKeeps_numFlags (u : Nat) (s : State) (a b c d : Nat) : WorkKeeps u s (s.numFlags u a b c d) := by
  unfold State.numFlags
  extract_lets e t
  have h1 : WorkKeeps u s t := workKeeps_regPut u s _ _ (by simp [workKeys, e])
  refine ((h1.trans (workKeeps_bump u t .UNIT_ACC_OVF_COUNT b e ?_)).trans (workKeeps_bump u _ .UNIT_SFN_FTZ_COUNT c e ?_)).trans
    (workKeeps_bump u _ .UNIT_STAT_CLAMP_COUNT d e ?_)
  · show (workKeys u).contains (Reg.UNIT_ACC_OVF + unitOff u) = true
    simp [workKeys]
  · show (workKeys u).contains (Reg.UNIT_SFN_FTZ + unitOff u) = true
    simp [workKeys]
  · show (workKeys u).contains (Reg.UNIT_STAT_CLAMP + unitOff u) = true
    simp [workKeys]

theorem workKeeps_setOpLine (u : Nat) (s : State) (l : Nat) (x : OpLine) (hl : l < 4096) : WorkKeeps u s (s.setOpLine u l x) := by
  refine ⟨State.setOpLine_planes _ _ _ _, State.setOpLine_inPorts _ _ _ _, State.setOpLine_outPorts _ _ _ _,
    ⟨(s.unit u).pass, State.setOpLine_unit _ _ _ _ _⟩, rfl, ?_, fun k _ _ => State.setOpLine_regAt _ _ _ _ _⟩
  intro v m hv hm
  exact State.opLine_setOpLine_other _ _ _ _ _ _ (by omega)

theorem workKeeps_foldl {α : Type} (u : Nat) (f : State → α → State) (h : ∀ s x, WorkKeeps u s (f s x)) (l : List α) (s : State) :
    WorkKeeps u s (l.foldl f s) := by
  induction l generalizing s with
  | nil => exact .refl u s
  | cons x r ih => exact (h s x).trans (ih _)

theorem workKeeps_putOps (u : Nat) (s : State) (line tag : Nat) (ls : List (Line × Bool)) : WorkKeeps u s (s.putOps u line tag ls) :=
  workKeeps_foldl u _ (fun s p => workKeeps_setOpLine u s _ _ (Nat.mod_lt _ (by decide))) _ _

theorem workKeeps_fresh (u : Nat) (s : State) (n : Nat) : WorkKeeps u s { s with fresh := n } :=
  ⟨rfl, rfl, rfl, ⟨(s.unit u).pass, rfl⟩, rfl, fun _ _ _ _ => rfl, fun _ _ _ => rfl⟩

theorem workKeeps_entryFault (u : Nat) (s : State) (p b : Nat) : WorkKeeps u s (s.entryFault u p b 0) := by
  have h : (s.entryFault u p b 0).noErr = s.noErr := State.noErr_fault_none _ _ _ _ rfl
  refine ⟨(State.planes_of_noErr h),
    (State.inPorts_of_noErr h),
    (State.outPorts_of_noErr h),
    ⟨(s.unit u).pass, State.unit_congr _ _ (State.units_of_noErr h) u⟩, ?_,
    fun v l _ _ => State.opLine_congr _ _ (State.ops_of_noErr h) v l, ?_⟩
  · unfold State.noWork; rw [State.noFlow_of_noErr h]
  · intro k hk hw
    refine State.regAt_fault_none s unitRegs _ (unitOff u) k rfl (Nat.zero_le 5) hk ?_ ?_
    · intro e
      have : (workKeys u).contains (Reg.UNIT_FAULT + unitOff u) = true := by simp [workKeys]
      rw [show k = Reg.UNIT_FAULT + unitOff u from e, this] at hw; exact Bool.noConfusion hw
    · intro e
      have : (workKeys u).contains (Reg.UNIT_FAULT_INFO + unitOff u) = true := by simp [workKeys]
      rw [show k = Reg.UNIT_FAULT_INFO + unitOff u from e, this] at hw; exact Bool.noConfusion hw

theorem workKeeps_pass (u : Nat) (s : State) (pa : Option PassSt) : WorkKeeps u s (s.setUnit u { s.unit u with pass := pa }) := by
  refine ⟨State.setUnit_planes _ _ _, State.setUnit_inPorts _ _ _, State.setUnit_outPorts _ _ _, ⟨pa, ?_⟩, rfl,
    fun v l _ _ => State.setUnit_opLine _ _ _ _ _, fun k _ _ => State.setUnit_regAt _ _ _ _⟩
  rw [State.unit_setUnit, if_pos rfl]

/-! ### Each engine -/

theorem workKeeps_vecOut (u : Nat) (s : State) (line code : Nat) (rs : List (NR × Bool)) : WorkKeeps u s (s.vecOut u line code rs) := by
  unfold State.vecOut
  exact (workKeeps_numFlags u s _ _ _ _).trans (workKeeps_putOps u _ _ _ _)

theorem workKeeps_vec2 (f : Nat → Nat → NR) (s : State) (u p e : Nat) : WorkKeeps u s (workVec2 f s u p e).s := workKeeps_vecOut u s _ _ _

theorem workKeeps_vecAdd (s : State) (u p e : Nat) : WorkKeeps u s (workVecAdd s u p e).s := by
  unfold workVecAdd
  split
  · exact workKeeps_vecOut u _ _ _ _
  · exact workKeeps_vec2 f32Add s u p e

theorem workKeeps_vecFma (s : State) (u p e : Nat) : WorkKeeps u s (workVecFma s u p e).s := workKeeps_vecOut u s _ _ _
theorem workKeeps_vecScaleExp (s : State) (u p e : Nat) : WorkKeeps u s (workVecScaleExp s u p e).s := workKeeps_vecOut u s _ _ _
theorem workKeeps_reduce (f : Nat → Nat → NR) (s : State) (u p e : Nat) : WorkKeeps u s (workReduce f s u p e).s := workKeeps_vecOut u s _ _ _

theorem workKeeps_vecCvt (s : State) (u p e : Nat) : WorkKeeps u s (workVecCvt s u p e).s := by
  unfold workVecCvt
  extract_lets nc sf df xs scaleNan vals gs a b rs c
  split
  · exact ((workKeeps_numFlags u s _ _ _ _).trans (workKeeps_putOps u a _ _ _)).trans (workKeeps_putOps u b _ _ _)
  · exact (workKeeps_numFlags u s _ _ _ _).trans (workKeeps_vecOut u c _ _ _)

theorem workKeeps_sfn (s : State) (u p e : Nat) : WorkKeeps u s (workSfn s u p e).s :=
  (workKeeps_numFlags u s _ _ _ _).trans (workKeeps_putOps u _ _ _ _)

theorem enDst_lt (e : Nat) : enDst e < 4096 := Nat.mod_lt _ (by decide)

theorem workKeeps_statRow (lane : MR → Nat → MR) (seed : StatRec) (s : State) (u p e : Nat) : WorkKeeps u s (workStatRow lane seed s u p e).s :=
  (workKeeps_numFlags u s _ _ _ _).trans (workKeeps_setOpLine u _ _ _ (enDst_lt e))

theorem workKeeps_statMerge (s : State) (u p e : Nat) : WorkKeeps u s (workStatMerge s u p e).s :=
  (workKeeps_numFlags u s _ _ _ _).trans (workKeeps_putOps u _ _ _ _)
theorem workKeeps_statFinish (s : State) (u p e : Nat) : WorkKeeps u s (workStatFinish s u p e).s :=
  (workKeeps_numFlags u s _ _ _ _).trans (workKeeps_putOps u _ _ _ _)

theorem workKeeps_mpass (s : State) (u p e : Nat) : WorkKeeps u s (workMpass s u p e).s := workKeeps_pass u s _
theorem workKeeps_none (s : State) (u p e : Nat) : WorkKeeps u s (workNone s u p e).s := .refl u s
theorem workKeeps_send (s : State) (u p e : Nat) : WorkKeeps u s (workSend s u p e).s := .refl u s
theorem workKeeps_select (s : State) (u p e : Nat) : WorkKeeps u s (workSelect s u p e).s := .refl u s
theorem workKeeps_forward (s : State) (u p e : Nat) : WorkKeeps u s (workForward s u p e).s := by
  unfold workForward; split <;> exact .refl u s

theorem workKeeps_recvBeat (s : State) (u p e n i : Nat) : WorkKeeps u s (s.recvBeat u p e n i) := by
  unfold State.recvBeat
  split
  · exact .refl u s
  · exact workKeeps_setOpLine u _ _ _ (Nat.mod_lt _ (by decide))

theorem workKeeps_recv (s : State) (u p e : Nat) : WorkKeeps u s (workRecv s u p e).s := by
  unfold workRecv
  split
  · exact .refl u s
  · exact workKeeps_recvBeat s u p e _ 0

/-! ### A whole catch -/

/-- A catch's beginning: the entry takes its number, the catch is counted; planes, ports, time and operand stores stay. -/
theorem State.beginCatch_parts (s : State) (u : Nat) :
    (s.beginCatch u).planes = s.planes ∧ (s.beginCatch u).inPorts = s.inPorts ∧ (s.beginCatch u).outPorts = s.outPorts ∧
      (s.beginCatch u).unit u = { s.unit u with nextId := (s.unit u).nextId + 1, yielded := false } ∧ (s.beginCatch u).fresh = s.fresh ∧
      (∀ k, errKey k = false → k ≠ Reg.UNIT_CATCHES + unitOff u → k ≠ Reg.UNIT_NULL_CATCHES + unitOff u → (s.beginCatch u).regAt k = s.regAt k) ∧
      (s.beginCatch u).getF .UNIT_CATCHES_COUNT (unitOff u) = (s.getF .UNIT_CATCHES_COUNT (unitOff u) + 1) % 2 ^ 64 ∧
      ((s.plane u (s.curPlane u)).suppresses (s.curEntry u) = true →
        (s.beginCatch u).getF .UNIT_NULL_CATCHES_COUNT (unitOff u) = (s.getF .UNIT_NULL_CATCHES_COUNT (unitOff u) + 1) % 2 ^ 64) := by
  have hpm : ∀ (t : State) (ev : Nat) (c : Option Nat), (t.pmc ev 1 c).noErr = t.noErr ∧ t.sameOutsideErr (t.pmc ev 1 c) := by
    intro t ev c
    refine ⟨State.noErr_pmc t ev 1 c, ?_⟩
    unfold State.pmc
    have hl : ∀ (l : List Nat) (t : State), (∀ k ∈ l, k < 16) → t.sameOutsideErr (l.foldl (fun s k =>
        let d := 16 * k
        let sameCtx := match c with
          | some c => !s.flag .PMC_SEL_CTX_EN d || s.getF .PMC_SEL_CTX d == c
          | none => true
        if s.getF .PMC_SEL_EVENT d == ev && ev != 0 && sameCtx then s.bump .PMC_COUNT 1 d else s) t) := by
      intro l
      induction l with
      | nil => intro t _; exact .refl t
      | cons k r ih =>
        intro t hk
        rw [List.foldl_cons]
        refine State.sameOutsideErr.trans ?_ (ih _ (fun j hj => hk j (List.mem_cons_of_mem _ hj)))
        refine State.sameOutsideErr_ite (State.sameOutsideErr_bump t _ 1 _ ?_) (.refl t)
        have := hk k (List.mem_cons_self ..)
        show (decide (0x00400000 ≤ 0x00400208 + 16 * k) && decide (0x00400208 + 16 * k < 0x00800000)) = true
        simp only [Bool.and_eq_true, decide_eq_true_eq]; omega
    exact hl (List.range 16) t (fun k hk => List.mem_range.1 hk)
  have hne : ∀ r : Nat, 0x08000000 ≤ r → errKey (r + unitOff u) = false := by
    intro r hr
    unfold errKey
    have : ¬(r + unitOff u < 0x00800000) := by omega
    simp [this]
  unfold State.beginCatch
  extract_lets pl d sup e0 a b
  have hb : b.noErr = a.noErr := (hpm _ _ _).1.trans (State.noErr_bump a _ _ _)
  have hbr : ∀ k, errKey k = false → k ≠ Reg.UNIT_CATCHES + unitOff u → b.regAt k = a.regAt k := by
    intro k hk h
    exact ((hpm _ _ _).2 k hk).trans (State.regAt_bump_other _ _ _ _ _ h)
  have har : ∀ k, a.regAt k = s.regAt k := fun k => State.setUnit_regAt _ _ _ _
  have hbc : b.getF .UNIT_CATCHES_COUNT d = (s.getF .UNIT_CATCHES_COUNT d + 1) % 2 ^ 64 := by
    have h1 : b.getF .UNIT_CATCHES_COUNT d = (a.bump .UNIT_CATCHES_COUNT 1 d).getF .UNIT_CATCHES_COUNT d := by
      unfold State.getF
      rw [(hpm _ _ _).2 _ (hne _ (by decide))]
    rw [h1, State.getF_bump_same _ _ _ _ (by decide)]
    have h2 : a.getF .UNIT_CATCHES_COUNT d = s.getF .UNIT_CATCHES_COUNT d := State.setUnit_getF _ _ _ _ _
    rw [h2]
    rfl
  have hau : a.unit u = { s.unit u with nextId := (s.unit u).nextId + 1, yielded := false } := by
    show (s.setUnit u _).unit u = _
    rw [State.unit_setUnit, if_pos rfl]
  have hbu : b.unit u = a.unit u := State.unit_congr b a (State.units_of_noErr hb) u
  have hnull : ∀ t : State, ((t.bump .UNIT_NULL_CATCHES_COUNT 1 d).pmc 2 1 (some pl.ctx)).noErr = t.noErr := fun t =>
    (hpm _ _ _).1.trans (State.noErr_bump t _ _ _)
  have hc : (if sup = true then (b.bump .UNIT_NULL_CATCHES_COUNT 1 d).pmc 2 1 (some pl.ctx) else b).noErr = a.noErr :=
    by split
       · exact (hnull b).trans hb
       · exact hb
  have cr : ∀ k, errKey k = false → k ≠ Reg.UNIT_NULL_CATCHES + unitOff u →
      (if sup = true then (b.bump .UNIT_NULL_CATCHES_COUNT 1 d).pmc 2 1 (some pl.ctx) else b).regAt k = b.regAt k := by
    intro k hk h
    split
    · exact ((hpm _ _ _).2 k hk).trans (State.regAt_bump_other _ _ _ _ _ h)
    · rfl
  generalize hz : (if sup = true then (b.bump .UNIT_NULL_CATCHES_COUNT 1 d).pmc 2 1 (some pl.ctx) else b) = z at hc cr
  refine ⟨(State.planes_of_noErr hc).trans (State.setUnit_planes s u _), (State.inPorts_of_noErr hc).trans (State.setUnit_inPorts s u _),
    (State.outPorts_of_noErr hc).trans (State.setUnit_outPorts s u _), ?_, (State.fresh_of_noErr hc).trans (State.setUnit_fresh s u _), ?_, ?_, ?_⟩
  · rw [State.unit_congr z a (State.units_of_noErr hc) u, hau]
  · intro k hk h1 h2
    rw [cr k hk h2, hbr k hk h1, har k]
  · have : z.getF .UNIT_CATCHES_COUNT d = b.getF .UNIT_CATCHES_COUNT d := by
      unfold State.getF
      rw [cr _ (hne _ (by decide)) (by show Reg.UNIT_CATCHES + d ≠ Reg.UNIT_NULL_CATCHES + d; unfold Reg.UNIT_CATCHES Reg.UNIT_NULL_CATCHES; omega)]
    rw [this, hbc]
  · intro hs
    have hs' : sup = true := hs
    have h1 : z.getF .UNIT_NULL_CATCHES_COUNT d = (b.bump .UNIT_NULL_CATCHES_COUNT 1 d).getF .UNIT_NULL_CATCHES_COUNT d := by
      rw [← hz, if_pos hs']
      unfold State.getF
      rw [(hpm _ _ _).2 _ (hne _ (by decide))]
    rw [h1, State.getF_bump_same _ _ _ _ (by decide)]
    have h2 : b.getF .UNIT_NULL_CATCHES_COUNT d = s.getF .UNIT_NULL_CATCHES_COUNT d := by
      unfold State.getF
      rw [hbr _ (hne _ (by decide)) (by show Reg.UNIT_NULL_CATCHES + d ≠ Reg.UNIT_CATCHES + d; unfold Reg.UNIT_CATCHES Reg.UNIT_NULL_CATCHES; omega),
        har]
    rw [h2]
    rfl

/-- A catch whose work keeps planes and ports ends as `endCatch` says. -/
theorem fire_parts (s : State) (u : Nat) (work : State → Nat → Nat → Nat → Work) (size : Nat → Nat → Nat × Nat)
   (hw : ∀ c p e, WorkKeeps u c (work c u p e).s) (hv : (s.plane u (s.curPlane u)).valid = true) :
   WorkKeeps u (s.beginCatch u) (s.workOf u work size).s ∧
   s.fire u work size = State.endCatch u (s.curPlane u) (s.curEntry u) (s.unit u).nextId ((s.plane u (s.curPlane u)).suppresses (s.curEntry u))
        (s.entryRanges u (s.plane u (s.curPlane u)).cfg (s.curEntry u)) (size (s.plane u (s.curPlane u)).cfg (s.curEntry u)) (s.workOf u work size) := by
  have hk : WorkKeeps u (s.beginCatch u) (s.workOf u work size).s := by
    unfold State.workOf
    split
    · exact .refl _ _
    · exact hw _ _ _
  refine ⟨hk, ?_⟩
  rw [State.fire_eq]
  have : (s.workOf u work size).s.plane u (s.curPlane u) = s.plane u (s.curPlane u) :=
    State.plane_congr _ _ (hk.planes.trans (State.beginCatch_parts s u).1) _ _
  rw [this, hv]
  rfl

/-- An entry fires in a valid plane alone. -/
theorem fires_valid {s : State} {u : Nat} {m : Nat → Bool} (h : s.fires u m = true) : (s.plane u (s.curPlane u)).valid = true := by
  simp only [State.fires, State.atEntry, State.mayIssue, Bool.and_eq_true] at h
  obtain ⟨⟨⟨⟨⟨⟨⟨h, _⟩, _⟩, _⟩, _⟩, _⟩, _⟩, _⟩ := h
  exact h.1.1.1.2

/-- The counters after a catch do not hang on its predicate or beats; position and runs stay. -/
theorem planeAfter_ctrs (pl : Plane) (e : Nat) (sup : Bool) (b : Nat) (pv : Bool) (now : Nat) :
   (planeAfter pl e sup b pv now).ctrs = (planeAfter pl e false 0 false now).ctrs ∧ (planeAfter pl e sup b pv now).pc = pl.pc ∧ (planeAfter pl e sup b pv now).runs = pl.runs := by
  have adv : ∀ (q : Plane) k n, (q.advance k n).pc = q.pc ∧ (q.advance k n).runs = q.runs := by
    intro q k n
    unfold Plane.advance
    extract_lets c cfg again
    split
    · exact ⟨rfl, rfl⟩
    · extract_lets wrap c' q1 q2 due
      have h2 : q2.pc = q.pc ∧ q2.runs = q.runs := by
        show (if (wrap && again) = true then _ else q1 : Plane).pc = _ ∧ (if (wrap && again) = true then _ else q1 : Plane).runs = _
        split <;> exact ⟨rfl, rfl⟩
      split
      · exact h2
      · exact h2
  have adc : ∀ (q r : Plane) k n, q.ctrs = r.ctrs → q.limits = r.limits → q.cfg = r.cfg → q.static = r.static → (q.advance k n).ctrs = (r.advance k n).ctrs := by
    intro q r k n h1 h2 h3 h4
    have key : ∀ (x : Plane), (x.advance k n).ctrs = match x.limits.getD k none with
       | none => x.ctrs
       | some l => x.ctrs.set k (if decide (l ≤ x.ctrs.getD k 0 + 1) = true then 0 else x.ctrs.getD k 0 + 1) := by
      intro x
      unfold Plane.advance
      extract_lets c cfg again
      split
      · rename_i hq; first | rw [hq] | rfl
      · rename_i l hq
        extract_lets wrap c' q1 q2 due
        have h2 : q2.ctrs = q1.ctrs := by
          show (if (wrap && again) = true then _ else q1 : Plane).ctrs = _
          split <;> rfl
        try rw [hq]
        split
        · exact h2
        · exact h2
    rw [key, key, h1, h2]
  unfold planeAfter
  extract_lets q1 c1 q2 q3 c2 q4 q5
  have hq : q3.ctrs = q5.ctrs ∧ q3.limits = q5.limits ∧ q3.cfg = q5.cfg ∧ q3.static = q5.static ∧ q3.pc = pl.pc ∧ q3.runs = pl.runs := by
    have a : ∀ (x : Plane) (pv : Bool), let y := (if enPsetEn e then { x with preds := if natBit x.preds (enPsetDst e) == pv then x.preds else if pv then x.preds + 2 ^ enPsetDst e else x.preds - 2 ^ enPsetDst e } else x)
       y.ctrs = x.ctrs ∧ y.limits = x.limits ∧ y.cfg = x.cfg ∧ y.static = x.static ∧ y.pc = x.pc ∧ y.runs = x.runs := by
      intro x pv; dsimp only; split <;> exact ⟨rfl, rfl, rfl, rfl, rfl, rfl⟩
    have a3 := a q2 pv
    have a5 := a q4 false
    exact ⟨a3.1.trans a5.1.symm, a3.2.1.trans a5.2.1.symm, a3.2.2.1.trans a5.2.2.1.symm, a3.2.2.2.1.trans a5.2.2.2.1.symm, a3.2.2.2.2.1, a3.2.2.2.2.2⟩
  obtain ⟨h1, h2, h3, h4, h5, h6⟩ := hq
  split
  · exact ⟨adc _ _ _ _ h1 h2 h3 h4, (adv _ _ _).1.trans h5, (adv _ _ _).2.trans h6⟩
  · exact ⟨h1, h5, h6⟩

/-- What stays where nothing but the unit, its planes and ports, registers, errors and operand stores changes. -/
theorem flow_frame (s t : State) (h : t.noWork = s.noWork) : s.sameMemory t ∧ s.sameTiers t ∧ s.sameHost t ∧ s.sameFabric t ∧ s.samePower t ∧ s.sameTime t ∧ t.rigs = s.rigs ∧ t.waves = s.waves ∧
    t.switches = s.switches ∧ t.snap = s.snap := by
  have e : ∀ (α : Type) (π : State → α), (∀ x : State, π x.noWork = π x) → π t = π s := by
    intro α π hp
    have := congrArg π h
    rwa [hp, hp] at this
  exact ⟨State.sameMemory_of _ _ (e _ State.mem fun _ => rfl) (e _ State.memPoison fun _ => rfl) (e _ State.memTag fun _ => rfl),
   ⟨e _ State.tiers fun _ => rfl, e _ State.streams fun _ => rfl, e _ State.seals fun _ => rfl, e _ State.sed fun _ => rfl, e _ State.wpkg fun _ => rfl⟩,
   ⟨e _ State.ctxs fun _ => rfl, e _ State.vis fun _ => rfl, e _ State.rings fun _ => rfl, e _ State.entries fun _ => rfl, e _ State.reqs fun _ => rfl, e _ State.step fun _ => rfl⟩,
   ⟨e _ State.scat fun _ => rfl, e _ State.fab fun _ => rfl, e _ State.coll fun _ => rfl, e _ State.slices fun _ => rfl, e _ State.twin fun _ => rfl⟩,
   ⟨e _ State.pwr fun _ => rfl, e _ State.seats fun _ => rfl, e _ State.board fun _ => rfl⟩,
   ⟨e _ State.now fun _ => rfl, e _ State.pending fun _ => rfl⟩, e _ State.rigs fun _ => rfl, e _ State.waves fun _ => rfl, e _ State.switches fun _ => rfl, e _ State.snap fun _ => rfl⟩

theorem noWork_of_noFlow {s t : State} (h : t.noFlow = s.noFlow) : t.noWork = s.noWork := by unfold State.noWork; rw [h]

end Sys2Proof.Machine
end

