-- ==== Sys2Proof/WellFormed.lean ====
section
/-! DEFINITION. Well-formed commands: operands that name a unit, a seat, a port, a ring or another numbered thing name one that
the module has (R19, Table 0.6). A command of the management endpoint, and a doorbell, may name any number: the operation answers for it. -/

namespace Sys2Proof

/-- A number below a bound. -/
def below (n bound : Nat) : Bool := decide (n < bound)

/-- Operands name what exists. -/
def Instr.wf (i : Instr) : Bool :=
  match i with
  | .registerWrite .. => true
  | .readClear .. => true
  | .viewSelectorWrite .. => true
  | .setPoolRole .. => true
  | .beatArrive uid plane port b => below uid 16384 && below plane 8 && below port 8 && below b.err 4
  | .entrySkip uid => below uid 16384
  | .nop uid => below uid 16384
  | .mpass uid => below uid 16384
  | .passComplete uid => below uid 16384
  | .vecAdd uid => below uid 16384
  | .vecSub uid => below uid 16384
  | .vecMul uid => below uid 16384
  | .vecFma uid => below uid 16384
  | .vecMax uid => below uid 16384
  | .vecMin uid => below uid 16384
  | .vecCmpLt uid => below uid 16384
  | .vecCmpEq uid => below uid 16384
  | .vecCvt uid => below uid 16384
  | .vecReduceSum uid => below uid 16384
  | .vecReduceMax uid => below uid 16384
  | .vecScaleExp uid => below uid 16384
  | .sfnExp2 uid => below uid 16384
  | .sfnExp uid => below uid 16384
  | .sfnLog2 uid => below uid 16384
  | .sfnRcp uid => below uid 16384
  | .sfnRsqrt uid => below uid 16384
  | .sfnSqrt uid => below uid 16384
  | .sfnTanh uid => below uid 16384
  | .sfnSigmoid uid => below uid 16384
  | .sfnSilu uid => below uid 16384
  | .sfnGelu uid => below uid 16384
  | .sfnMicroprogram uid => below uid 16384
  | .tsLoad uid => below uid 16384
  | .tsStore uid => below uid 16384
  | .select uid => below uid 16384
  | .forward uid => below uid 16384
  | .send uid => below uid 16384
  | .recv uid => below uid 16384
  | .scatterRoute uid => below uid 16384
  | .scatterClose uid => below uid 16384
  | .scatterCombine uid => below uid 16384
  | .scatterReturn uid => below uid 16384
  | .statAcc uid => below uid 16384
  | .statRmsAcc uid => below uid 16384
  | .statMerge uid => below uid 16384
  | .statFinish uid => below uid 16384
  | .streamingBeatConsume uid _ => below uid 16384
  | .beatEmit uid plane port => below uid 16384 && below plane 8 && below port 8
  | .engineComplete uid _ _ => below uid 16384
  | .shapeLoadComplete uid plane _ => below uid 16384 && below plane 8
  | .shapeReread uid plane _ => below uid 16384 && below plane 8
  | .shapeTimeout uid plane _ => below uid 16384 && below plane 8
  | .halt _ uid _ => below uid 16384
  | .offline _ uid _ => below uid 16384
  | .forceStatic _ uid _ => below uid 16384
  | .foldAdvance uid _ => below uid 16384
  | .foldCommit _ uid => below uid 16384
  | .foldInstall uid _ => below uid 16384
  | .foldRebuild seat => below seat 8
  | .demandStep uid _ => below uid 16384
  | .droopTrip uid _ => below uid 16384
  | .thermalRead uid _ => below uid 16384
  | .strokeBegin seat sw => below seat 8 && below sw 1024
  | .markTimeout seat sw port => below seat 8 && below sw 1024 && below port 8
  | .seatNetReady seat => below seat 8
  | .switchForward seat sw port _ _ _ => below seat 8 && below sw 1024 && below port 8
  | .sideWord seat sw _ _ _ => below seat 8 && below sw 1024
  | .slotTableWrite _ seat _ => below seat 8
  | .groupTeardown _ seat _ => below seat 8
  | .creditStall uid plane port => below uid 16384 && below plane 8 && below port 8
  | .joinStall uid plane => below uid 16384 && below plane 8
  | .circuitDeadlock uid plane port _ => below uid 16384 && below plane 8 && below port 8
  | .rigLoad r _ _ _ => below r 8192
  | .planeRecordLand uid plane _ => below uid 16384 && below plane 8
  | .rigLoadComplete r _ => below r 8192
  | .rigUnstage r _ => below r 8192
  | .rigSwitch r _ => below r 8192
  | .planeFlip uid plane => below uid 16384 && below plane 8
  | .circuitRelease c seat _ => below c 256 && below seat 8
  | .waveComplete c _ => below c 256
  | .waveStall c => below c 256
  | .rigRun r _ => below r 8192
  | .map r _ => below r 8192
  | .unmap r _ => below r 8192
  | .mapShared r _ => below r 8192
  | .translationWalk tu c _ _ => below tu 8 && below c 256
  | .tierAccess c _ _ seat _ _ _ _ _ => below c 256 && below seat 8
  | .accessTimeout c _ _ => below c 256
  | .rootSel _ c _ => below c 256
  | .rootSwapDrain c => below c 256
  | .shootdown .. => true
  | .shootdownComplete => true
  | .shootdownDrainEnd => true
  | .tillerPeriod => true
  | .migrationWriteDrain .. => true
  | .migrationCopyDone .. => true
  | .migrationReadDrain .. => true
  | .frameScrubDone .. => true
  | .hbmTempChange k _ => below k 24
  | .hbmRetrain k _ _ => below k 24
  | .patrolScrub .. => true
  | .cxlEventPoll p _ => below p 4
  | .bedrockOffline _ p => below p 4
  | .evacuationDone p => below p 4
  | .bedrockOnline _ p => below p 4
  | .bedrockSurpriseRemoval p => below p 4
  | .bedrockHotAdd p _ _ _ _ _ _ => below p 4
  | .streamReach .. => true
  | .streamShapeRead .. => true
  | .streamShapeTimeout .. => true
  | .streamRequestIssue seat _ => below seat 8
  | .streamRequestComplete .. => true
  | .feedTimeout uid _ => below uid 16384
  | .streamJobVoid _ seat _ => below seat 8
  | .selectionRequest _ c _ _ => below c 256
  | .sealPassComplete .. => true
  | .sedimentLookup .. => true
  | .lookupReply .. => true
  | .lookupTimeout .. => true
  | .copyOrder .. => true
  | .sedimentCopyLanded .. => true
  | .pinTimeout .. => true
  | .depositOffer .. => true
  | .depositLanded .. => true
  | .offerTimeout .. => true
  | .shardEvict => true
  | .indexRebuild .. => true
  | .indexSwap => true
  | .indexReclaim => true
  | .shardMapSwap .. => true
  | .mapInstall r _ _ => below r 8192
  | .expmapReclaim c => below c 256
  | .countHeaderSend c _ _ => below c 256
  | .countHeaderArrive c _ _ => below c 256
  | .countHeaderRelease c _ _ _ => below c 256
  | .returnFrameLand c _ _ => below c 256
  | .returnTimeout c _ => below c 256
  | .admitCmd r _ => below r 8192
  | .cancel r _ => below r 8192
  | .pause r _ => below r 8192
  | .resume r _ => below r 8192
  | .repin r _ => below r 8192
  | .stepBoundary .. => true
  | .idleBoundary .. => true
  | .stepLaunch => true
  | .subBatchComplete => true
  | .workItem _ _ c _ _ _ _ _ _ => below c 256
  | .progress .. => true
  | .lastLayer .. => true
  | .doneNotice .. => true
  | .failedNotice .. => true
  | .workTimeout .. => true
  | .pauseCopyLanded .. => true
  | .pauseExpiry .. => true
  | .expiredNotice .. => true
  | .claim .. => true
  | .claimed .. => true
  | .returnCopyLanded .. => true
  | .samplingRequest _ c _ _ => below c 256
  | .link port _ _ _ => below port 32
  | .flitDamaged port _ => below port 32
  | .rdReq .. => true
  | .wrReq .. => true
  | .rdRsp .. => true
  | .wrAck .. => true
  | .beat .. => true
  | .messageForward .. => true
  | .heldExpiry => true
  | .transitFault _ ctx _ => below ctx 256
  | .flitLoss _ ctx => below ctx 256
  | .beaconSend port => below port 32
  | .beacon port _ => below port 32
  | .portTrain port _ _ => below port 32
  | .retrain _ port _ => below port 32
  | .disable _ port _ => below port 32
  | .linkRetrain port => below port 32
  | .linkLoss port _ => below port 32
  | .linkState .. => true
  | .gone .. => true
  | .routeSwap => true
  | .routeReclaim => true
  | .time port _ _ _ _ _ => below port 32
  | .timeSend port => below port 32
  | .parentLoss => true
  | .timeHoldover => true
  | .collective r _ => below r 8192
  | .collJoin c _ _ _ _ => below c 256
  | .collFrame c _ => below c 256
  | .segmentFold c _ _ => below c 256
  | .collRelease c _ _ _ _ => below c 256
  | .collectiveComplete c _ => below c 256
  | .collTimeout c _ => below c 256
  | .sqDoorbell .. => true
  | .cqDoorbell .. => true
  | .ringEnable .. => true
  | .ringDisable .. => true
  | .descriptorFetch r _ => below r 8192
  | .commandLaunch r => below r 8192
  | .depTimeout r => below r 8192
  | .msiXInterrupt r => below r 8192
  | .cmdNop r _ => below r 8192
  | .copy r _ => below r 8192
  | .ctxCreate r _ _ => below r 8192
  | .ctxDestroy r _ => below r 8192
  | .ctxSet r _ => below r 8192
  | .ctxAttach r _ => below r 8192
  | .pkgLoad r _ => below r 8192
  | .versionLive r _ => below r 8192
  | .versionRetire r _ => below r 8192
  | .viSetup r _ => below r 8192
  | .configRequest .. => true
  | .vfFlr .. => true
  | .pfFlr => true
  | .vfEnableClear => true
  | .dlDown => true
  | .tileLand .. => true
  | .entry .. => true
  | .admitData .. => true
  | .tokens .. => true
  | .mirrorMap .. => true
  | .ckpt .. => true
  | .heartbeat .. => true
  | .hold .. => true
  | .versions .. => true
  | .suspect .. => true
  | .fence .. => true
  | .leaving .. => true
  | .handover .. => true
  | .resyncBegin .. => true
  | .resyncEnd .. => true
  | .ownerMoved .. => true
  | .mirrorAckTimeout => true
  | .twinSilence => true
  | .witnessQuery .. => true
  | .witnessAnswer .. => true
  | .confirmationTimeout => true
  | .heartbeatSend => true
  | .isolated => true
  | .checkpointAcked .. => true
  | .detach .. => true
  | .drainTimeout => true
  | .trayLeaveN => true
  | .readmitExpiry => true
  | .capControlTick .. => true
  | .alertAssert source _ => below source 4
  | .alertDeassert source _ => below source 4
  | .alertClear => true
  | .sustained => true
  | .inputLoss => true
  | .junctionTrip .. => true
  | .thermTrip => true
  | .target .. => true
  | .seatSleepReq .. => true
  | .seatSleepEntry seat _ => below seat 8
  | .seatWake seat _ _ => below seat 8
  | .seatWakeComplete seat => below seat 8
  | .wake .. => true
  | .timedWake => true
  | .keelOrder .. => true
  | .writes .. => true
  | .keyInstall => true
  | .anchorSet => true
  | .keelLockstep => true
  | .errRingCons .. => true
  | .go .. => true
  | .photoFinish .. => true
  | .snapshotLatch => true
  | .snapshotPack => true
  | .clear .. => true
  | .logSel .. => true
  | .logReady => true
  | .logPeriodic => true
  | .logDaily .. => true
  | .logProgram .. => true
  | .logSuppressed => true
  | .fullBoot .. => true
  | .bootStageComplete stage _ => below stage 13
  | .modResetN => true
  | .perstN .. => true
  | .ref100Lost => true
  | .ref156Lost => true
  | .timePps => true
  | .ppsLost => true
  | .timeOfDay .. => true
  | .railFault rail => below rail 25
  | .holdupEnd .. => true
  | .portRetry => true
  | .builtInTest uid _ => below uid 16384
  | .mctpControl .. => true
  | .getInfo .. => true
  | .setSlice .. => true
  | .setVi .. => true
  | .setDomain .. => true
  | .powerReq .. => true
  | .snapshot .. => true
  | .retiredUnits .. => true
  | .resolveId .. => true
  | .bedrockPort .. => true
  | .setBoot .. => true
  | .logRead .. => true
  | .snapRead .. => true
  | .pldmMonitoring .. => true
  | .pldmFirmwareUpdate .. => true
  | .activateFirmware .. => true
  | .getCertificate .. => true
  | .challenge .. => true
  | .getMeasurements .. => true
  | .tapInstruction .. => true
  | .hostLinkUp .. => true
  | .pcieCorrectableError => true
  | .hostReadCompletion r _ _ _ _ => below r 8192
  | .transmitterFfeStep port _ _ => below port 32
  | .holderFree .. => true
  | .freeBedrockReport .. => true
  | .sliceTeardown c _ => below c 256
  | .replicaUpdate c _ _ => below c 256
  | .standbyExitComplete .. => true
  | .trayLeaveNRelease => true

end Sys2Proof
end

