-- ==== Sys2Proof/Tests/Slice0.lean ====
section
/-! SUPPORT. Tests of the model on small states: commands refused by the well-formedness checks, words of the table decoded, results taken from the manual's
tables, and for every statement that has hypotheses a state and operands that meet them. -/

section
set_option Elab.async false
open Sys2Proof Sys2Proof.Machine

/-! ### Small states -/

/-- A unit's entry: class, FORMAT, FLAGS, ports popped, ports written; SRC_A 0, SRC_B 4, DST 8, LEN 1. -/
def demoEntry (cls fmt flags pop out : Nat) : Nat :=
  pop + 256 * pop + 65536 * out + 2 ^ 64 * (cls + 16 * fmt + 2 ^ 20 * 4 + 2 ^ 32 * 8 + 2 ^ 44 + 2 ^ 56 * flags)

/-- A plane record with an entry at E0, whole windows, ports 0 and 1 bound in and 0 out, a one-step micro-program (x times x). -/
def demoCfg (e : Nat) : Nat :=
  e * 2 ^ 0x2000 + 4096 * 2 ^ 188 + 64 * 2 ^ 312 + 3 * 2 ^ 0x200 + 3 * 2 ^ 0x280 + 3 * 2 ^ 0x600 +
    (2 + 3 * 2 ^ 17 + 2 ^ 19) * 2 ^ 0x1480

/-- A plane about to treat an entry, every counter's limit 4. -/
def demoPlane (e : Nat) : Plane :=
  { valid := true, inRun := true, static := false, cfg := demoCfg e, ctrs := List.replicate 16 0, limits := List.replicate 16 (some 4),
    nextLimits := List.replicate 16 none }

/-- Unit 0 with that plane 0, a beat at input ports 0 and 1, credits at output port 0. -/
def unitDemo (e : Nat) : State :=
  { planes := [(0, demoPlane e)], inPorts := [(0, { queue := [{ data := 7 }] }), (1, { queue := [{ data := 9 }] })], outPorts := [(0, { credits := 4 })] }

/-! ### The step and the register file -/

theorem curPlane_of_no_units (s : State) (h : s.units = []) (u : Nat) : s.curPlane u < 8 := by
  have hf : (s.unit u).folds = [] := by simp [State.unit, h, SMap.get]
  unfold State.curPlane
  rw [hf]
  cases hq : (List.range 8).find? fun p => (s.plane u p).valid with
  | none => simp
  | some p => exact List.mem_range.1 (List.mem_of_find?_eq_some hq)
/-- One valid plane, on unit 5, whose time an idle step charges. -/
def idleDemo : State := { planes := [(40, { valid := true })] }
theorem witness_IdleStepAdvancesTime : idleDemo.pending = [] ∧ idleDemo.fab.cross = [] ∧ idleDemo.fab.ports = [] ∧ (∀ u, idleDemo.curPlane u < 8) ∧
    (∀ x ∈ idleDemo.planes, x.1 / 8 = 5) ∧ (idleDemo.plane 5 (idleDemo.curPlane 5)).valid = true ∧ idleDemo.asleep (seatOf 5) = false ∧
    (idleDemo.unit 5).yielded = false :=
  ⟨rfl, rfl, rfl, curPlane_of_no_units _ rfl, by decide +kernel, by decide +kernel, by decide +kernel, by decide +kernel⟩
theorem witness_StepKeepsCanonicalForm : State.reset.wf = true ∧ ∃ t, step State.reset = .next t := ⟨by decide +kernel, _, rfl⟩
theorem witness_WriteFollowsAccessCode : (2 : Nat) ^ 64 - 1 < 2 ^ 64 ∧ Fld.UNIT_CTRL_HALT.lo + Fld.UNIT_CTRL_HALT.len ≤ 64 ∧ (63 : Nat) < 64 := by decide
theorem awake_reset (k : Nat) : State.reset.asleep k = false := rfl
/-- Cox firmware writes a shape wait bound. -/
theorem witness_RegisterCommands_write : ∃ d, acceptsWrite State.reset .cox Reg.SEQ_SHAPE_WAIT Reg.SEQ_SHAPE_WAIT d ∧ canonReg (canonOff Reg.SEQ_SHAPE_WAIT) ≠ Reg.FAB_LPORT ∧
    canonReg (canonOff Reg.SEQ_SHAPE_WAIT) ≠ Reg.FAB_RT_DATA ∧ pmcKeys.contains (Reg.SEQ_SHAPE_WAIT + inst (State.reset.instOf .cox d Reg.SEQ_SHAPE_WAIT)) = false := by
  refine ⟨_, ⟨rfl, by decide, by decide, rfl, ?_, ?_, ?_, ?_, ?_, awake_reset⟩, ?_⟩ <;> decide +kernel
/-- Cox firmware reads UNIT_STRETCH, sets the network's switch selector; the host selects a logbook record. -/
theorem witness_RegisterCommands :
    State.reset.reached .cox = true ∧ State.reset.reached .pf = true ∧ Reg.UNIT_STRETCH % 8 = 0 ∧ Reg.NET_SW_SEL % 8 = 0 ∧ Reg.LOG_SEL % 8 = 0 ∧
    (∃ d, State.reset.window .cox Reg.UNIT_STRETCH = some Reg.UNIT_STRETCH ∧ descOf Reg.UNIT_STRETCH = some d ∧ (d.fields.any fun f => f.acc == .rc) = true ∧
      (d.fields.all fun f => decide (f.fld.lo + f.fld.len ≤ 64)) = true) ∧
    (∃ d, State.reset.window .cox Reg.NET_SW_SEL = some Reg.NET_SW_SEL ∧ descOf Reg.NET_SW_SEL = some d ∧ d.isSel = true) ∧
    (∃ d, State.reset.window .pf Reg.LOG_SEL = some Reg.LOG_SEL ∧ descOf Reg.LOG_SEL = some d ∧ d.isSel = true) := by
  and_intros <;> first | decide +kernel | (refine ⟨_, by decide, rfl, ?_⟩; decide +kernel)
/-- A write of 8 bytes at offset 4, one into a hole, one by a host to a unit's shape wait bound. -/
theorem witness_RefusedWriteChangesNothing : sizeOk 4 8 = false ∧ State.reset.window (.vf 1) (0x300000 / 8 * 8) = none ∧
    ∃ o d, State.reset.window .pf (Reg.SEQ_SHAPE_WAIT / 8 * 8) = some o ∧ descOf o = some d ∧ d.isSel = false ∧ mayWrite .pf d = false := by
  refine ⟨by decide, by decide +kernel, Reg.SEQ_SHAPE_WAIT, _, by decide +kernel, rfl, ?_, ?_⟩ <;> decide +kernel
/-- The module with VF Enable set and interface 1 enabled. -/
def vfDemo : State := ({ board := { vfEnable := true } } : State).setVi 1 { enabled := true }
theorem witness_Holes : vfDemo.reached (.vf 1) = true ∧ vfDemo.reached .pf = true ∧ vfDemo.window (.vf 1) 0x300000 = none ∧ (List.range 8).all (fun k => !vfDemo.asleep k) = true ∧
    State.reset.board.vfEnable = false ∧ (vfDemo.vi 2).enabled = false ∧ sizeOk 0x300000 8 = true ∧ State.reset.window (.vf 1) (0x300000 / 8 * 8) = none ∧ (0x300000 < 0x02000000) ∧
    State.reset.window .pf 0x08 = some 0x08 ∧ State.reset.window .pf 0x0F000000 = some 0x0F000000 ∧ (descOf 0x0F000000).isNone = true ∧ msixRegion 0x0F000000 = false ∧
    (List.range 8).all (fun k => !State.reset.asleep k) = true := by decide +kernel

/-! ### The compute unit -/

/-- Entries of every class and form that fire on `unitDemo`, with a predicate that is 1 for the suppressed ones. -/
def demoForms : List Nat :=
  [demoEntry 0 0 0 0 0, demoEntry 1 0 0 0 0] ++ ((List.range 8).map fun k => demoEntry 2 k 0 0 0) ++
    [demoEntry 2 0 0x99 0 0, demoEntry 2 8 0x01 0 0, demoEntry 2 9 0 0 0, demoEntry 2 10 0 0 0, demoEntry 2 11 0 0 0] ++
    ((List.range 11).map fun k => demoEntry 3 k 0 0 0) ++
    [demoEntry 4 0 0 0 0, demoEntry 5 0 0 0 0, demoEntry 6 0 0 3 1, demoEntry 7 0 0 1 1, demoEntry 8 0 0 0 1, demoEntry 9 0 0 1 0] ++
    ((List.range 4).map fun k => demoEntry 11 k 0 0 0)

theorem witness_CatchCountsAndMovesOn : ((unitCatches 0).all fun x => demoForms.any fun e => (unitDemo e).fires 0 x.2) = true := by decide +kernel
theorem witness_EngineResults : ((engineLines 0).all fun x => demoForms.any fun e => (unitDemo e).fires 0 x.2.1) = true := by decide +kernel
theorem witness_EngineResultsWithFreeLanes :
    (unitDemo (demoEntry 2 9 0 0 0)).fires 0 (isForm 2 9) = true ∧ (unitDemo (demoEntry 2 10 0 0 0)).fires 0 (isForm 2 10) = true ∧
    (unitDemo (demoEntry 2 0 0x99 0 0)).fires 0 (fun e => isForm 2 0 e && enDstFmt e == 9) = true ∧
    (unitDemo (demoEntry 2 8 0x01 0 0)).fires 0 (isForm 2 8) = true ∧ (unitDemo (demoEntry 11 0 0 0 0)).fires 0 (isForm 11 0) = true ∧
    (unitDemo (demoEntry 11 1 0 0 0)).fires 0 (isForm 11 1) = true ∧ (demoForms.all fun e => !(demoPlane e).suppresses e) = true := by decide +kernel
/-- The unit with a pass in its accumulators, and with its result buffer occupied. -/
def passDemo (buf : Option Nat) : State :=
  let s := unitDemo (demoEntry 1 0 0 0 0)
  s.setUnit 0 { pass := some { id := 5, plane := 0, entry := 0, results := [(1, 0, false)] }, resBuf := buf }
theorem witness_MatrixPass : (unitDemo (demoEntry 1 0 0 0 0)).fires 0 (isClass 1) = true ∧ ((passDemo none).unit 0).pass.isSome = true ∧
    ((passDemo none).unit 0).resBuf = none ∧ ((passDemo (some 4)).unit 0).resBuf = some 4 := by decide +kernel
/-- A feed ring over the first line of unit 0's slice, its slot not FULL. -/
def feedDemo : State :=
  let s := unitDemo (demoEntry 4 0 0 0 0)
  { s with streams := { s.streams with rings := [{ uid := 0, ctx := 0, vbase := 0, base := 0, elemLines := 1, needReads := 1, slots := [{}], wr := 0, rd := 0, releases := [], rateHint := 0, stalled := none }] } }
theorem witness_UnitMoves :
    (unitDemo (demoEntry 8 0 0 0 1)).fires 0 (isClass 8) = true ∧
    ((unitDemo (demoEntry 9 0 0 1 0)).fires 0 (isClass 9) = true ∧ maskPorts (enInPop (demoEntry 9 0 0 1 0)) = [0] ∧
      (unitDemo (demoEntry 9 0 0 1 0)).headBeat 0 0 0 = some { data := 7 }) ∧
    ((unitDemo (demoEntry 7 0 0 1 1)).fires 0 (isClass 7) = true ∧ maskPorts (enInPop (demoEntry 7 0 0 1 1)) = [0] ∧
      (unitDemo (demoEntry 7 0 0 1 1)).headBeat 0 0 0 = some { data := 7 }) ∧
    ((unitDemo (demoEntry 6 0 0 3 1)).fires 0 (isClass 6) = true ∧ maskPorts (enInPop (demoEntry 6 0 0 3 1)) = [0, 1] ∧
      (unitDemo (demoEntry 6 0 0 3 1)).headBeat 0 0 0 = some { data := 7 } ∧ (unitDemo (demoEntry 6 0 0 3 1)).headBeat 0 0 1 = some { data := 9 }) ∧
    ((unitDemo (demoEntry 4 0 0 0 0)).fires 0 (isClass 4) = true ∧ inTsWindow ((unitDemo (demoEntry 4 0 0 0 0)).plane 0 0) 0 = true ∧
      (unitDemo (demoEntry 4 0 0 0 0)).feedSlotAt 0 0 = none) ∧
    (feedDemo.fires 0 (isClass 4) = true ∧ (feedDemo.feedSlotAt 0 0).isSome = true) ∧
    ((unitDemo (demoEntry 5 0 0 0 0)).fires 0 (isClass 5) = true ∧ inTsWindow ((unitDemo (demoEntry 5 0 0 0 0)).plane 0 0) 0 = true) := by
  decide +kernel
/-- Entries suppressed by predicate 0, which is 0. -/
theorem witness_SuppressedEntryWritesNothing :
    ((unitCatches 0 ++ [(Instr.tsLoad 0, isClass 4), (Instr.tsStore 0, isClass 5)]).all fun x => demoForms.any fun e =>
      (unitDemo (e + 2 ^ 48)).fires 0 x.2 && (demoPlane (e + 2 ^ 48)).suppresses (e + 2 ^ 48)) = true := by decide +kernel
/-- A valid plane at epoch 0 and an invalid one; beats of epochs 0, 15, 1, 2 and 14. -/
theorem witness_BeatEpochJudged : ((unitDemo 0).plane 0 0).valid = true ∧ (State.reset.plane 0 0).valid = false ∧
    ([0, 15, 1, 2, 14].map fun k => (k + 16 - ((unitDemo 0).plane 0 0).epoch) % 16) = [0, 15, 1, 2, 14] ∧
    isService 0 = false ∧ State.reset.outCtxs (seatOf 0) 0 0 = [] := by decide +kernel

/-- An entry not due: DUE_OP asks for a counter that is not zero; with END, and without. -/
def skipDemo (fin : Nat) : State := unitDemo (demoEntry 0 0 0 0 0 + 3 * 2 ^ 28 + fin * 2 ^ 54)
/-- An entry in flight at E0 of plane 0. -/
def flightDemo (cls left : Nat) : InFlight :=
  { id := 3, plane := 0, entry := 0, opclass := cls, engines := [], reads := [], writes := [], suppressed := false, inPorts := [0], inLeft := left, taken := 1,
    outLeft := [], passPending := false, ts := 0, pred := false, sel := false }
def flightState (cls left : Nat) (e : Nat) : State := (unitDemo e).setUnit 0 { inflight := [flightDemo cls left] }
/-- Output port 0 of plane 0 with a beat offered by entry 3, and without. -/
def emitDemo : State := (flightState 8 0 0).setOutPort 0 0 0 { credits := 1, pending := [(3, { data := 7 })] }

theorem witness_SequencerEvents :
    ([skipDemo 0, skipDemo 1].all fun s => s.mayIssue 0 (s.curPlane 0) && (s.plane 0 (s.curPlane 0)).shapesReady (s.curEntry 0) &&
      !(s.plane 0 (s.curPlane 0)).due (s.curEntry 0)) = true ∧ enEnd ((skipDemo 0).curEntry 0) = false ∧ enEnd ((skipDemo 1).curEntry 0) = true ∧
    ((emitDemo.outPort 0 0 0).pending = [(3, { data := 7 })] ∧ (emitDemo.outPort 0 0 0).credits ≠ 0 ∧ emitDemo.slotTurn 0 0 0 = true ∧ emitDemo.asleep (seatOf 0) = false ∧
      ∀ x ∈ (emitDemo.unit 0).inflight, ¬x.id < 3) ∧ (State.reset.outPort 0 0 0).pending = [] ∧
    (let s := flightState 9 1 (demoEntry 9 0 0 1 0); (s.unit 0).inflight.find? (fun f => f.id == 3) = some (flightDemo 9 1) ∧ (flightDemo 9 1).inLeft ≠ 0 ∧
      maskPorts (enInPop (recEntry (s.plane 0 0).cfg 0)) = [0] ∧ s.headBeat 0 0 0 = some { data := 7 } ∧ (flightDemo 9 1).suppressed = false ∧ (flightDemo 9 1).inPorts = [0] ∧ (s.inPort 0 0 0).spillAt = [] ∧
      s.asleep (seatOf 0) = false) ∧
    (let s := flightState 7 1 (demoEntry 7 0 0 1 1); (s.unit 0).inflight.find? (fun f => f.id == 3) = some (flightDemo 7 1) ∧
      maskPorts (enInPop (recEntry (s.plane 0 0).cfg 0)) = [0] ∧ s.headBeat 0 0 0 = some { data := 7 } ∧ (s.inPort 0 0 0).spillAt = []) ∧
    (((flightState 2 0 0).unit 0).inflight.find? (fun f => f.id == 3) = some (flightDemo 2 0) ∧ (flightDemo 2 0).inLeft = 0) ∧
    (let s := State.reset.setUnit 0 { inflight := [flightDemo 2 0] }; (s.unit 0).inflight.find? (fun f => f.id == 3) = some (flightDemo 2 0) ∧
      (List.range 8).all fun p => !(s.plane 0 p).valid) := by decide +kernel

/-- Context 0's tree from table 0: pages 0 and 1 of its memory lie at the module's offset 0x40000, in frames of the context. -/
def mapDemo : MemSt :=
  { pt := [(0, { valid := true, addr := 0x10000 }), (0x10000, { valid := true, addr := 0x20000 }), (0x20000, { valid := true, addr := 0x30000 }),
           (0x30000, { valid := true, leaf := true, read := true, write := true, addr := 0x40000 }),
           (0x30010, { valid := true, leaf := true, read := true, write := true, addr := 0x50000 })]
    frames := [(4, { kind := 1 }), (5, { kind := 1 })] }

/-- Counter 0 of unit 0's plane 0 waits for its shape word, at address 0 of context 0 and equal to `w`; its read tried or not. -/
def shapeDemo (w : Nat) (tried : Bool) : State :=
  let c := 9 + 2 ^ 32
  let s : State :=
    { planes := [(0, { valid := true, inRun := true, static := false, cfg := c * 2 ^ 0xA00, ctrs := List.replicate 16 0, limits := List.replicate 16 none,
                       nextLimits := List.replicate 16 none, shapeSince := [(0, 0, 0)], shapeTried := if tried then [(0, 5)] else [] })],
      tiers := mapDemo, now := 1000000 }
  (s.setF .TIERS_CTX_CTRL_VALID 1).putBytes 0x40000 ((List.range 8).map fun i => BitVec.ofNat 8 (w / 256 ^ i))

/-- The wait of counter 0: since 0, for the word at 0 of context 0; a first read and a later one, 1 us and more after the last. -/
theorem witness_ShapeLoads : ([false, true].all fun tried =>
    let s := shapeDemo 0 tried
    let pl := s.plane 0 0
    let word := fun w => (shapeDemo w tried).readVa 0 0 8
    pl.valid && pl.asked 0 == some (0, 0) && (pl.triedAt 0).isSome == tried && (!tried || pl.triedAt 0 == some 5) && decide (5 + 1000 ≤ s.now) &&
      word 5 == some ([5, 0, 0, 0, 0, 0, 0, 0], false) && word (5 + 2 ^ 63) == some ([5, 0, 0, 0, 0, 0, 0, 128], false) &&
      word (10 + 2 ^ 63) == some ([10, 0, 0, 0, 0, 0, 0, 128], false) &&
      decide ((5 + 2 ^ ctrShift (recCtr pl.cfg 0) - 1) / 2 ^ ctrShift (recCtr pl.cfg 0) ≤ ctrConst (recCtr pl.cfg 0)) &&
      decide (ctrConst (recCtr pl.cfg 0) < (10 + 2 ^ ctrShift (recCtr pl.cfg 0) - 1) / 2 ^ ctrShift (recCtr pl.cfg 0)) &&
      pl.limits.getD 0 none == none && decide (0 < pl.limits.length) && !ctrLoadOn (recCtr pl.cfg 0) && s.scat.queues == []) = true ∧
    0 + (shapeDemo 0 true).shapeWaitNs 0 ≤ (shapeDemo 0 true).now ∧ 0 < 0 + (shapeDemo 0 true).shapeWaitNs 0 := by decide +kernel
theorem witness_ShapeLoads_poison : ([false, true].all fun tried =>
    let s := (shapeDemo 0 tried).putLine 0x40000 0 true
    (s.readVa 0 0 8 == some (List.replicate 8 0, true)) && (s.plane 0 0).asked 0 == some (0, 0) && ((s.plane 0 0).triedAt 0).isSome == tried) = true := by
  decide +kernel
theorem witness_UnitControl : Master.cox.host = false ∧ Master.pf.host = true ∧ isCompute 0 = true ∧ (∀ u, State.reset.asleep (seatOf u) = false) ∧
    (State.reset.unit 0).retired = false ∧ ((State.reset.setUnit 0 { retired := true }).unit 0).retired = true ∧
    State.reset.getF .UNIT_CTRL_OFFLINE (unitOff 0) = 0 ∧ (State.reset.setF .UNIT_CTRL_OFFLINE 1).getF .UNIT_CTRL_OFFLINE (unitOff 0) = 1 :=
  ⟨rfl, rfl, by decide, fun _ => rfl, rfl, rfl, by decide +kernel, by decide +kernel⟩

/-! ### Schedules and the seat network -/

/-- Unit 0 with two planes of contexts 0 and 1 and a schedule of both, its first entry served. -/
def foldDemo (pend : Nat) : State :=
  let s : State := { planes := [(0, demoPlane 0), (1, { demoPlane 0 with ctx := 1 })] }
  (s.setUnit 0 { folds := [(0, 4), (1, 4)], moved := 4 }).setF .UNIT_FOLD_CTRL_PEND pend
theorem witness_FoldSchedules : ((foldDemo 0).unit 0).folds = [(0, 4), (1, 4)] ∧ (foldDemo 0).foldDone 0 false = true ∧
    (foldDemo 0).flag .UNIT_FOLD_CTRL_PEND (unitOff 0) = false ∧ (State.reset.setF .UNIT_FOLD_CTRL_PEND 1).flag .UNIT_FOLD_CTRL_PEND (unitOff 0) = true ∧
    ((State.reset.setF .UNIT_FOLD_CTRL_PEND 1).unit 0).folds = [] ∧ ((foldDemo 0).plane 0 1).valid = true ∧ seatOf 0 = 0 ∧
    1 < ((foldDemo 0).unitCtxs 0).length := by decide +kernel
theorem witness_IslandLoops : ((({ now := 10000 } : State).unit 0).demandAt + 10000 ≤ 10000) ∧ (flightState 2 0 0).asleep (seatOf 0) = false ∧
    ({ flightState 2 0 0 with now := 1000, units := [(0, { inflight := [{ flightDemo 2 0 with engines := [.vector] }] })] } : State).engBusy 0 ≠ 0 ∧
    State.reset.getF .KEEL_THERM_THROTTLE_C ≤ 255 ∧ 600 < (State.reset.unit 0).thermalMHz := by decide +kernel
/-- Switch 0 of seat 0 with slot 0 arrived on its live inputs N, E, S, L; another where none has. -/
def switchDemo : State := State.reset.setSwitch 0 { arrived := 15 }
/-- Slot 3 of output E of that switch takes input L; with FIRST. -/
def slotDemo (inp : Nat) : State := State.reset.regPut (slotKey 0 0 2 3) (BitVec.ofNat 64 (1 + 2 * inp + 16))
/-- A rig with one circuit from port 0 of plane 0 of unit 0, its group's first entry that slot. -/
def circuitDemo : State :=
  (slotDemo 0).setRig 1
    { groups := [{ seat := 0, idx := 0, gateway := false, src := 0, swKey := 0, inPort := 0, firstSlots := [1], dst := none, entries := [(slotKey 0 0 2 3, 17)] }],
      circuits := [{ srcUid := 0, srcPlane := 0, srcPort := 0, dstUid := 1, dstPlane := 0, dstPort := 0, buf := 4, wd := 8, live := true, carry := false,
                     xmod := false, seat := 0, group := 0, bound := true }] }
theorem get_range {α : Type} (d v : α) (n b k : Nat) (h : b ≤ k) (g : k < b + n) : SMap.get d ((List.range' b n).map fun k => (k, v)) k = v := by
  induction n generalizing b with
  | zero => omega
  | succ n ih =>
    rw [List.range'_succ, List.map_cons, SMap.get]
    split
    · rfl
    · exact ih (b + 1) (by omega) (by omega)
def readyDemo : State := { switches := (List.range' 0 1024).map fun k => (k, { stroke := 16 }) }
theorem witness_ready : readyDemo.flag .NET_STATUS_READY (seatOff 0) = false ∧ ∀ w, w < 1024 → 16 ≤ (readyDemo.switch (0 * 1024 + w)).stroke := by
  refine ⟨by decide +kernel, fun w hw => ?_⟩
  have h := get_range ({} : SwitchSt) { stroke := 16 } 1024 0 (0 * 1024 + w) (by omega) (by omega)
  exact Nat.le_of_eq (congrArg SwitchSt.stroke h).symm
theorem witness_SwitchesAndLinks :
    ((switchDemo.liveInputs (placeOf 0 0)).all fun port => natBit (switchDemo.switch (placeOf 0 0).key).arrived port) = true ∧
    (State.reset.liveInputs (placeOf 0 0)).contains 0 = true ∧ natBit (State.reset.switch (placeOf 0 0).key).arrived 0 = false ∧
    0 + max 2 (State.reset.getF .NET_CTRL_MARK_TIMEOUT (seatOff 0)) * 100 ≤ ({ now := 10 ^ 6 } : State).now ∧
    State.reset.linked (placeOf 0 0) 0 = true ∧ (slotDemo 0).linked (placeOf 0 0) 0 = true ∧ (slotDemo 3).linked (placeOf 0 0) 3 = true ∧
    ((slotDemo 0).forwardEntry (placeOf 0 0) 0 3).isSome = true ∧ (((slotDemo 0).forwardEntry (placeOf 0 0) 0 3).all fun e => e.1 != 1) = true ∧
    State.reset.forwardEntry (placeOf 0 0) 0 3 = none ∧ State.reset.gatewayLink (placeOf 0 0) 0 (3 + 32 - (placeOf 0 0).shift 0) = false ∧
    State.reset.gatewayLink (placeOf 0 0) 0 2 = false ∧ (1 + (placeOf 0 0).shift 0) % 32 = 3 ∧
    (slotValid ((slotDemo 3).slotAt 0 0 2 3) = true ∧ slotFirst ((slotDemo 3).slotAt 0 0 2 3) = true ∧ slotIn ((slotDemo 3).slotAt 0 0 2 3) = 3 ∧ (((placeOf 0 0).gateway 3).isSome && !slotGateway ((slotDemo 3).slotAt 0 0 2 3)) = false) ∧
    (slotIn (circuitDemo.slotAt 0 0 2 3) = 0 ∧ (circuitDemo.creditCircuit (unitAt 0 0) (slotKey 0 0 2 3) 0).isSome = true) := by decide +kernel
/-- A closed rig with one group, quiet since the switch's first strokes. -/
def closedDemo : State :=
  { ((slotDemo 0).setRig 1
      { closing := true, groups := [{ seat := 0, idx := 0, gateway := false, src := 0, swKey := 0, inPort := 0, firstSlots := [1], dst := none, entries := [(slotKey 0 0 2 3, 17)] }] })
    with switches := [(0, { stroke := 2 })] }
/-- Unit 0's output port 0 and its join stalled for 9 strokes, beyond a bound of 0. -/
def stallDemo : State :=
  { planes := [(0, { demoPlane 0 with joinStall := 9 })], outPorts := [(0, { stall := 9 })] }
theorem witness_SlotTablesAndWatchdogs :
    (let sel := SMap.get 0 ({ sel := [(selKey .cox Reg.NET_SW_SEL, 2 * 1024 + 3 * 8192)] } : State).sel (selKey .cox (Reg.NET_SW_SEL + seatOff 0));
      slotKey 0 (sel % 1024) (sel / 1024 % 8) (sel / 8192 % 32) = slotKey 0 0 2 3 ∧ sel / 1024 % 8 < 5) ∧
    slotValid (State.reset.regAt (slotKey 0 0 2 3)) = false ∧ State.reset.slotAllowed 0 0 2 0 = true ∧ slotValid ((slotDemo 0).regAt (slotKey 0 0 2 3)) = true ∧
    ((closedDemo.rig 1).closing = true ∧ ((closedDemo.rig 1).groups.find? (fun g => g.seat == 0 && g.idx == 0)).any (fun g => closedDemo.quiet g) = true) ∧
    ((stallDemo.plane 0 0).valid = true ∧ (stallDemo.outPort 0 0 0).stallReported = false ∧ bindWd (recOut (stallDemo.plane 0 0).cfg 0) < (stallDemo.outPort 0 0 0).stall) ∧
    ((stallDemo.plane 0 0).joinReported = false ∧ recJoin (stallDemo.plane 0 0).cfg < (stallDemo.plane 0 0).joinStall) ∧
    (0 < (stallDemo.outPort 0 0 0).stall ∧ stallDemo.fatalMult 0 * bindWd (recOut (stallDemo.plane 0 0).cfg 0) ≤ (stallDemo.outPort 0 0 0).stall) := by decide +kernel

/-! ### Power -/

/-- A seat in a phase, waking or not, with a save. -/
def seatDemo (p : SeatPhase) (w : Bool) : State :=
  ({ regs := [(Reg.NET_STATUS, 1)], units := [(5, { retired := true, tj := 9 })], planes := [(0, demoPlane 0)] } : State).setSeat 0
    { phase := p, wake := w, copyB := some { count := 1, regs := [(Reg.NET_CTRL, 5)] } }
/-- The module in M3, leaving it or not. -/
def m3Demo (leaving : Bool) : State :=
  { State.reset.setF .PWRCLK_STATE_MSTATE 3 with pwr := { leavingM3 := leaving, wake := leaving }, now := 10, seats := [(0, { phase := .asleep })] }
/-- M3 left, every seat awake; standalone. -/
def exitDemo (wake : Bool) : State :=
  ({ m3Demo true with seats := [], pwr := { leavingM3 := true, wake := wake } } : State).setF .BOOT_STATUS_STANDALONE 1
theorem witness_PowerRequests : Master.cox.host = false ∧ State.reset.mstate = 0 ∧ (State.reset.setF .PWRCLK_STATE_MSTATE 1).mstate = 1 ∧
    (State.reset.setF .PWRCLK_STATE_MSTATE 1).alarmed = false ∧ State.reset.step.phase = 0 ∧ ({ step := { phase := 2 } } : State).step.phase ≠ 0 ∧
    ({ pwr := { alertSince := some 0 } } : State).alarmed = true ∧ State.reset.m3Refusal = 0 ∧ ({ ctxs := [(1, { valid := true })] } : State).m3Refusal ≠ 0 ∧
    (∀ k, k < 8 → State.reset.asleep k = false) ∧ (State.reset.setF .PWRCLK_REQ_SEAT_SLEEP_REQ (2 ^ 3)).sleepRefusal 3 = 0 ∧
    ((State.reset.setF .FAB_CTRL_EN 1).setF .PWRCLK_REQ_SEAT_SLEEP_REQ (2 ^ 3)).sleepRefusal 3 ≠ 0 ∧
    ((seatDemo .entering false).seat 0).phase = .entering ∧ ((seatDemo .asleep true).seat 0).phase = .asleep ∧ ((seatDemo .asleep true).seat 0).wake = true ∧
    newestSave ((seatDemo .asleep true).seat 0).copyA ((seatDemo .asleep true).seat 0).copyB true true = some { count := 1, regs := [(Reg.NET_CTRL, 5)] } ∧
    newestSave ((seatDemo .asleep true).seat 0).copyA ((seatDemo .asleep true).seat 0).copyB true false = none ∧
    ((seatDemo .waking true).seat 0).phase = .waking ∧ ((seatDemo .waking true).seat 0).accesses = [] ∧ (seatDemo .waking true).testsDue 0 = false ∧
    (seatDemo .waking true).flag .NET_STATUS_READY (seatOff 0) = true ∧ ((seatDemo .waking true).seat 0).writes = [] ∧
    (let s := (seatDemo .waking true).setF .UNIT_CTRL_OFFLINE 1 (unitOff 0); (s.setSeat 0 { s.seat 0 with testDue := true }).testsDue 0 = true) := by decide +kernel
theorem witness_WakesAndTrips : (m3Demo false).mstate = 3 ∧ (m3Demo false).pwr.leavingM3 = false ∧ ((m3Demo false).seat 0).phase = .asleep ∧
    ((m3Demo false).setF .PWRCLK_WAKE_AT_T 5).getF .PWRCLK_WAKE_AT_T = 5 ∧ ((m3Demo false).setF .PWRCLK_WAKE_AT_T 11).now < 11 ∧
    (exitDemo true).mstate = 3 ∧ (∀ k, k < 8 → (exitDemo true).asleep k = false) ∧ (exitDemo true).flag .BOOT_STATUS_STANDALONE = true ∧
    newestSave (exitDemo true).pwr.copyA (exitDemo true).pwr.copyB true true = none ∧ State.reset.getF .KEEL_THERM_TRIP_C ≤ 255 ∧
    0 < State.reset.getF .KEEL_THERM_TRIP_C ∧ ({ pwr := { tripSince := some 0, coxTj := 255 }, now := 1000000 } : State).pwr.tripSince = some 0 ∧
    State.reset.getF .KEEL_THERM_TRIP_C ≤ ({ pwr := { tripSince := some 0, coxTj := 255 }, now := 1000000 } : State).maxTj ∧
    State.reset.twin.leaving = false ∧ State.reset.mirroring = false ∧ State.reset.mstate ≠ 3 ∧
    (State.reset.setF .TWIN_STATUS_STATE 5).pairState = 5 ∧ 0 + atLeast1 (State.reset.getF .TWIN_CTRL_DRAIN_S) * 1000000000 ≤ 10 ^ 15 := by decide +kernel
theorem witness_AlertsAndCap :
    (let s : State := { pwr := { alertSince := some 0, sources := 2 }, now := 10 ^ 13 }; s.pwr.clearSince = none ∧ s.pwr.sources = 2 ^ 1 ∧ s.pwr.flowLow = false) ∧
    (let s : State := { pwr := { alertSince := some 0, clearSince := some 0 }, now := 10 ^ 13 }
     s.alertNow = false ∧ 0 + s.getF .KEEL_ALARM_CLEAR_MS * 1000000 ≤ s.now ∧ 0 + s.getF .KEEL_ALARM_SUSTAIN_MS * 1000000 ≤ s.now ∧
      s.flag .KEEL_STATUS_SUSTAINED = false ∧ s.pairState ≠ 2 ∧ s.pwr.capAt + 1000 ≤ s.now ∧ s.emergency = false ∧ s.capW < 10 ^ 4 ∧ s.pwr.ceilAt + 5000 ≤ s.now) ∧
    0 < 0 + State.reset.getF .KEEL_ALARM_CLEAR_MS * 1000000 ∧ 0 < 0 + State.reset.getF .KEEL_ALARM_SUSTAIN_MS * 1000000 ∧
    (State.reset.setF .TWIN_STATUS_STATE 2).pairState = 2 ∧ (State.reset.setF .PWRCLK_CAP_STRETCH 2).getF .PWRCLK_CAP_STRETCH = 2 ∧
    (State.reset.setF .KEEL_STATUS_EMERG_ACTIVE 1).emergency = true ∧ ({ (State.reset.setF .TWIN_STATUS_STATE 2) with board := { poolRole := 2 } } : State).board.poolRole = 2 ∧
    (let s : State := { (State.reset.setF .PWRCLK_STATE_MSTATE 1).setF .PWRCLK_STATE_BY_ALARM 1 with pwr := { alertSince := some 0, clearSince := some 0 }, now := 10 ^ 13 }
     s.mstate = 1 ∧ s.flag .PWRCLK_STATE_BY_ALARM = true ∧ s.step.phase = 0 ∧
       { s with pwr := { s.pwr with alertSince := none, clearSince := none, handed := false } }.alarmed = false) := by decide +kernel

/-! ### Memory tiers -/

/-- A page of context 0 at offset 0, frame 0 tagged for it, with a migration of it to the second frame in the phase given. -/
def migDemo (phase : Nat) (bad : List Nat) : Migration :=
  { id := 7, ctx := 0, va := 0, big := false, oldAddr := 0, newAddr := 65536, newTier := 0, phase := phase, since := 0, bad := bad }
def tierDemo (phase : Nat) (bad : List Nat) : State :=
  let m : MemSt :=
    { pt := [(0x8000, { valid := true, addr := 0x10000 }), (0x10000, { valid := true, addr := 0x20000 }), (0x20000, { valid := true, addr := 0x30000 }),
             (0x30000, { valid := true, leaf := true, read := true, write := true })],
      frames := [(0, { kind := 1 }), (1, { kind := 1, gen := 1 }), (9, { kind := 4, ctx := 3 })],
      migs := if phase = 0 then [] else [migDemo phase bad] }
  (({ tiers := m, mem := [(5, 9)] } : State).setF .TIERS_CTX_CTRL_VALID 1).setF .TIERS_CTX_ROOT0_ROOT 0x8000
/-- The stream that copies the migration's page. -/
def migStream (s : State) : State :=
  { s with streams := { s.streams with cmds := [{ id := 1, seat := 0, ctx := 0, job := 0, launched := true, cmd := none, purpose := 1, arg := 7 }] } }
/-- A shootdown of context 0's page 0 at the head; the leaf that unit 0 holds may be read, written or not. -/
def shootDemo (done : Option Nat) (w : Bool) : State :=
  { tierDemo 0 [] with
    now := 9000
    tiers := { (tierDemo 0 []).tiers with
      shoot := [{ ctx := 0, scope := 0, vpage := 0, slice := false, why := 1, arg := 0, frames := [4], cmd := none, doneAt := done }]
      tlb := [{ tu := 0, ctx := 0, root := 0, vpage := 0, big := false, pte := { valid := true, leaf := true, read := true, write := w } }] } }
theorem witness_WalksAndAccesses_walk :
    (((shootDemo none true).cached 0 0 0).any fun x => !x.pte.forbids true && !x.pte.forbids false) = true ∧
    (((shootDemo none false).cached 0 0 0).any fun x => x.pte.forbids true) = true ∧
    (let s := shootDemo none true
     let st := s.walkStart 1 0 0
     s.cached 1 0 0 = none ∧ s.getF .TIERS_CTX_CTRL_VALID (inst 0) ≠ 0 ∧
       s.walkFrom 0 0 false st.1 st.2 (ptLevels.drop st.1) = .leaf { valid := true, leaf := true, read := true, write := true } 0x30000 false) ∧
    (let s := shootDemo none true
     let st := s.walkStart 0 0 65536
     s.cached 0 0 65536 = none ∧ s.walkFrom 0 65536 false st.1 st.2 (ptLevels.drop st.1) = .bad 3) ∧
    State.reset.cached 0 0 0 = none ∧ State.reset.getF .TIERS_CTX_CTRL_VALID (inst 0) = 0 := by decide +kernel
theorem witness_WalksAndAccesses_access :
    (let s := tierDemo 0 []
     (s.asleep 0 = false ∧ seatOfOff 0 = some 0 ∧ s.portDead 0 = false ∧ s.poisonAt 0 = false) ∧
       s.tagCheck 0 0 0 true = none ∧ s.tagCheck 0 0 0 false = none ∧ s.tagCheck 0 0 1 true = some 7) ∧
    ((State.reset.setF .TIERS_BR_STAT_STATE 5 (8 * 0)).portDead (portBase 0) = true ∧ seatOfOff (portBase 0) = none) ∧
    seatOfOff 0 = some 0 ∧ ((m3Demo false).seat 0).phase = .asleep ∧ State.reset.streams.insts = [] := by decide +kernel
theorem witness_WalksAndAccesses_shoot :
    natBits 0 8 2 ≠ 3 ∧ natBits 768 8 2 = 3 ∧
    (shootDemo (some 0) true).now = 9000 ∧ ((shootDemo (some 0) true).mappedElse [] 4 = false ∧ (shootDemo (some 0) true).sysFrame 4 = false) ∧
    (({ rings := [(2, { outstanding := [{ ring := 2, seq := 5 }] })] } : State).ring 2).outstanding.find? (fun c => c.seq == 5) = some { ring := 2, seq := 5 } := by
  decide +kernel
theorem witness_RootsAndMigration_roots : (tierDemo 0 []).flag .TIERS_CTX_CTRL_SWAP_PEND (inst 0) = false ∧ 1 % 2 ≠ (tierDemo 0 []).rootSel 0 ∧
    (tierDemo 0 []).tiers.migs = [] ∧ (tierDemo 1 []).tiers.migs = [migDemo 1 []] ∧
    ((tierDemo 0 []).setF .TIERS_CTX_CTRL_SWAP_PEND 1 (inst 0)).flag .TIERS_CTX_CTRL_SWAP_PEND (inst 0) = true ∧
    (let s : State := { tiers := { pt := [(0x80000, { valid := true, addr := 0x90000 })], swapOld := [(0, 0x80000)] } }
     s.tiers.swapOld.find? (fun p => p.1 == 0) = some (0, 0x80000) ∧ s.shootPending 2 0 = false ∧ 0x90000 ∈ s.tablesUnder 3 0x80000 ∧
      0x90000 ∉ s.tablesUnder 3 (s.rootOf 0 (s.rootSel 0)) ∧ s.sysFrame 9 = false) := by decide +kernel
theorem witness_RootsAndMigration_moves :
    (∀ q ∈ [(1, []), (3, []), (4, []), (4, [0])], let s := tierDemo q.1 q.2
      s.tiers.migs.find? (fun g => g.id == 7) = some (migDemo q.1 q.2) ∧ s.tiers.held = [] ∧ s.firmwareBusy 1 7 = false ∧
      s.shootPending 3 7 = false ∧ s.shootPending 4 7 = false ∧ s.findLeaf 0 0 = some (0x30000, { valid := true, leaf := true, read := true, write := true }) ∧
      ∀ i, i < pageFrames false → s.sysFrame (0 / 65536 + i) = false ∧ (s.tag (0 / 65536 + i)).retiring = false) ∧
    (migStream (tierDemo 3 [])).firmwareBusy 1 7 = true := by decide +kernel
theorem witness_RootsAndMigration_heat : State.reset.flag .TIERS_TILLER_CTRL_EN = false ∧
    (let s := State.reset.setF .TIERS_TILLER_CTRL_EN 1
     s.flag .TIERS_TILLER_CTRL_EN = true ∧ s.pages = [] ∧ s.sed.entries = [] ∧ s.twin.holds = [] ∧ s.twin.mirrorHolds = [] ∧ s.twin.mirrors = []) ∧
    (((tierDemo 0 []).tag 9).kind = 4 ∧ ((tierDemo 0 []).tag 9).retiring = false) ∧ ((tierDemo 0 []).tag 0).kind ≠ 4 ∧ (tierDemo 0 []).wpkg.versions = [] ∧
    (let s := State.reset.setTag 9 { kind := 4, retiring := true }
     (s.tag 9).kind = 4 ∧ (s.tag 9).retiring = true ∧ s.wpkg.versions = []) := by decide +kernel
theorem witness_StacksAndBedrock :
    (let s := State.reset.setF .TIERS_HBM_STAT_STATE 2 (inst 3)
     s.getF .TIERS_HBM_STAT_STATE (inst 3) = 2 ∧ s.getF .TIERS_HBM_STAT_TEMP_C (inst 3) < SMap.get 0 s.tiers.hbmTrainTemp 3 + 8 ∧
       SMap.get 0 s.tiers.hbmTrainTemp 3 < s.getF .TIERS_HBM_STAT_TEMP_C (inst 3) + 8) ∧
    State.reset.tierOf 0 = some 0 ∧ State.reset.sysFrame (0 / 65536) = false ∧
    (0 :: (State.reset.tag 0).corrected.filter fun x => decide (0 < x + dayNs)).length < 16 ∧
    (let s : State := { tiers := { frames := [(0, { corrected := List.replicate 15 0 })] } }
     16 ≤ (s.now :: (s.tag 0).corrected.filter fun x => decide (s.now < x + dayNs)).length) ∧
    State.reset.poisonAt 0 = false ∧ State.reset.sed.entries = [] ∧ ({ memPoison := [(0, true)] } : State).poisonAt 0 = true ∧
    (∀ x ∈ [2, 3, 4], (State.reset.setF .TIERS_BR_STAT_STATE x (8 * 1)).getF .TIERS_BR_STAT_STATE (8 * 1) = x) ∧
    (State.reset.setF .TIERS_BR_STAT_STATE 3 (8 * 1)).tiers.frames = [] ∧ State.reset.getF .TIERS_BR_STAT_STATE (8 * 1) ≠ 2 ∧
    State.reset.getF .TIERS_BR_STAT_STATE (8 * 1) ≠ 3 := by decide +kernel

/-! ### Rigs and waves -/

/-- A command outstanding on ring 2 with sequence 5, opcode and words given. -/
def hostCmd (op : Nat) (words : Descriptor) : Cmd := { ring := 2, seq := 5, opcode := op, desc := words }
def cmdState (op : Nat) (words : Descriptor) : State := { rings := [(2, { outstanding := [hostCmd op words] })] }
/-- Word 7 with BY_ID and STAGE as given. -/
def loadWords (flags : Nat) : Descriptor := [0, 0, 0, 0, 0, 7, 0, BitVec.ofNat 64 flags]
/-- Rig 1 of context 0 with plane 0 of unit 0, loading for the command, landed or not. -/
def placedDemo (landed retried : Bool) : Placed := { uid := 0, lplane := 0, pplane := 0, cfg := 0, tsBase := 0, landed := landed, retried := retried }
def loadingDemo (landed retried : Bool) (cur : Option Nat) : State :=
  { cmdState 0x20 [] with rigs := [(1, { state := 1, cmd := some (2, 5), planes := [placedDemo landed retried] })], ctxs := [(0, { valid := true, currentRig := cur })] }
/-- Context 0 with rig 1 current and rig 2 its replacement, or none; a wave between them, its plane pending or not. -/
def waveDemo (inc : Option Nat) (pending : List (Nat × Nat)) : State :=
  { planes := [(0, { valid := true, wavePend := true, idleReady := true, idle := 9 })]
    rigs := [(1, { state := 5, planes := [placedDemo true false] }), (2, { state := 4, epoch := 3, planes := [placedDemo true false] })]
    ctxs := [(0, { valid := true, currentRig := some 1, incomingRig := inc })]
    waves := [{ ctx := 0, outRig := 1, inRig := inc, seq := 1, launched := 0, pending := pending, releasing := [], cmd := none }] }
/-- Group 0 of seat 0 is to be released: its circuit's planes have both flipped. -/
def releaseDemo : State :=
  { closedDemo with
    rigs := [(1, { circuitDemo.rig 1 with closing := true })]
    waves := [{ ctx := 0, outRig := 1, inRig := none, seq := 1, launched := 0, pending := [], releasing := [(0, 0)], cmd := none }] }
/-- A context with rig 1, with a staged container of one rank that has no section, and a version that names it. -/
def rigCmdDemo (op : Nat) (words : Descriptor) (inc : Option Nat) (named : Bool) : State :=
  { cmdState op words with
    rigs := [(1, { state := 3, planes := [placedDemo true false] }), (2, { state := 2 })]
    ctxs := [(0, { valid := true, currentRig := some 1, incomingRig := inc, staged := [(7, 2 ^ 80), (8, 2 * 2 ^ 80)] })]
    wpkg := { versions := if named then [{ (default : Version) with ctx := 0, decodeRig := 7 }] else [] } }
theorem witness_RigLoads_load : (∀ f ∈ [0, 1, 2], (cmdState 0x20 (loadWords f)).launched 2 5 0x20 = some (hostCmd 0x20 (loadWords f)) ∧
      (cmdState 0x20 (loadWords f)).rigs = [] ∧ ((cmdState 0x20 (loadWords f)).ctx 0).staged = [] ∧ (hostCmd 0x20 (loadWords f)).fld 56 0 2 = f) ∧
    ((cmdState 0x20 (loadWords 0)).checkContainer 0 0).2 = some (4, (0, 0)) ∧
    (let s := rigCmdDemo 0x20 (loadWords 2) none false
     s.launched 2 5 0x20 = some (hostCmd 0x20 (loadWords 2)) ∧ (s.rigs.all fun g => g.2.cmd != some (2, 5)) = true ∧ (hostCmd 0x20 (loadWords 2)).fld 40 0 64 = 7 ∧
       (s.ctx 0).staged.find? (fun y => y.1 == 7) = some (7, 2 ^ 80) ∧ (s.placeRig 0 (2 ^ 80) 0 0 (2, 5)).isOk = true ∧
       (s.placeRig 0 (2 * 2 ^ 80) 0 0x25 (2, 5)).isOk = false) := by decide +kernel
theorem witness_RigLoads_land :
    (((loadingDemo false false none).rigs.find? fun g => !g.2.closing && g.2.planes.any fun k => (k.uid == 0 && k.pplane == 0) && !k.landed).map (·.1)) = some 1 ∧
    (loadingDemo false false none).waves = [] ∧ [placedDemo false true].find? (fun k => k.uid == 0 && k.pplane == 0) = some (placedDemo false true) ∧
    (∀ l ∈ [true, false], ((loadingDemo l false none).rigs.find? fun g => g.2.cmd == some (2, 5) && g.2.state == 1 &&
      (2 == firmwareRing || ((loadingDemo l false none).launched 2 5 0x20).isSome)) =
        some (1, { state := 1, cmd := some (2, 5), planes := [placedDemo l false] })) ∧
    ((loadingDemo true false none).ctx 0).currentRig = none ∧ ((loadingDemo true false (some 3)).ctx 0).currentRig ≠ none := by decide +kernel
theorem witness_RigLoads_unstage :
    (cmdState 0x22 (loadWords 0)).launched 2 5 0x22 = some (hostCmd 0x22 (loadWords 0)) ∧ ((cmdState 0x22 (loadWords 0)).ctx 0).staged = [] ∧
    (∀ b ∈ [true, false], let s := rigCmdDemo 0x22 (loadWords 0) none b
      s.launched 2 5 0x22 = some (hostCmd 0x22 (loadWords 0)) ∧ (∃ y ∈ (s.ctx 0).staged, y.1 = (hostCmd 0x22 (loadWords 0)).fld 40 0 64) ∧
        (s.wpkg.versions.any fun v => v.ctx == 0 && v.decodeRig == 7) = b) ∧
    (cmdState 0x23 (loadWords 0)).launched 2 5 0x23 = some (hostCmd 0x23 (loadWords 0)) ∧
    (cmdState 0x23 []).currentRig 0 = none ∧ (rigCmdDemo 0x23 [] none false).currentRig 0 ≠ none := by decide +kernel
theorem witness_RigWaves_switch :
    (∀ inc ∈ [none, some 2], ∀ b ∈ [0, 1], let c := hostCmd 0x21 [0, 0, 0, 0, BitVec.ofNat 64 b]
      let s := rigCmdDemo 0x21 c.desc inc false
      s.launched 2 5 0x21 = some c ∧ s.waves = [] ∧ s.roundOpen 0 = false ∧ c.fld 32 0 1 = b ∧
        (s.ctx 0).currentRig = some 1 ∧ (s.ctx 0).incomingRig = inc ∧ inc ≠ some 1 ∧ (s.rigs.all fun g => g.2.state != 1) = true) ∧
    (let s := { cmdState 0x21 [] with waves := (waveDemo none []).waves }
     s.launched 2 5 0x21 = some (hostCmd 0x21 []) ∧ (s.waves.all fun w => w.cmd != some (2, 5) && w.ctx == 0) = true ∧ s.roundOpen 0 = false ∧
       (s.ctx 0).currentRig = none) := by decide +kernel
theorem witness_RigWaves_flip :
    (∀ inc ∈ [none, some 2], (((waveDemo inc [(0, 0)]).waves.find? fun w => w.ctx == ((waveDemo inc [(0, 0)]).plane 0 0).ctx && (waveDemo inc [(0, 0)]).mayFlip w 0 0).map
      (·.inRig)) = some inc) ∧ ((waveDemo none []).rig 2).planes.find? (fun k => k.uid == 0 && k.pplane == 0) = some (placedDemo true false) ∧
    (let s := releaseDemo
     let w : Wave := { ctx := 0, outRig := 1, inRig := none, seq := 1, launched := 0, pending := [], releasing := [(0, 0)], cmd := none }
     s.waves.find? (fun w => w.ctx == 0 && w.releasing.contains (0, 0)) = some w ∧ (s.rig 1).circuits ≠ [] ∧
       ((s.rig 1).groups.find? fun g => g.seat == 0 && g.idx == 0).any s.quiet = true ∧
       (s.rig 1).circuits.all (fun k => k.seat == 0 && k.group == 0 && s.circuitOver w (s.rig 1) k) = true) := by decide +kernel
theorem witness_RigWaves_end :
    (∀ ps ∈ ([[], [(0, 0)]] : List (List (Nat × Nat))), ((waveDemo (some 2) ps).waves.find? fun w => w.ctx == 0).any
      (fun w => w.pending == ps && w.releasing == [] && w.inRig == some 2 && w.outRig == 1) = true) ∧
    ((waveDemo (some 2) []).waves.all fun w => w.haltSince == none) = true ∧ ((waveDemo (some 2) []).rig 2).waveUs * 1000 < 10 ^ 9 := by decide +kernel

/-! ### Streams, selection, sampling -/

/-- Seat 0 with one queued command and one instance of it: reached or not, its word resolved or not, void or not, with a request outstanding. -/
def copyDesc : StreamDesc := { dims := [(4, 64, 64), (1, 0, 0), (1, 0, 0), (1, 0, 0)], src := 0, dst := 4096, phys := true, shapeEn := true, shapeDim := 1 }
def copyReq : StreamReq := { elem := 0, first := 0, lines := 1, issued := 0, tag := 6, src := [(0, 0)] }
def copyInst (reached resolved void launched : Bool) : StreamInst :=
  { id := 2, seat := 0, slot := 0, desc := copyDesc, ctx := 0, job := 9, step := 0, record := 65535, cmd := 1, reached := reached, launched := launched,
    counts := if resolved then [4, 1, 1, 1] else [], shapeSince := if resolved then none else some 0, resolved := resolved, void := void,
    reqs := [copyReq], next := 1 }
/-- The command is of ring 2, marked with what ring 3 has not fetched, or not marked. -/
def streamDemo (marked : Bool) (x : StreamInst) : State :=
  { streams := { cmds := [{ id := 1, seat := 0, ctx := 0, job := 9, launched := false, cmd := some (2, 5), purpose := 0, arg := 0 }], insts := [x], nextId := 3 },
    rings := [(2, { waiting := [{ ring := 2, seq := 5, opcode := 0x23, marks := if marked then [{ ring := 3, seq := 0 }] else [] }] })]
    mem := [(1, 7)], now := 10 ^ 9 }
/-- A feed ring of unit 0, stalled since 0, and the FEED that fills it. -/
def ringDemo : State :=
  { streams := { rings := [{ uid := 0, ctx := 0, vbase := 0, base := 0, elemLines := 1, needReads := 1, slots := [{}, {}], wr := 0, rd := 0, releases := [], rateHint := 1, stalled := some 0 }],
                 insts := [{ copyInst true true false false with desc := { copyDesc with kind := 1, dst := 0 } }] }, now := 10 ^ 9 }
theorem witness_StreamEngines_reach :
    (∀ b ∈ [true, false], let s := streamDemo b (copyInst false false false false)
      let k : SeatCmd := { id := 1, seat := 0, ctx := 0, job := 9, launched := false, cmd := some (2, 5), purpose := 0, arg := 0 }
      s.streams.cmds.find? (fun k => k.id == 1) = some k ∧ k.isRun = true ∧ s.seatPos k ≤ min 8 (s.getF .STREAM_MODE_FETCH_AHEAD (seatOff 0)) ∧
        s.aheadBlocked k = b ∧ s.streams.stopped = [] ∧
        (s.streams.insts.filter fun x => x.cmd == 1 && !x.reached && !x.void) = [copyInst false false false false] ∧
        s.ringOutside (copyInst false false false false) = false) ∧
    (let s := { (streamDemo false (copyInst false false false false)).setF .STREAM_MODE_FETCH_AHEAD 0 (seatOff 0) with
       streams := { cmds := [{ id := 0, seat := 0, ctx := 0, job := 9, launched := false, cmd := some (2, 5), purpose := 0, arg := 0 },
                             { id := 1, seat := 0, ctx := 0, job := 9, launched := false, cmd := some (2, 5), purpose := 0, arg := 0 }] } }
     min 8 (s.getF .STREAM_MODE_FETCH_AHEAD (seatOff 0)) < s.seatPos { id := 1, seat := 0, ctx := 0, job := 9, launched := false, cmd := some (2, 5), purpose := 0, arg := 0 }) ∧
    (copyInst false false false false).desc.invalid 0 true = false ∧ (copyInst false false false false).desc.invalid 0 false = true := by decide +kernel
/-- An instance that waits for the shape word at an address of context 0, whose page 0 holds `w`. -/
def wordInst (va : Nat) : StreamInst := { copyInst true false false false with desc := { copyDesc with shapeAddr := va } }
def wordDemo (w va : Nat) (poison : Bool) : State :=
  let s : State := { tiers := mapDemo, now := 10 ^ 9, streams := { insts := [wordInst va] } }
  (s.setF .TIERS_CTX_CTRL_VALID 1).putLine 0x40000 (BitVec.ofNat 512 w) poison
theorem witness_StreamEngines_word :
    (∀ va ∈ [0, 131072], (wordDemo 0 va false).streamInst 2 = some (wordInst va) ∧ (wordInst va).reached = true ∧ (wordInst va).resolved = false ∧ (wordInst va).shapeRead = none) ∧
    ((wordDemo 0 131072 false).readVa 0 131072 8 = none ∧ (wordDemo 0 131072 false).walk 0 131072 false = .bad 3) ∧
    ((wordDemo 0 0 true).readVa 0 0 8).map (·.2) = some true ∧
    (∀ w ∈ [3, 2 ^ 63 + 3, 2 ^ 63 + 9], ((wordDemo w 0 false).readVa 0 0 8).map (fun y => (leNat y.1, y.2)) = some (w, false)) ∧
    (copyDesc.dims.getD (copyDesc.shapeDim - 1) (1, 0, 0)).1 = 4 ∧
    0 + (wordDemo 0 0 false).waitNs 0 ≤ (wordDemo 0 0 false).now ∧ 0 < 0 + State.reset.waitNs 0 := by decide +kernel
theorem witness_StreamEngines_issue : State.reset.grant 0 0 = none ∧
    (let s := (streamDemo false (copyInst true true false false)).setF .STREAM_MERGE_EN 0 (seatOff 0)
     let x := copyInst true true false false
     ([0, 1, 2, 400, 401].any fun p => s.grant 0 p == some (x, false)) = true ∧ s.elemSrc x x.nextReq.1 = some (64, false) ∧
       (s.sourceAddrs x x.nextReq.2.2 (64 + 64 * x.nextReq.2.1)).1.toOption = some [(64, 0)] ∧ s.flag .STREAM_MERGE_EN (seatOff 0) = false) := by decide +kernel
theorem witness_StreamEngines_land :
    (∀ x ∈ [copyInst true true false true, copyInst true true true false, copyInst true true false false], let s := streamDemo false x
      s.streamInst 2 = some x ∧ x.reqs.find? (fun r => r.elem == 0 && r.first == 0 && !r.landed) = some copyReq ∧ s.partsOf copyReq.tag = [(2, copyReq)] ∧
        x.desc.kind = 0 ∧ 0 / 2 ^ 45 = s.self ∧ s.physAddr (x.elemDst 0 + 64 * 0) / 2 ^ 45 = s.self ∧ s.portDead 0 = false ∧ s.portDead 4096 = false ∧ s.poisonAt 0 = false) ∧
    ((ringDemo.streams.rings.filter fun g => g.uid == 0 && g.vbase == 0).map (·.stalled)) = [some 0] ∧ 0 + ringDemo.waitNs (seatOf 0) ≤ ringDemo.now ∧
    (ringDemo.streams.insts.find? fun y => y.desc.unit == 0 && y.desc.dst == 0 && y.desc.kind == 1 && y.ctx == 0).isSome = true ∧
    State.reset.asleep 0 = false ∧ ((m3Demo false).seat 0).phase = .asleep := by decide +kernel
/-- Entry 5 in DECODE with version 1 of 16 tokens, one layer and one head, its context's page 0 mapped; handle 2^14 + 5. -/
def decodeDemo : State :=
  let s : State :=
    { tiers := mapDemo, entries := [(5, { a := { state := .decode, curLen := 1, maxLen := 9 }, b := { version := 1, penaltyPtr := 0 } })],
      reqs := [(5, { extents := [0], tokens := [0] })], wpkg := { versions := [{ id := 1, state := 2, vocab := 16, eos := 3, layers := 1, kvHeads := 1, dim32 := 1 }] } }
  s.setF .TIERS_CTX_CTRL_VALID 1
/-- A selection's request beat: layer 0, head 0, K 1, W 1, the list at 0 and the shape word at 64. -/
def selBeat : Line := BitVec.ofNat 512 (2 ^ 14 + 5 + 2 ^ 48 + 2 ^ 59 + 64 * 2 ^ 192)
/-- A sampling request's beat. -/
def sampBeat : Line := BitVec.ofNat 512 (2 ^ 14 + 5 + 2 ^ 32 + 2 ^ 64)
theorem witness_SelectionSamplingSealing_select :
    State.reset.findHandle 0 = none ∧ decodeDemo.findHandle (2 ^ 14 + 5) = some 5 ∧ natBits selBeat.toNat 0 32 = 2 ^ 14 + 5 ∧
    ((decodeDemo.entry 5).a.ctx = 0 ∧ (decodeDemo.entry 5).a.state = .decode) ∧
    (let f := natBits selBeat.toNat; f 32 9 < (decodeDemo.version 1).layers ∧ f 41 6 < (decodeDemo.version 1).kvHeads ∧ f 48 11 = 1 ∧ f 59 7 = 1 ∧ f 128 56 = 0 ∧
      f 192 56 = 64) ∧ candidates (pagesTo (1 - 1)) 1 = 0 ∧ ([] : List (Line × Bool)).length = (0 + 15) / 16 ∧ (attended (pagesTo (1 - 1)) 1 1 []).length ≤ 1 ∧
    decodeDemo.mapped 0 0 0 true = true ∧ decodeDemo.mapped 0 0 8 true = true ∧ decodeDemo.mapped 0 64 8 true = true := by decide +kernel
theorem witness_SelectionSamplingSealing_sample :
    (natBits sampBeat.toNat 32 25 = 1 ∧ natBits sampBeat.toNat 64 16 = 1 ∧ [((0 : Line), false)].length = ((decodeDemo.version 1).vocab + 15) / 16) ∧
    ((decodeDemo.readVa 0 0 (4 * 16)).map (·.2)) = some false ∧ (decodeDemo.entry 5).a.constrained = false ∧
    ([((0 : Line), false)].any (·.2)) = false ∧ ([((0 : Line), true)].any (·.2)) = true := by decide +kernel
theorem witness_SelectionSamplingSealing_seal :
    (let s : State := { decodeDemo with seals := [{ entry := 5, gen := 1, page := 0 }] }
     { entry := 5, gen := (s.entry 5).a.gen, page := 0 } ∈ s.seals ∧ (s.entry 5).a.state.final = false ∧ 0 < (s.req 5).extents.length ∧
       (s.pageSummaries 0 0 (s.version 1)).isSome = true) ∧
    (let s : State := { decodeDemo with tiers := {}, seals := [{ entry := 5, gen := 1, page := 0 }] }
     s.pageSummaries 0 0 (s.version 1) = none ∧ (s.req 5).extents.length ≤ 1) := by decide +kernel

/-! ### Sediment -/

/-- A VALID page of domain 1 stored at offset 0, version 2, epoch 3. -/
def sedPage : SedEnt := { hash := 77, parent := 0, addr := 0, extent := 65536, version := 2, domain := 1, kvFmt := 0, state := 2, epoch := 3 }
/-- A shard with an entry and the pins of module 9's request 4. -/
def sedDemo (e : SedEnt) (pins : List PinSt) : State :=
  let s : State := { sed := { entries := [e], pins := pins }, now := 10 ^ 10, tiers := { frames := [(0, { kind := 3 })] } }
  (s.setF .SED_STATUS_SHARD_ACTIVE 1).setF .SED_CTRL_LOW 20
def pinDemo (ordered : Bool) : PinSt := { owner := 9, handle := 4, hashes := [77], at_ := 0, ordered := ordered }
/-- A tag for every frame of a list of ranges. -/
def fullFrames (rs : List (Nat × Nat)) : List (Nat × FrameTag) := rs.flatMap fun r => (List.range' r.1 (r.2 - r.1)).map fun k => (k, { kind := 1 })
theorem fullFrames_used (rs : List (Nat × Nat)) :
    ((fullFrames rs).filter fun p => (p.2.kind != 0 || p.2.retired) && rs.any (fun r => decide (r.1 ≤ p.1) && decide (p.1 < r.2))).length =
      (rs.map fun r => r.2 - r.1).sum := by
  rw [List.filter_eq_self.mpr, fullFrames, List.length_flatMap]
  · simp only [List.length_map, List.length_range']
  · intro p hp
    obtain ⟨r, hr, hp⟩ := List.mem_flatMap.mp hp
    obtain ⟨k, hk, rfl⟩ := List.mem_map.mp hp
    have hb := List.mem_range'_1.mp hk
    simp only [Bool.and_eq_true, List.any_eq_true, decide_eq_true_eq]
    exact ⟨rfl, r, hr, by omega, by omega⟩
theorem tierRanges_congr (s t : State) (h : t.regs = s.regs) : t.tierRanges 2 = s.tierRanges 2 := by
  simp only [State.tierRanges, State.getF, State.regAt, h]
theorem freeUnits_full (s : State) (rs : List (Nat × Nat)) (h : s.tierRanges 1 = rs) (hf : s.tiers.frames = fullFrames rs) :
    s.freeUnits 1 = rs.foldl (fun a r => a + (r.2 - r.1)) 0 - (rs.map fun r => r.2 - r.1).sum := by
  subst h
  rw [State.freeUnits, hf, fullFrames_used]
theorem extentFree_zero (s : State) (h : s.freeUnits 1 = 0) (h2 : s.tierRanges 2 = []) : s.extentFree = 0 := by
  have h2 : s.freeUnits 2 = 0 := by rw [State.freeUnits, h2]; exact Nat.zero_sub _
  simp only [State.extentFree, h, h2, Nat.add_zero, Nat.zero_mul, Nat.zero_div]
/-- A shard whose Subsoil holds no free frame in the ranges given. -/
def fullState (rs : List (Nat × Nat)) : State := { sedDemo sedPage [] with sed := { entries := [sedPage, { sedPage with hash := 78, pins := 1 }] }, tiers := { frames := fullFrames rs } }
theorem fullState_free (rs : List (Nat × Nat)) (h : State.reset.tierRanges 1 = rs) : (fullState rs).extentFree = 0 := by
  have h1 : (fullState rs).tierRanges 1 = rs := by
    rw [← h]; simp only [State.tierRanges]
  have h2 : (fullState rs).tierRanges 2 = [] :=
    (tierRanges_congr (sedDemo sedPage []) (fullState rs) (by unfold fullState; dsimp only)).trans (by decide +kernel)
  have e : rs.foldl (fun a r => a + (r.2 - r.1)) 0 - (rs.map fun r => r.2 - r.1).sum = 0 := by
    subst h; decide +kernel
  have hf : (fullState rs).tiers.frames = fullFrames rs := by unfold fullState; dsimp only
  have h3 := freeUnits_full (fullState rs) rs h1 hf
  rw [e] at h3
  exact extentFree_zero _ h3 h2
theorem witness_SedimentShard_evict : let s := fullState (State.reset.tierRanges 1); s.flag .SED_STATUS_SHARD_ACTIVE = true ∧ s.extentFree < s.getF .SED_CTRL_LOW ∧
    (s.sed.entries.map (·.hash)).Nodup ∧ ∃ e ∈ s.sed.entries, e.pins ≠ 0 := by
  intro s
  have h : s.extentFree = 0 := fullState_free _ rfl
  rw [h]
  exact ⟨by decide +kernel, by decide +kernel, by decide +kernel, { sedPage with hash := 78, pins := 1 }, by decide +kernel⟩
/-- A command of the firmware's streams that runs for the purpose and argument given. -/
def busyDemo (s : State) (purpose arg : Nat) : State :=
  { s with streams := { s.streams with cmds := [{ id := 1, seat := 0, ctx := 0, job := 0, launched := true, cmd := none, purpose := purpose, arg := arg }] } }
theorem witness_SedimentShard_lookup :
    (sedDemo sedPage []).fenced = false ∧ (sedDemo sedPage []).servesMap 0 = true ∧ (sedDemo sedPage []).servesMap 1 = false ∧
    ((State.reset.sed.pins.filter fun p => p.owner == 9 && p.handle == 4) = []) ∧
    (let s := sedDemo sedPage [pinDemo false]
     let mine := s.sed.pins.filter fun p => p.owner == 9 && p.handle == 4
     mine = [pinDemo false] ∧ (pinDemo false).ordered = false ∧ (copyParts (mine.flatMap fun p => p.hashes.filterMap s.sedEnt) [65536]) = [(0, 65536, 65536)]) := by decide +kernel
theorem witness_SedimentShard_deposit :
    (sedDemo sedPage []).flag .SED_STATUS_SHARD_ACTIVE = true ∧
    ((sedDemo sedPage []).sedEnt 77).isSome = true ∧ (sedDemo sedPage []).sedEnt 78 = none ∧ ((sedDemo sedPage []).offerPage 2 9 1 2 0 3 65536 78 79).isNone = true ∧
    (let s := (sedDemo sedPage []).setF .SED_CAP_BUCKETS_LOG2 10
     s.flag .SED_STATUS_SHARD_ACTIVE = true ∧ s.fenced = false ∧ s.sedEnt 78 = none ∧ (s.offerPage 2 9 1 2 0 3 65536 78 77).isSome = true) ∧
    (9 ≠ State.reset.self ∧ (sedDemo { sedPage with state := 1, parent := 5 } []).sedEnt 77 = some { sedPage with state := 1, parent := 5 } ∧ sedPage.state ≠ 1) ∧
    (sedDemo sedPage []).firmwareBusy 6 77 = false ∧ (busyDemo State.reset 6 77).firmwareBusy 6 77 = true := by decide +kernel
theorem witness_SedimentShard_index :
    State.reset.getF .SED_CTRL_LOW ≤ State.reset.extentFree ∧
    ((sedDemo sedPage []).flag .SED_STATUS_REBUILD = false ∧ (sedDemo sedPage []).flag .SED_STATUS_SWAP_PEND = false ∧ 10 ≤ 28) ∧
    (let s := (sedDemo { sedPage with pins := 1 } []).setF .SED_STATUS_REBUILD 1
     s.flag .SED_STATUS_REBUILD = true ∧ (s.sed.entries.map (·.addr)).Nodup ∧ ∃ e ∈ s.sed.entries, e.pins ≠ 0) ∧
    (let s : State := { sed := { swapAt := some 0 }, now := 4000 }; s.sed.swapAt = some 0 ∧ s.sed.mapAt = none ∧ 0 + 4000 ≤ s.now) ∧
    (State.reset.flag .SED_STATUS_MAP_SWAP_PEND = false ∧ [0, 9].length ≤ 256) := by decide +kernel
/-- The owner's request in entry 5, a lookup of its pages from 0 sent at 0. -/
def ownerDemo (lookup : Nat) : State :=
  { decodeDemo with
    entries := [(5, { a := { state := .decode, promptLen := 512, copyIn := true } })]
    reqs := [(5, { lookup := lookup, hitCount := 2, deposits := 1, extents := [0, 1048576] })]
    now := 100000 }
theorem witness_SedimentOwner_reply :
    (ownerDemo 1).findHandle (2 ^ 14 + 5) = some 5 ∧ ((ownerDemo 1).req 5).lookup = 1 ∧ ((ownerDemo 1).req 5).lookupJob = 0 ∧ ((ownerDemo 2).req 5).lookup ≠ 1 ∧
    (ownerDemo 1).now ≤ ((ownerDemo 1).req 5).lookupAt + 100000 ∧ ((ownerDemo 1).req 5).lookupAt + 100000 ≤ (ownerDemo 1).now ∧
    (let asked := min 256 (((ownerDemo 1).entry 5).a.promptLen / 256 - 0); min asked [(0 : Nat)].length < asked ∧ min asked [(0 : Nat), 1].length = asked) ∧
    State.reset.findHandle 7 = none := by decide +kernel
theorem witness_SedimentOwner_landed :
    (let s := ownerDemo 1
     s.findHandle (2 ^ 14 + 5) = some 5 ∧ (s.entry 5).a.copyIn = true ∧ (s.req 5).hitCount = 2 ∧ (s.entry 5).a.state.final = false ∧ (s.entry 5).a.state ≠ .resuming ∧
       s.firmwareBusy 5 (copyArg s.self (2 ^ 14 + 5)) = false ∧ (s.req 5).deposits ≠ 0 ∧ s.sedEnt 77 = none ∧ s.firmwareBusy 6 77 = false) ∧
    9 ≠ State.reset.self ∧ State.reset.firmwareBusy 5 (copyArg 9 4) = false ∧ (busyDemo State.reset 5 (copyArg 9 4)).firmwareBusy 5 (copyArg 9 4) = true ∧
    (let s := sedDemo { sedPage with state := 1 } []; s.sedEnt 77 = some { sedPage with state := 1 } ∧ ({ sedPage with state := 1 } : SedEnt).pins = 0 ∧
      0 + atLeast1 (s.getF .SED_CTRL_OFFER_MS) * 1000000 ≤ s.now) := by decide +kernel

/-! ### The host interface -/

/-- The physical function's SQ 2 of 64 slots in the state given, its CQ 3 of 64 slots ACTIVE. -/
def ringsDemo (st : Nat) : State :=
  let s := (State.reset.setF .HOSTVI_DEV_STATUS_READY 1).setF .RING_CFG_LOG2 6 (ringOff 2)
  let s := (s.setF .RING_CFG_CQ 3 (ringOff 2)).setF .RING_STATUS_STATE st (ringOff 2)
  let s := (s.setF .RING_CFG_TYPE 1 (ringOff 3)).setF .RING_CFG_LOG2 6 (ringOff 3)
  s.setF .RING_STATUS_STATE 1 (ringOff 3)
/-- A record of an old command. -/
def keptRec : ComplRec :=
  { kind := 1, status := 0, sq := 2, sqHead := 0, opcode := 0, tag := 9, handle := 0, endCode := 0, ctx := 0, job := 0, value := 0 }
/-- Its CQ 3 in the state given, a record held, a record kept or not. -/
def cqDemo (st kept : Nat) : State :=
  let s := (ringsDemo 0).setF .RING_STATUS_STATE st (ringOff 3)
  let s := (s.setF .RING_IDX_TAIL 1 (ringOff 3)).setF .RING_SHADOW_ADDR 4096 (ringOff 3)
  { s with rings := [(3, { kept := List.replicate kept keptRec, newSince := true })] }
theorem witness_Rings : (vfDemo.reached (.vf 1) = true ∧ vfDemo.ownsRing (.vf 1) 2 = false ∧ (ringsDemo 1).reached .pf = true) ∧
    ((ringsDemo 1).ownsRing (.vf 1) 2 = false ∧ (ringsDemo 1).ownsRing .pf 2 = true ∧ State.reset.ownsRing .pf 2 = true ∧ State.reset.getF .HOSTVI_DEV_STATUS_READY = 0) ∧
    ((ringsDemo 1).getF .HOSTVI_DEV_STATUS_READY ≠ 0 ∧ (ringsDemo 0).ringState 2 = 0 ∧ (ringsDemo 1).ringState 2 = 1 ∧ (ringsDemo 2).ringState 2 ≠ 0) ∧
    ((ringsDemo 1).ringSlots 2 = 64 ∧ (ringsDemo 1).getF .RING_IDX_TAIL (ringOff 2) = 0 ∧ (0 + 64 - 0) % 64 ≤ (63 + 64 - 0) % 64) ∧
    (let s := (ringsDemo 1).setF .RING_IDX_TAIL 5 (ringOff 2); s.getF .RING_IDX_TAIL (ringOff 2) = 5 ∧ (4 + 64 - 0) % 64 < (5 + 64 - 0) % 64 ∧ s.ownsRing .pf 2 = true) ∧
    ((cqDemo 1 0).ringHeld 3 = 1 ∧ ((cqDemo 1 0).ring 3).kept = [] ∧ (1 + 64 - 0) % 64 ≤ (cqDemo 1 0).ringHeld 3 ∧ (cqDemo 1 0).ringHeld 3 < (2 + 64 - 0) % 64 ∧
      (cqDemo 1 0).ownsRing .pf 3 = true ∧ (cqDemo 1 0).ringState 3 = 1) ∧
    ((ringsDemo 0).ringCfgOk 2 0 = true ∧ ((ringsDemo 0).ring 2).kept = [] ∧ (State.reset.setF .HOSTVI_DEV_STATUS_READY 1).ringCfgOk 2 0 = false ∧
      ((ringsDemo 1).ringNamed 2 = false) ∧ (∀ c ∈ ((ringsDemo 1).ring 2).waiting, c.ring = 2)) ∧
    (let s : State := { ringsDemo 1 with rings := [(2, {}), (3, {})] }; s.ringNamed 3 = true ∧ s.ringState 3 = 1 ∧ s.ownsRing .pf 3 = true) ∧
    ((cqDemo 1 0).ring 3).newSince = true ∧ ((cqDemo 1 0).ring 2).newSince = false := by decide +kernel

/-- A descriptor of the sequence given: an opcode, a context, further words. -/
def descWords (op q ctx : Nat) (words : Descriptor) : Descriptor := BitVec.ofNat 64 (op + ctx * 65536 + q * 2 ^ 48) :: words
/-- The SQ with a descriptor to fetch. -/
def fetchDemo : State := (ringsDemo 1).setF .RING_IDX_TAIL 1 (ringOff 2)
/-- The SQ with a command fetched, a mark on a sequence of ring 4 given as met, unmet or failed, its wait begun at 0. -/
def launchDemo (op : Nat) (marks : List DepMark) (prev : Bool) (waited : Bool) : State :=
  let c : Cmd := { ring := 2, seq := 1, opcode := op, marks := marks, flags := if prev then 2 else 0, waitSince := if waited then some 0 else none }
  let s := (ringsDemo 1).setF .RING_SEQ_FETCHED 3 (ringOff 4)
  { s with rings := [(2, { waiting := [c] }), (4, { completed := [(0, 0), (1, 5)] })], now := 10 ^ 12 }
theorem witness_FetchAndLaunch :
    (let s := fetchDemo; let d := ringOff 2; s.fenced = false ∧ s.stalled = false ∧ s.ringState 2 = 1 ∧ s.getF .RING_CFG_TYPE d = 0 ∧ s.getF .RING_CFG_CQ d = 3 ∧
      (s.getF .RING_IDX_HEAD d != s.getF .RING_IDX_TAIL d) = true ∧ s.ringState 3 = 1 ∧
      (∀ op ∈ [0, 0x80], reserveFor op ≤ s.cqRoom 3 ∧ (mkCmd 2 0 3 (descWords op 0 0 [])).opcode = op ∧ (mkCmd 2 0 3 (descWords op 0 0 [])).fld 6 0 16 = 0) ∧
      s.headerCheck (mkCmd 2 0 3 (descWords 0 0 0 [])) 0 = none ∧ s.headerCheck (mkCmd 2 0 3 (descWords 0x80 0 0 [])) 0 = some 0xE0 ∧
      (mkCmd 2 0 3 (descWords 0 7 0 [])).fld 6 0 16 ≠ 0 ∧ (s.ringFault 2 0 1).getF .RING_SEQ_FETCHED d = 0 ∧ (s.ownerVi 2).getD 0 = 0) ∧
    ((ringsDemo 1).getF .RING_IDX_HEAD (ringOff 2) = (ringsDemo 1).getF .RING_IDX_TAIL (ringOff 2) ∧ (ringsDemo 0).ringState 2 ≠ 1) ∧
    ((ringsDemo 1).ring 2).waiting = [] ∧
    (∀ x ∈ [(0, 0), (1, 2), (2, 1), (9, 1)], (launchDemo 0 [{ ring := 4, seq := x.1 }] false true).markState { ring := 4, seq := x.1 } = x.2) ∧
    (launchDemo 0 [] true false).prevState { ring := 2, seq := 1, flags := 2 } = 1 ∧ (launchDemo 0 [] false false).prevState { ring := 2, seq := 1 } = 0 ∧
    0 + atLeast1 ((launchDemo 0 [] false true).getF .HOSTVI_CTRL_DEP_MS) * 1000000 < (launchDemo 0 [] false true).now ∧
    (launchDemo 0 [] false true).getF .PWRCLK_STATE_MSTATE = 0 ∧
    (let s : State := { (launchDemo 0x20 [] false false) with rings := [(2, {})] }; (s.setF .PWRCLK_STATE_MSTATE 1).getF .PWRCLK_STATE_MSTATE = 1 ∧ waitsInM1 0x20 = true) ∧
    (let s : State := { ringsDemo 1 with rings := [(2, { outstanding := [{ ring := 2, seq := 1, cq := 3 }] })] }
     s.launched 2 1 0 = some { ring := 2, seq := 1, cq := 3 } ∧ s.fenced = false ∧ s.ringState 3 = 1 ∧ 0 < s.ringFree 3 ∧ (s.ring 3).kept = [] ∧
       (s.setF .RING_STATUS_STATE 2 (ringOff 3)).ringState 3 ≠ 1 ∧ 3 ≠ 2) ∧
    (∃ k ∈ ((cqDemo 1 1).ring 3).kept, k.isNotice = false) := by decide +kernel
/-- A state with one launched command on SQ 2. -/
def withCmd (s : State) (op : Nat) (words : Descriptor) : State := { s with rings := [(2, { outstanding := [hostCmd op words] })] }
/-- CTX_CREATE of weight 1 with a priority, a slice, a NOTICE_CQ. -/
def createWords (prio slice cq : Nat) : Descriptor := [0, 0, 0, 0, BitVec.ofNat 64 (1 + prio * 2 ^ 16 + slice * 2 ^ 32 + cq * 2 ^ 48), 10, 10, 0]
/-- VI_SETUP of an interface: enabled or not, first ring and count. -/
def viWords (n en first count : Nat) : Descriptor := [0, 0, 0, 0, BitVec.ofNat 64 (n + en * 2 ^ 8 + first * 2 ^ 16 + count * 2 ^ 32), 0, 0, 0]
theorem witness_ContextCommands :
    (∀ x ∈ [(0, 0, 3), (0, 0, 2), (0, 1, 3), (1, 0, 3)], let w := createWords x.1 x.2.1 x.2.2
      (withCmd (ringsDemo 1) 0x10 w).launched 2 5 0x10 = some (hostCmd 0x10 w) ∧ ((withCmd (ringsDemo 1) 0x10 w).ownerVi 2).getD 0 = 0 ∧
      (hostCmd 0x10 w).fld 34 0 3 = x.1 ∧ (hostCmd 0x10 w).fld 36 0 12 = x.2.1 ∧ (hostCmd 0x10 w).fld 38 0 13 = x.2.2 ∧ (hostCmd 0x10 w).fld 35 0 8 = 0) ∧
    ((ringsDemo 1).noticeCheck 0 3 = none ∧ (ringsDemo 1).noticeCheck 0 2 = some 0xE1 ∧ ((ringsDemo 1).vi 0).slice ≠ 1 ∧ (ringsDemo 1).viAllows 0 256 1 0 0 10 10 = true ∧
      ({ ringsDemo 1 with vis := [(0, { viReset 0 with prioMax := 0 })] } : State).viAllows 0 256 1 1 0 10 10 = false ∧ ((ringsDemo 1).ctx 0).valid = false ∧
      ((ringsDemo 1).ctx 0).scrubbing = false ∧ (ringsDemo 1).ctxUsed 0 < ((ringsDemo 1).vi 0).ctxMax ∧
      (({ ringsDemo 1 with vis := [(0, { viReset 0 with ctxMax := 0 })] } : State).vi 0).ctxMax ≤ ({ ringsDemo 1 with vis := [(0, { viReset 0 with ctxMax := 0 })] } : State).ctxUsed 0) ∧
    (let s : State := { ringsDemo 1 with ctxs := (List.range 256).map fun k => (k, { scrubbing := true }) }; ∀ k, k < 256 → (s.ctx k).scrubbing = true) ∧
    ((withCmd State.reset 0x11 []).launched 2 5 0x11 = some (hostCmd 0x11 []) ∧ (State.reset.ctx 0).valid = false ∧
      (({ ringsDemo 1 with ctxs := [(0, { valid := true })] } : State).ctx 0).valid = true) ∧
    ((withCmd (ringsDemo 1) 0x12 [0, 0, 0, 0, 3, 0, BitVec.ofNat 64 (5 * 2 ^ 32), 0]).launched 2 5 0x12 = some (hostCmd 0x12 [0, 0, 0, 0, 3, 0, BitVec.ofNat 64 (5 * 2 ^ 32), 0]) ∧
      (hostCmd 0x12 [0, 0, 0, 0, 3, 0, BitVec.ofNat 64 (5 * 2 ^ 32), 0]).fld 32 0 5 = 3 ∧ (ringsDemo 1).viAllows 0 0 5 0 0 0 0 = true ∧
      ({ ringsDemo 1 with vis := [(0, { viReset 0 with weightMax := some 4 })] } : State).viAllows 0 0 5 0 0 0 0 = false) ∧
    (let w : Descriptor := [0, 0, 0, 0, BitVec.ofNat 64 (3 * 2 ^ 32), 0, 0, 0]; let x : CtxSt := { valid := true, span := true }
      (withCmd (ringsDemo 1) 0x13 w).launched 2 5 0x13 = some (hostCmd 0x13 w) ∧ (hostCmd 0x13 w).fld 36 0 13 = 3 ∧ (hostCmd 0x13 w).fld 32 0 8 = 0 ∧
      (!x.valid || !x.span || x.master != (hostCmd 0x13 w).fld 34 0 15 || x.slice != ((ringsDemo 1).vi 0).slice || x.held) = false ∧ (State.reset.ctx 0).valid = false) := by
  decide +kernel
theorem witness_ViSetup :
    (∀ x ∈ [(0, 1, 0, 8192), (0, 1, 0, 2), (1, 1, 10, 4), (1, 0, 0, 0)], let w := viWords x.1 x.2.1 x.2.2.1 x.2.2.2
      (withCmd (ringsDemo 1) 0x70 w).launched 2 5 0x70 = some (hostCmd 0x70 w) ∧ (hostCmd 0x70 w).fld 32 0 8 = x.1 ∧ (hostCmd 0x70 w).fld 33 0 1 = x.2.1 ∧
      (hostCmd 0x70 w).fld 34 0 13 = x.2.2.1 ∧ (hostCmd 0x70 w).fld 36 0 14 = x.2.2.2) ∧
    (∃ k, k < 8192 ∧ (((ringsDemo 1).vi 0).enabled && decide (((ringsDemo 1).vi 0).ringFirst ≤ k) && decide (k < ((ringsDemo 1).vi 0).ringFirst + ((ringsDemo 1).vi 0).ringCount)) ≠
      (decide (0 ≤ k) && decide (k < 0 + 2)) ∧ (ringsDemo 1).ringState k ≠ 0) ∧
    (∀ k, k < 8192 → (((ringsDemo 1).vi 0).enabled && decide (((ringsDemo 1).vi 0).ringFirst ≤ k) && decide (k < ((ringsDemo 1).vi 0).ringFirst + ((ringsDemo 1).vi 0).ringCount)) =
      (decide (0 ≤ k) && decide (k < 0 + 8192))) ∧
    (∀ k, k < 256 → k ≠ 0 → ((ringsDemo 1).vi k).enabled = false) ∧
    (∀ k, k < 8192 → (((ringsDemo 1).vi 1).enabled = false ∧ ((decide (10 ≤ k) && decide (k < 10 + 4)) = false ∨ (ringsDemo 1).ringState k = 0))) ∧
    (1 ≠ 0 ∧ ((ringsDemo 1).vi 0).enabled = true ∧ rangesMeet 10 4 ((ringsDemo 1).vi 0).ringFirst ((ringsDemo 1).vi 0).ringCount = true) := by
  have e : (ringsDemo 1).vi 0 = viReset 0 := by decide +kernel
  have z : ∀ j ∈ [10, 11, 12, 13], (ringsDemo 1).ringState j = 0 := by decide +kernel
  refine ⟨by decide +kernel, ⟨2, by decide, by decide +kernel, by decide +kernel⟩, fun k h => ?_, by decide +kernel, fun k h => ⟨by decide +kernel, ?_⟩, by decide +kernel⟩
  · rw [e]; simp [viReset]
  · by_cases hk : 10 ≤ k ∧ k < 14
    · exact .inr (z k (by simp only [List.mem_cons, List.not_mem_nil, or_false]; omega))
    · refine .inl ?_
      simp only [Bool.and_eq_false_iff, decide_eq_false_iff_not]; omega

/-- MAP's descriptor: a page of Subsoil, readable and writable, at an address. -/
def mapWords (va : Nat) : Descriptor := [0, 0, 0, 0, BitVec.ofNat 64 va, BitVec.ofNat 64 (1 + 2 ^ 32 * 98), 0, 0]
/-- MAP_SHARED's: context 0's page at 0, at another address. -/
def shareWords (va : Nat) : Descriptor := [0, 0, 0, 0, BitVec.ofNat 64 va, 0, 1, 0]
/-- COPY's: one line at 0, to the host or from it. -/
def copyWords (out : Nat) : Descriptor := [0, 0, 0, 0, 4096, BitVec.ofNat 64 (out * 2 ^ 63), 64, 0]
/-- Context 0 with a page at 0, held by VI 0, with room in Subsoil or none, its frame here or on module 1. -/
def memDemo (quota home : Nat) : State :=
  let s := (tierDemo 0 []).setF .TIERS_CTX_QUOTA_SS_UNITS quota
  { s with ctxs := [(0, { valid := true, held := true })]
           tiers := { s.tiers with pt := SMap.set {} s.tiers.pt 0x30000 { valid := true, leaf := true, read := true, write := true, addr := home * 2 ^ 45 } } }
theorem witness_MemoryCommands :
    (∀ va ∈ [0, 65536], (withCmd (memDemo 1 0) 0x14 (mapWords va)).launched 2 5 0x14 = some (hostCmd 0x14 (mapWords va)) ∧ (hostCmd 0x14 (mapWords va)).fld 32 0 56 = va ∧
      (hostCmd 0x14 (mapWords va)).fld 40 0 32 = 1 ∧ (hostCmd 0x14 (mapWords va)).fld 44 0 1 = 0 ∧ (hostCmd 0x14 (mapWords va)).fld 44 1 2 = 1 ∧
      (hostCmd 0x14 (mapWords va)).fld 44 3 2 = 0 ∧ firmwareRange va = false ∧ va % pageBytes false = 0) ∧
    ((memDemo 1 0).taken 0 0 false = true ∧ (memDemo 1 0).taken 0 65536 false = false) ∧
    ((memDemo 0 0).mapPages 0 1 0 true true false [65536]).toBool = false ∧
    ((memDemo 1 0).mapPages 0 1 0 true true false [65536]).toBool = true ∧
    (∀ va ∈ [0, 131072], (withCmd (memDemo 1 0) 0x15 (mapWords va)).launched 2 5 0x15 = some (hostCmd 0x15 (mapWords va)) ∧ (memDemo 1 0).inWindow 0 va = false ∧ (withCmd (memDemo 1 0) 0x15 (mapWords va)).unmapping 2 5 = false) ∧
    ({ tiers := { shoot := [{ ctx := 0, scope := 0, vpage := 0, slice := false, why := 1, arg := 0, frames := [], cmd := some (2, 5), doneAt := none }] } } : State).unmapping 2 5 = true ∧
    ((memDemo 1 0).findLeaf 0 131072 = none ∧ (memDemo 1 0).findLeaf 0 0 = some (0x30000, { valid := true, leaf := true, read := true, write := true })) ∧
    (∀ va ∈ [0, 65536], (withCmd (memDemo 1 0) 0x16 (shareWords va)).launched 2 5 0x16 = some (hostCmd 0x16 (shareWords va)) ∧ (hostCmd 0x16 (shareWords va)).fld 40 0 56 = 0 ∧
      (hostCmd 0x16 (shareWords va)).fld 48 0 32 = 1 ∧ (hostCmd 0x16 (shareWords va)).fld 52 0 8 = 0 ∧ (hostCmd 0x16 (shareWords va)).fld 53 0 1 = 0) ∧
    (∀ x ∈ [0, 1], (memDemo 1 x).ctxOf 0 0 = true ∧ (memDemo 1 x).inWindow 0 0 = false ∧
      (memDemo 1 x).findLeaf 0 0 = some (0x30000, { valid := true, leaf := true, read := true, write := true, addr := x * 2 ^ 45 }) ∧ (x * 2 ^ 45 / 2 ^ 45 = (memDemo 1 x).self ↔ x = 0)) ∧
    ((memDemo 1 1).installLeaf 0 65536 { valid := true, leaf := true, read := true, shared := true, addr := 2 ^ 45, place := 2 } false).isSome = true ∧
    (∀ x ∈ [0, 1], (withCmd (memDemo 1 0) 0x01 (copyWords x)).launched 2 5 0x01 = some (hostCmd 0x01 (copyWords x)) ∧ (hostCmd 0x01 (copyWords x)).fld 40 63 1 = x ∧
      (hostCmd 0x01 (copyWords x)).fld 48 0 32 = 64 ∧ (hostCmd 0x01 (copyWords x)).fld 40 0 56 = 0 ∧ (memDemo 1 0).mapped 0 0 64 (x != 1) = true) ∧
    State.reset.mapped 0 0 64 true = false ∧ ((memDemo 1 0).readVa 0 0 64).isSome = true ∧ (memDemo 1 0).lineAddrs 0 0 64 true = some [(0, { valid := true, leaf := true, read := true, write := true })] ∧
    (ringsDemo 1).ringState 2 = 1 ∧
    ((0 + 64 + 63) / 64 - 0 / 64 = 1 ∧ (memDemo 1 0).walk 0 0 true = .leaf { valid := true, leaf := true, read := true, write := true } 0x30000 false ∧
      0 / 2 ^ 45 = (memDemo 1 0).self ∧ (memDemo 1 0).portDead 0 = false ∧ (memDemo 1 0).tagCheck 0 0 0 true = none) := by
  and_intros <;> decide +kernel
theorem witness_HostLink :
    State.reset.board.vfEnable = false ∧ natBit State.reset.board.stages 3 = false ∧ (let s : State := { board := { vfEnable := true, stages := 15 } }
      s.board.vfEnable = true ∧ natBit s.board.stages 3 = true) ∧ State.reset.viCtxs 1 = [] ∧ (∀ p ∈ State.reset.rings, False) ∧
    (({ ctxs := [(0, { span := true })] } : State).ctx 0).span = true ∧ (State.reset.ctx 0).span = false ∧ (State.reset.ctx 0).valid = false ∧
    (State.reset.ctx 0).scrubbing = false ∧ (({ ctxs := [(0, { valid := true })] } : State).ctx 0).valid = true ∧
    (memDemo 1 0).findLeaf 0 ([0, 7, 0].getD 0 0) = some (0x30000, { valid := true, leaf := true, read := true, write := true }) ∧
    (({ board := { perst := true } } : State).board.perst = true ∧ State.reset.board.perst = false) := by decide +kernel
theorem witness_HostLink_replica :
    (let s := memDemo 1 0
     (s.ctx 0).valid = true ∧ ((s.ensureRoot 0).bind fun x => x.2.putLeaf 0 65536 { pteOf 3 with va := 65536 } false 0 x.1 ptLevels).isSome = true ∧
       s.findLeaf 0 131072 = none ∧ (s.findLeaf 0 0).isSome = true) ∧
    (let high := fun (s : State) => max (s.getF .TIERS_TILLER_LEVELS_SUB_LOW) (s.getF .TIERS_TILLER_LEVELS_SUB_HIGH)
     let go := fun (s : State) => s.allocAt 0 1 false 0 (s.findIn false (s.moveRanges 1 0))
     high (memDemo 1 0) < (memDemo 1 0).subFree false ∧ (go (memDemo 1 0)).toBool = true ∧ (go (memDemo 0 0)).toBool = false) ∧
    (let s := memDemo 1 1
     0 / 2 ^ 45 = s.self ∧ (s.tag 0).kind = 1 ∧ (s.tag 0).ctx = 0 ∧ s.mappedElse [] 0 = false ∧ (memDemo 1 0).mappedElse [] 0 = true) := by decide +kernel
theorem witness_Doorbells :
    let s := ((ringsDemo 1).setF .RING_IDX_TAIL 5 (ringOff 2)).setF .RING_IDX_HEAD 3 (ringOff 2)
    s.ownsRing .pf 2 = true ∧ s.getF .HOSTVI_DEV_STATUS_READY ≠ 0 ∧ s.ringState 2 = 1 ∧ (ringsDemo 2).ringState 2 ≠ 1 ∧ s.fenced = false ∧ s.err.handling = [] ∧
    (let n := s.ringSlots 2; (5 + n - 3) % n ≤ (7 + n - 3) % n ∧ (4 + n - 3) % n < (5 + n - 3) % n ∧ 7 < n ∧ (4 + n - 3) % n ≤ s.ringHeld 2 ∧ s.ringHeld 2 < (7 + n - 3) % n) ∧
    (s.ring 2).kept = [] ∧ s.flag .RING_CFG_CTX_BOUND (ringOff 2) = false := by decide +kernel

/-! ### Weight packages -/

/-- Version 1 in a state, of model 7, in context 0. -/
def verOf (st : Nat) : Version := { id := 1, model := 7, state := st }
/-- A command of context 0 that names model 7 and version 1, version 1 in a state, live or not, a request that uses it or not. -/
def verDemo (op st : Nat) (live used : Bool) : State :=
  { cmdState op [0, 0, 0, 0, 0, BitVec.ofNat 64 (7 + 2 ^ 16), 0, 0] with
    wpkg := { versions := [verOf st], live := if live then [(7, 1)] else [] }
    entries := if used then [(0, { a := { state := .decode }, b := { version := 1, penaltyPtr := 0 } })] else [] }
/-- A tile of one line of kind 2, from a package at address 0 of context 0's page 0. -/
def tileCells : List (Nat × Byte) :=
  [(0, 0x54), (1, 0x49), (2, 0x4C), (3, 0x45), (4, 1), (6, 2), (7, 15), (36, 64), (256, 9)]
/-- Its bytes. -/
def tileBytes : List Byte := (List.range 65536).map fun i => SMap.get 0 tileCells i
/-- Its leaf of the hash tree. -/
def tileLeaf : Nat := digestNum (0 :: asNats tileBytes)
/-- Context 0's page at 0 holding the tile, a page for it at 2 MiB. -/
def loadBase : State :=
  let s := tierDemo 0 []
  let pt := SMap.set {} s.tiers.pt 0x20010 { valid := true, leaf := true, big := true, place := 2, addr := 0x10000400000, va := 0x200000 }
  { s with mem := tileCells, tiers := { s.tiers with pt := pt } }
/-- A load of version 1 with one tile that waits or failed once, and perhaps a second. -/
def loadDemo (st : Nat) (leaf : Nat) (more : Bool) : State :=
  { loadBase with
    wpkg := { versions := [verOf 1]
              loads := [{ ver := 1, ring := 2, seq := 5, pkgId := 0, src := 0,
                          tiles := { tile := 0, va := 0x200000, leaf := leaf, state := st } :: (if more then [{ tile := 0, va := 0x210000, leaf := 0 }] else []) }] } }
theorem self_wpkg (s : State) (w : WpkgSt) : ({ s with wpkg := w } : State).self = s.self := rfl
theorem lineAddrs_wpkg (s : State) (w : WpkgSt) : ({ s with wpkg := w } : State).lineAddrs 0 0 65536 false = s.lineAddrs 0 0 65536 false := rfl
theorem tileCells_far (i : Nat) (h : 257 ≤ i) : SMap.get (0 : Byte) tileCells i = 0 := by
  simp only [tileCells, SMap.get]
  repeat (split; omega)
  rfl
theorem range_lines {α : Type} (f : Nat → α) (n : Nat) : ((List.range n).flatMap fun i => (List.range 64).map fun j => f (64 * i + j)) = (List.range (64 * n)).map f := by
  induction n with
  | zero => rfl
  | succ n ih =>
    rw [List.range_succ (n := n), List.flatMap_append, ih, Nat.mul_succ, List.range_add, List.map_append]
    simp only [List.flatMap_cons, List.flatMap_nil, List.append_nil, List.map_map, Function.comp_def]
theorem badLine_wpkg (s : State) (w : WpkgSt) (x : Nat) : ({ s with wpkg := w } : State).badLine 0 x 0 = s.badLine 0 x 0 := rfl
/-- The leaf of context 0's page at 0. -/
def tilePte : Pte := { valid := true, leaf := true, read := true, write := true }
theorem tile_read (s : State) (hm : s.mem = tileCells) (hh : s.tiers.held = []) (hs : s.self = 0) (hq : ∀ i, i < 1024 → s.badLine 0 (64 * i) 0 = false)
    (hl : s.lineAddrs 0 0 65536 false = some ((List.range 1024).map fun i => (64 * i, tilePte))) : s.readVa 0 0 65536 = some (tileBytes, false) := by
  have hb : ((List.range 1024).map fun i => (64 * i, tilePte)).flatMap (fun a => (List.range 64).map fun j => s.byteAny (a.1 + j)) = tileBytes := by
    have e := range_lines (fun i => s.byteAny i) 1024
    rw [List.flatMap_map, e, tileBytes]
    refine List.map_congr_left fun i hi => ?_
    have := List.mem_range.mp hi
    rw [State.byteAny, hs, if_pos (by omega), State.byteAt, hm, Nat.mod_eq_of_lt (by omega)]
  have hq : ((List.range 1024).map fun i => (64 * i, tilePte)).any (fun a => s.badLine 0 a.1 a.2.gen) = false := by
    rw [List.any_eq_false]
    intro a ha
    obtain ⟨i, hi, rfl⟩ := List.mem_map.mp ha
    rw [show tilePte.gen = 0 from rfl, hq i (List.mem_range.mp hi)]
    exact Bool.false_ne_true
  have ht : (tileBytes.drop (0 % 64)).take 65536 = tileBytes := by
    rw [Nat.zero_mod, List.drop_zero, List.take_of_length_le]
    exact Nat.le_of_eq (by rw [tileBytes, List.length_map, List.length_range])
  rw [State.readVa, hl]
  dsimp only
  rw [hb, hq, ht, State.overHeld, hh, List.foldl_nil]
theorem bytesNum_front (A : List Nat) (N k n : Nat) (h : k + n ≤ A.length) : bytesNum (A ++ List.replicate N 0) k n = bytesNum A k n := by
  rw [bytesNum, bytesNum, List.drop_append_of_le_length (by omega), List.take_append_of_le_length (by rw [List.length_drop]; omega)]
theorem zeroPart_front (A : List Nat) (N k n : Nat) (h : (A.drop k).all (· == 0) = true) : zeroPart (A ++ List.replicate N 0) k n = true := by
  rw [zeroPart, List.all_eq_true]
  intro x hx
  have hx := List.mem_of_mem_take hx
  rw [List.drop_append] at hx
  rcases List.mem_append.mp hx with hx | hx
  · exact List.all_eq_true.mp h x hx
  · rw [(List.mem_replicate.mp (List.mem_of_mem_drop hx)).2]; rfl
/-- Its first 257 bytes as numbers. -/
def tileFront : List Nat := (List.range 257).map fun i => (SMap.get (0 : Byte) tileCells i).toNat
theorem zeroPart_small (A : List Nat) (N k n : Nat) (h : k + n ≤ A.length) : zeroPart (A ++ List.replicate N 0) k n = zeroPart A k n := by
  rw [zeroPart, zeroPart, List.drop_append_of_le_length (by omega), List.take_append_of_le_length (by rw [List.length_drop]; omega)]
theorem map_split (f : Nat → Nat) (a n : Nat) (h : ∀ i, a ≤ i → f i = 0) : (List.range (a + n)).map f = (List.range a).map f ++ List.replicate n 0 := by
  rw [List.range_add, List.map_append, List.map_map]
  refine congrArg _ (List.eq_replicate_iff.mpr ⟨by rw [List.length_map, List.length_range], fun b hb => ?_⟩)
  obtain ⟨i, _, rfl⟩ := List.mem_map.mp hb
  exact h _ (Nat.le_add_right a i)
theorem tileBytes_split : asNats tileBytes = tileFront ++ List.replicate 65279 0 := by
  have h := map_split (fun i => (SMap.get (0 : Byte) tileCells i).toNat) 257 65279 fun i hi => by rw [tileCells_far i hi]; rfl
  rw [asNats, tileBytes, List.map_map]
  exact h
theorem tile_fields : ∀ x ∈ [(0, 4, 0x454C4954), (4, 2, 1), (6, 1, 2), (7, 1, 15), (8, 8, 0), (16, 4, 0), (22, 2, 0), (24, 2, 0), (26, 2, 0), (32, 4, 0), (36, 4, 64), (40, 4, 0), (44, 4, 0)],
    bytesNum (asNats tileBytes) x.1 x.2.1 = x.2.2 := by
  intro x hx
  rw [tileBytes_split, bytesNum_front]
  · revert x; decide +kernel
  · revert x; decide +kernel
theorem tile_ok : tileMatches (asNats tileBytes) tileLeaf 0 0 false = true := by
  have z : ∀ k n, ((tileFront.drop k).all (· == 0)) = true → zeroPart (asNats tileBytes) k n = true := fun k n h => by
    rw [tileBytes_split]; exact zeroPart_front _ _ _ _ h
  have y : ∀ x ∈ [(48, 80), (128, 128)], zeroPart (asNats tileBytes) x.1 x.2 = true := fun x hx => by
    rw [tileBytes_split, zeroPart_small]
    · revert x; decide +kernel
    · revert x; decide +kernel
  have f := tile_fields
  have leaf : tileLeaf = digestNum (0 :: asNats tileBytes) := rfl
  generalize asNats tileBytes = b at z y f leaf
  simp only [List.forall_mem_cons, List.not_mem_nil, false_implies, implies_true, and_true] at f y
  obtain ⟨f0, f4, f6, f7, f8, f16, f22, f24, f26, f32, f36, f40, f44⟩ := f
  have zs := fun k n => z k n
  have hs : tileShapeOk b = true := by
    simp only [tileShapeOk, f6, f7, f22, f24, f26, f32, f36, f40, f44, y.1]
    rw [zs (256 + 64) _ (by decide +kernel)]
    simp [zs 320 0 (by decide +kernel), zs 320 65216 (by decide +kernel)]
  simp only [tileMatches, leaf, f0, f4, f8, f16, hs, y.2, BEq.rfl, Bool.not_false, Bool.and_self]
theorem loadBase_good : ((List.range 1024).all fun i => !loadBase.badLine 0 (64 * i) 0) = true := by decide +kernel
theorem loadBase_mem : loadBase.mem = tileCells := by unfold loadBase; dsimp only
theorem loadBase_held : loadBase.tiers.held = [] := by decide +kernel
theorem loadDemo_read (st : Nat) (leaf : Nat) (more : Bool) : (loadDemo st leaf more).readVa 0 0 65536 = some (tileBytes, false) := by
  have h : loadBase.lineAddrs 0 0 65536 false = some ((List.range 1024).map fun i => (64 * i, tilePte)) := by decide +kernel
  refine tile_read _ ?_ ?_ ?_ (fun i hi => ?_) ?_
  · rw [loadDemo]; exact loadBase_mem
  · rw [loadDemo]; exact loadBase_held
  · rw [loadDemo, self_wpkg]; decide +kernel
  · rw [loadDemo, badLine_wpkg]
    exact (Bool.not_eq_true' _).mp (List.all_eq_true.mp loadBase_good i (List.mem_range.mpr hi))
  · rw [loadDemo, lineAddrs_wpkg, h]
theorem tileBytes_length : tileBytes.length = 65536 := by rw [tileBytes, List.length_map, List.length_range]
/-- The tile of loadDemo that lands. -/
def demoTile (st leaf : Nat) : Landing := { tile := 0, va := 0x200000, leaf := leaf, state := st }
theorem tileMatches_bad (t : List Nat) (l p i : Nat) (b : Bool) (h : b = true) : tileMatches t l p i b = false := by
  rw [tileMatches, h, Bool.not_true, Bool.and_false, Bool.false_and]
theorem witness_TileLand (st leaf : Nat) (more : Bool) (h : st = 0 ∨ st = 1) : let s := loadDemo st leaf more
    s.version 1 = verOf 1 ∧ s.wpkg.latched = false ∧ (∃ l, s.wpkg.loads.find? (fun l => l.ver == 1) = some l ∧ l.src = 0 ∧ l.pkgId = 0 ∧
      l.tiles.find? (fun t => t.va == 0x200000 && t.state != 2) = some (demoTile st leaf) ∧
      ((∃ k ∈ l.tiles.map (fun t => if t.va = 0x200000 then { t with state := 2 } else t), k.state ≠ 2) ↔ more = true)) ∧
    (let got := s.readVa (verOf 1).ctx (0 + 65536 * 0) 65536; let bytes := (got.map (·.1)).getD []
      tileMatches (asNats bytes) leaf 0 0 (got.elim true (·.2) || true || bytes.length != 65536) = false ∧
      (leaf = tileLeaf → tileMatches (asNats bytes) leaf 0 0 (got.elim true (·.2) || false || bytes.length != 65536) = true)) := by
  refine ⟨rfl, rfl, ⟨_, rfl, rfl, rfl, ?_, ?_⟩, ?_, fun e => ?_⟩
  · rcases h with rfl | rfl <;> rfl
  · cases more
    · simp
    · simp
  · exact tileMatches_bad _ _ _ _ _ (by rw [Bool.or_true, Bool.true_or])
  · rw [e]
    have r := loadDemo_read st tileLeaf more
    have c : (verOf 1).ctx = 0 := rfl
    rw [c, Nat.mul_zero, Nat.add_zero, r]
    simp only [Option.map_some, Option.getD_some, Option.elim_some, tileBytes_length, bne_self_eq_false, Bool.or_self]
    exact tile_ok
theorem witness_WeightPackages :
    ((cmdState 0x40 []).launched 2 5 0x40 = some (hostCmd 0x40 []) ∧ (cmdState 0x40 []).wpkg = {}) ∧ ((verDemo 0x41 2 false false).wpkg.loads = []) ∧
    (∀ op ∈ [0x41, 0x42], (∀ st, st ∈ [0, 1, 2, 3] → (verDemo op st false true).launched 2 5 op = some (hostCmd op [0, 0, 0, 0, 0, BitVec.ofNat 64 (7 + 2 ^ 16), 0, 0]) ∧
      ((verDemo op st false true).version 1).state = st ∧ (∀ v ∈ (verDemo op st false true).wpkg.versions, (verDemo op st false true).pinned v.id = true)) ∧
      (hostCmd op [0, 0, 0, 0, 0, BitVec.ofNat 64 (7 + 2 ^ 16), 0, 0]).fld 40 0 16 = 7 ∧ (hostCmd op [0, 0, 0, 0, 0, BitVec.ofNat 64 (7 + 2 ^ 16), 0, 0]).fld 42 0 16 = 1) ∧
    (verDemo 0x42 2 false false).pinned 1 = false ∧ (verDemo 0x42 2 false false).tableRead = false ∧ (verDemo 0x42 2 true true).wpkg.live = [(7, 1)] ∧
    (let v := { verOf 4 with frames := [9] }; let s : State := { tiers := { frames := [(9, { kind := 4 })] }, wpkg := { versions := [v] } }
     (s.tag 9).kind = 4 ∧ (s.wpkg.versions.filter fun v => v.state == 4 && v.frames.contains 9) = [v] ∧ (∀ k ∈ v.frames, k = 9) ∧ s.version 1 = v) := by
  exact ⟨by decide +kernel, rfl, by decide +kernel, by decide +kernel, by decide +kernel, rfl, by decide +kernel⟩
theorem witness_WeightPackages_waits :
    (let s := verDemo 0x41 2 false false
     ({ s with wpkg := { s.wpkg with latched := true } } : State).launched 2 5 0x41 = s.launched 2 5 0x41 ∧ (s.launched 2 5 0x41).isSome = true) ∧
    ((verDemo 0x41 2 false false).wpkg.live.any fun p => p.1 == 7) = false ∧ (((List.range 256).map fun k => (100 + k, 9)).any fun p => p.1 == 7) = false ∧
    ((List.range 256).map fun k => (100 + k, 9)).length = 256 ∧ (verOf 2).model ≠ 8 ∧ (verOf 2).model = 7 ∧
    decide (4 ≤ ((List.replicate 4 ({ ver := 2, ring := 0, seq := 0, pkgId := 0, src := 0, tiles := [] } : LoadSt)).length)) = true := by decide +kernel

/-! ### Expert routing -/

/-- A descriptor at 64 with a number of experts and result lines, a map at 8192, a combine record at 4096 that is complete or not, one expert whose queue is at
32768, in context 0's page 0. -/
def scatCells (full : Bool) (experts lines : Byte) : List (Nat × Byte) :=
  [(66, experts), (68, 1), (72, 1), (74, lines), (76, 32), (81, 16), (96, 1), (4096, 1)] ++ (if full then [(4100, 1)] else []) ++
    [(8256, 1), (8258, 32), (8321, 0x80), (8329, 0x80), (8330, 4)]
/-- An entry of class SCATTER that names the descriptor, suppressed or not. -/
def scatEntry (fmt pop out : Nat) (sup : Bool) : Nat := demoEntry 10 fmt 0 pop out + 64 * 2 ^ 128 + (if sup then 2 ^ 48 else 0)
/-- Its descriptor. -/
def scatD : ScatDesc := { experts := 1, topk := 1, payLines := 1, retLines := 1, roundTokens := 32, combine := 4096, rounds := 1 }
/-- A header whose result goes to an address. -/
def scatHdr (ret : Nat) : QHdr :=
  { token := 0, round := 0, expert := 0, choice := 0, flags := 0, weight := 7, job := 0, step := 0, ret := ret, src := 0, ctx := 0, layer := 0 }
/-- Unit 0 about to treat an entry, its context's memory and map, a header in operand-store line 4; context 0's page 1 is on module 1. -/
def scatDemo (e : Nat) (cells : List (Nat × Byte)) (scat : ScatSt) : State :=
  let m := (tierDemo 0 []).tiers
  let s : State :=
    { unitDemo e with
      tiers := { m with pt := SMap.set {} m.pt 0x30010 { valid := true, leaf := true, read := true, write := true, addr := 2 ^ 45 } }
      ops := [(4, { data := lineOfBytes ((scatHdr 65536).bytes ++ List.replicate 32 0) })]
      mem := cells, scat := scat, ctxs := [(0, { valid := true, held := true })] }
  let s := (s.setF .TIERS_CTX_CTRL_VALID 1).setF .TIERS_CTX_ROOT0_ROOT 0x8000
  ((s.setF .EXPMAP_CTRL_VALID 1).setF .EXPMAP_BASE0_ADDR 8192).setF .EXPMAP_LAYERS_LAYERS 1
/-- Round 0 of layer 0 with one token routed, closed or not, its region's home here or on module 1. -/
def roundDemo (closed : Bool) (home : Nat) : Round :=
  { ctx := 0, num := 0, uid := 0, desc := scatD, gen := 0, first := 0, routed := 1, closedAt := if closed then some 0 else none, owed := 1,
    regions := [{ expert := 0, queue := 32768, home := home, quota := 4, region := 0, picks := 1 }] }
def roundScat (closed : Bool) (home : Nat) : ScatSt := { layers := [{ ctx := 0, layer := 0, base := 0, routed := 1 }], rounds := [roundDemo closed home] }
/-- The four entries with the ports each needs. -/
def scatForms (sup : Bool) : List (Nat × Nat) := [(0, scatEntry 0 1 0 sup), (1, scatEntry 1 0 0 sup), (2, scatEntry 2 0 1 sup), (3, scatEntry 3 1 0 sup)]
theorem witness_ScatterEntries :
    (∀ x ∈ scatForms true, let s := scatDemo x.2 (scatCells false 1 1) {}
      s.fires 0 (isForm 10 x.1) = true ∧ (s.plane 0 (s.curPlane 0)).suppresses (s.curEntry 0) = true ∧
        (x.1 = 0 → s.readDesc (s.plane 0 (s.curPlane 0)).ctx (enDesc (s.curEntry 0)) = some scatD ∧
          inOpsWindow (s.plane 0 (s.curPlane 0)).cfg (enSrcA (s.curEntry 0), enLen (s.curEntry 0) * scatD.payLines) = true)) ∧
    (∀ x ∈ scatForms false, let s := scatDemo x.2 (scatCells false 1 1) {}; s.fires 0 (isForm 10 x.1) = true ∧ (s.plane 0 (s.curPlane 0)).suppresses (s.curEntry 0) = false ∧
      (s.plane 0 (s.curPlane 0)).valid = true ∧ s.curPlane 0 = 0 ∧ (s.plane 0 0).ctx = 0 ∧ enDesc (s.curEntry 0) = 64 ∧ s.mapped 0 64 64 false = true ∧ s.readDesc 0 64 = some scatD ∧
      (s.layerFor 0 (s.mapGen 0) scatD).isSome = true ∧ enLen (s.curEntry 0) = 1) := by decide +kernel
theorem witness_ScatterCombine : ∀ full, let s := scatDemo (scatEntry 2 0 1 false) (scatCells full 1 1) (roundScat false 0)
    s.fires 0 (isForm 10 2) = true ∧ s.layerSt 0 0 = some { ctx := 0, layer := 0, base := 0, routed := 1 } ∧ s.round 0 (0 + 0 / 32) = some (roundDemo false 0) ∧
      0 % 32 < (roundDemo false 0).routed ∧ ((s.combineRow { roundDemo false 0 with desc := scatD } (recNumctl (s.plane 0 0).cfg) (0 % 32)) ≠ none ↔ full = true) := by
  intro full; cases full <;> decide +kernel
theorem witness_ScatterRoute : let e := scatEntry 0 1 0 false; let s := scatDemo e (scatCells false 1 1) {}
    maskPorts (enInPop e) = [0] ∧ s.headBeat 0 0 0 = some { data := 7 } ∧ s.hazardFree 0 [(enSrcA e, enLen e * 1)] [] = true ∧ inOpsWindow (s.plane 0 0).cfg (enSrcA e, enLen e * 1) = true ∧
    (tokenBeats 0 scatD = 1 ∧ s.routeReady 0 scatD = true ∧ (let w := (s.beginCatch 0).routeToken 0 0 e scatD 0 [(7, false)]; (w.plane 0 0).valid = true ∧ (w.ctx 0).valid = true) ∧
      (s.beginLayer 0 scatD).1.routed < 1 * 32 ∧ (s.layerFor 0 (((s.round 0 (0 + 0 / 32)).map (·.gen)).getD (s.mapGen 0)) scatD).any (fun es =>
        (chooseExperts 1 ((List.range 1).map fun i => natBits (7 : Line).toNat (32 * (i % 16)) 32)).all fun y => mapTarget (es.getD y.1 0)) = true) := by decide +kernel
/-- The same of a token of several beats, and of a payload in line 9 of a window of 8 lines. -/
theorem witness_ScatterRoute_more : let e := scatEntry 0 1 0 false; let far := e + 9 * 2 ^ 72
    (let s := scatDemo e (scatCells false 17 1) {}
     s.fires 0 (isForm 10 0) = true ∧ s.readDesc 0 64 = some { scatD with experts := 17 } ∧ 1 < tokenBeats 0 { scatD with experts := 17 } ∧ 1 < (scatSize { scatD with experts := 17 } e).1) ∧
    (let s := (scatDemo far (scatCells false 1 1) {}).setPlane 0 0 { demoPlane far with cfg := demoCfg far - 4088 * 2 ^ 188 }
     s.fires 0 (isForm 10 0) = true ∧ s.readDesc 0 64 = some scatD ∧ s.routeReady 0 scatD = true ∧ (s.plane 0 0).suppresses (s.curEntry 0) = false ∧ s.mapped 0 64 64 false = true ∧
       s.hazardFree 0 [(enSrcA far, enLen far * 1)] [] = true ∧ inOpsWindow (s.plane 0 0).cfg (enSrcA far, enLen far * 1) = false) := by decide +kernel
theorem witness_ScatterReturn : let e := scatEntry 3 1 0 false; let s := scatDemo e (scatCells false 1 1) {}; let s' := scatDemo e (scatCells false 1 2) {}
    s.entryCheck 0 0 e scatD 0 = none ∧ hdrOfLine (s.opLine 0 (enSrcB e % 4096)).data = some (scatHdr 65536) ∧ s.headBeat 0 0 0 = some { data := 7 } ∧ (s.ctx 0).valid = true ∧
    (s'.fires 0 (isForm 10 3) = true ∧ s'.readDesc 0 64 = some { scatD with retLines := 2 } ∧ 1 < enLen e * 2) ∧
    (s.translate 0 65536 true).map (·.1) = some (2 ^ 45) ∧ 2 ^ 45 / 2 ^ 45 ≠ s.self := by decide +kernel

/-- A queue of context 0 registered at 32768, a header held or not; its bank 0 unread or not. -/
def countHdr : CountHdr := { layer := 0, expert := 0, region := 0, round := 0, value := 3, dropped := 0, src := 2, lost := false }
def queueDemo (held unread : Bool) : State :=
  scatDemo 0 (if unread then [(32839, 0x80)] else []) { queues := [{ ctx := 0, va := 32768, seat := 0, group := 1, held := if held then [countHdr] else [] }] }
/-- A return frame of round 0's token 0. -/
def frameDemo : List (Line × Bool) := [(lineOfBytes ((scatHdr 4224).bytes ++ List.replicate 32 0), false), (7, false)]
/-- MAP_INSTALL's descriptor: the map at an address of context 0. -/
def installDemo (va : Nat) (pend : Nat) : State :=
  let s := ((tierDemo 0 []).setF .EXPMAP_CTRL_SWAP_PEND pend)
  { s with rings := [(2, { outstanding := [hostCmd 0x30 [0, 0, 0, 0, BitVec.ofNat 64 va, 0, 0, 0]] })], mem := [(48, 1), (54, 1)] }
theorem witness_RoundsAndMaps_headers :
    (∀ x ∈ [(false, 1), (true, 1), (true, 0)], let s := scatDemo 0 [] (roundScat x.1 x.2)
      (s.scat.rounds.find? fun r => r.ctx == 0 && r.num % 65536 == 0 && r.regions.any fun g => g.expert == 0 && !g.sent) = some (roundDemo x.1 x.2) ∧
      ((roundDemo x.1 x.2).regions.find? fun g => g.expert == 0 && !g.sent).map (·.home) = some x.2 ∧ (roundDemo x.1 x.2).closedAt.isNone = !x.1 ∧ s.fab.writes = [] ∧ s.self = 0) ∧
    (∀ x ∈ [(false, false), (true, false), (false, true), (true, true)], let s := queueDemo x.1 x.2
      let q : QueueSt := { ctx := 0, va := 32768, seat := 0, group := 1, held := if x.1 then [countHdr] else [] }
      (s.scat.queues.find? fun q => q.ctx == 0 && q.va == 32768) = some q ∧ s.countUnread q 0 0 = x.2 ∧ (q.held.find? fun y => y.region == 0 && y.round % 2 == 0) = if x.1 then some countHdr else none) ∧
    (∀ va ∈ [countVa 32768 0 0, infoVa 32768 0 0], let s := queueDemo false false
      s.translate 0 va true = some (va, { valid := true, leaf := true, read := true, write := true }) ∧ va / 2 ^ 45 = 0 ∧ s.portDead va = false ∧
        s.tagCheck 0 va 0 true = none) ∧ 32768 % 8 = 0 := by decide +kernel
theorem witness_RoundsAndMaps_frames :
    ((State.reset.ctx 0).valid = false ∧ ((queueDemo false false).ctx 0).valid = true ∧ hdrOfLine (frameDemo.headD (0, false)).1 = some (scatHdr 4224) ∧ hdrOfLine 1 = none ∧
      (queueDemo false false).scat.rounds = []) ∧
    (let s := scatDemo 0 [(4096, 1)] (roundScat false 0); let h := scatHdr 4224; let num := (s.numVa 0 (recordVa scatD 0 0) 128).getD 0
      (s.scat.rounds.find? fun r => r.ctx == 0 && r.num % 65536 == h.round && r.desc.layer == h.layer) = some (roundDemo false 0) ∧ natBit h.flags 1 = false ∧ 0 < 1 ∧
      4224 = slotVa scatD 0 0 h.choice ∧ natBits num 64 16 = h.token ∧ natBits num 80 16 = h.round ∧ h.choice < 1 ∧ natBit num h.choice = true ∧
      natBits num (96 + 10 * h.choice) 10 = h.expert ∧ s.scat.gathers = []) ∧
    (let s : State := { scatDemo 0 [(4096, 1)] (roundScat true 0) with now := 10 ^ 9 }
     (s.scat.rounds.find? fun r => r.ctx == 0 && r.num % 65536 == 0) = some (roundDemo true 0) ∧ (roundDemo true 0).closedAt = some 0 ∧ 0 < (roundDemo true 0).routed ∧
       recordDone ((s.numVa 0 (recordVa scatD 0 0) 128).getD 0) = false ∧ 0 + clamp 1 100000 (s.getF .SCAT_CTRL_RETURN_US (seatOff (seatOf 0))) * 1000 ≤ s.now ∧ s.step.replay = false) := by
  decide +kernel
theorem witness_RoundsAndMaps_maps :
    (∀ x ∈ [(0, 0), (0, 1), (65536, 0)], (installDemo x.1 x.2).launched 2 5 0x30 = some (hostCmd 0x30 [0, 0, 0, 0, BitVec.ofNat 64 x.1, 0, 0, 0]) ∧
      (installDemo x.1 x.2).flag .EXPMAP_CTRL_SWAP_PEND (inst 0) = (x.2 == 1) ∧ (hostCmd 0x30 [0, 0, 0, 0, BitVec.ofNat 64 x.1, 0, 0, 0]).fld 32 0 56 = x.1) ∧
    (installDemo 65536 0).mapBytes 0 65536 = none ∧ State.reset.flag .EXPMAP_CTRL_SWAP_PEND (inst 0) = false ∧
    ((State.reset.setF .EXPMAP_CTRL_SWAP_PEND 1).flag .EXPMAP_CTRL_SWAP_PEND (inst 0) = true ∧ State.reset.scat.rounds = [] ∧ 0 + 4000 ≤ 10 ^ 9) := by decide +kernel

/-! ### The Start List -/

/-- Context 0's page holding a sampling block at 256 and zeros; version 1 of 16 tokens; a DECODE module; entry 5 (gen 2) as given, its request, a command on SQ 2. -/
def slDemo (a : EntryA) (r : ReqSt) (op : Nat) (words : Descriptor) : State :=
  { memDemo 1 0 with
    mem := [(270, 128), (271, 63), (282, 128), (283, 63), (316, 48), (317, 1), (318, 72), (319, 162)]
    entries := [(5, { a := { a with gen := 2 }, b := { version := 1 } })], reqs := [(5, r)], rings := [(2, { outstanding := [hostCmd op words] })]
    wpkg := { versions := [{ id := 1, state := 2, vocab := 16, eos := 3 }] }, board := { poolRole := 2 } }
/-- ADMIT's descriptor: a prompt of the length given at 0, MAX_LEN 9, the block at 256, counts at 1024, version 1, token ring 4. -/
def admitWords (prompt : Nat) : Descriptor := [0, 0, 0, 256, 1024, BitVec.ofNat 64 (1 + 4 * 2 ^ 16), 0, BitVec.ofNat 64 (prompt + 9 * 2 ^ 32)]
/-- PAUSE, RESUME or REPIN of entry 5's handle: byte 36, the address of tokens, the deadline. -/
def onWords (x addr deadline : Nat) : Descriptor := [0, 0, 0, 0, BitVec.ofNat 64 (2 * 2 ^ 14 + 5 + x * 2 ^ 32), BitVec.ofNat 64 addr, BitVec.ofNat 64 deadline, 0]
theorem witness_RequestCommands :
    ((slDemo {} {} 0x50 (admitWords 1)).launched 2 5 0x50 = some (hostCmd 0x50 (admitWords 1)) ∧ (slDemo {} {} 0x50 (admitWords 1)).sleeper = none ∧
      (slDemo {} {} 0x50 (admitWords 1)).twin.awaiting = []) ∧
    (match (slDemo {} {} 0x50 (admitWords 1)).admitCheck (hostCmd 0x50 (admitWords 1)) 0 with | .ok (k, e, x) => k == 0 && e.a.curLen == 1 && x.tokens == [0] | .error _ => false) = true ∧
    (match (slDemo {} {} 0x50 (admitWords 0)).admitCheck (hostCmd 0x50 (admitWords 0)) 0 with | .ok _ => false | .error e => e == 6) = true ∧
    (({ slDemo {} {} 0x50 (admitWords 1) with seats := (List.range 8).map fun k => (k, { phase := .asleep }) } : State).sleeper = some 0) ∧
    ((slDemo {} {} 0x50 (admitWords 1)).mirrored 0 = false ∧ (slDemo {} {} 0x50 (admitWords 1)).pairState ≠ 5 ∧ (slDemo {} {} 0x50 (admitWords 1)).ctxOf 0 0 = true ∧
      State.reset.board.poolRole ≠ 2 ∧ ({ (slDemo {} {} 0x50 []) with ctxs := [] } : State).ctxOf 0 0 = false ∧
      ((slDemo {} {} 0x50 []).setF .SL_VI_QUOTA_ENTRIES 0 (inst 0)).getF .SL_VI_QUOTA_ENTRIES (inst 0) ≤ ((slDemo {} {} 0x50 []).setF .SL_VI_QUOTA_ENTRIES 0 (inst 0)).slLive 0) ∧
    (∀ op ∈ [0x51, 0x52, 0x53, 0x54], ∀ st ∈ [ReqState.done, .cancelled, .failed, .resuming, .paused, .decode], let s := slDemo { state := st } {} op (onWords 1 0 0)
      s.launched 2 5 op = some (hostCmd op (onWords 1 0 0)) ∧ s.cmdTaken 2 5 = false ∧ s.cmdEntry (hostCmd op (onWords 1 0 0)) = some 5 ∧ (s.entry 5).a.state = st ∧
        (s.ring 2).outstanding.find? (fun k => k.seq == 5) = some (hostCmd op (onWords 1 0 0))) ∧
    ((slDemo {} {} 0x51 []).cmdTaken 2 5 = false ∧ (slDemo {} {} 0x51 []).cmdEntry (hostCmd 0x51 []) = none ∧
      (slDemo { state := .decode } { cmds := [reqCmd (hostCmd 0x51 []) 0 0 0 []] } 0x51 []).cmdTaken 2 5 = true) ∧
    (let s := slDemo { state := .paused, curLen := 3, maxLen := 9 } {} 0x53 (onWords 1 0 0); s.readTokens 0 0 1 = some [0] ∧ s.readTokens 0 65536 1 = none ∧
      (s.version 1).vocab = 16 ∧ (s.req 5).claimAt = none ∧ (s.version 2).vocab = 0 ∧ (hostCmd 0x53 (onWords 1 0 7)).fld 48 0 64 = 7 ∧ (hostCmd 0x53 (onWords 7 0 0)).fld 36 0 25 = 7) ∧
    (let s := slDemo { state := .paused } {} 0x54 (onWords 1 0 0); s.versionCheck (s.version 1) 0 = 0 ∧ s.versionCheck (s.version 2) 0 = 4) := by decide +kernel

/-- A hold of module 9's request 7, or of this module's own entry 5, in frame 9. -/
def holdDemo (owner : Nat) (claimed : Bool) : State :=
  { slDemo { state := .paused } {} 0 [] with twin := { holds := [{ handle := 7, owner := owner, expiry := 1, pages := [9], claimed := claimed }] }, now := 10 ^ 10 }
theorem witness_PausesAndHolders :
    (9 ≠ State.reset.self ∧ (slDemo {} {} 0 []).findHold 7 = none ∧ (slDemo {} {} 0 []).fenced = false ∧ (slDemo {} {} 0 []).mirroring = false ∧
      ((slDemo {} {} 0 []).setF .TWIN_STATUS_STATE 2).mirroring = true ∧ ((holdDemo 9 false).findHold 7).isSome = true) ∧
    (State.reset.findHandle 7 = none ∧ (slDemo { state := .paused, copyOut := true, holder := 9 } {} 0 []).findHandle (2 * 2 ^ 14 + 5) = some 5) ∧
    (let h : Hold := { handle := 7, owner := 9, expiry := 1, pages := [9] }
     (holdDemo 9 false).findHold 7 = some h ∧ h.claimed = false ∧ h.expiry ≤ (holdDemo 9 false).now / 1000000000 ∧ h.owner ≠ (holdDemo 9 false).self ∧
       ((holdDemo 9 true).findHold 7).map (·.claimed) = some true) ∧
    (∀ st ∈ [ReqState.paused, .resuming, .decode], ∀ ks ∈ [[], [reqCmd (hostCmd 0x53 []) 0 0 0 []], [reqCmd (hostCmd 0x54 []) 1 0 0 []]],
      let s := slDemo { state := st, copyIn := true } { claimAt := some 0, cmds := ks } 0 []
      s.findHandle (2 * 2 ^ 14 + 5) = some 5 ∧ (s.entry 5).a.state = st ∧ (s.req 5).claimAt = some 0 ∧ (s.req 5).cmds = ks ∧ (s.req 5).restore = none) := by decide +kernel

theorem witness_WorkItems :
    (let s : State := { slDemo {} {} 0 [] with board := { poolRole := 1 } }; s.fenced = false ∧ (s.version 1).state = 2 ∧ s.board.poolRole = 1 ∧ (s.version 2).state = 0) ∧
    (State.reset.workEntry 7 1 = none ∧ ∀ st ∈ [ReqState.prefill, .shipping], let s := slDemo { state := st, workOut := true } {} 0 []
      s.workEntry (2 * 2 ^ 14 + 5) 0 = some 5 ∧ (s.entry 5).a.state = st ∧ s.mirrored 0 = false) ∧
    (let s : State := { slDemo { state := .prefill, workOut := true } {} 0 [] with now := 10 ^ 12 }
     s.findHandle (2 * 2 ^ 14 + 5) = some 5 ∧ (s.req 5).workSince + atLeast1 (s.getF .SL_CTRL_WORK_MS) * 1000000 ≤ s.now) := by decide +kernel

/-- A step of the phase given with the entry in DECODE, its token sampled. -/
def stepDemo (phase n : Nat) (replay : Bool) : State :=
  { slDemo { state := .decode, curLen := 1, maxLen := 9 } { extents := [0], tokens := [0], inStep := true, sampled := some { id := 4 } } 0 [] with
    step := { phase := phase, subs := List.replicate n { ver := 1, ctx := 0, rigId := 0, entries := [5] }, replay := replay } }
theorem witness_TheStep :
    ((stepDemo 3 1 false).step.phase = 3 ∧ (stepDemo 3 1 false).fenced = false ∧ (stepDemo 0 0 false).step.phase = 0 ∧ (stepDemo 0 0 false).board.poolRole = 2) ∧
    ((stepDemo 3 1 false).entry 5).a.state = .decode ∧
    ((stepDemo 1 0 false).step.phase = 1 ∧ (stepDemo 1 0 false).mirroring = false ∧ (stepDemo 1 0 false).mayLaunch = true ∧ (stepDemo 1 0 false).liveEntries = [5] ∧
      (stepDemo 1 0 false).mayStep 5 = true ∧ ((stepDemo 1 0 false).req 5).countsBad = false ∧
      ((stepDemo 1 0 false).setF .PWRCLK_STATE_MSTATE 1).mayLaunch = false ∧ State.reset.liveEntries = []) ∧
    ((stepDemo 2 2 false).step.subs.length = 2 ∧ (stepDemo 2 1 true).step.replay = true ∧ (∀ b ∈ (stepDemo 2 2 false).step.subs, (stepDemo 2 2 false).roundOpen b.ctx = false) ∧
      (stepDemo 2 1 false).wpkg.waits = [] ∧ ∀ v ∈ (stepDemo 2 1 false).wpkg.versions, v.state ≠ 3) := by decide +kernel
/-- The demo in an ACTIVE pair whose twin, module 0's peer by number, is in the context's slice. -/
def pairedDemo (a : EntryA) (r : ReqSt) (op : Nat) (words : Descriptor) : State :=
  { (slDemo a r op words).setF .TWIN_STATUS_STATE 2 with ctxs := [(0, { valid := true, held := true, span := true, slice := 1 })], slices := [(1, [0])] }
theorem witness_RequestCommands_paired :
    (pairedDemo {} {} 0x50 (admitWords 1)).mirrored 0 = true ∧ (pairedDemo {} {} 0x50 (admitWords 1)).sleeper = none ∧
    (let s := { slDemo {} {} 0x50 (admitWords 1) with
       twin := { awaiting := [{ seq := 0, cmd := some (hostCmd 0x50 (admitWords 1)), status := 0, value := 0, handle := 0, entering := none }] } }
     (s.twin.awaiting.any fun (a : Awaiting) => a.cmd.any fun k => k.ring == 2 && k.seq == 5) = true ∧ s.launched 2 5 0x50 = some (hostCmd 0x50 (admitWords 1))) ∧
    ((pairedDemo { state := .decode } {} 0x51 (onWords 1 0 0)).mirrored 0 = true ∧ (pairedDemo { state := .decode } {} 0x51 (onWords 1 0 0)).cmdTaken 2 5 = false) ∧
    (let s := slDemo { state := .paused, autoResume := true } {} 0x52 (onWords 1 0 0)
     (s.entry 5).a.autoResume = true ∧ s.mirrored 0 = false ∧ (hostCmd 0x52 (onWords 1 0 0)).fld 36 0 32 = 1 ∧ (hostCmd 0x52 (onWords 0 0 0)).fld 36 0 32 = 0) ∧
    (∀ m ∈ [4, 9], let s := slDemo { state := .paused, curLen := 3, maxLen := m, copyOut := true } {} 0x53 (onWords 1 0 0)
      (s.req 5).claimAt = none ∧ (s.entry 5).a.copyOut = true ∧ ((s.entry 5).a.curLen + 1 < m ↔ m = 9) ∧ (hostCmd 0x53 (onWords 1 0 0)).fld 56 0 25 = 0) ∧
    (let s := slDemo { state := .paused, hard := true } {} 0x53 (onWords 1 0 7)
     ({ s with now := 9 } : State).now = 9 ∧ (s.entry 5).a.hard = true ∧ s.now < 7) ∧
    ((slDemo { state := .decode, pausePend := true } {} 0x53 (onWords 1 0 0)).entry 5).a.pausePend = true := by decide +kernel
/-- A module with 1 GiB of Bedrock. -/
def holderDemo (twin : Bool) : State :=
  let s := ((slDemo {} {} 0 []).setF .TIERS_BR_STAT_STATE 2).setF .TIERS_BR_STAT_CAP_GIB 1
  if twin then s.setF .TWIN_STATUS_STATE 2 else s
theorem witness_PausesAndHolders_copies :
    (∀ b ∈ [true, false], (holderDemo b).findHold 7 = none ∧ (holderDemo b).fenced = false ∧ (holderDemo b).mirroring = b ∧ ((holderDemo b).holdFrames 1).1.Nodup ∧
      ((holderDemo b).holdFrames 1).1.length = 1 ∧ [((1 : Line), true)][0]? = some (1, true)) ∧
    (∀ h ∈ [0, 9], ∀ ks ∈ [[], [reqCmd (hostCmd 0x54 []) 1 0 0 []]],
      let s := slDemo { state := .paused, copyOut := true, holder := h } { held := [3], cmds := ks } 0 []; let k := 2 * 2 ^ 14 + 5
      s.findHandle k = some 5 ∧ (s.entry 5).a.copyOut = true ∧ (s.req 5).copyDue = false ∧ s.firmwareBusy 2 k = false ∧ s.findHold k = none ∧ s.mirroring = false ∧
        (s.setF .TWIN_STATUS_STATE 2).mirroring = true ∧ ((s.entry 5).a.holder = s.self ↔ h = 0) ∧ (s.req 5).cmds = ks) ∧
    ((busyDemo State.reset 2 (2 * 2 ^ 14 + 5)).firmwareBusy 2 (2 * 2 ^ 14 + 5) = true) := by decide +kernel
theorem witness_PausesAndHolders_returns :
    (∀ rs ∈ [none, some ((0, [], 0) : Nat × List Nat × Nat)], let s := slDemo { state := .resuming, copyIn := true } { restore := rs } 0 []; let k := 2 * 2 ^ 14 + 5
      s.findHandle k = some 5 ∧ (s.entry 5).a.state = .resuming ∧ (s.entry 5).a.copyIn = true ∧ (s.req 5).restore.isSome = rs.isSome ∧ s.firmwareBusy 3 k = false ∧
        (busyDemo s 3 k).firmwareBusy 3 k = true) := by decide +kernel
/-- The commit of an end-of-sequence token, of a stop string, of the last token that MAX_LEN leaves, of one past a HARD deadline, of another. -/
theorem witness_TheStep_commit :
    (∀ x ∈ [(3, 9, 0, false), (4, 9, 0, true), (4, 2, 0, false), (4, 9, 5, false), (4, 9, 0, false)],
      let s := { slDemo { state := .decode, curLen := 1, maxLen := x.2.1, hard := true, deadline := x.2.2.1 }
          { extents := [0], tokens := [0], origin := [true], samp := { stops := if x.2.2.2 then [[4]] else [] } } 0 [] with now := 9 }
      let late := s.lateNow 5; let u := s.placeToken 5 { id := x.1 } late
      (s.entry 5).a.state = .decode ∧ (u.entry 5).a.state = .decode ∧ (s.version (s.entry 5).b.version).eos = 3 ∧ (late = true ↔ x.2.2.1 = 5) ∧
        (stopMatch (u.req 5) = true ↔ x.2.2.2 = true) ∧ (1 + 1 = x.2.1 ↔ x.2.1 = 2)) := by decide +kernel
theorem witness_TheStep_subs :
    (∀ n ∈ [1, 2], let s := stepDemo 2 n false; s.step.phase = 2 ∧ (s.step.subs.take 1).all (fun b => !s.subBusy b) = true ∧ s.streams.insts = []) ∧
    (stepDemo 1 0 false).streams.insts = [] ∧ (busyDemo (stepDemo 2 1 false) 4 0).subBusy { ver := 1, ctx := 0, rigId := 0, entries := [5] } = true := by decide +kernel

/-! ### Links, the fabric, collectives -/

/-- Port 0 in the state given, of four lanes, the one member of logical port 0, an uplink. -/
def portDemo (st : Nat) (x : PortFab) : State :=
  let s : State := { fab := { ports := [(0, x)] }, now := 10 ^ 7 }
  let s := (s.setF .FAB_PORT_STAT_STATE st).setF .FAB_PORT_STAT_LANES 4
  (s.setF .FAB_LPORT_MEMBERS 1).setF .FAB_LPORT_ROLE 2
/-- A switch's beacon, or a module's. -/
def beaconDemo (sw : Bool) : Beacon :=
  { serial := 77, moduleId := 3, idValid := true, rack := 0, tray := 0, slot := 0, isSwitch := sw, port := 5, role := 2, dim := 0, switchId := 9 }
/-- A message in a queue: of a class, begun or not, a transit or not. -/
def outMsg (cls sent : Nat) (transit : Bool) : OutMsg :=
  { msg := { kind := 5, cls := cls, esc := false, dst := 320, src := 9, slice := 0, rgen := 0, hops := 2, birth := 0, ctx := 0, tag := 1, flits := 2, trunc := false }, inPort := some 4, inVc := cls, transit := transit, sent := sent }
theorem witness_Ports_damage :
    ((portDemo 0 {}).portUp 0 = false ∧ (portDemo 2 {}).portUp 0 = true ∧ (portDemo 3 {}).portUp 0 = true) ∧
    (hcrcOk (List.replicate 256 0) = true ∧ hcrcOk (1 :: List.replicate 255 0) = false) ∧
    rsDecode ([0, 1].drop 1) = none := by decide +kernel
theorem polyEval_zeros (n x : Nat) : polyEval (List.replicate n 0) x = 0 := by
  have h : gfMul 0 x = 0 := by simp [gfMul, List.range_succ, gfAlpha]
  induction n with
  | zero => rfl
  | succ n ih => simpa [List.replicate_succ, polyEval] using by simpa [polyEval] using congrArg (gfMul · x) ih |>.trans h
theorem witness_Ports_block : rsDecode ((0 :: List.replicate 447 0).drop 1) = some (0, List.replicate 425 0) := by
  have h : (rsSyndromes (List.replicate 447 0)).all (· == 0) = true := by
    simp only [rsSyndromes, List.reverse_replicate, polyEval_zeros]; decide
  simp only [rsDecode, List.drop_one, List.tail_cons, List.length_replicate, List.take_replicate, h, if_true, ne_eq, not_true_eq_false, if_false]; rfl
theorem witness_Ports_state :
    (∀ o ∈ (({} : PortFab).outq), ¬(o.msg.src = (portDemo 2 {}).self ∧ o.msg.kind = 9)) ∧ (portDemo 2 {}).fab.cross = [] ∧
    (let x : PortFab := { uncorr := 17, uncorrSince := 10 ^ 7, replays := 8 }
     (portDemo 2 x).port 0 = x ∧ 16 < x.uncorr ∧ (portDemo 2 x).now ≤ x.uncorrSince + 1000000 ∧ 8 ≤ x.replays ∧ x.outq = [] ∧ x.unacked = []) ∧
    (let x : PortFab := { uncorr := 17, uncorrSince := 10 ^ 7, outq := [outMsg 1 0 false] }; (portDemo 2 x).port 0 = x ∧ ¬(x.outq = [] ∧ x.unacked = [])) ∧
    ((∀ st, st < 7 → (portDemo st {}).portState 0 = st) ∧ ((portDemo 1 {}).port 0).fails < 2 ∧ 2 ≤ ((portDemo 1 { fails := 2 }).port 0).fails) ∧
    (15 % 16 = 15 ∧ (activeLanes 3).length = 2 ∧ (activeLanes 12).length = 2 ∧ activeLanes 6 = [] ∧ activeLanes 0 = []) := by decide +kernel
theorem witness_Ports_link :
    (let x : PortFab := { unacked := [{ seq := 3, msg := (outMsg 1 0 false).msg, index := 0 }, { seq := 4, msg := (outMsg 1 0 false).msg, index := 1 }], replays := 7 }
     ((portDemo 2 x).fab.held = [] ∧ (ackTo x.unacked 3).length = 1 ∧ (ackTo x.unacked 9).length = 2 ∧ x.replays + 1 = 8 ∧ ((portDemo 2 {}).port 0).replays + 1 < 8)) ∧
    (let x : PortFab := { trained := true }; (portDemo 2 x).port 0 = x ∧ x.beaconAt + atLeast1 ((portDemo 2 x).getF .FAB_CTRL_BEACON_US) * 1000 ≤ (portDemo 2 x).now) ∧
    (let x : PortFab := { trained := true }; x.conflict = false ∧ x.confirmed = false ∧ (portDemo 1 x).board.excluded = none ∧ (portDemo 1 x).idConflict (beaconDemo true) = false ∧
      (portDemo 1 x).peerAgrees 0 (beaconDemo true) = true ∧ (portDemo 1 x).peerAgrees 0 (beaconDemo false) = false ∧
      ({ portDemo 1 x with fab := { serials := [(3, 1)] } } : State).idConflict (beaconDemo false) = true) ∧
    ((portDemo 2 {}).getF .FAB_PORT_STAT_PEER_ID (inst 0) ≠ 9 % 2 ^ 15 ∧
      (let s := ((portDemo 2 { trained := true, confirmed := true }).setF .FAB_PORT_STAT_PEER_ID 9).setF .FAB_PORT_STAT_PEER_SWITCH 1
       s.getF .FAB_PORT_STAT_PEER_ID (inst 0) = 9 % 2 ^ 15 ∧ s.flag .FAB_PORT_STAT_PEER_SWITCH (inst 0) = true ∧ (s.port 0).confirmed = true)) ∧
    (Master.pf.host = true ∧ Master.cox.host = false) := by decide +kernel
theorem witness_Ports_choose :
    (let x : PortFab := { replay := [{ seq := 3, msg := (outMsg 1 0 false).msg, index := 0 }] }; x.replay ≠ []) ∧
    (let x : PortFab := { linkq := [linkMsg 3 []], outq := [outMsg 1 0 false], sinceLink := 31 }; x.replay = [] ∧ x.linkq ≠ [] ∧ 31 ≤ x.sinceLink) ∧
    (let x : PortFab := { outq := [outMsg 1 0 false, outMsg 0 0 false] }; ((x.headOf 4).orElse fun _ => x.headOf 0) = some 1 ∧ x.linkq = [] ∧ 3 ≤ x.sinceCtl) ∧
    (let x : PortFab := { outq := [outMsg 1 0 false, outMsg 0 0 false, outMsg 3 0 true], sinceCtl := 0, sinceTransit := 0 }
     (∃ o ∈ x.outq, o.msg.cls % 4 ≠ 0) ∧ ¬3 ≤ x.sinceCtl ∧ x.sinceTransit < 15 ∧ x.turnHead = some 0) ∧
    (let x : PortFab := { outq := [outMsg 1 0 false, outMsg 3 0 true], sinceTransit := 15 }; x.transitHead = some 1 ∧ ({} : PortFab).transitHead = none ∧ ({} : PortFab).turnHead = none) := by decide +kernel

/-- A message of another module for this one or for rack 5; its birth. -/
def fabMsg (dst birth : Nat) : FabMsg :=
  { kind := 5, cls := 1, esc := false, dst := dst, src := 9, slice := 0, rgen := 0, hops := 2, birth := birth, ctx := 0, tag := 1, flits := 2, trunc := false }
/-- A router whose tables send rack 5 out by logical port 0 (1), hold it (0), or say it is unreachable (2). -/
def routeDemo (how : Nat) (x : PortFab) : State :=
  let s := ((portDemo 2 x).setF .FAB_STATUS_ROUTED 1).setF .FAB_LPORT_UP 1
  s.setF .FAB_RT_DATA_ENTRY (if how = 1 then 1 else if how = 2 then 2 ^ 39 else 0) (inst 5)
/-- A request of module 9 for a line of this module's memory: frame 0 of context 0, or a reservation's handle. -/
def memHdr (handle gen : Nat) : MemHdr :=
  { src := 9, slice := 0, ctx := 0, tag := 4, birth := 0, hops := 1, addr := 64, gen := gen, len := 8, job := 0, handle := handle }
theorem witness_MessagesAndMemory :
    ((routeDemo 1 {}).flag .FAB_STATUS_ROUTED = true ∧ (routeDemo 1 {}).open_ (.port 0) = true ∧ (routeDemo 1 {}).open_ (.seat 3) = true ∧ (portDemo 0 {}).open_ (.port 0) = false ∧ State.reset.flag .FAB_STATUS_ROUTED = false ∧
      (routeDemo 1 {}).stampFault (10 ^ 7 - 10000) 2 = some 7 ∧ (routeDemo 1 {}).stampFault 0 2 = some 14 ∧ (routeDemo 1 {}).stampFault (10 ^ 7) 2 = none ∧ (routeDemo 1 {}).copyLive 0 = true ∧ (routeDemo 1 {}).copyLive 1 = false) ∧
    ((routeDemo 1 {}).route (fabMsg 0 (10 ^ 7)) 0 = .here ∧ (routeDemo 1 {}).route (fabMsg 320 (10 ^ 7)) 0 = .out 0 false ∧
      (routeDemo 2 {}).route (fabMsg 320 (10 ^ 7)) 0 = .unreach ∧ (routeDemo 0 {}).route (fabMsg 320 (10 ^ 7)) 0 = .noRoute ∧
      (routeDemo 1 { used := [0, 344, 0, 0, 0, 0, 0, 0] }).route (fabMsg 320 (10 ^ 7)) 0 = .noCredit) ∧
    ((Ingress.port 2).norm.at_ = 0 / 4 ∧ (Ingress.seat 3).norm.at_ ≠ 0 / 4 ∧ (fabMsg 0 0).trunc = false ∧ (routeDemo 1 {}).self = 0 ∧
      (routeDemo 1 {}).inSlice 0 = true ∧ (routeDemo 1 {}).inSlice 1 = false) ∧
    (let h : HeldMsg := { out := { msg := fabMsg 320 (10 ^ 7 - 10000), inPort := some 4, inVc := 1, transit := true }, seat := 1, forTables := true }
     let s : State := { portDemo 2 {} with fab := { held := [h], cross := [{ out := h.out, seat := 1, port := 0, left := 2 }] } }
     (s.aged h.out.msg) = true ∧ (fabMsg 320 0).src ≠ s.self ∧ s.aged (fabMsg 320 (10 ^ 7)) = false) ∧
    ((State.reset.ctx 0).valid = false ∧ ((memDemo 1 0).ctx 0).valid = true) ∧
    ((memDemo 1 0).arrives (memHdr 0 0) false = none ∧ (memDemo 1 0).arrives (memHdr 0 0) true = some 9 ∧ (portDemo 2 {}).arrives (memHdr 0 0) false = some 14 ∧
      (memDemo 1 0).tagCheck 0 64 0 true = none ∧ (memDemo 1 0).tagCheck 0 64 0 false = none ∧ (memDemo 1 0).tagCheck 0 64 3 false = some 7 ∧
      (memDemo 1 0).reservedFor (memHdr 7 0) = false ∧ 64 / 2 ^ 45 = (memDemo 1 0).self ∧
      ({ memDemo 1 0 with twin := { holds := [{ handle := 7, owner := 9, pages := [0] }] } } : State).reservedFor (memHdr 7 0) = true) ∧
    (let s := streamDemo false (copyInst true true false true)
     (s.streams.insts.findSome? fun (x : StreamInst) => (x.reqs.find? fun (r : StreamReq) => r.tag == 6 && !r.landed).map fun r => (x.id, r.elem, r.first)) = some (2, 0, 0)) := by
  decide +kernel

/-- A swap planned at 100, a membership with it; the old copy readable until 5000. -/
def swapDemo (at_ : Nat) (old : Option Nat) (later : List Nat) : State :=
  { (portDemo 2 {}).setF .FAB_RT_SWAP_AT at_ with fab := { members := [(1, [0, 3], 2)], oldUntil := old, later := later } }
/-- Port 0 up with its logical port, the parent; no root here. -/
def timeDemo (ready : Nat) : State :=
  let s := ((portDemo 2 {}).setF .FAB_LPORT_UP 1).setF .HOSTVI_DEV_STATUS_READY ready
  { s with fab := { s.fab with times := [{ lport := 0, depth := 0, root := 4, heard := 0 }] } }
theorem witness_RoutingAndTime :
    ((7, 1) ∉ State.reset.fab.seen ∧ (State.reset.setF .FAB_CTRL_EN 1).getF .FAB_CTRL_EN ≠ 0 ∧ State.reset.fab.oldUntil = none ∧ State.reset.getF .FAB_RT_SWAP_AT = 0) ∧
    (let s := swapDemo 100 none []; s.getF .FAB_RT_SWAP_AT = 100 ∧ 100 ≤ s.now ∧ s.fab.held = [] ∧ s.coll.keys = [] ∧ s.fab.members = [(1, [0, 3], 2)] ∧ ¬s.now < 100 ∧ (0 : Nat) ≠ 100) ∧
    ((swapDemo 0 (some 5000) [9]).fab.oldUntil = some 5000 ∧ 5000 ≤ (swapDemo 0 (some 5000) [9]).now ∧ (swapDemo 0 (some 5000) [9]).getF .FAB_RT_SWAP_AT = 0) ∧
    ((timeDemo 1).lportOf 0 = some 0 ∧ (timeDemo 1).portUp 0 = true ∧ State.reset.lportOf 0 = none ∧
      (∀ r ∈ [0, 1], let s := timeDemo r; let x : TimePeer := { lport := 0, depth := 1, root := 4, heard := s.now }
        let u := ({ s with fab := { s.fab with times := [x] } } : State).chooseParent false
        s.flag .REF_STAT_PPS_LOCK = false ∧ u.flag .FAB_STATUS_TIME_ROOT = false ∧ u.getF .FAB_TIME_STAT_PARENT = 0 ∧ s.getF .HOSTVI_DEV_STATUS_READY = r)) ∧
    ((timeDemo 1).portUp 0 = true ∧ ((timeDemo 1).port 0).timeAt + 10000 ≤ (timeDemo 1).now) ∧
    ((timeDemo 1).fab.times.find? (fun (x : TimePeer) => x.lport == (timeDemo 1).getF .FAB_TIME_STAT_PARENT) = some { lport := 0, depth := 0, root := 4, heard := 0 } ∧
      0 + 100000 ≤ (timeDemo 1).now ∧ (timeDemo 1).flag .FAB_STATUS_TIME_ROOT = false) ∧
    (let s : State := { timeDemo 1 with fab := { parentLost := some 0 } }; s.fab.parentLost = some 0 ∧ 0 + 10000000 ≤ s.now ∧ s.flag .FAB_TIME_STAT_HOLDOVER = false) := by
  decide +kernel

/-- ALL_REDUCE of two FP32 sums over ranks 0 (this module) and 1 (module 1), in context 0's page at 0. -/
def collD : CollDesc :=
  { op := 0, redop := 0, dtype := 0, outFmt := 0, narrow := 0, silentEn := false, replayOk := false, seat := 0, n := 2, root := 0, collId := 6, count := 32, segKib := 64, src := 0,
    list := 4096, silentAddr := 0, needNs := 0, timeoutUs := 0, members := [{ module := 0, altValid := false, alt := 0, land := 8192, dst := 1024 }, { module := 1, altValid := false, alt := 0, land := 8192, dst := 1024 }], crc := 5, rank := 0 }
/-- Its instance, with what is folded; the frame of rank 1's segment 0. -/
def collX (folded : List (Nat × Nat)) (wrote : Bool) : CollInst :=
  { ctx := 0, desc := collD, seq := 3, ring := 2, cmd := 5, at_ := 0, silent := false, folded := folded, acc := List.replicate 16 (none, false), wrote := wrote,
    released := if wrote then [(1, 1)] else [], gatherSent := if wrote then [1] else [], gatherGot := if wrote then [1] else [] }
def collFrm (phase : Nat) : CollHdr := (collX [] false).hdr phase false 0 0 0 16
/-- The header of a frame from rank 1. -/
def collHdr (phase seq : Nat) : CollHdr := { collFrm phase with src := 1, seq := seq }
def collK : CollKey := { ctx := 0, desc := collD, seq := 4 }
def collDemo (xs : List CollInst) (frames : List CollHdr) : State :=
  { withCmd (memDemo 1 0) 0x31 [] with coll := { insts := xs, frames := frames, keys := [collK] } }
/-- A descriptor of one member at 0 of context 0's page, silent or not; its silent word valid or not, its line poisoned or not. -/
def collMem (silent valid poison : Bool) : State :=
  let s := (withCmd (memDemo 1 0) 0x31 []).setF .STREAM_MODE_FORCE_STATIC 0
  let leaf := fun (i : Nat) => ({ valid := true, leaf := true, read := true, write := true, addr := 65536 * i } : Pte)
  { s with
      mem := (if silent then [(2, 4)] else []) ++ [(3, 1), (8, 32), (12, 64), (17, 1), (24, 128), (33, 2), (137, 32), (145, 4)] ++ (if valid then [(519, 128)] else [])
      memPoison := if poison then SMap.put {} 8 true else {}
      tiers := { s.tiers with pt := SMap.set {} (SMap.set {} s.tiers.pt 0x30010 (leaf 1)) 0x30020 (leaf 2) } }
theorem witness_Collectives_launch :
    ((collDemo [] []).launched 2 5 0x31 = some (hostCmd 0x31 []) ∧ (collDemo [] []).launched 3 5 0x31 = none ∧ (hostCmd 0x31 []).fld 32 0 56 = 0 ∧
      (collDemo [] []).coll.insts = [] ∧ (collDemo [] []).coll.waits = [] ∧ (collDemo [collX [] false] []).coll.insts.any (fun (x : CollInst) => x.ring == 2 && x.cmd == 5) = true) ∧
    ((collDemo [] []).collDesc 0 0 = none ∧ (((collMem false false false).collDesc 0 0).map fun (d : CollDesc) => (d.silentEn, d.seat)) = some (false, 0) ∧
      (((collMem true false false).collDesc 0 0).map fun (d : CollDesc) => (d.silentEn, d.silentAddr)) = some (true, 512) ∧
      (∀ v ∈ [false, true], (collMem true v false).flag .STREAM_MODE_FORCE_STATIC (seatOff 0) = false ∧
        (((collMem true v false).readVa 0 512 8).map fun r => (natBit (leNat r.1) 63, r.2)) = some (v, false)) ∧
      (withCmd (memDemo 1 0) 0x31 []).flag .STREAM_MODE_FORCE_STATIC (seatOff 0) = true ∧ (((collMem true false true).readVa 0 512 8).map fun r => r.2) = some true ∧ (collMem true false false).readVa 0 (2 ^ 40) 8 = none) ∧
    ((collDemo [] []).coll.frames = [] ∧ (collDemo [] []).collInst 0 collD.key = none ∧ 0 < collD.n ∧ collD.rank < collD.n) ∧
    (let w : CollWait := { ctx := 0, ring := 2, cmd := 5, since := 0, last := 0 }
     let s := { collDemo [] [] with coll := { waits := [w] }, now := 500 }
     s.coll.waits.find? (fun (w : CollWait) => w.ring == 2 && w.cmd == 5) = some w ∧ w.since + s.waitNs 0 > s.now ∧ w.since + s.waitNs 0 ≤ (10 ^ 12 : Nat) ∧
      (s.coll.waits.any fun (w : CollWait) => w.ring == 2 && w.cmd == 5 && decide (s.now < w.last + 1000)) = true) := by
  decide +kernel
theorem witness_Collectives_frames :
    ((collDemo [collX [] false] []).collInst 0 (keyOf 6 5) = some (collX [] false) ∧ (collX [] false).seq = 3 ∧ (collX [] false).desc.key = keyOf 6 5 ∧ ((memDemo 1 0).ctx 0).valid = true ∧
      ((State.reset.ctx 0).valid = false) ∧ (collDemo [] []).collInst 0 (keyOf 6 5) = none) ∧
    (hdrIn [1] = none ∧ hdrIn (collHdr 0 3).bytes = some (collHdr 0 3) ∧ hdrIn (collHdr 1 3).bytes = some (collHdr 1 3) ∧ (collHdr 0 3).okFor collK 3 = true ∧ (collHdr 1 3).okFor collK 3 = true ∧
      (collHdr 0 9).okFor collK 3 = false ∧ (collHdr 0 3).key = keyOf 6 5 ∧ (memDemo 1 0).collKey 0 (keyOf 6 5) = none ∧ (collDemo [] []).collKey 0 (keyOf 6 5) = some collK ∧
      (collDemo [] []).collKey 0 (keyOf 7 5) = none ∧ collK.lands 8192 = true ∧ collK.lands 0 = false ∧ (collHdr 1 3).zero = false) := by
  decide +kernel
theorem witness_Collectives_fold :
    (let d := collD; let upto := min ((cnt (collX [] false).folded 1 + 1) * d.segElems) (d.chunkLen d.rank)
     (0 < d.segs d.rank ∧ (collX [(0, 1)] false).foldedTo 0 upto = true ∧ (collX [] false).foldedTo 0 upto = false ∧ (0 : Nat) ≠ 1 ∧
      ([collHdr 0 3].find? fun (h : CollHdr) => h.ctx == 0 && h.key == keyOf 6 5 && h.phase == 0 && h.seq == 3 && h.src == 1 && h.segment == 0 + 0) = some (collHdr 0 3))) ∧
    (cnt (collX [] false).released 1 = 0 ∧ cnt collK.sent 1 = 0 ∧ (collDemo [collX [(0, 1), (1, 1)] true] []).collDone (collX [(0, 1), (1, 1)] true) = true ∧
      (collDemo [collX [] false] []).collDone (collX [] false) = false) ∧
    (let s := collDemo [collX [] false] []; s.now < 0 + clamp 1 100000 (s.getF .COLL_CTRL_TIMEOUT_US) * 1000 ∧
      0 + clamp 1 100000 (({ s with now := 10 ^ 9 } : State).getF .COLL_CTRL_TIMEOUT_US) * 1000 ≤ (10 ^ 9 : Nat) ∧ s.launched 2 5 0x31 ≠ none ∧ (memDemo 1 0).launched 2 5 0x31 = none) := by
  decide +kernel
/-- The two ends of circuit 4 that crosses the fabric, as its sender and its receiver. -/
def segEnd (out_ : Bool) : Segment := { ctx := 0, names := [(0, 4)], out_ := out_, peer := 3, credits := 5 }
def segDemo : State := { fab := { segs := [segEnd true, segEnd false] } }
theorem witness_BeatMessage :
    (segDemo.arrives (memHdr 0 0) true ≠ none ∧ segDemo.arrives (memHdr 0 0) false = none ∧
      (∀ b ∈ [true, false], (segDemo.fab.segs.filter fun g => g.ctx == 0 && g.out_ == b && g.names.any fun n => n.2 == 4) = [segEnd b] ∧
        (State.reset.fab.segs.filter fun g => g.ctx == 0 && g.out_ == b && g.names.any fun n => n.2 == 4) = []) ∧
      (segEnd true).queue = [] ∧ (∀ y ∈ segDemo.fab.segs, (segEnd true).isEnd y = true → y = segEnd true) ∧ segDemo.segGroups (segEnd false) = []) := by decide +kernel

/-! ### The pair -/

/-- Module 0 paired with module 200 in the pair state given, with the pair state beside registers. -/
def pairDemo (st : Nat) (x : TwinSt) : State :=
  let s : State := { twin := x, now := 10 ^ 7 }
  ((s.setF .TWIN_STATUS_STATE st).setF .TWIN_ID_PEER 200).setF .TWIN_ID_PAIR_EN 1
/-- A record of module 200 for handle 5 of generation 1. -/
def twinHdr (seq : Nat) (ok : Bool) : TwinHdr := { seq := seq, sync := true, handle := 2 ^ 14 + 5, sender := 200, ctx := 0, ack := 0, crcOk := ok }
def mirrorDemo : Mirror := { entry := { a := { gen := 1, state := .decode } }, tokens := [1, 2] }
theorem witness_TwinRecords :
    (State.reset.fromTwin 200 = false ∧ (∀ st ∈ [1, 2, 3, 4, 5], (pairDemo st {}).fromTwin 200 = true ∧ (pairDemo st {}).pairState = st)) ∧
    ((pairDemo 2 {}).mirroring = true ∧ (pairDemo 4 {}).mirroring = false ∧ (pairDemo 1 { peerBegan := true }).twin.peerBegan = true) ∧
    ((twinHdr 1 true).seq = ((pairDemo 2 {}).twin.rxSeq + 1) % 2 ^ 32 ∧ (twinHdr 9 true).seq ≠ ((pairDemo 2 {}).twin.rxSeq + 1) % 2 ^ 32) ∧
    ((pairDemo 4 { takeover := some false }).twin.takeover.isSome = true) ∧
    ((pairDemo 2 { mirrors := [(5, mirrorDemo)] }).mirror 5 = some mirrorDemo ∧ (twinHdr 1 true).handle % 2 ^ 14 = 5 ∧ handleOf 5 mirrorDemo.entry.a.gen = (twinHdr 1 true).handle ∧
      ({ pairDemo 2 {} with entries := [(5, { a := { state := .decode } })] } : State).findHandle (2 ^ 14 + 5) = some 5) ∧
    ((pairDemo 1 { ownSynced := true }).pairState = 1 ∧ (pairDemo 1 { ownSynced := true }).twin.ownSynced = true) := by decide +kernel
theorem witness_SuspicionAndConfirmation :
    ((pairDemo 2 {}).mirroring = true ∧ (pairDemo 2 {}).twin.suspectAt = none ∧ max ((pairDemo 2 {}).getF .TWIN_HB_T_T) 0 + 10000 ≤ (pairDemo 2 {}).now ∧
      (7, 0) ∈ (pairDemo 2 { unacked := [(7, 0)] }).twin.unacked) ∧
    ((pairDemo 2 {}).downTo 1 = some true ∧ (pairDemo 2 {}).downTo 200 = none ∧ 201 ∈ (pairDemo 2 { suspectAt := some 0 }).twinNeighbours) ∧
    (let s := pairDemo 2 { suspectAt := some 0, witness := ((pairDemo 2 {}).twinNeighbours).map fun m => (m, true) }
     s.twin.suspectAt = some 0 ∧ 0 + 8000 ≤ s.now ∧ s.fenced = false ∧ s.mirroring = true ∧ s.twin.answered = false ∧ ∀ m ∈ s.twinNeighbours, (m, true) ∈ s.twin.witness) ∧
    (pairDemo 2 { answered := true }).twin.answered = true ∧
    ((pairDemo 2 {}).peer = 200 ∧ (pairDemo 2 {}).flag .TWIN_ID_PAIR_EN = true ∧ (pairDemo 2 {}).twin.mismatch = false ∧ (pairDemo 6 {}).fenced = true ∧
      (let s : State := { pairDemo 6 {} with err := { fenceAt := some (10 ^ 7) } }; s.fenced = true ∧ s.err.fenceAt = some (10 ^ 7) ∧ s.now ≤ 10 ^ 7 + 8000 ∧ s.twin.pairLost = false)) ∧
    ((pairDemo 2 {}).twin.lastSent + 2000 ≤ (pairDemo 2 {}).now) ∧
    (let s : State := { (pairDemo 0 {}).setF .FAB_CTRL_EN 1 with fab := { cubeDown := some 0 } }
     s.fab.cubeDown = some 0 ∧ 0 + 10000 ≤ s.now ∧ s.flag .FAB_CTRL_EN = true ∧ s.fenced = false) := by decide +kernel
/-- Entry 5 with work out at module 7, in a pair that is not ACTIVE, a hold, a checkpoint in flight. -/
def leaveDemo (st : Nat) (handover : Bool) : State :=
  { (pairDemo st { handover := handover, holds := [{ handle := 7, owner := 9 }], ckpts := [(5, { inFlight := some (0, 4) })] }).setF .FAB_CTRL_EN 1 with
    entries := [(5, { a := { state := .decode, workOut := true }, b := { workModule := 7 } })] }
theorem witness_LeavingAndCheckpoints :
    ((9, 1) ∉ (leaveDemo 2 false).fab.seen ∧ (leaveDemo 2 false).getF .FAB_CTRL_EN ≠ 0 ∧ 7 ≠ (leaveDemo 2 false).self ∧ 7 ≠ (leaveDemo 2 false).peer ∧ (leaveDemo 2 false).fenced = false ∧
      (leaveDemo 6 false).fenced = true ∧ (leaveDemo 2 false).ctxs = [] ∧ (leaveDemo 2 false).coll.keys = [] ∧ (leaveDemo 2 false).scat = {} ∧ (leaveDemo 2 false).tiers.migs = []) ∧
    (∀ k ∈ (leaveDemo 2 false).liveEntries, ((leaveDemo 2 false).entry k).a.holder ≠ 7) ∧
    ((leaveDemo 2 false).findHold 7 = some { handle := 7, owner := 9 } ∧ (leaveDemo 2 false).findHold 8 = none) ∧
    ((leaveDemo 2 false).findHandle (2 ^ 14 + 5) = some 5 ∧ ((leaveDemo 2 false).ckpt 5).inFlight = some (0, 4) ∧ (leaveDemo 2 false).mirroring = true ∧ (leaveDemo 2 false).twin.handover = false) ∧
    (let s := (leaveDemo 5 true).setF .KEEL_TWIN_PEER 200; s.mirroring = true ∧ s.twin.handover = true ∧ s.fenced = false ∧ s.pwr.handed = false ∧
      s.getF .TWIN_ID_PEER = s.getF .KEEL_TWIN_PEER) := by decide +kernel
theorem witness_LeavingAndCheckpoints_maps : ∀ c, c < 256 → (leaveDemo 2 false).flag .EXPMAP_CTRL_VALID (inst c) = false := by decide +kernel
/-- A hold of a handle, its copy free, bringing its map or landing its pages. -/
def copyHoldDemo (copy : Nat) (pages : List Nat) : State := pairDemo 2 { holds := [{ handle := 7, owner := 9, pages := pages, copy := copy }] }
theorem witness_TwinRecords_holds :
    (∀ copy ∈ [1, 2], (copyHoldDemo copy [3]).findHold 7 = some { handle := 7, owner := 9, pages := [3], copy := copy }) ∧
    (let s := copyHoldDemo 1 [3]; let x : Hold := { handle := 7, owner := 9, pages := [3], copy := 1 }; s.holdSize x ≤ 1 ∧ 0 < s.holdSize x) ∧
    (let s := { pairDemo 2 {} with entries := [(5, { a := { gen := 1, state := .decode } })] }; s.findHold (2 ^ 14 + 5) = none ∧ s.findHandle (2 ^ 14 + 5) = some 5) ∧
    (let u := pairDemo 2 { mirrorHolds := [{ handle := 7, owner := 200 }] }; (u.twin.mirrorHolds.any fun x => x.handle == 7) = true ∧ (u.twin.mirrorHolds.any fun x => x.handle == 8) = false ∧
      (u.holdFrames 0).1.length = 0 ∧ (u.holdFrames 1).1.length < 1) ∧
    (let s := ((pairDemo 2 {}).setF .TIERS_BR_STAT_STATE 2).setF .TIERS_BR_STAT_CAP_GIB 1
     s.twin.mirrorHolds = [] ∧ (s.holdFrames 1).1.length = 1) ∧
    ((pairDemo 1 { ownSynced := true }).twin.ownSynced = true ∧ (pairDemo 1 {}).twin.ownSynced = false) := by decide +kernel
theorem witness_LeavingAndCheckpoints_holds :
    ((copyHoldDemo 2 [3]).firmwareBusy 8 7 = false ∧ (copyHoldDemo 2 [3]).self ≠ 9 ∧
      ({ copyHoldDemo 2 [3] with streams := { cmds := [{ id := 1, seat := 0, ctx := 0, job := 9, launched := false, cmd := none, purpose := 8, arg := 7 }] } } : State).firmwareBusy 8 7 = true) ∧
    ((leaveDemo 2 false).coll.subst = [] ∧ (leaveDemo 2 false).fab.cross = [] ∧ (leaveDemo 2 false).fab.ports = [] ∧ (leaveDemo 2 false).firmwareBusy 7 (2 ^ 14 + 5) = false ∧
      (leaveDemo 2 false).findHold (2 ^ 14 + 5) = none) ∧
    ((leaveDemo 5 true).twin.ckpts = [(5, { inFlight := some (0, 4) })] ∧ ((leaveDemo 5 true).entry 5).a.curLen ≤ 0 + 4 + 1) := by decide +kernel

/-! ### The Keel -/

/-- An order of the kind, signed by the anchor, ORDER_SEQ 9; its body's parts as width and number; a signature of zeros. -/
def orderBytes (kind count : Nat) (body : List (Nat × Nat)) : List Nat :=
  packBytes ([(4, 0x4C45454B), (2, 1), (1, 2), (1, kind), (1, count), (3, 0), (4, (packBytes body).length), (16, 0), (8, 9), (8, 0), (16, 0)] ++ body ++ [(96, 0)])
def askDemo : Ask := { src := .busOwner, seq := 3 }
/-- The module whose Keel treats orders, with the orders given waiting, and an anchor set. -/
def keelDemo (os : List (List Nat)) : State :=
  { pwr := { anchor := [1], keelQueue := os.map fun bs => { ask := askDemo, bytes := bs } } }
def headDemo (bs : List Nat) : HeldOrder := { ask := askDemo, bytes := bs }
def capOrder : List Nat := orderBytes 0 2 [(4, 0x18), (4, 0), (8, 4000), (4, 0x20), (4, 0), (8, 90)]
def policyOrder : List Nat := orderBytes 0 1 [(4, 0x50), (4, 0), (8, 2 ^ 63 + 60)]
theorem witness_KeelOrders :
    (5 ≤ (keelDemo [[], [], [], [], []]).mgmtArrives.pwr.keelQueue.length ∧ (keelDemo [[]]).mgmtArrives.pwr.keelQueue ≠ [] ∧ (keelDemo [[]]).mgmtArrives.pwr.keelQueue.length < 5 ∧
      (keelDemo []).mgmtArrives.pwr.keelQueue = [] ∧ (keelDemo []).mgmtArrives.keelAwake = true ∧ (keelDemo []).keelCode (headDemo []) = 1) ∧
    ((keelDemo []).acceptedOrder 0 = none ∧ (keelDemo []).acceptedOrder 1 = none ∧ (keelDemo []).acceptedOrder 2 = none) ∧
    ((keelDemo [capOrder]).acceptedOrder 0 = some (headDemo capOrder) ∧
      (∀ w ∈ (headDemo capOrder).writes, w.1 ∈ [Reg.KEEL_CAP - Reg.KEEL_STATUS, Reg.KEEL_THERM - Reg.KEEL_STATUS]) ∧ ((headDemo capOrder).writes.map Prod.fst).Nodup) ∧
    ((keelDemo [policyOrder]).acceptedOrder 0 = some (headDemo policyOrder) ∧ (headDemo policyOrder).writes = [(Reg.KEEL_LOG_POLICY - Reg.KEEL_STATUS, 2 ^ 63 + 60)]) := by decide +kernel
def oneWrite (off v : Nat) : List Nat := orderBytes 0 1 [(4, off), (4, 0), (8, v)]
theorem witness_KeelOrders_2 :
    ((keelDemo [oneWrite 0x48 1]).acceptedOrder 0 = some (headDemo (oneWrite 0x48 1)) ∧ (headDemo (oneWrite 0x48 1)).writes = [(Reg.KEEL_POWER - Reg.KEEL_STATUS, 1)] ∧
      (keelDemo [oneWrite 0x48 1]).flag .KEEL_POWER_OFF = false ∧ (keelDemo [oneWrite 0x48 1]).pwr.off = false) ∧
    ((keelDemo [oneWrite 0x40 1]).acceptedOrder 0 = some (headDemo (oneWrite 0x40 1)) ∧ (headDemo (oneWrite 0x40 1)).writes = [(Reg.KEEL_EMERG - Reg.KEEL_STATUS, 1)] ∧
      (keelDemo [oneWrite 0x40 1]).emergency = false) ∧
    ((keelDemo [orderBytes 1 0 [(1, 4)]]).acceptedOrder 1 = some (headDemo (orderBytes 1 0 [(1, 4)])) ∧ (headDemo (orderBytes 1 0 [(1, 4)])).slot < 16) ∧
    ((keelDemo [orderBytes 2 0 [(1, 4)]]).acceptedOrder 2 = some (headDemo (orderBytes 2 0 [(1, 4)]))) := by decide +kernel

/-! ### Observation -/

def trigDemo (target : Nat) : Trigger := { id := 7, target := target, scope := 0, slice := 0, source := 3, late := false }
def shadowDemo (time : Nat) : Shadow := { trig := trigDemo 5, time := time, regs := [], asleep := 0, standby := false, merged := 0, skipped := 0 }
/-- Fabric time 10 ms, 4 records held by the ring, a snapshot trigger of SCOPE `scope` with the target given. -/
def snapDemo (x : SnapSt) (scope target : Nat) : State :=
  let s : State := { snap := x, now := 10 ^ 7 }
  ((s.setF .ERR_RING_PROD_PROD 4).setF .SNAP_CTRL_SCOPE scope).setF .SNAP_TARGET_T target
theorem witness_RingAndPhotoFinish : vfDemo.reached (.vf 1) = true ∧
    ((snapDemo {} 0 0).errHeld = 4 ∧ (4 + 2 ^ 32 - (snapDemo {} 0 0).getF .ERR_RING_CONS_CONS) % 2 ^ 32 ≤ 4 ∧ Master.pf ≠ .vf 0) ∧
    ((snapDemo {} 3 0).getF .SNAP_CTRL_SCOPE = 3 ∧ (snapDemo {} 1 0).getF .SNAP_CTRL_SCOPE = 1 ∧ (snapDemo {} 2 0).getF .SNAP_CTRL_SCOPE = 2) ∧
    ((snapDemo {} 0 0).inScopeOf 0 0 = true ∧ (snapDemo {} 0 0).inScopeOf 1 77 = false ∧ (snapDemo {} 0 (2 * 10 ^ 7)).now + 20000 ≤ (snapDemo {} 0 (2 * 10 ^ 7)).getF .SNAP_TARGET_T ∧
      (snapDemo {} 0 0).getF .SNAP_TARGET_T < 10 ^ 7 + 20000 ∧ (snapDemo {} 0 0).fenced = false ∧ (snapDemo {} 0 0).pwr.off = false ∧ (snapDemo {} 0 0).snap.shadows = []) ∧
    ((snapDemo { scheduled := [trigDemo 5] } 0 0).snap.scheduled.filter (fun t => decide (t.target ≤ (snapDemo {} 0 0).now)) = [trigDemo 5]) ∧
    ((snapDemo {} 0 0).mstate ≠ 3 ∧ (snapDemo {} 0 0).sleepers = [] ∧ snapRegs.contains (canonReg (canonOff (Reg.SNAP_TAKEN % instStride))) = true) ∧
    (let u := snapDemo { last := some (5, 20), shadows := [shadowDemo 1, shadowDemo 5] } 0 0
     u.sharesLatch 100 = true ∧ u.sharesLatch 1020 = true ∧ u.sharesLatch 1021 = false ∧ u.sharesLatch 4 = false ∧ u.snap.shadows = [shadowDemo 1] ++ [shadowDemo 5] ∧ 2 ≤ u.snap.shadows.length ∧
      (snapDemo { last := some (5, 20) } 0 0).snap.shadows = [] ∧ (snapDemo {} 0 0).snap.shadows.length < 2 ∧ (snapDemo {} 0 0).sharesLatch 0 = false) ∧
    (let s := ((snapDemo {} 0 0).setF .SNAP_CTRL_HOST_COPY 1).setF .HOSTVI_LINK_WIDTH 16; s.flag .SNAP_CTRL_HOST_COPY = true ∧ s.getF .HOSTVI_LINK_WIDTH ≠ 0) := by decide +kernel
def recDemo (q : Nat) : LogRec := { seq := q, powerOn := 0, calendar := 0, calValid := false, deferred := false, kind := 2, body := [] }
/-- Two days of power-on; the logbook given. -/
def logDemo (x : LogSt) : State := let s : State := { log := x, now := 2 * 10 ^ 14 }; s.setF .LOG_POWER_ON_S_S 200000
theorem witness_Logbook :
    ((logDemo { fetch := [(0, 3)] }).log.fetch = [(0, 3)] ∧ (logDemo {}).log.fetch = []) ∧
    ((logDemo {}).log.lastPeriodic + (logDemo {}).getF .KEEL_LOG_POLICY_PERIODIC_S * 1000000000 ≤ (logDemo {}).now ∧ (logDemo {}).log.second ≠ (logDemo {}).now / 1000000000 ∧
      (logDemo {}).log.buffered.length < 510 ∧ ¬(logDemo { lastPeriodic := 2 * 10 ^ 14 }).log.lastPeriodic + (logDemo {}).getF .KEEL_LOG_POLICY_PERIODIC_S * 1000000000 ≤ (logDemo {}).now) ∧
    ((logDemo {}).log.lastDaily + 86400 ≤ (logDemo {}).getF .LOG_POWER_ON_S_S ∧ ¬(logDemo { lastDaily := 200000 }).log.lastDaily + 86400 ≤ (logDemo {}).getF .LOG_POWER_ON_S_S) ∧
    ((logDemo { buffered := [recDemo 1] }).log.buffered = [recDemo 1]) ∧ ((logDemo { suppressed := [(2, 5)] }).log.suppressed ≠ []) ∧
    (logUncapped 2 = false ∧ (logDemo { second := 200000, accepted := 64 }).log.second = (logDemo {}).now / 1000000000 ∧ 64 ≤ (logDemo { accepted := 64 }).log.accepted ∧ 512 ≤ (logDemo { buffered := List.replicate 512 (recDemo 1) }).log.buffered.length ∧
      (logDemo {}).afterFence 1 = false ∧ (logDemo {}).afterFence 0 = false) := by decide +kernel

/-! ### Board and bring-up -/

/-- A module that boots, the stages given complete; time 1 s into it. -/
def bootDemo (stages : Nat) : State := { board := { booting := true, stages := stages }, now := 10 ^ 9 }
def ppsDemo (edges last : Nat) (x : Option Nat) : State := { board := { ppsEdges := edges, ppsLast := last, ppsAnnounced := x, rootAllow := true }, now := 2 * 10 ^ 9 }
theorem witness_ReferencesRailsResets :
    (State.reset.err.handling = [] ∧ (bootDemo 1).board.booting = true) ∧
    ((let g := (ppsDemo 2 (10 ^ 9) (some 2)).now - (ppsDemo 2 (10 ^ 9) (some 2)).board.ppsLast; 999999800 ≤ g ∧ g ≤ 1000000200) ∧ (ppsDemo 2 (10 ^ 9) (some 2)).flag .REF_STAT_PPS_LOCK = false ∧
      (ppsDemo 2 (10 ^ 9) (some 2)).board.rootAllow = true) ∧
    (let s := (((ppsDemo 3 (10 ^ 9) (some 2)).setF .REF_STAT_PPS_LOCK 1).setF .FAB_STATUS_TIME_ROOT 1).setF .HOSTVI_DEV_STATUS_READY 1
     s.flag .REF_STAT_PPS_LOCK = true ∧ s.flag .FAB_STATUS_TIME_ROOT = true ∧ s.getF .HOSTVI_DEV_STATUS_READY = 1 ∧ s.board.ppsAnnounced = some 2) ∧
    (let s := (ppsDemo 3 0 none).setF .REF_STAT_PPS_LOCK 1; s.flag .REF_STAT_PPS_LOCK = true ∧ s.board.ppsLast + 2000000000 ≤ s.now) ∧
    (let s : State := { pwr := { inputLost := true } }; s.pwr.inputLost = true ∧ s.log.ledger = [] ∧ s.fenced = false ∧ (s.setF .TWIN_STATUS_STATE 6).fenced = true ∧
      ({ s with log := { ledger := ledgerRegs.map fun r => (r, BitVec.ofNat 64 r) } } : State).log.ledger = ledgerRegs.map fun r => (r, BitVec.ofNat 64 r)) ∧
    (State.reset.getF .HOSTVI_LINK_WIDTH = 0 ∧ (portDemo 2 {}).portUp 0 = true ∧ flashReg Reg.KEEL_CAP = true ∧ retainedReg Reg.FAB_ID = false ∧ ({ board := { resetHeld := true } } : State).board.resetHeld = true) := by decide +kernel
theorem witness_BringUp :
    (∀ x ∈ [(1, 0x1), (2, 0x3), (4, 0xF), (6, 0x3F), (7, 0x7F), (8, 0xFF), (9, 0x1F), (12, 0xFFF)], let s := bootDemo x.2
      natBit s.board.stages x.1 = false ∧ (∀ j ∈ s.bootStarts x.1, natBit s.board.stages j = true) ∧ s.stageMay x.1 = true) ∧
    (let s := (List.range 8).foldl (fun (s : State) k => s.setF .NET_STATUS_READY 1 (seatOff k)) (bootDemo 0x1F); s.stageMay 5 = true ∧ ∀ j ∈ s.bootStarts 5, natBit s.board.stages j = true) ∧
    (let s : State := ({ board := { booting := true, stages := 7, trayHigh := some 0 } } : State).setF .PWRCLK_INPUT_VIN_MV 48000; s.stageMay 3 = true ∧ ∀ j ∈ s.bootStarts 3, natBit s.board.stages j = true) ∧
    (let s := ((bootDemo 0x3F).setF .FAB_ID_VALID 1).setF .FAB_STATUS_CUBE_UP 1; s.stageMay 10 = true ∧ ∀ j ∈ s.bootStarts 10, natBit s.board.stages j = true) ∧
    (let s : State := { (bootDemo 0x3F).setF .FAB_ID_VALID 1 with fab := { ports := [(0, { conflict := true })] } }; s.stageMay 10 = true ∧ (s.fab.ports.any fun p => p.2.conflict) = true) ∧
    (let s := (bootDemo 0x43F).setF .FAB_STATUS_DISCOVERED 1; s.stageMay 11 = true ∧ ∀ j ∈ s.bootStarts 11, natBit s.board.stages j = true) ∧
    ((bootDemo 0x1F).flag .BOOT_STATUS_STANDALONE = false ∧ ((bootDemo 0x1F).setF .KEEL_LOCATION_VALID 1).strapOk = true ∧ (bootDemo 0x1F).strapOk = false ∧
      ((bootDemo 0x1F).setF .BOOT_STATUS_STANDALONE 1).flag .BOOT_STATUS_STANDALONE = true ∧ (bootDemo 0).portState 3 = 0 ∧ (bootDemo 0).flag .FAB_PORT_CTRL_DISABLE (inst 3) = false) ∧
    (let s := bootDemo 0x3F; natBit s.board.stages 5 = true ∧ s.pwr.off = false ∧ s.fenced = false ∧ s.flag .FAB_ID_VALID = false ∧ (s.setF .FAB_ID_VALID 1).flag .FAB_ID_VALID = true ∧
      (s.port 3).conflict = false ∧ s.flag .KEEL_TWIN_PAIR_EN = false) := by decide +kernel

/-! ### Management -/

def askPcie : Ask := { src := .pcie, seq := 4 }
theorem witness_ManagementOperations :
    (({ pwr := { off := true } } : State).endpointUp = false ∧ State.reset.endpointUp = true ∧ askDemo.src.operator = true ∧ askPcie.src.operator = false ∧ State.reset.mstate ≠ 3 ∧
      (State.reset.setF .PWRCLK_STATE_MSTATE 3).mstate = 3) ∧
    (State.reset.pairState = 0 ∧ (pairDemo 2 {}).mgmtArrives.pairState = 2 ∧ askDemo.src = .busOwner ∧ askPcie.src ≠ .busOwner) ∧
    (State.reset.liveEntries = [] ∧ ({ entries := [(5, { a := { state := .decode } })] } : State).liveEntries = [5] ∧ (({ entries := [(5, { a := { state := .decode } })] } : State).entry 5).a.state.final = false) ∧
    (State.reset.mgmtArrives.fab.oldUntil = none ∧ State.reset.mgmtArrives.getF .FAB_RT_SWAP_AT = 0) ∧
    (({ opcode := 0x70, desc := viWords 1 0 0 0 } : Cmd).inRange = true ∧ ({ opcode := 0x70, desc := default } : Cmd).inRange = false ∧
      (State.reset.mgmtArrives.viSetup { opcode := 0x70, desc := viWords 1 0 0 0 }).1 = 0) ∧
    (({ snap := { slots := [(1, { shadow := shadowDemo 5, trunc := false })] } } : State).snap.slots.find? (fun p => p.1 == 1) = some (1, { shadow := shadowDemo 5, trunc := false })) ∧
    (let s : State := { fab := { ports := [(3, { conflict := true, peerSerial := 9 })] } }; (s.port 3).conflict = true ∧ some (s.port 3).peerSerial ≠ some 8 ∧ some 8 ≠ some s.serial ∧ some s.serial = some 0) ∧
    (((State.reset.setF .TIERS_BR_STAT_STATE 4 8).mgmtArrives.getF .TIERS_BR_STAT_STATE 8 = 4) ∧ ((State.reset.setF .TIERS_BR_STAT_STATE 2 8).mgmtArrives.getF .TIERS_BR_STAT_STATE 8 = 2)) := by decide +kernel
theorem witness_ManagementProtocols :
    (State.reset.endpointUp = true ∧ ({ pwr := { off := true } } : State).endpointUp = false ∧ askDemo.src.operator = true ∧ askPcie.src.operator = false ∧ askDemo.src = .busOwner ∧
      ¬(askPcie.src = .busOwner ∨ askPcie.src = .i3c) ∧ 0x7F ∈ [0x00, 0x01, 0x05, 0x7F] ∧ 2 ∉ [0x00, 0x01, 0x05, 0x7F]) ∧
    (State.reset.mgmtArrives.sensor 41 = some 0 ∧ State.reset.mgmtArrives.sensor 42 = none ∧ ([] : List Nat).length ≤ 0x4000000) ∧
    (({ board := { bankB := { cox := { version := 2, verifies := true } } } } : State).inactiveBank.cox.verifies = true) ∧
    (({ board := { resetHeld := true } } : State).board.resetHeld = true) := by decide +kernel

/-! ### Checks and results from the manual's tables -/

/-- A term that each check refuses: a unit, plane, port, seat, switch, context, ring, fabric port, stack, Bedrock port, rail, stage, source that is not there. -/
theorem test_ill_formed_refused : ∀ i ∈ ([.entrySkip 16384, .nop 20000, .beatArrive 0 8 0 {}, .beatArrive 0 0 8 {}, .beatEmit 0 0 8, .shapeLoadComplete 0 8 0, .foldRebuild 8,
    .strokeBegin 8 0, .strokeBegin 0 1024, .markTimeout 0 0 8, .seatNetReady 8, .sideWord 0 1024 0 [] 0, .hbmTempChange 24 0, .cxlEventPoll 4 [], .transitFault 0 256 0, .alertAssert 4 false, .hostReadCompletion 8192 0 false true [], .transmitterFfeStep 32 0 0, .sliceTeardown 256 0,
    .replicaUpdate 256 0 [], .railFault 25, .bootStageComplete 13 {}, .portTrain 32 4 0, .linkLoss 32 true, .translationWalk 8 0 0 false, .translationWalk 0 256 0 false] : List Instr), i.wf = false := by
  decide +kernel
/-- The same commands with operands in range are well formed. -/
theorem test_well_formed_taken : ∀ i ∈ ([.entrySkip 16383, .nop 0, .beatArrive 0 7 7 {}, .foldRebuild 7, .strokeBegin 7 1023, .hostReadCompletion 8191 0 false true [], .transmitterFfeStep 31 0 0,
    .sliceTeardown 255 0, .railFault 24, .bootStageComplete 12 {}, .translationWalk 7 255 0 false] : List Instr), i.wf = true := by decide +kernel
/-- No row of the table has bits, so no word spells a command. -/
theorem test_no_word_spells_a_command : ∀ n ∈ [0, 8, 16, 32, 64], decodeTableWord n 0 = none ∧ (State.reset.withFetchWord n 0 = State.reset) := by decide +kernel
/-- The statistics of a row merged as in the worked example of chapter 4: (2048, 0.5, 100) and (2048, 0.25, 60), then (2048, 0.75, 80) twice. -/
theorem test_stat_merge_example :
    let r0 : StatRec := ⟨2048, 0x3F000000, 0x42C80000, false, 0⟩; let r1 : StatRec := ⟨2048, 0x3E800000, 0x42700000, false, 0⟩; let r2 : StatRec := ⟨2048, 0x3F400000, 0x42A00000, false, 0⟩
    (statMerge r0 r1).r = ⟨4096, 0x3EC00000, 0x43600000, false, 0⟩ ∧ (statMerge (statMerge r0 r1).r r2).r = ⟨6144, 0x3F000000, 0x43F80000, false, 0⟩ ∧
    (statMerge (statMerge (statMerge r0 r1).r r2).r r2).r = ⟨8192, 0x3F100000, 0x44280000, false, 0⟩ := by decide +kernel
/-- FINISH of that record: VAR is 672 / 8192 = 0.08203125. -/
theorem test_stat_finish_example : (statFinish ⟨8192, 0x3F100000, 0x44280000, false, 0⟩ 0x35800000).1.getD 1 0 = 0x3DA80000 := by decide +kernel
/-- The cube's neighbours of 42 (worked example of chapter 13). -/
theorem test_cube_neighbours : (List.range 6).map (fun d => cubeN d 42) = [43, 40, 46, 34, 58, 10] := by decide +kernel
/-- Seat 2, y = 17, x = 5 reads 0x1225 (UNIT_ID, chapter 2). -/
theorem test_uid_example : uidOf (seatBase + 2 * seatStride + 0x400000 + (17 * 32 + 5) * 0x1000) = 0x1225 := by decide +kernel
/-- The softplus slot of Table 4.6. -/
def softplusSlot : MpSlot :=
  0x3F800000 + 0x3F317218 * 2 ^ 32 + 2 ^ 128 * packBits ([0x6, 0x107, 0x110, 0x2101, 0x120, 0x2902, 0x23004, 0xE1101].map fun w => (32, w))
/-- Its steps pass the checks. -/
theorem test_softplus_slot_valid : mpValid softplusSlot = true := by decide +kernel
/-- The leaf of chapter 7's worked example, read and written: its Dwezin address, SS tier, LOCAL, context 5. -/
theorem test_pte_example :
    let p : Pte := { valid := true, leaf := true, read := true, addr := 0x2A14840000000, tier := 1, place := 1, ctx := 5 }
    pteOf (0x002A148400000007 + 0x550 * 2 ^ 64) = p ∧ p.bits = 0x002A148400000007 + 0x550 * 2 ^ 64 := by decide +kernel
/-- The stack and the byte address in it of that example's line (R192). -/
theorem test_stack_example : stackAddr 0x014840012340 = (7, 0x1555B340) := by decide +kernel
/-- A frame tag's bits by Table 7.3: CTX 5, GEN 3, KIND 1, SHARED, HEAT_R 9, IDLE 1000. -/
theorem test_frame_tag_bits : ({ ctx := 5, gen := 3, kind := 1, shared := true, heatR := 9, idle := 1000 } : FrameTag).bits =
    5 + 3 * 2 ^ 8 + 1 * 2 ^ 12 + 2 ^ 15 + 9 * 2 ^ 16 + 1000 * 2 ^ 50 := by decide +kernel
/-- A port's lanes: all four, two adjacent ones, none (R376); the block's symbols go round them (R364); block 0 begins at a flit, block 1 within flit 2 (R365). -/
theorem test_lanes_and_stream : [15, 3, 12, 9, 6].map activeLanes = [[0, 1, 2, 3], [0, 1], [2, 3], [], []] ∧ firstFlitBit 0 = 0 ∧ blockFlits 0 = [0, 1, 2] ∧ blockFlits 1 = [2, 3, 4] ∧
    (laneSymbols 4 1 (List.range 448)).take 3 = [1, 5, 9] := by decide +kernel
/-- GF(2^10) of x^10 + x^3 + 1 (R364): α^5 α^5 = α^10 = 9, α^1023 = 1; the generator is monic of degree 22 with roots α^0 to α^21. -/
theorem test_field_and_generator : gfMul (gfPow 5) (gfPow 5) = 9 ∧ gfPow 1023 = 1 ∧ gfMul 9 (gfInv 9) = 1 ∧ rsGen.length = 23 ∧ rsGen.getD 22 0 = 1 ∧
    ((List.range 22).all fun i => polyEval rsGen (gfPow i) == 0) = true := by decide +kernel

end
end

namespace Sys2Proof.Machine

/-! ### Settled: a write acts by its field's access code (R16, Table 0.7) -/

/-- A bit of a field's mask is set where the bit lies in the field and in the half that the access covers (R13). -/
theorem FldDesc.testBit_inMask (f : FldDesc) (mask i : Nat) :
    (f.inMask mask).testBit i = decide (f.fld.lo ≤ i ∧ i < f.fld.lo + f.fld.len ∧ mask.testBit i = true) := by
  simp only [FldDesc.inMask, Nat.testBit_and, Nat.testBit_shiftLeft, Nat.testBit_two_pow_sub_one]
  grind

theorem FldDesc.inMask_lt (f : FldDesc) (mask : Nat) (h : f.fld.lo + f.fld.len ≤ 64) : f.inMask mask < 2 ^ 64 := by
  apply Nat.lt_pow_two_of_testBit
  intro i hi
  rw [FldDesc.testBit_inMask, decide_eq_false_iff_not]
  omega

section
variable {m i : Nat} (hm : m < 2 ^ 64) (hi : i < 64)
include hm hi

theorem testBit_word_complement : (2 ^ 64 - 1 - m).testBit i = !m.testBit i := by
  rw [Nat.sub_sub, Nat.add_comm, Nat.testBit_two_pow_sub_succ hm, decide_eq_true hi, Bool.true_and]

/-- RW and the Keel's WK take the value's bits under the mask. -/
theorem testBit_take_under (old v : Nat) :
    ((old &&& (2 ^ 64 - 1 - m)) ||| (v &&& m)).testBit i = if m.testBit i = true then v.testBit i else old.testBit i := by
  rw [Nat.testBit_or, Nat.testBit_and, Nat.testBit_and, testBit_word_complement hm hi]
  cases m.testBit i <;> simp only [Bool.not_true, Bool.not_false, Bool.and_true, Bool.and_false, Bool.or_false, Bool.false_or, if_true, Bool.false_eq_true, if_false]

/-- W1C clears the bits that the value sets under the mask. -/
theorem testBit_clear_under (old v : Nat) :
    (old &&& (2 ^ 64 - 1 - (v &&& m))).testBit i = if m.testBit i = true then old.testBit i && !v.testBit i else old.testBit i := by
  rw [Nat.testBit_and, testBit_word_complement (Nat.lt_of_le_of_lt Nat.and_le_right hm) hi, Nat.testBit_and]
  cases m.testBit i <;> simp only [Bool.not_false, Bool.and_true, Bool.and_false, if_true, Bool.false_eq_true, if_false]

end

/-- W1S sets the bits that the value sets under the mask. -/
theorem testBit_set_under (m i old v : Nat) :
    (old ||| (v &&& m)).testBit i = if m.testBit i = true then old.testBit i || v.testBit i else old.testBit i := by
  rw [Nat.testBit_or, Nat.testBit_and]
  cases m.testBit i <;> simp only [Bool.and_true, Bool.and_false, Bool.or_false, if_true, Bool.false_eq_true, if_false]

theorem FldDesc.write_of_own (f : FldDesc) (keel : Bool) (mask old v : Nat) (h : f.own = true) : f.write keel mask old v = old :=
  if_pos h

/-- A field with no command of its own takes, under its mask, what its access code makes of each bit. -/
theorem FldDesc.testBit_write (f : FldDesc) (keel : Bool) (mask old v i : Nat) (hf : f.fld.lo + f.fld.len ≤ 64) (hi : i < 64)
    (ho : f.own = false) : (f.write keel mask old v).testBit i =
      if (f.inMask mask).testBit i = true then bitAfter f.acc keel (old.testBit i) (v.testBit i) else old.testBit i := by
  have hm : f.inMask mask < 2 ^ 64 := f.inMask_lt mask hf
  unfold FldDesc.write
  dsimp only
  rw [if_neg (by rw [ho]; exact Bool.false_ne_true)]
  cases f.acc with
  | ro | rc | wo => exact (ite_self _).symm
  | rw => exact testBit_take_under hm hi old v
  | w1c => exact testBit_clear_under hm hi old v
  | w1s => exact testBit_set_under _ i old v
  | wk =>
    cases keel with
    | true => exact testBit_take_under hm hi old v
    | false => exact (ite_self _).symm

/-- Settles O5: a field of another command keeps every bit; of any other, the bits of its mask take what the access code says (`FldDesc.testBit_write`). -/
theorem writeFollowsAccessCode : Obligations.WriteFollowsAccessCode := by
  intro f keel mask old v i _ _ hf hi
  cases ho : f.own with
  | true => rw [f.write_of_own keel mask old v ho, if_neg fun h => Bool.noConfusion h.1]
  | false => simp only [f.testBit_write keel mask old v i hf hi ho, FldDesc.testBit_inMask, decide_eq_true_eq, true_and]

/-! ### Register writes that are refused (R13, R14, R16, R59, R435) -/

/-- A host's write is never held for a sleeping seat: it acts, or is refused, at once (R526). -/
theorem State.regWrite_host (s : State) (m : Master) (off size v : Nat) (h : m.host = true) :
    s.regWrite m off size v = s.writeReg m off size v := by
  have hact : ∀ k w act, s.holdFor m k w act = act s := fun k w act => if_pos (by rw [h, Bool.or_true])
  unfold State.regWrite
  split
  · rw [hact, ite_self]
  · rfl

theorem State.writeReg_unreached (s : State) (m : Master) (off size v : Nat) (h : s.reached m = false) : s.writeReg m off size v = s :=
  if_pos (by rw [h]; rfl)

section
variable {s : State} {m : Master} {off size : Nat} (hr : s.reached m = true)
include hr

theorem State.writeReg_badSize (v : Nat) (hz : sizeOk off size = false) :
    s.writeReg m off size v = s.notice (noticeBlock m off) nAccessSize off := by
  unfold State.writeReg
  rw [if_neg (by rw [hr]; decide), if_pos (by rw [hz]; rfl)]

variable (hz : sizeOk off size = true)
include hz

theorem State.writeReg_noWindow (v : Nat) (hw : s.window m (off / 8 * 8) = none) :
    s.writeReg m off size v = s.notice (noticeBlock m off) (if inListView m off then nAccessDenied else nAccessHole) off := by
  unfold State.writeReg
  rw [if_neg (by rw [hr]; decide), if_neg (by rw [hz]; decide)]
  extract_lets base w
  rw [show s.window m base = none from hw]

variable {o : Nat} (hw : s.window m (off / 8 * 8) = some o)
include hw

theorem State.writeReg_noRegister (v : Nat) (hd : descOf o = none) (hx : msixRegion o = false) :
    s.writeReg m off size v = s.notice (blockCode o) nAccessHole off := by
  unfold State.writeReg
  rw [if_neg (by rw [hr]; decide), if_neg (by rw [hz]; decide)]
  extract_lets base w
  rw [show s.window m base = some o from hw]
  dsimp only
  rw [hd]
  exact if_neg (by rw [hx]; decide)

/-- A master that may not write a register is denied (R16, R59); before READY the host's write finds the wrong state instead (R433). -/
theorem State.writeReg_denied (v : Nat) {d : RegDesc} (hd : descOf o = some d) (hs : d.isSel = false) (h : mayWrite m d = false ∨ wkDenied m d = true) :
    s.writeReg m off size v = s.notice (blockCode o) (if s.notReady m o then nAccessState else nAccessDenied) off := by
  unfold State.writeReg
  rw [if_neg (by rw [hr]; decide), if_neg (by rw [hz]; decide)]
  extract_lets base w
  rw [show s.window m base = some o from hw]
  dsimp only
  rw [hd]
  dsimp only
  rw [hs, if_neg Bool.false_ne_true]
  split
  · rfl
  · rcases h with h | h
    · rw [h]; rfl
    · rw [h, if_pos rfl, ite_self]

end

/-- What refuses a register write: its size, a hole in the master's window, or the register's access rights. -/
def State.refusesWrite (s : State) (m : Master) (off size : Nat) : Prop :=
  sizeOk off size = false ∨ s.window m (off / 8 * 8) = none ∨
    ∃ o d, s.window m (off / 8 * 8) = some o ∧ descOf o = some d ∧ d.isSel = false ∧ (mayWrite m d = false ∨ wkDenied m d = true)

/-- A refused write does nothing where the access does not reach the module, and otherwise only logs a notice. -/
theorem State.writeReg_refused (s : State) (m : Master) (off size v : Nat) (h : s.refusesWrite m off size) :
    s.writeReg m off size v = s ∨ ∃ b n, s.writeReg m off size v = s.notice b n off := by
  cases hr : s.reached m with
  | false => exact .inl (s.writeReg_unreached m off size v hr)
  | true =>
    refine .inr ?_
    cases hz : sizeOk off size with
    | false => exact ⟨_, _, State.writeReg_badSize hr v hz⟩
    | true =>
      rcases h with h | hw | ⟨o, d, hw, hd, hsel, hden⟩
      · rw [hz] at h; exact Bool.noConfusion h
      · exact ⟨_, _, State.writeReg_noWindow hr hz v hw⟩
      · exact ⟨_, _, State.writeReg_denied hr hz hw v hd hsel hden⟩

/-- An offset of a window that holds no register (R14), the list view of a VF's window apart (Table 15.2). -/
def State.inHole (s : State) (m : Master) (off : Nat) : Prop :=
  (s.window m (off / 8 * 8) = none ∨ ∃ o, s.window m (off / 8 * 8) = some o ∧ descOf o = none ∧ msixRegion o = false) ∧
    ∀ n, m = .vf n → off < 0x02000000 ∨ 0x02200000 ≤ off

theorem inListView_of_outside (m : Master) (off : Nat) (h : ∀ n, m = .vf n → off < 0x02000000 ∨ 0x02200000 ≤ off) : inListView m off = false := by
  cases m with
  | vf n =>
    have := h n rfl
    simp only [inListView, Bool.and_eq_false_iff, decide_eq_false_iff_not]
    omega
  | _ => rfl

theorem State.listView_of_outside (s : State) (m : Master) (off size : Nat) (h : ∀ n, m = .vf n → off < 0x02000000 ∨ 0x02200000 ≤ off) :
    s.listView m off size = 0 := by
  cases m with
  | vf n =>
    have := h n rfl
    exact if_neg (by omega)
  | _ => rfl

section
variable {s : State} {m : Master} {off size : Nat} (hr : s.reached m = true) (hz : sizeOk off size = true) (h : s.inHole m off)
include hr hz h

/-- A hole reads as zero and is the only thing that happens (R14). -/
theorem State.readReg_hole : s.readReg m off size = s.emit (.read off 0) := by
  unfold State.readReg
  extract_lets ones base
  rw [if_neg (by rw [hr]; decide), if_neg (by rw [hz]; decide)]
  obtain ⟨hw | ⟨o, hw, hd, hx⟩, hv⟩ := h
  · rw [show s.window m base = none from hw]
    dsimp only
    rw [s.listView_of_outside m off size hv]
  · have hp : s.peek m o = 0 := by
      rw [State.peek, hd]
      exact if_neg (by rw [hx]; exact Bool.false_ne_true)
    rw [show s.window m base = some o from hw]
    dsimp only
    rw [hd, hp]
    dsimp only
    split
    · rfl
    · split <;> rfl

/-- A write into a hole logs ACCESS_HOLE and nothing else (R14). -/
theorem State.writeReg_hole (v : Nat) : ∃ b, s.writeReg m off size v = s.notice b nAccessHole off := by
  obtain ⟨hw | ⟨o, hw, hd, hx⟩, hv⟩ := h
  · exact ⟨noticeBlock m off, by rw [State.writeReg_noWindow hr hz v hw, inListView_of_outside m off hv, if_neg Bool.false_ne_true]⟩
  · exact ⟨blockCode o, State.writeReg_noRegister hr hz hw v hd hx⟩

end

/-! ### What the performance counters add to a write (R561) -/

/-- What zeroing a counter keeps, counting by the changed events keeps. -/
theorem State.pmcAfter_keeps (P : State → Prop) (s t : State) (ht : P t)
    (hz : ∀ z k, k < 16 → P z → P (z.setF .PMC_COUNT 0 (16 * k))) : P (s.pmcAfter t) := by
  unfold State.pmcAfter
  have hl : ∀ k ∈ List.range 16, k < 16 := fun k => List.mem_range.1
  generalize List.range 16 = l at hl
  induction l generalizing t with
  | nil => exact ht
  | cons k r ih =>
    rw [List.foldl_cons]
    refine ih _ ?_ fun j hj => hl j (List.mem_cons_of_mem _ hj)
    dsimp only
    split
    · exact hz t k (hl k (List.mem_cons_self ..)) ht
    · exact ht

/-- With no event changed no counter is. -/
theorem State.pmcAfter_self (s : State) : s.pmcAfter s = s := by
  unfold State.pmcAfter
  generalize List.range 16 = l
  induction l with
  | nil => rfl
  | cons k r ih =>
    simp only [List.foldl_cons, bne_self_eq_false, Bool.false_eq_true, if_false]
    exact ih

theorem State.noErr_pmcAfter (s t : State) : (s.pmcAfter t).noErr = t.noErr :=
  State.pmcAfter_keeps (fun z => z.noErr = t.noErr) s t rfl fun z k _ h => (State.noErr_setF z .PMC_COUNT 0 (16 * k)).trans h

theorem State.sameOutsideErr_pmcAfter (s t : State) : t.sameOutsideErr (s.pmcAfter t) := by
  refine State.pmcAfter_keeps t.sameOutsideErr s t (.refl t) fun z k hk h => h.trans (State.sameOutsideErr_setF z .PMC_COUNT 0 (16 * k) ?_)
  show (decide (0x00400000 ≤ 0x00400208 + 16 * k) && decide (0x00400208 + 16 * k < 0x00800000)) = true
  rw [Bool.and_eq_true, decide_eq_true_eq, decide_eq_true_eq]
  omega

theorem State.getF_raised_pmcAfter (s t : State) : (s.pmcAfter t).getF .ERR_RAISED_S_COUNT = t.getF .ERR_RAISED_S_COUNT := by
  refine State.pmcAfter_keeps (fun z => z.getF .ERR_RAISED_S_COUNT = t.getF .ERR_RAISED_S_COUNT) s t rfl fun z k _ h => ?_
  refine (State.getF_setF_other z .PMC_COUNT .ERR_RAISED_S_COUNT 0 (16 * k) 0 ?_).trans h
  simp only [Fld.PMC_COUNT, Reg.PMC, Fld.ERR_RAISED_S_COUNT, Reg.ERR_RAISED_S]
  omega

/-! ### What a notice leaves alone, and what it counts -/

/-- States that agree but for registers, the error machinery, the logbook and what is sent have changed in these parts alone. -/
theorem State.changesOnly_of_noErr {s t : State} (h : t.noErr = s.noErr) : s.changesOnly t noteParts := by
  intro p hp
  have key : s.noErr.same t.noErr p := by rw [h]; exact State.changesOnly_refl s.noErr [] p rfl
  cases p
  case regs | err | log | out => exact absurd hp (by decide)
  case sel => exact fun k => by rw [State.sel_of_noErr h]
  case mem => exact State.sameMemory_of_noErr h
  case ops => exact State.sameOps_of_noErr h
  all_goals exact key

theorem State.regAt_log (s : State) (l : LogSt) (k : Nat) : State.regAt { s with log := l } k = s.regAt k := (rfl)
theorem State.regAt_err (s : State) (e : ErrSt) (k : Nat) : State.regAt { s with err := e } k = s.regAt k := (rfl)
theorem State.regAt_ite {c : Prop} [Decidable c] {a b s : State} {k : Nat} (ha : a.regAt k = s.regAt k) (hb : b.regAt k = s.regAt k) :
    (if c then a else b).regAt k = s.regAt k := by split <;> assumption

theorem State.regAt_ringPlace (s : State) (r : ErrRec) (k : Nat) (h : k ≠ Reg.ERR_RING_PROD) : (s.ringPlace r).regAt k = s.regAt k := by
  unfold State.ringPlace
  extract_lets p e t v
  have ht : t.regAt k = s.regAt k := s.regAt_err _ k
  have hv : v.regAt k = s.regAt k := (State.regAt_setF_other t .ERR_RING_PROD_PROD (p + 1) 0 k h).trans ht
  exact State.regAt_ite ((State.emit_regAt v _ k).trans hv) hv

theorem State.regAt_placeLow (s : State) (r : ErrRec) (k : Nat) (h : k ≠ Reg.ERR_RING_PROD) (hd : k ≠ Reg.ERR_DROPPED) :
    (s.placeLow r).regAt k = s.regAt k :=
  State.regAt_ite (s.regAt_ringPlace r k h) (State.regAt_bump_other s .ERR_DROPPED_COUNT 1 0 k hd)

theorem State.regAt_logRec (s : State) (n : Nat) (b : List Nat) (k : Nat) (h : k ≠ Reg.LOG_SUPPRESSED) : (s.logRec n b).regAt k = s.regAt k := by
  unfold State.logRec
  extract_lets sec acc t r
  have ht : t.regAt k = s.regAt k := State.regAt_bump_other s .LOG_SUPPRESSED_COUNT 1 0 k h
  exact State.regAt_ite ((t.regAt_log _ k).trans ht) (s.regAt_log _ k)

/-- Placing a notice or a corrected record writes the ring's producer index, the count of dropped records and the logbook's of suppressed ones alone. -/
theorem State.regAt_place_low (s : State) (r : ErrRec) (k : Nat) (hs : r.sev ≤ 1) (hp : k ≠ Reg.ERR_RING_PROD) (hd : k ≠ Reg.ERR_DROPPED)
    (hl : k ≠ Reg.LOG_SUPPRESSED) : (s.place r).regAt k = s.regAt k := by
  rw [State.place_eq]
  extract_lets n v
  have hn : n.2.regAt k = s.regAt k := s.regAt_err _ k
  have hv : v.regAt k = s.regAt k := by
    rw [show v = n.2.placeLow n.1 from if_pos hs]
    exact (n.2.regAt_placeLow n.1 k hp hd).trans hn
  exact State.regAt_ite ((v.regAt_logRec 3 _ k hl).trans hv) hv

/-- A notice outside the fence counts one fault of S0, where nothing is being handled under no scope. -/
theorem State.getF_raised_notice (s : State) (b n i : Nat) (hf : s.fenced = false) (hn : s.handlingSev .none = none) :
    (s.notice b n i).getF .ERR_RAISED_S_COUNT = (s.getF .ERR_RAISED_S_COUNT + 1) % 2 ^ Fld.ERR_RAISED_S_COUNT.len := by
  have hesc : ∀ r : Report, r.scope = .none → s.escalate 4 r false = (r, false) := by
    intro r hs
    have h1 : s.escalateOnce r false = (r, false) := by rw [State.escalateOnce, hs, hn]
    rw [State.escalate, h1]
    exact if_pos rfl
  have hcons : s.afterFence 0 = false := by rw [State.afterFence, hf, Bool.false_and]
  unfold State.notice
  rw [State.raise_eq, if_neg (by rw [State.consequence, hcons]; exact Bool.false_ne_true), hesc _ rfl]
  extract_lets x absorbed a c v
  have hv : v.getF .ERR_RAISED_S_COUNT = (s.bump .ERR_RAISED_S_COUNT).getF .ERR_RAISED_S_COUNT := by
    unfold State.getF
    exact congrArg (getBits · _ _) (State.regAt_place_low _ _ _ (Nat.zero_le 1) (by decide) (by decide) (by decide))
  rw [if_neg (show ¬absorbed = true from Bool.false_ne_true), State.act_none v x.1 rfl, hv]
  exact State.getF_bump_same s .ERR_RAISED_S_COUNT 1 0 (by decide)

/-! ### What holds of refused writes and holes -/

theorem exec_registerWrite_awake (s : State) (m : Master) (off size v : Nat) (ha : ∀ k, s.asleep k = false) :
    exec (.registerWrite m off size v) s = done (s.pmcAfter (s.writeReg m off size v)) := by
  rw [← State.regWrite_awake s m off size v ha]
  rfl

/-- The first part of the statement: a refused write only logs a notice. -/
theorem registerWrite_refused_frame (s : State) (m : Master) (off size v : Nat) (ha : ∀ k, s.asleep k = false) (h : s.refusesWrite m off size) :
    Answers (.registerWrite m off size v) s fun t =>
      (∀ k, errKey k = false → t.regAt k = s.regAt k) ∧ (∀ k, SMap.get 0 t.sel k = SMap.get 0 s.sel k) ∧ s.sameMemory t ∧ s.sameOps t ∧
        s.sameNet t ∧ s.sameTiers t ∧ s.sameHost t ∧ s.sameFabric t ∧ s.samePower t ∧ t.snap = s.snap ∧ s.sameTime t := by
  have hw : (s.writeReg m off size v).noErr = s.noErr ∧ s.sameOutsideErr (s.writeReg m off size v) := by
    rcases s.writeReg_refused m off size v h with e | ⟨b, n, e⟩
    · rw [e]; exact ⟨rfl, .refl s⟩
    · rw [e]; exact ⟨s.noErr_notice b n off, s.sameOutsideErr_notice b n off⟩
  have hz := (s.noErr_pmcAfter (s.writeReg m off size v)).trans hw.1
  have hk := hw.2.trans (s.sameOutsideErr_pmcAfter (s.writeReg m off size v))
  refine answers_of (exec_registerWrite_awake s m off size v ha) ⟨fun k e => ?_, fun k => ?_, ?_⟩
  · rw [State.canon_regAt, hk k e]
  · rw [State.canon_sel_get, State.sel_of_noErr hz]
  · simp only [State.sameMemory_canon, State.sameOps_canon, State.sameNet_canon, State.sameTiers_canon, State.sameHost_canon, State.sameFabric_canon,
      State.samePower_canon, State.canon_snap, State.sameTime_canon]
    exact ⟨State.sameMemory_of_noErr hz, State.sameOps_of_noErr hz, State.sameNet_of_noErr hz, State.sameTiers_of_noErr hz, State.sameHost_of_noErr hz,
      State.sameFabric_of_noErr hz, State.samePower_of_noErr hz, State.snap_of_noErr hz, State.sameTime_of_noErr hz⟩

/-- The second part, its read. -/
theorem readClear_hole (s : State) (m : Master) (off size : Nat) (hr : s.reached m = true) (hz : sizeOk off size = true) (h : s.inHole m off) :
    Answers (.readClear m off size) s fun t => t.out = .read off 0 :: s.out ∧ s.changesOnly t [.out] := by
  refine answers_of (x := s.emit (.read off 0)) (congrArg done (State.readReg_hole hr hz h)) ⟨rfl, ?_⟩
  rw [State.changesOnly_canon]
  exact State.changesOnly_emit _ (s.changesOnly_refl _) rfl

/-- The second part, its write: the notice is counted as S0 where nothing is being handled under no scope, which the statement does not ask for. -/
theorem registerWrite_hole (s : State) (m : Master) (off size v : Nat) (hr : s.reached m = true) (ha : ∀ k, s.asleep k = false)
    (hz : sizeOk off size = true) (h : s.inHole m off) :
    Answers (.registerWrite m off size v) s fun t => (∃ b, t = (s.pmcAfter (s.notice b nAccessHole off)).canon) ∧ s.changesOnly t noteParts ∧
      (∀ k, errKey k = false → t.regAt k = s.regAt k) ∧
      (s.fenced = false → s.handlingSev .none = none →
        t.getF .ERR_RAISED_S_COUNT = (s.getF .ERR_RAISED_S_COUNT + 1) % 2 ^ Fld.ERR_RAISED_S_COUNT.len) := by
  obtain ⟨b, hb⟩ := State.writeReg_hole hr hz h v
  have hx := exec_registerWrite_awake s m off size v ha
  rw [hb] at hx
  refine answers_of hx ⟨⟨b, rfl⟩, ?_, fun k e => ?_, fun hf hn => ?_⟩
  · rw [State.changesOnly_canon]
    exact State.changesOnly_of_noErr ((s.noErr_pmcAfter _).trans (s.noErr_notice b _ off))
  · rw [State.canon_regAt, s.sameOutsideErr_pmcAfter _ k e, s.sameOutsideErr_notice b _ off k e]
  · rw [State.canon_getF, State.getF_raised_pmcAfter, s.getF_raised_notice b _ off hf hn]

theorem State.reached_vf_of_disabled (s : State) (n : Nat) (h : s.board.vfEnable = false ∨ (s.vi n).enabled = false) : s.reached (.vf n) = false :=
  Bool.and_eq_false_iff.2 h

/-- The third part: no access of a disabled interface has an effect (R435). -/
theorem access_of_disabled_vf (s : State) (n off size v r : Nat) (h : s.board.vfEnable = false ∨ (s.vi n).enabled = false) :
    ∀ x ∈ [Instr.registerWrite (.vf n) off size v, .readClear (.vf n) off size, .viewSelectorWrite (.vf n) off size v, .sqDoorbell (.vf n) r v,
      .cqDoorbell (.vf n) r v, .ringEnable (.vf n) r, .ringDisable (.vf n) r], Answers x s fun t => t = s.canon := by
  have hr : (!s.reached (.vf n)) = true := by rw [s.reached_vf_of_disabled n h]; rfl
  have hw : s.pmcAfter (s.regWrite (.vf n) off size v) = s := by
    rw [s.regWrite_host _ _ _ _ rfl, s.writeReg_unreached _ _ _ _ (s.reached_vf_of_disabled n h), s.pmcAfter_self]
  simp only [List.forall_mem_cons, List.not_mem_nil, false_imp_iff, implies_true, and_true]
  exact ⟨answers_of (congrArg done hw) rfl, answers_of (congrArg done (if_pos hr)) rfl, answers_of (congrArg done (if_pos hr)) rfl,
    answers_of (congrArg done (if_pos hr)) rfl, answers_of (congrArg done (if_pos hr)) rfl, answers_of (congrArg done (if_pos hr)) rfl,
    answers_of (congrArg done (if_pos hr)) rfl⟩

/-! ### Settled: the statement of refused writes -/

/-- A module that is handling an S0 fault of no scope; the statement admits it, though `State.act` begins the handling of no such scope. -/
def noneHandled : State := { err := { handling := [(.none, 0)] } }

/-- The notice of a write into the hole at 0x0F00_0000 widens there four times (R551), and is counted as S4. -/
theorem noneHandled_counts_s4 :
    let t := noneHandled.notice (blockCode 0x0F000000) nAccessHole 0x0F000000
    t.getF .ERR_RAISED_S_COUNT = 0 ∧ t.getF .ERR_RAISED_S_COUNT (8 * 4) = 1 := by decide +kernel

/-- Refutes O7 by the count of S0 alone: in `noneHandled` a write into a hole leaves it at 0. What the statement says besides holds in every state
(`registerWrite_refused_frame`, `readClear_hole`, `registerWrite_hole`, `access_of_disabled_vf`). -/
theorem not_refusedWriteChangesNothing : ¬ Obligations.RefusedWriteChangesNothing := by
  rintro ⟨-, holes, -⟩
  have hd : descOf 0x0F000000 = none := by rw [← Option.isNone_iff_eq_none]; decide +kernel
  obtain ⟨-, t, ht, -, -, -, count⟩ := holes noneHandled .pf 0x0F000000 8 0 rfl (fun _ => rfl) rfl (.inr ⟨0x0F000000, by decide +kernel, hd, rfl⟩) nofun
  have hx := exec_registerWrite_awake noneHandled .pf 0x0F000000 8 0 fun _ => rfl
  rw [State.writeReg_noRegister rfl rfl (by decide +kernel) 0 hd rfl, ht] at hx
  obtain rfl := Host.Outcome.next.inj hx
  have h := count (by decide +kernel)
  rw [State.canon_getF, State.getF_raised_pmcAfter, noneHandled_counts_s4.1] at h
  exact absurd h (by decide +kernel)

end Sys2Proof.Machine

namespace Sys2Proof.Machine

/-! ### Settled: engine results that take two stores or a free value (R73 to R77, R86, R87, R90, R113) -/

/-! What the operand store's contents decide: every read of operands and every store of packed lines. -/

@[simp] theorem State.numFlags_ops (s : State) (u fl ovf ftz clamps : Nat) : (s.numFlags u fl ovf ftz clamps).ops = s.ops := by
  simp only [State.numFlags, State.bump_ops, State.regPut_ops]

section
variable {s t : State} (h : t.ops = s.ops)
include h

theorem State.opBits_congr (u line pos w : Nat) : t.opBits u line pos w = s.opBits u line pos w := by
  unfold State.opBits
  simp only [State.opLine_congr t s h]

theorem State.opElem_congr (u line code k : Nat) : t.opElem u line code k = s.opElem u line code k := State.opBits_congr h u line _ _

theorem State.vecIn_congr (u line code n : Nat) : t.vecIn u line code n = s.vecIn u line code n := by
  unfold State.vecIn
  simp only [State.opElem_congr h]

theorem State.cvtIn_congr (u e : Nat) : t.cvtIn u e = s.cvtIn u e := by
  unfold State.cvtIn
  simp only [State.opElem_congr h, State.opBits_congr h]

theorem State.ops_setOpLine_congr (u l : Nat) (x : OpLine) : (t.setOpLine u l x).ops = (s.setOpLine u l x).ops := by
  simp only [State.setOpLine, h]

theorem State.ops_putOps_congr (u line tag : Nat) (ls : List (Line × Bool)) : (t.putOps u line tag ls).ops = (s.putOps u line tag ls).ops := by
  unfold State.putOps
  generalize ls.zipIdx = l
  induction l generalizing s t with
  | nil => exact h
  | cons x r ih => exact ih (State.ops_setOpLine_congr h u _ _)

/-- A result vector is stored as its packed lines; recording its flags stores none. -/
theorem State.ops_vecOut (u line code : Nat) (rs : List (NR × Bool)) :
    (t.vecOut u line code rs).ops = (s.putOps u line code (linesOf code rs)).ops := by
  unfold State.vecOut linesOf
  exact State.ops_putOps_congr ((t.numFlags_ops ..).trans h) u line code _

end

/-! What a catch makes of the operand store: what its engine's work makes of it. -/

theorem State.ops_beginCatch (s : State) (u : Nat) : (s.beginCatch u).ops = s.ops := by
  have h : (s.beginCatch u).noFlow.ops = s.noFlow.ops := by rw [s.noFlow_beginCatch u]
  exact h

theorem State.plane_beginCatch (s : State) (u p : Nat) : (s.beginCatch u).plane u p = s.plane u p :=
  State.plane_congr _ s (s.beginCatch_parts u).1 u p

theorem State.ops_fire (s : State) (u : Nat) (work : State → Nat → Nat → Nat → Work) (size : Nat → Nat → Nat × Nat) :
    (s.fire u work size).ops = (s.workOf u work size).s.ops := by
  have h : (s.fire u work size).noFlow.ops = (s.workOf u work size).s.noFlow.ops := by rw [s.noFlow_fire u work size]
  exact h

theorem State.workOf_live (s : State) (u : Nat) (work : State → Nat → Nat → Nat → Work) (size : Nat → Nat → Nat × Nat)
    (hs : (s.plane u (s.curPlane u)).suppresses (s.curEntry u) = false) :
    s.workOf u work size = work (s.beginCatch u) u (s.curPlane u) (s.curEntry u) :=
  if_neg (by rw [hs]; exact Bool.false_ne_true)

/-- The command of an entry that fires unsuppressed leaves the operand store as the entry's work left it. -/
theorem answers_workOps {i : Instr} {s : State} {u : Nat} {mine : Nat → Bool} {work : State → Nat → Nat → Nat → Work}
    (hi : exec i s = done (s.catchEntry u mine work)) (hf : s.fires u mine = true)
    (hs : (s.plane u (s.curPlane u)).suppresses (s.curEntry u) = false) :
    Answers i s (work (s.beginCatch u) u (s.curPlane u) (s.curEntry u)).s.sameOps := by
  refine answers_of hi ((State.sameOps_canon _ _).2 (State.sameOps_of _ _ ?_))
  rw [s.catchEntry_fires u mine work entrySize hf, s.ops_fire, s.workOf_live u work entrySize hs]

theorem Answers.imp {i : Instr} {s : State} {P Q : State → Prop} (h : Answers i s P) (hpq : ∀ t, P t → Q t) : Answers i s Q :=
  Exists.imp (fun t ⟨hx, hp⟩ => ⟨hx, hpq t hp⟩) h

/-- Where the work's stores are those of `x`, the command leaves the operand store as `x` has it. -/
theorem answers_workOps_eq {i : Instr} {s x : State} {u : Nat} {mine : Nat → Bool} {work : State → Nat → Nat → Nat → Work}
    (hi : exec i s = done (s.catchEntry u mine work)) (hf : s.fires u mine = true)
    (hs : (s.plane u (s.curPlane u)).suppresses (s.curEntry u) = false)
    (hx : (work (s.beginCatch u) u (s.curPlane u) (s.curEntry u)).s.ops = x.ops) : Answers i s x.sameOps :=
  (answers_workOps hi hf hs).imp fun _ ht v l => (ht v l).trans (State.opLine_congr _ _ hx v l)

theorem fires_mine {s : State} {u : Nat} {m : Nat → Bool} (h : s.fires u m = true) : m (s.curEntry u) = true := by
  simp only [State.fires, Bool.and_eq_true] at h
  obtain ⟨⟨⟨⟨⟨-, h⟩, -⟩, -⟩, -⟩, -⟩ := h
  exact h

/-- What fires as an entry of a kind fires as one of any wider kind. -/
theorem fires_mono {s : State} {u : Nat} {m n : Nat → Bool} (h : s.fires u m = true) (hmn : ∀ e, m e = true → n e = true) : s.fires u n = true := by
  have hm := hmn _ (fires_mine h)
  simp only [State.fires, Bool.and_eq_true] at h ⊢
  obtain ⟨⟨⟨⟨⟨he, -⟩, hc⟩, ht⟩, hl⟩, hp⟩ := h
  exact ⟨⟨⟨⟨⟨he, hm⟩, hc⟩, ht⟩, hl⟩, hp⟩

theorem enFormat_of_isForm {c f e : Nat} (h : isForm c f e = true) : enFormat e = f := by
  simp only [isForm, Bool.and_eq_true, beq_iff_eq] at h
  exact h.2

/-! What each engine's work stores. -/

/-- The scalar results of a CVT (R73 to R75). -/
def State.cvtScalars (s : State) (u e nc : Nat) : List (NR × Bool) :=
  (s.cvtIn u e).map fun x =>
    (if enSrcFmt e = 9 then wideToF32 x.1 else if mxTag (enSrcFmt e) then cvtMx (enDstFmt e) nc (mxVal (enSrcFmt e) x.2.1 x.1)
      else cvtScalar (enSrcFmt e) (enDstFmt e) nc x.1, x.2.2)

/-- The MX blocks of a CVT: scale, elements and flags, with poison (R87). -/
def State.cvtBlocks (s : State) (u e nc : Nat) : List ((Nat × List Nat × Nat) × Bool) :=
  (groupsOf (2 * enLen e) ((s.cvtIn u e).map fun x =>
    (if mxTag (enSrcFmt e) then mxVal (enSrcFmt e) x.2.1 x.1 else f32 (widen (enSrcFmt e) x.1), x.2.2))).map
      fun g => (narrowBlock (enDstFmt e) nc (g.map (·.1)), g.any (·.2))

/-- The record of a row of values: a record a lane, then the tree (R113). -/
def rowRecord (lane : MR → Nat → MR) (seed : StatRec) (n : Nat) (xs : List Nat) : MR :=
  statTree ((vectorsOf n xs).foldl (fun (ls : List MR) v => ls.zipWith lane v) (List.replicate 64 ⟨seed, 0, 0⟩))

/-- Line DST after an ACC or RMS_ACC: the row's record in slot RSLOT, with CONT merged behind the one that stood there (R113). -/
def State.statRowLine (s : State) (lane : MR → Nat → MR) (seed : StatRec) (u e : Nat) : OpLine :=
  let xs := s.vecIn u (enSrcA e) (enDstFmt e) (enLen e)
  let row := rowRecord lane seed (enLen e) (xs.map (·.1))
  let slot := natBits (enFlags e) 5 2
  let d := (s.opLine u (enDst e)).data.toNat
  let r := if natBit (enFlags e) 4 then (statMerge (StatRec.ofBits (natBits d (128 * slot) 128)) row.r).r else row.r
  { data := BitVec.ofNat 512 (d - natBits d (128 * slot) 128 * 2 ^ (128 * slot) + r.toBits * 2 ^ (128 * slot)), tag := 15,
    poison := (s.opLine u (enDst e)).poison || xs.any (·.2) }

section
variable {s t : State} (h : t.ops = s.ops)
include h

theorem State.cvtScalars_congr (u e nc : Nat) : t.cvtScalars u e nc = s.cvtScalars u e nc := by
  unfold State.cvtScalars
  rw [State.cvtIn_congr h]

theorem State.cvtBlocks_congr (u e nc : Nat) : t.cvtBlocks u e nc = s.cvtBlocks u e nc := by
  unfold State.cvtBlocks
  rw [State.cvtIn_congr h]

theorem State.statRowLine_congr (lane : MR → Nat → MR) (seed : StatRec) (u e : Nat) :
    t.statRowLine lane seed u e = s.statRowLine lane seed u e := by
  unfold State.statRowLine
  simp only [State.vecIn_congr h, State.opLine_congr t s h]

theorem ops_workReduce (f : Nat → Nat → NR) (u p e : Nat) :
    (workReduce f t u p e).s.ops = (s.putOps u (enDst e) 0 (linesOf 0
      ((vectorsOf (enLen e) (s.vecIn u (enSrcA e) (enSrcFmt e) (enLen e))).flatMap (reduceVector f (enFormat e))))).ops := by
  unfold workReduce
  rw [State.ops_vecOut h, State.vecIn_congr h]

theorem ops_workVecAdd_wide (u p e : Nat) (hd : enDstFmt e = 9) :
    (workVecAdd t u p e).s.ops = (s.putOps u (enDst e) 9 (linesOf 9 (vecLanes wideAdd
      ((List.range (64 * enLen e)).map fun k => s.opElem u (enDst e) 9 k)
      ((List.range (64 * enLen e)).map fun k =>
        let x := s.opElem u (enSrcA e) (enSrcFmt e) k
        (if enSrcFmt e = 9 then x.1 else widenWide (widen (enSrcFmt e) x.1), x.2))))).ops := by
  unfold workVecAdd
  rw [if_pos hd, State.ops_vecOut h]
  simp only [State.opElem_congr h]

section
variable {u p e : Nat} (hp : t.plane u p = s.plane u p)
include hp

theorem ops_workVecCvt_scalar (hd : mxTag (enDstFmt e) = false) :
    (workVecCvt t u p e).s.ops =
      (s.putOps u (enDst e) (enDstFmt e) (linesOf (enDstFmt e) (s.cvtScalars u e (recNumctl (s.plane u p).cfg)))).ops := by
  rw [← State.cvtScalars_congr h, ← hp]
  unfold workVecCvt
  extract_lets nc sf df xs scaleNan vals gs a b rs c
  rw [if_neg (by rw [hd]; exact Bool.false_ne_true)]
  exact State.ops_vecOut ((t.numFlags_ops ..).trans h) u (enDst e) df rs

theorem ops_workVecCvt_mx (hd : mxTag (enDstFmt e) = true) :
    let gs := s.cvtBlocks u e (recNumctl (s.plane u p).cfg)
    (workVecCvt t u p e).s.ops =
      ((s.putOps u (enDst e) 15 (packLines (codeBits (enDstFmt e)) (gs.flatMap fun g => g.1.2.1.map fun b => (b, g.2)))).putOps
        u (enSrcB e) (enDstFmt e) (packLines 8 (gs.map fun g => (g.1.1, g.2)))).ops := by
  rw [← State.cvtBlocks_congr h, ← hp]
  unfold workVecCvt
  extract_lets gs nc sf df xs scaleNan vals blocks a b rs c
  rw [if_pos hd]
  exact State.ops_putOps_congr (State.ops_putOps_congr ((t.numFlags_ops ..).trans h) u _ _ _) u _ _ _

end

theorem ops_workStatRow (lane : MR → Nat → MR) (seed : StatRec) (u p e : Nat) :
    (workStatRow lane seed t u p e).s.ops = (s.setOpLine u (enDst e) (s.statRowLine lane seed u e)).ops := by
  rw [← State.statRowLine_congr h]
  unfold workStatRow State.statRowLine rowRecord
  extract_lets n xs lanes row slot line old cont k m a w xs' row' d r
  have hm : m.r = if cont = true then k.r else row.r := by
    unfold m
    split <;> rfl
  have hw : w = d - natBits d (128 * slot) 128 * 2 ^ (128 * slot) + r.toBits * 2 ^ (128 * slot) := by
    unfold w
    rw [hm]
  rw [hw]
  exact State.ops_setOpLine_congr ((t.numFlags_ops ..).trans h) u _ _

end

/-! The four parts of the statement. -/

section
variable {s : State} {u : Nat} (hs : (s.plane u (s.curPlane u)).suppresses (s.curEntry u) = false)
include hs

theorem answers_reduce {i : Instr} {op : Nat} {f : Nat → Nat → NR} (hi : exec i s = done (s.catchEntry u (isForm 2 op) (workReduce f)))
    (hf : s.fires u (isForm 2 op) = true) : let e := s.curEntry u
    Answers i s (s.putOps u (enDst e) 0 (linesOf 0
      ((vectorsOf (enLen e) (s.vecIn u (enSrcA e) (enSrcFmt e) (enLen e))).flatMap (reduceVector f op)))).sameOps := by
  refine answers_workOps_eq hi hf hs ?_
  rw [ops_workReduce (s.ops_beginCatch u), enFormat_of_isForm (fires_mine hf)]

theorem answers_statRow {i : Instr} {op : Nat} {lane : MR → Nat → MR} {seed : StatRec}
    (hi : exec i s = done (s.catchEntry u (isForm 11 op) (workStatRow lane seed))) (hf : s.fires u (isForm 11 op) = true) :
    Answers i s (s.setOpLine u (enDst (s.curEntry u)) (s.statRowLine lane seed u (s.curEntry u))).sameOps :=
  answers_workOps_eq hi hf hs (ops_workStatRow (s.ops_beginCatch u) lane seed u _ _)

end

/-- Settles O10: a catch leaves the operand store as the entry's work left it (`answers_workOps`), and each work comes down to the stores stated
(`ops_workReduce`, `ops_workVecAdd_wide`, `ops_workVecCvt_scalar`, `ops_workVecCvt_mx`, `ops_workStatRow`). -/
theorem engineResultsWithFreeLanes : Obligations.EngineResultsWithFreeLanes := by
  refine ⟨fun s u x hx hf => ?reduce, fun s u hf => ?wide, fun s u hf => ?cvt, fun s u x hx hf => ?row⟩
  case reduce =>
    intro e hs
    simp only [List.mem_cons, List.not_mem_nil, or_false] at hx
    rcases hx with rfl | rfl
    · exact answers_reduce hs rfl hf
    · exact answers_reduce hs rfl hf
  case wide =>
    intro e hs
    have hd : enDstFmt e = 9 := eq_of_beq (Bool.and_eq_true_iff.1 (fires_mine hf)).2
    exact answers_workOps_eq rfl (fires_mono hf fun _ he => (Bool.and_eq_true_iff.1 he).1) hs (ops_workVecAdd_wide (s.ops_beginCatch u) u _ e hd)
  case cvt =>
    intro e nc sf hs
    have ho := s.ops_beginCatch u
    have hp := s.plane_beginCatch u (s.curPlane u)
    refine (answers_workOps (work := workVecCvt) rfl hf hs).imp fun t ht => ⟨fun hd v l => ?scalar, fun hd => ?mx⟩
    case scalar => exact (ht v l).trans (State.opLine_congr _ _ (ops_workVecCvt_scalar ho hp hd) v l)
    case mx =>
      intro gs v l
      exact (ht v l).trans (State.opLine_congr _ _ (ops_workVecCvt_mx ho hp hd) v l)
  case row =>
    intro e xs row slot d r hs
    simp only [List.mem_cons, List.not_mem_nil, or_false] at hx
    rcases hx with rfl | rfl
    · exact answers_statRow hs rfl hf
    · exact answers_statRow hs rfl hf

end Sys2Proof.Machine

namespace Sys2Proof.Machine

/-! ### Settled: fold schedules advance, commit, install and rebuild (R161, R168, R184) -/

/-- A value that is not the default is listed. -/
theorem SMap.mem_of_get_ne {α : Type} (d : α) (m : SMap α) (k : Nat) (h : m.get d k ≠ d) : (k, m.get d k) ∈ m := by
  induction m with
  | nil => exact absurd rfl h
  | cons p r ih =>
    obtain ⟨j, v⟩ := p
    unfold SMap.get at h ⊢
    split at h <;> rename_i e
    · rw [if_pos e, ← e]; exact List.mem_cons_self ..
    · rw [if_neg e]; exact List.mem_cons_of_mem _ (ih h)

/-- A change of every value under its key that leaves the default alone is read where the key is. -/
theorem SMap.get_map {α : Type} (d : α) (m : SMap α) (f : Nat × α → α) (k : Nat) (hf : f (k, d) = d) :
    SMap.get d (m.map fun p => (p.1, f p)) k = f (k, m.get d k) := by
  induction m with
  | nil => exact hf.symm
  | cons p r ih =>
    obtain ⟨j, v⟩ := p
    simp only [List.map_cons, SMap.get]
    split <;> rename_i e
    · rw [e]
    · exact ih

theorem State.changes_setF (s : State) (f : Fld) (v d : Nat) : s.changes (s.setF f v d) [f.reg + d] [] :=
  ⟨State.changesOnly_setF _ _ _ (s.changesOnly_refl _) rfl, s.sameRegsBut_setF f v d _ (List.contains_iff_mem.2 (List.mem_singleton.2 rfl))⟩

@[simp] theorem State.changes_canon (s t : State) (keys : List Nat) (ps : List Part) : s.changes t.canon keys ps ↔ s.changes t keys ps :=
  and_congr (s.changesOnly_canon t _) (s.sameRegsBut_canon t _)

/-- A write to an awake seat acts at once (R526). -/
theorem State.holdFor_awake (s : State) (m : Master) (k : Nat) (w : HeldWrite) (act : State → State) (h : s.asleep k = false) :
    s.holdFor m k w act = act s :=
  if_pos (by rw [h]; rfl)

/-! What writing and installing a schedule may change. -/

section
variable {s t : State} {ps : List Part}

theorem State.changesOnly_writeShadow (u y : Nat) (es : List (Nat × Nat)) (h : s.changesOnly t ps) (hr : ps.contains .regs = true) :
    s.changesOnly (t.writeShadow u y es) ps :=
  State.changesOnly_setF _ _ _ (State.changesOnly_setF _ _ _
    (State.changesOnly_foldl h fun _ _ hz => State.changesOnly_setF _ _ _ (State.changesOnly_setF _ _ _ hz hr) hr) hr) hr

theorem State.changesOnly_setFolds (u : Nat) (fs : List (Nat × Nat)) (h : s.changesOnly t ps) (hr : ps.contains .regs = true)
    (hu : ps.contains .units = true) : s.changesOnly (t.setFolds u fs) ps :=
  State.changesOnly_setF _ _ _ (State.changesOnly_setF _ _ _ (State.changesOnly_setUnit _ _ h hu) hr) hr

theorem State.changesOnly_stepShares (u : Nat) (h : s.changesOnly t ps) (hc : ps.contains .ctxs = true) : s.changesOnly (t.stepShares u) ps :=
  State.changesOnly_foldl h fun _ _ hz => State.changesOnly_setCtx _ _ hz hc

end

/-! The schedule put in force. -/

theorem State.setFolds_unit (s : State) (u : Nat) (fs : List (Nat × Nat)) :
    (s.setFolds u fs).unit u = { s.unit u with folds := fs, moved := 0, yielded := false } := by
  simp only [State.setFolds, State.setF_unit, State.unit_setUnit, if_true]

theorem State.setFolds_pend (s : State) (u : Nat) (fs : List (Nat × Nat)) : (s.setFolds u fs).getF .UNIT_FOLD_CTRL_PEND (unitOff u) = 0 :=
  State.getF_setF_same _ _ _ _ (by decide)

/-! A rebuild, unit by unit. -/

/-- FOLD_REBUILD on one unit. -/
def State.rebuildUnit (s : State) (u : Nat) : State :=
  if (s.unitCtxs u).length ≤ 1 then s
  else
    let s := s.stepShares u
    (s.writeShadow u (s.combined u).1 (s.combined u).2).setF .UNIT_FOLD_CTRL_PEND 1 (unitOff u)

/-- The units of a seat that hold a valid plane. -/
def State.planeUnits (s : State) (seat : Nat) : List Nat :=
  ((s.planes.filter fun p => p.2.valid && seatOf (p.1 / 8) == seat).map fun p => p.1 / 8).eraseDups

/-- A new period begins on a unit of the seat. -/
def newPeriod (seat : Nat) (p : Nat × UnitSt) : UnitSt := if seatOf p.1 = seat then { p.2 with periodNs := [] } else p.2

theorem State.foldRebuild_awake (s : State) (seat : Nat) (h : s.asleep seat = false) :
    let t := (s.planeUnits seat).foldl State.rebuildUnit s
    s.foldRebuild seat = { t with units := t.units.map fun p => (p.1, newPeriod seat p) } := by
  unfold State.foldRebuild
  rw [if_neg (by rw [h]; exact Bool.false_ne_true)]
  have hp : (fun p : Nat × UnitSt => if seatOf p.1 == seat then (p.1, { p.2 with periodNs := [] }) else p) = fun p => (p.1, newPeriod seat p) := by
    funext p
    unfold newPeriod
    by_cases hs : seatOf p.1 = seat
    · rw [if_pos hs, if_pos (beq_iff_eq.2 hs)]
    · rw [if_neg hs, if_neg (mt beq_iff_eq.1 hs)]
  simp only [hp]
  rfl

theorem State.changesOnly_rebuildUnit {s t : State} {ps : List Part} (u : Nat) (h : s.changesOnly t ps) (hr : ps.contains .regs = true)
    (hc : ps.contains .ctxs = true) : s.changesOnly (t.rebuildUnit u) ps :=
  State.changesOnly_ite h (State.changesOnly_setF _ _ _ (State.changesOnly_writeShadow _ _ _ (State.changesOnly_stepShares u h hc) hr) hr)

theorem State.rebuildUnit_planes (s : State) (u : Nat) : (s.rebuildUnit u).planes = s.planes :=
  State.changesOnly_rebuildUnit u (s.changesOnly_refl [.regs, .ctxs]) rfl rfl .planes rfl

theorem State.unitCtxs_congr {s t : State} (h : t.planes = s.planes) (u : Nat) : t.unitCtxs u = s.unitCtxs u := by
  simp only [State.unitCtxs, State.plane_congr t s h]

theorem State.combined_length (s : State) (u : Nat) : (s.combined u).2.length ≤ 8 := by
  unfold State.combined
  extract_lets cs parts es all all'
  split
  · exact Nat.zero_le _
  · exact List.length_take_le _ _

/-- The shadow set of a unit lies apart from the PEND bit of every unit. -/
theorem State.writeShadow_pend (s : State) (u v y : Nat) (es : List (Nat × Nat)) (h : es.length ≤ 8) :
    (s.writeShadow v y es).getF .UNIT_FOLD_CTRL_PEND (unitOff u) = s.getF .UNIT_FOLD_CTRL_PEND (unitOff u) := by
  have apart : ∀ i < 8, Reg.UNIT_FOLD_CTRL + unitOff u ≠ Reg.UNIT_FOLD + (unitOff v + 8 * i) := by
    intro i hi
    simp only [Reg.UNIT_FOLD_CTRL, Reg.UNIT_FOLD, unitOff, seatOff, seatStride]
    omega
  have entries : ∀ (l : List ((Nat × Nat) × Nat)), (∀ e ∈ l, e.2 < 8) → ∀ t : State,
      (l.foldl (fun (s : State) (e : (Nat × Nat) × Nat) => (s.setF .UNIT_FOLD_PLANE e.1.1 (unitOff v + 8 * e.2)).setF .UNIT_FOLD_BEATS e.1.2 (unitOff v + 8 * e.2)) t).getF
        .UNIT_FOLD_CTRL_PEND (unitOff u) = t.getF .UNIT_FOLD_CTRL_PEND (unitOff u) := by
    intro l hl
    induction l with
    | nil => exact fun _ => rfl
    | cons e r ih =>
      intro t
      have he := apart e.2 (hl e (List.mem_cons_self ..))
      rw [List.foldl_cons, ih fun x hx => hl x (List.mem_cons_of_mem _ hx)]
      exact (State.getF_setF_other _ _ _ _ _ _ he).trans (State.getF_setF_other _ _ _ _ _ _ he)
  have small : ∀ e ∈ es.zipIdx, e.2 < 8 := fun e he => by
    have := (List.mem_zipIdx' he).1
    omega
  exact (State.getF_setF_disjoint _ _ _ _ _ _ (by decide) (by decide)).trans
    ((State.getF_setF_disjoint _ _ _ _ _ _ (by decide) (by decide)).trans (entries _ small s))

theorem State.rebuildUnit_pend (s : State) (u : Nat) (h : 1 < (s.unitCtxs u).length) :
    (s.rebuildUnit u).getF .UNIT_FOLD_CTRL_PEND (unitOff u) = 1 := by
  unfold State.rebuildUnit
  rw [if_neg (Nat.not_le.2 h)]
  exact State.getF_setF_same _ _ _ _ (by decide)

/-- A unit's rebuild clears no unit's PEND. -/
theorem State.rebuildUnit_keeps_pend (s : State) (u v : Nat) (h : s.getF .UNIT_FOLD_CTRL_PEND (unitOff u) = 1) :
    (s.rebuildUnit v).getF .UNIT_FOLD_CTRL_PEND (unitOff u) = 1 := by
  unfold State.rebuildUnit
  split
  · exact h
  · by_cases hv : unitOff u = unitOff v
    · rw [hv]; exact State.getF_setF_same _ _ _ _ (by decide)
    · have hs : (s.stepShares v).getF .UNIT_FOLD_CTRL_PEND (unitOff u) = s.getF .UNIT_FOLD_CTRL_PEND (unitOff u) :=
        congrArg (getBits · 20 1) (State.changesOnly_stepShares v (s.changesOnly_refl [.ctxs]) rfl .regs rfl _)
      refine (State.getF_setF_other _ _ _ _ _ _ fun e => hv (Nat.add_left_cancel e)).trans ?_
      rw [State.writeShadow_pend _ _ _ _ _ (State.combined_length _ _), hs, h]

theorem State.rebuildUnits_pend (us : List Nat) (s : State) (u : Nat) (hu : u ∈ us ∨ s.getF .UNIT_FOLD_CTRL_PEND (unitOff u) = 1)
    (h : 1 < (s.unitCtxs u).length) : (us.foldl State.rebuildUnit s).getF .UNIT_FOLD_CTRL_PEND (unitOff u) = 1 := by
  induction us generalizing s with
  | nil => exact hu.resolve_left List.not_mem_nil
  | cons v r ih =>
    refine ih (s.rebuildUnit v) ?_ (by rw [State.unitCtxs_congr (s.rebuildUnit_planes v)]; exact h)
    rcases hu with hu | hu
    · rcases List.mem_cons.1 hu with rfl | hu
      · exact .inr (s.rebuildUnit_pend u h)
      · exact .inl hu
    · exact .inr (s.rebuildUnit_keeps_pend u v hu)

theorem State.mem_planeUnits (s : State) {u p seat : Nat} (hp : p < 8) (hv : (s.plane u p).valid = true) (hs : seatOf u = seat) :
    u ∈ s.planeUnits seat := by
  have hk : planeKey u p / 8 = u := by unfold planeKey; omega
  have hm : (planeKey u p, s.plane u p) ∈ s.planes := SMap.mem_of_get_ne _ _ _ fun e => by
    rw [State.plane, e] at hv
    exact Bool.noConfusion hv
  refine List.mem_eraseDups.2 (List.mem_map.2 ⟨_, List.mem_filter.2 ⟨hm, ?_⟩, hk⟩)
  rw [hv, hk, hs, beq_self_eq_true]
  rfl

theorem State.foldRebuild_frame (s : State) (seat : Nat) (h : s.asleep seat = false) :
    s.changesOnly (s.foldRebuild seat) [.regs, .units, .ctxs] := by
  rw [s.foldRebuild_awake seat h]
  exact State.changesOnly_units _ (State.changesOnly_foldl (s.changesOnly_refl _) fun _ _ hz => State.changesOnly_rebuildUnit _ hz rfl rfl) rfl

/-- Every unit of the seat that holds planes of two contexts waits for the wrap, and counts anew. -/
theorem State.foldRebuild_unit (s : State) (seat u p : Nat) (h : s.asleep seat = false) (hp : p < 8) (hv : (s.plane u p).valid = true)
    (hs : seatOf u = seat) (hc : 1 < (s.unitCtxs u).length) :
    (s.foldRebuild seat).getF .UNIT_FOLD_CTRL_PEND (unitOff u) = 1 ∧ ((s.foldRebuild seat).unit u).periodNs = [] := by
  rw [s.foldRebuild_awake seat h]
  refine ⟨State.rebuildUnits_pend _ s u (.inl (s.mem_planeUnits hp hv hs)) hc, ?_⟩
  have hd : newPeriod seat (u, {}) = {} := by unfold newPeriod; rw [if_pos hs]
  rw [State.unit, SMap.get_map _ _ _ _ hd, newPeriod, if_pos hs]

/-- Settles O18: each command is one write of the unit's schedule or of PEND; a rebuild goes unit by unit, and no unit's rebuild clears another's PEND
(`State.rebuildUnits_pend`). -/
theorem foldSchedules : Obligations.FoldSchedules := by
  refine ⟨fun s u y => ?advance, fun s m u hm hu ha => ?commit, fun s u y => ?install, fun s seat ha => ?rebuild⟩
  case advance =>
    intro fs n hne hd hw
    have hx : s.foldAdvance u y = (s.setUnit u { s.unit u with moved := 0, yielded := y }).setF .UNIT_FOLD_CTRL_CUR n.1 (unitOff u) :=
      if_neg (by rw [decide_eq_false hne, hd, hw]; exact Bool.false_ne_true)
    refine answers_of (congrArg done hx) ?_
    simp only [State.canon_getF, State.canon_unit, State.changesOnly_canon, State.setF_unit, State.unit_setUnit, if_true, true_and]
    exact ⟨State.getF_setF_same _ _ _ _ (by decide), rfl, State.changesOnly_setF _ _ _ (State.changesOnly_setUnit _ _ (s.changesOnly_refl _) rfl) rfl⟩
  case commit =>
    have hx : s.foldCommit m u = s.setF .UNIT_FOLD_CTRL_PEND 1 (unitOff u) :=
      (if_neg (by rw [hu]; exact Bool.false_ne_true)).trans (if_neg (by rw [hm]; exact Bool.false_ne_true))
    refine answers_of (congrArg done ((s.holdFor_awake m _ _ _ ha).trans hx)) ?_
    simp only [State.canon_getF, State.changes_canon]
    exact ⟨State.getF_setF_same _ _ _ _ (by decide), s.changes_setF _ _ _⟩
  case install =>
    intro fs hp hw
    have hx : s.foldInstall u y = s.setFolds u (s.shadowFolds u) := by
      refine if_neg ?_
      rcases hw with hw | ⟨hw, hd⟩
      · rw [hp, show (s.unit u).folds = [] from hw]; exact Bool.false_ne_true
      · rw [hp, hw, hd, Bool.and_true, Bool.or_true]; exact Bool.false_ne_true
    refine answers_of (congrArg done hx) ?_
    simp only [State.canon_getF, State.canon_unit, State.changesOnly_canon, State.setFolds_unit, State.setFolds_pend, true_and]
    exact State.changesOnly_setFolds _ _ (s.changesOnly_refl _) rfl rfl
  case rebuild =>
    refine answers_of rfl ?_
    simp only [State.canon_getF, State.canon_unit, State.changesOnly_canon]
    exact ⟨s.foldRebuild_frame seat ha, fun u p hp hv hs hc => s.foldRebuild_unit seat u p ha hp hv hs hc⟩

end Sys2Proof.Machine

namespace Sys2Proof.Machine

/-! ### Settled: loading rigs (R162 to R167, R240) and the rig wave (R172 to R178)

A context's first load and a wave that is complete queue the runs that waited for the rig anew and launch a step's (R240, R482); a launch writes the lines
that its streams have staged (R241). In a run a stream is of a command queued before it, so a command queued anew has none staged. The two statements
do not ask for that: both fail where a stream is filed under the number of a command yet to be queued. -/

/-! What runs queued anew change, where every stream is of a command that has been queued. -/

/-- Every stream is of a command that has been queued. -/
def State.instsNumbered (s : State) : Prop := ∀ x ∈ s.streams.insts, x.cmd < s.streams.nextId

/-- The unlaunched commands that `is` picks have numbers from `n` up, and no stream of such a number has a request. -/
def State.freshFrom (s : State) (n : Nat) (is : SeatCmd → Bool) : Prop :=
  n ≤ s.streams.nextId ∧ (∀ k ∈ s.streams.cmds, is k = true → k.launched = false → n ≤ k.id) ∧ ∀ x ∈ s.streams.insts, n ≤ x.cmd → x.reqs = []

theorem State.freshFrom_queueRun {s : State} {n : Nat} {is : SeatCmd → Bool} (h : s.freshFrom n is) (r : RigSt) (mask step job : Nat)
    (cmd : Option (Nat × Nat)) (purpose arg : Nat) : (s.queueRun r mask step job cmd purpose arg).freshFrom n is := by
  refine List.foldlRecOn (motive := fun z : State => z.freshFrom n is) _ _ h fun z hz k _ => ?_
  obtain ⟨hid, hcmds, hinsts⟩ := hz
  dsimp only
  split
  · exact ⟨hid, hcmds, hinsts⟩
  · refine ⟨Nat.le_add_right_of_le (Nat.le_succ_of_le hid), fun c hc => ?_, fun x hx => ?_⟩
    · rcases List.mem_append.1 hc with hc | hc
      · exact hcmds c hc
      · rw [List.mem_singleton.1 hc]; exact fun _ _ => hid
    · rcases List.mem_append.1 hx with hx | hx
      · exact hinsts x hx
      · obtain ⟨i, hi, rfl⟩ := List.mem_mapIdx.1 hx
        exact fun _ => rfl

section
variable {s t : State} {ps : List Part}

theorem State.changesOnly_queueRun (r : RigSt) (mask step job : Nat) (cmd : Option (Nat × Nat)) (purpose arg : Nat) (h : s.changesOnly t ps)
    (hs : ps.contains .streams = true) : s.changesOnly (t.queueRun r mask step job cmd purpose arg) ps :=
  State.changesOnly_foldl h fun _ _ hz => State.changesOnly_ite hz (State.changesOnly_streams _ hz hs)

theorem State.changesOnly_sweepStreams (h : s.changesOnly t ps) (hp : ∀ p ∈ ([.regs, .streams, .rings, .out] : List Part), ps.contains p = true) :
    s.changesOnly t.sweepStreams ps := by
  refine State.changesOnly_foldl (State.changesOnly_streams _ (State.changesOnly_streams _ h (hp _ (by decide))) (hp _ (by decide))) fun z k hz => ?_
  split
  · refine State.changesOnly_ite hz ?_
    split
    · exact State.changesOnly_complete _ _ _ _ hz (Part.sub hp)
    · exact hz
  · exact hz

/-- A launch of commands whose streams have no request yet lands nothing. -/
theorem State.changesOnly_launchCmds {n : Nat} {is : SeatCmd → Bool} (h : s.changesOnly t ps) (hf : t.freshFrom n is)
    (hp : ∀ p ∈ ([.regs, .streams, .rings, .out] : List Part), ps.contains p = true) : s.changesOnly (t.launchCmds is) ps := by
  obtain ⟨-, hcmds, hinsts⟩ := hf
  refine State.changesOnly_sweepStreams ?_ hp
  refine List.foldlRecOn (motive := fun z : State => s.changesOnly z ps) _ _ (State.changesOnly_streams _ h (hp _ (by decide))) fun z hz x hx => ?_
  obtain ⟨hx, hid⟩ := List.mem_filter.1 hx
  obtain ⟨k, hk, hkx⟩ := List.mem_map.1 (List.contains_iff_mem.1 (Bool.and_eq_true_iff.1 hid).1)
  obtain ⟨hk, hpick⟩ := List.mem_filter.1 hk
  obtain ⟨his, hl⟩ := Bool.and_eq_true_iff.1 hpick
  have hr : x.reqs = [] := hinsts x hx (hkx ▸ hcmds k hk his (eq_false_of_ne_true fun e => by rw [e] at hl; exact Bool.noConfusion hl))
  dsimp only
  rw [hr]
  exact State.changesOnly_streams _ hz (hp _ (by decide))

end

/-- Requeueing changes the streams, and completes the commands whose streams move nothing. -/
theorem State.requeueRuns_frame (s : State) (c : Nat) (hn : s.instsNumbered) (hc : ∀ g, s.currentRig c = some g → g.ctx = c) :
    s.changesOnly (s.requeueRuns c) [.regs, .streams, .rings, .out] := by
  unfold State.requeueRuns
  extract_lets due _ a b cmds
  have ha : s.changesOnly a [.regs, .streams, .rings, .out] := State.changesOnly_streams _ (s.changesOnly_refl _) rfl
  have hb : s.changesOnly b [.regs, .streams, .rings, .out] := by
    unfold b
    split
    · rename_i g _ hg
      have hg : g.ctx = c := hc g hg
      refine State.changesOnly_launchCmds (n := s.streams.nextId) (State.changesOnly_queueRun _ _ _ _ _ _ _ ha rfl) (State.freshFrom_queueRun ?_ ..) (by decide)
      refine ⟨Nat.le_refl _, fun k hk his hl => ?_, fun x hx hle => absurd (hn x hx) (Nat.not_lt.2 hle)⟩
      have hw := (List.mem_filter.1 hk).2
      rw [← hg, show (k.purpose == 4 && k.arg == g.ctx) = true from his, hl] at hw
      exact Bool.noConfusion hw
    · exact ha
  refine State.changesOnly_foldl hb fun z k hz => ?_
  extract_lets ids _ v
  have hv : s.changesOnly v [.regs, .streams, .rings, .out] := State.changesOnly_streams _ hz rfl
  split
  · exact State.changesOnly_queueRun _ _ _ _ _ _ _ hv rfl
  · exact hv

section
variable {s t : State} {ps : List Part}

theorem State.changesOnly_modRig (key : Nat) (f : RigSt → RigSt) (h : s.changesOnly t ps) (hr : ps.contains .rigs = true) :
    s.changesOnly (t.modRig key f) ps := State.changesOnly_setRig _ _ h hr

theorem State.changesOnly_modSegs (which : Segment → Bool) (f : Segment → Segment) (h : s.changesOnly t ps) (hf : ps.contains .fab = true) :
    s.changesOnly (t.modSegs which f) ps := State.changesOnly_fab _ h hf

theorem State.changesOnly_bindPlane (key u p : Nat) (h : s.changesOnly t ps)
    (hp : ∀ p ∈ ([.outPorts, .fab, .rigs] : List Part), ps.contains p = true) : s.changesOnly (t.bindPlane key u p) ps := by
  refine State.changesOnly_modRig _ _ (State.changesOnly_foldl (State.changesOnly_foldl h fun z c hz => ?_) fun z c hz => ?_) (hp _ (by decide))
  · exact State.changesOnly_ite hz (State.changesOnly_setOutPort _ _ _ _ hz (hp _ (by decide)))
  · exact State.changesOnly_modSegs _ _ hz (hp _ (by decide))

theorem State.changesOnly_reassign (u c : Nat) (h : s.changesOnly t ps) (hp : ∀ p ∈ ([.regs, .ctxs] : List Part), ps.contains p = true) :
    s.changesOnly (t.reassign u c) ps :=
  State.changesOnly_ite h (State.changesOnly_regPut _ _ (State.changesOnly_regPut _ _ (State.changesOnly_regPut _ _
    (State.changesOnly_setCtx _ _ h (hp _ (by decide))) (hp _ (by decide))) (hp _ (by decide))) (hp _ (by decide)))

theorem State.changesOnly_activate (key : Nat) (k : Placed) (h : s.changesOnly t ps)
    (hp : ∀ p ∈ ([.regs, .ctxs, .planes, .outPorts, .fab, .rigs] : List Part), ps.contains p = true) : s.changesOnly (t.activate key k) ps := by
  have ha := State.changesOnly_reassign k.uid (t.rig key).ctx h (Part.sub hp)
  exact State.changesOnly_ite (State.changesOnly_setPlane _ _ _ ha (hp _ (by decide)))
    (State.changesOnly_bindPlane _ _ _ (State.changesOnly_setPlane _ _ _ ha (hp _ (by decide))) (Part.sub hp))

theorem State.changesOnly_installRings (r : RigSt) (u : Nat) (old : List Nat) (h : s.changesOnly t ps) (hs : ps.contains .streams = true) :
    s.changesOnly (t.installRings r u old) ps := State.changesOnly_streams _ h hs

end

section
variable {s t : State} {ps : List Part}

theorem State.changesOnly_installFolds (u : Nat) (h : s.changesOnly t ps) (hr : ps.contains .regs = true) (hu : ps.contains .units = true) :
    s.changesOnly (t.installFolds u) ps :=
  State.changesOnly_setFolds _ _ (State.changesOnly_writeShadow _ _ _ h hr) hr hu

theorem State.changesOnly_freezeWave (w : Wave) (h : s.changesOnly t ps) (hr : ps.contains .regs = true) : s.changesOnly (t.freezeWave w) ps :=
  State.changesOnly_foldl h fun _ _ hz => State.changesOnly_regPut _ _ hz hr

theorem State.changesOnly_tellReplicas (c : Nat) (args : List Nat) (h : s.changesOnly t ps) (ho : ps.contains .out = true) :
    s.changesOnly (t.tellReplicas c args) ps :=
  State.changesOnly_ite h (State.changesOnly_ite (State.changesOnly_foldl h fun _ _ hz => State.changesOnly_ite hz (State.changesOnly_emit _ hz ho))
    (State.changesOnly_emit _ h ho))

theorem State.changesOnly_editLeaf (c va : Nat) (f : Pte → Pte) (h : s.changesOnly t ps) (ht : ps.contains .tiers = true)
    (ho : ps.contains .out = true) : s.changesOnly (t.editLeaf c va f) ps := by
  unfold State.editLeaf
  split
  · exact State.changesOnly_tellReplicas _ _ (State.changesOnly_tiers _ h ht) ho
  · exact h

theorem State.changesOnly_setUsage (c tier n : Nat) (h : s.changesOnly t ps) (hr : ps.contains .regs = true) :
    s.changesOnly (t.setUsage c tier n) ps := by
  unfold State.setUsage
  split <;> exact State.changesOnly_setF _ _ _ h hr

theorem State.changesOnly_shootdown (x : Shootdown) (h : s.changesOnly t ps) (hp : ∀ p ∈ ([.regs, .tiers, .out] : List Part), ps.contains p = true) :
    s.changesOnly (t.shootdown x) ps := by
  have hs : s.changesOnly (t.startShoot x) ps := State.changesOnly_ite
    (State.changesOnly_foldl h fun _ _ hz => State.changesOnly_ite hz (State.changesOnly_emit _ hz (hp _ (by decide)))) h
  exact State.changesOnly_setF _ _ _ (State.changesOnly_tiers _ (State.changesOnly_ite hs h) (hp _ (by decide))) (hp _ (by decide))

theorem State.changesOnly_freeWindows (c : Nat) (o : RigSt) (inc : Option RigSt) (h : s.changesOnly t ps)
    (hp : ∀ p ∈ ([.regs, .tiers, .out] : List Part), ps.contains p = true) : s.changesOnly (t.freeWindows c o inc) ps := by
  refine State.changesOnly_foldl h fun z w hz => State.changesOnly_shootdown _ (State.changesOnly_setUsage _ _ _ ?_ (hp _ (by decide))) hp
  exact State.changesOnly_foldl hz fun _ _ hy => State.changesOnly_editLeaf _ _ _ hy (hp _ (by decide)) (hp _ (by decide))

end

@[simp] theorem State.rig_modRig (s : State) (key j : Nat) (f : RigSt → RigSt) : (s.modRig key f).rig j = if j = key then f (s.rig key) else s.rig j :=
  State.rig_setRig _ _ _ _

/-- The streams and their numbers, and the context of a rig, are as they were. -/
def State.keepsRun (s t : State) (key : Nat) : Prop :=
  t.streams.insts = s.streams.insts ∧ t.streams.nextId = s.streams.nextId ∧ (t.rig key).ctx = (s.rig key).ctx

theorem State.keepsRun_of_frame {s t u : State} {key : Nat} {ps : List Part} (h : s.keepsRun t key) (hf : t.changesOnly u ps)
    (hs : ps.contains .streams = false) (hr : (u.rig key).ctx = (t.rig key).ctx) : s.keepsRun u key := by
  have e : u.streams = t.streams := hf .streams hs
  exact ⟨e ▸ h.1, e ▸ h.2.1, hr.trans h.2.2⟩

theorem State.bindPlane_rig_ctx (s : State) (key u p j : Nat) : ((s.bindPlane key u p).rig j).ctx = (s.rig j).ctx := by
  unfold State.bindPlane
  extract_lets r from_ fed mine a b
  have hr : ∀ i, b.rig i = s.rig i := State.rig_congr _ _ (State.changesOnly_foldl (ps := [.outPorts, .fab])
    (State.changesOnly_foldl (s.changesOnly_refl _) fun z c hz => State.changesOnly_ite hz (State.changesOnly_setOutPort _ _ _ _ hz rfl))
    (fun z c hz => State.changesOnly_modSegs _ _ hz rfl) .rigs rfl)
  rw [State.rig_modRig]
  split <;> rename_i h
  · rw [h, ← hr]
  · rw [hr]

/-- Of the planes, an activation stores the one activated, valid. -/
theorem State.activate_planes (s : State) (key : Nat) (k : Placed) :
    ∃ pl : Plane, pl.valid = true ∧ (s.activate key k).planes = SMap.set {} s.planes (planeKey k.uid k.pplane) pl := by
  unfold State.activate
  extract_lets r a pl pl' z
  refine ⟨pl'.startRun (a.flag .SEQ_MODE_FORCE_STATIC (unitOff k.uid)) a.now, rfl, ?_⟩
  have ha : a.planes = s.planes := State.changesOnly_reassign k.uid r.ctx (s.changesOnly_refl [.regs, .ctxs]) (by decide) .planes rfl
  have hz : z.planes = SMap.set {} s.planes (planeKey k.uid k.pplane) (pl'.startRun (a.flag .SEQ_MODE_FORCE_STATIC (unitOff k.uid)) a.now) := by
    rw [← ha]; rfl
  split
  · exact hz
  · have hb : (z.bindPlane key k.uid k.pplane).planes = z.planes :=
      State.changesOnly_bindPlane key k.uid k.pplane (z.changesOnly_refl [.outPorts, .fab, .rigs]) (by decide) .planes rfl
    exact hb.trans hz

theorem State.activate_valid (s : State) (key : Nat) (k : Placed) (u p : Nat)
    (h : (k.uid = u ∧ k.pplane = p) ∨ (s.plane u p).valid = true) : ((s.activate key k).plane u p).valid = true := by
  obtain ⟨pl, hv, hs⟩ := s.activate_planes key k
  rw [State.plane, hs, SMap.get_set]
  split <;> rename_i hk
  · exact hv
  · exact h.resolve_left fun ⟨hu, hp⟩ => hk (by rw [hu, hp])

theorem State.activates_valid (ks : List Placed) (s : State) (key u p : Nat)
    (h : (∃ k ∈ ks, k.uid = u ∧ k.pplane = p) ∨ (s.plane u p).valid = true) :
    ((ks.foldl (fun s k => s.activate key k) s).plane u p).valid = true := by
  induction ks generalizing s with
  | nil => exact h.resolve_left fun ⟨_, hk, _⟩ => List.not_mem_nil hk
  | cons k r ih =>
    refine ih _ ?_
    rcases h with ⟨j, hj, hup⟩ | h
    · rcases List.mem_cons.1 hj with rfl | hj
      · exact .inr (s.activate_valid key j u p (.inl hup))
      · exact .inl ⟨j, hj, hup⟩
    · exact .inr (s.activate_valid key k u p (.inr h))

theorem State.keepsRun_activate {s t : State} {key : Nat} (k : Placed) (h : s.keepsRun t key) : s.keepsRun (t.activate key k) key := by
  refine State.keepsRun_of_frame h (State.changesOnly_activate key k (t.changesOnly_refl [.regs, .ctxs, .planes, .outPorts, .fab, .rigs]) (by decide)) rfl ?_
  unfold State.activate
  extract_lets r a pl pl' z
  have hz : z.rig key = t.rig key := State.rig_congr _ _ (State.changesOnly_setPlane _ _ _ (State.changesOnly_reassign k.uid r.ctx
    (t.changesOnly_refl [.regs, .ctxs, .planes]) (by decide)) rfl .rigs rfl) key
  split
  · rw [hz]
  · rw [State.bindPlane_rig_ctx, hz]

theorem State.keepsRun_installRings {s t : State} {key : Nat} (r : RigSt) (u : Nat) (old : List Nat) (h : s.keepsRun t key) :
    s.keepsRun (t.installRings r u old) key := h

theorem State.keepsRun_installFolds {s t : State} {key : Nat} (u : Nat) (h : s.keepsRun t key) : s.keepsRun (t.installFolds u) key := by
  have hf := State.changesOnly_installFolds u (t.changesOnly_refl [.regs, .units]) rfl rfl
  exact State.keepsRun_of_frame h hf rfl (congrArg RigSt.ctx (State.rig_congr _ _ (hf .rigs rfl) key))

/-- What a run that is requeued needs to know of the state: streams numbered, and the context's rig its own. -/
theorem State.requeueRuns_frame_of_keepsRun {s t : State} {key c : Nat} (h : s.keepsRun t key) (hn : s.instsNumbered) (hk : (s.rig key).ctx = c)
    (hcur : (t.ctx c).currentRig = some key) : t.changesOnly (t.requeueRuns c) [.regs, .streams, .rings, .out] := by
  obtain ⟨hi, hid, hc⟩ := h
  refine t.requeueRuns_frame c (fun x hx => ?_) fun g hg => ?_
  · rw [hid]; exact hn x (hi ▸ hx)
  · rw [State.currentRig, hcur] at hg
    rw [← Option.some.inj hg]
    exact hc.trans hk

/-! RIG_LOAD_COMPLETE of a context's first rig, and WAVE_COMPLETE. -/

/-- What bringing a rig into force changes. -/
def rigParts : List Part := [.regs, .planes, .units, .outPorts, .rigs, .ctxs, .fab, .streams]

/-- A first load brings its planes into force and its rings to their units. -/
def State.bringUp (s : State) (key : Nat) (g : RigSt) : State :=
  (g.planes.map (·.uid)).eraseDups.foldl (fun s u => (s.installFolds u).installRings g u []) (g.planes.foldl (fun s k => s.activate key k) s)

theorem State.bringUp_frame (s : State) (key : Nat) (g : RigSt) : s.changesOnly (s.bringUp key g) rigParts :=
  State.changesOnly_foldl (State.changesOnly_foldl (s.changesOnly_refl _) fun _ _ hz => State.changesOnly_activate _ _ hz (by decide))
    fun _ _ hz => State.changesOnly_installRings _ _ _ (State.changesOnly_installFolds _ hz rfl rfl) rfl

theorem State.keepsRun_bringUp (s : State) (key : Nat) (g : RigSt) : s.keepsRun (s.bringUp key g) key :=
  List.foldlRecOn (motive := fun z : State => s.keepsRun z key) _ _
    (List.foldlRecOn (motive := fun z : State => s.keepsRun z key) _ _ ⟨rfl, rfl, rfl⟩ fun _ hz k _ => State.keepsRun_activate k hz)
    fun _ hz u _ => State.keepsRun_installRings g u [] (State.keepsRun_installFolds u hz)

theorem State.bringUp_valid (s : State) (key : Nat) (g : RigSt) {k : Placed} (hk : k ∈ g.planes) :
    ((s.bringUp key g).plane k.uid k.pplane).valid = true := by
  have hp : (s.bringUp key g).planes = (g.planes.foldl (fun s k => s.activate key k) s).planes :=
    State.changesOnly_foldl (ps := [.regs, .units, .streams]) (State.changesOnly_refl _ _)
      (fun _ _ hz => State.changesOnly_installRings _ _ _ (State.changesOnly_installFolds _ hz rfl rfl) rfl) .planes rfl
  rw [State.plane_congr _ _ hp]
  exact State.activates_valid g.planes s key _ _ (.inl ⟨k, hk, rfl, rfl⟩)

/-- A load is counted on the rig's seats, and its command completes. -/
def State.loadDone (s : State) (r q : Nat) (g : RigSt) : State :=
  let s := g.seats.foldl (fun s k => s.bump .RIG_LOADS_COUNT 1 (seatOff k)) s
  match s.launched r q 0x20 with
  | some c => s.complete c 0 0 0
  | none => s

theorem State.loadDone_frame (s : State) (r q : Nat) (g : RigSt) : s.changesOnly (s.loadDone r q g) [.regs, .rings, .out] := by
  have hb := State.changesOnly_foldl (f := fun (s : State) k => s.bump .RIG_LOADS_COUNT 1 (seatOff k)) (l := g.seats)
    (s.changesOnly_refl [.regs, .rings, .out]) fun _ _ hz => State.changesOnly_bump _ _ _ hz rfl
  unfold State.loadDone
  extract_lets a
  split
  · exact State.changesOnly_complete _ _ _ _ hb (by decide)
  · exact hb

/-- The first rig of a context in force (R166). -/
def State.firstRig (s : State) (key : Nat) (g : RigSt) : State :=
  let s := (s.bringUp key g).modRig key fun r => { r with state := 3, cmd := none }
  s.setCtx g.ctx { s.ctx g.ctx with currentRig := some key }

theorem State.firstRig_frame (s : State) (key : Nat) (g : RigSt) : s.changesOnly (s.firstRig key g) rigParts :=
  State.changesOnly_setCtx _ _ (State.changesOnly_modRig _ _ (s.bringUp_frame key g) rfl) rfl

theorem State.firstRig_current (s : State) (key : Nat) (g : RigSt) : ((s.firstRig key g).ctx g.ctx).currentRig = some key := by
  rw [State.firstRig, State.ctx_setCtx, if_pos rfl]

theorem State.firstRig_rig (s : State) (key : Nat) (g : RigSt) :
    (s.firstRig key g).rig key = { (s.bringUp key g).rig key with state := 3, cmd := none } := by
  rw [State.firstRig, State.setCtx_rig, State.rig_modRig, if_pos rfl]

theorem State.keepsRun_firstRig (s : State) (key : Nat) (g : RigSt) : s.keepsRun (s.firstRig key g) key := by
  obtain ⟨hi, hid, hc⟩ := s.keepsRun_bringUp key g
  exact ⟨hi, hid, by rw [State.firstRig_rig]; exact hc⟩

/-- The load that a command or cox firmware waits for (R166, R482). -/
def State.loadOf (s : State) (r q : Nat) : Option (Nat × RigSt) :=
  s.rigs.find? fun g => g.2.cmd == some (r, q) && g.2.state == 1 && (r == firmwareRing || (s.launched r q 0x20).isSome)

theorem State.loadComplete_eq {s : State} {r q key : Nat} {g : RigSt} (hf : s.loadOf r q = some (key, g)) (hcur : (s.ctx g.ctx).currentRig = none)
    (hl : ∀ k ∈ g.planes, k.landed = true) : s.loadComplete r q = ((s.firstRig key g).requeueRuns g.ctx).loadDone r q g := by
  unfold State.loadOf at hf
  unfold State.loadComplete
  rw [hf]
  dsimp only
  rw [if_pos (by rw [hcur]; rfl), if_neg (by rw [List.all_eq_true.2 hl]; exact Bool.false_ne_true)]
  rfl

/-- RIG_LOAD_COMPLETE of a first rig, where streams are numbered and the context's rig is its own. -/
theorem rigLoadComplete_first {s : State} {r q key : Nat} {g : RigSt} (hf : s.loadOf r q = some (key, g)) (hcur : (s.ctx g.ctx).currentRig = none)
    (hl : ∀ k ∈ g.planes, k.landed = true) (hn : s.instsNumbered) (hk : (s.rig key).ctx = g.ctx) : Answers (.rigLoadComplete r q) s fun t =>
      (t.ctx g.ctx).currentRig = some key ∧ (t.rig key).state = 3 ∧ (t.rig key).cmd = none ∧ (∀ k ∈ g.planes, (t.plane k.uid k.pplane).valid = true) ∧
        s.changesOnly t [.regs, .planes, .units, .outPorts, .rigs, .ctxs, .fab, .streams, .rings, .out] := by
  have hq := State.requeueRuns_frame_of_keepsRun (s.keepsRun_firstRig key g) hn hk (s.firstRig_current key g)
  have hrest : (s.firstRig key g).changesOnly (((s.firstRig key g).requeueRuns g.ctx).loadDone r q g) [.regs, .streams, .rings, .out] :=
    hq.trans (((s.firstRig key g).requeueRuns g.ctx).loadDone_frame r q g |>.mono (by decide))
  refine answers_of (congrArg done (State.loadComplete_eq hf hcur hl)) ?_
  simp only [State.canon_ctx, State.canon_rig, State.canon_plane, State.changesOnly_canon]
  rw [State.ctx_congr _ _ (hrest .ctxs rfl), State.rig_congr _ _ (hrest .rigs rfl), State.firstRig_rig]
  refine ⟨s.firstRig_current key g, rfl, rfl, fun k hk => ?_, ((s.firstRig_frame key g).mono (by decide)).trans (hrest.mono (by decide))⟩
  rw [State.plane_congr _ _ (hrest .planes rfl)]
  exact s.bringUp_valid key g hk

/-- RIG_WAVE_STATE of a wave is frozen, the wave counted, and the outgoing rig's windows freed but those its successor shares (R177). -/
def State.freeRig (s : State) (c : Nat) (w : Wave) : State :=
  let o := s.rig w.outRig
  let inc := w.inRig.map s.rig
  ((o.seats ++ (inc.map RigSt.seats).getD []).eraseDups.foldl (fun s k => s.bump .RIG_WAVES_COUNT 1 (seatOff k)) (s.freezeWave w)).freeWindows c o inc

/-- The outgoing rig and the wave go. -/
def State.dropRig (s : State) (c : Nat) (w : Wave) : State :=
  let s := s.freeRig c w
  { s with rigs := s.rigs.drop w.outRig, waves := s.waves.filter fun v => v.ctx != c }.pruneSegs

/-- A rig whose wave is over: nothing of it is carried or shared any more. -/
def RigSt.settled (r : RigSt) : RigSt :=
  { r with state := 3, drain := false, groups := r.groups.map fun (g : SlotGroup) => { g with carried := false, written := true },
           windows := r.windows.map fun (x : Window) => { x with shared := false } }

/-- The incoming rig, where there is one, is settled. -/
def State.settleIn (s : State) (w : Wave) : State :=
  match w.inRig with
  | some k => s.modRig k RigSt.settled
  | none => s

/-- The incoming rig, where there is one, is the context's current rig. -/
def State.closeWave (s : State) (c : Nat) (w : Wave) : State :=
  let s := (s.dropRig c w).settleIn w
  s.setCtx c { s.ctx c with currentRig := w.inRig, incomingRig := none }

/-- The wave's command completes with the wave's number. -/
def State.waveDone (s : State) (w : Wave) : State :=
  match w.cmd with
  | some (r, q) => match s.launched r q 0x21 with
    | some k => s.complete k 0 w.seq 0
    | none => s
  | none => s

theorem State.waveComplete_eq {s : State} {c : Nat} {w : Wave} (hw : (s.waves.find? fun w => w.ctx == c) = some w) (hp : w.pending = [])
    (hr : w.releasing = []) : s.waveComplete c true = ((s.closeWave c w).requeueRuns c).waveDone w := by
  unfold State.waveComplete
  rw [hw]
  dsimp only
  rw [if_neg (by rw [hp, hr]; decide)]
  rfl

theorem State.waveDone_frame (s : State) (w : Wave) : s.changesOnly (s.waveDone w) [.regs, .rings, .out] := by
  unfold State.waveDone
  split
  · split
    · exact State.changesOnly_complete _ _ _ _ (s.changesOnly_refl _) (by decide)
    · exact s.changesOnly_refl _
  · exact s.changesOnly_refl _

/-- What a wave's end changes of the rest of the module. -/
def closeParts : List Part := [.regs, .rigs, .waves, .ctxs, .tiers, .fab, .out]

theorem State.settleIn_frame (s : State) (w : Wave) : s.changesOnly (s.settleIn w) [.rigs] := by
  unfold State.settleIn
  split
  · exact State.changesOnly_modRig _ _ (s.changesOnly_refl _) rfl
  · exact s.changesOnly_refl _

section
variable (s : State) (c : Nat) (w : Wave)

theorem State.freeRig_frame : s.changesOnly (s.freeRig c w) [.regs, .tiers, .out] :=
  State.changesOnly_freeWindows _ _ _ (State.changesOnly_foldl (State.changesOnly_freezeWave w (s.changesOnly_refl _) rfl)
    fun _ _ hz => State.changesOnly_bump _ _ _ hz rfl) (by decide)

theorem State.dropRig_frame : s.changesOnly (s.dropRig c w) [.regs, .rigs, .waves, .tiers, .fab, .out] := by
  have hr := State.changesOnly_rigs ((s.freeRig c w).rigs.drop w.outRig)
    ((s.freeRig_frame c w).mono (qs := [.regs, .rigs, .waves, .tiers, .fab, .out]) (by decide)) rfl
  have hw := State.changesOnly_waves ((s.freeRig c w).waves.filter fun v => v.ctx != c) hr rfl
  exact State.changesOnly_fab _ hw rfl

theorem State.closeWave_frame : s.changesOnly (s.closeWave c w) closeParts :=
  State.changesOnly_setCtx _ _ (((s.dropRig_frame c w).mono (by decide)).trans (((s.dropRig c w).settleIn_frame w).mono (by decide))) rfl

theorem State.dropRig_rigs : (s.dropRig c w).rigs = s.rigs.drop w.outRig :=
  congrArg (SMap.drop · w.outRig) (s.freeRig_frame c w .rigs rfl)

theorem State.closeWave_waves : (s.closeWave c w).waves = s.waves.filter fun v => v.ctx != c :=
  Eq.trans ((s.dropRig c w).settleIn_frame w .waves rfl) (congrArg (List.filter fun v : Wave => v.ctx != c) (s.freeRig_frame c w .waves rfl))

theorem State.closeWave_ctx : (s.closeWave c w).ctx c = { s.ctx c with currentRig := w.inRig, incomingRig := none } := by
  have hs : ((s.dropRig c w).settleIn w).ctxs = s.ctxs :=
    Eq.trans ((s.dropRig c w).settleIn_frame w .ctxs rfl) (s.dropRig_frame c w .ctxs rfl)
  rw [State.closeWave, State.ctx_setCtx, if_pos rfl, State.ctx_congr _ _ hs]

variable (hne : w.inRig ≠ some w.outRig)
include hne

theorem State.closeWave_out : (s.closeWave c w).rig w.outRig = {} := by
  have hd : (s.dropRig c w).rig w.outRig = {} := by rw [State.rig, s.dropRig_rigs c w]; exact SMap.get_drop_same _ _ _
  rw [State.closeWave, State.setCtx_rig, State.settleIn]
  split <;> rename_i h
  · rw [State.rig_modRig, if_neg fun e => hne (by rw [h, e])]; exact hd
  · exact hd

theorem State.closeWave_in {k : Nat} (hk : w.inRig = some k) : (s.closeWave c w).rig k = (s.rig k).settled := by
  have hd : (s.dropRig c w).rig k = s.rig k := by
    rw [State.rig, s.dropRig_rigs c w]
    exact SMap.get_drop_other _ _ _ _ fun e => hne (by rw [hk, e])
  rw [State.closeWave, State.setCtx_rig, State.settleIn, hk]
  dsimp only
  rw [State.rig_modRig, if_pos rfl, hd]

end

/-- WAVE_COMPLETE, where streams are numbered and the incoming rig is the context's own. -/
theorem waveComplete_closes {s : State} {c : Nat} {w : Wave} (hw : (s.waves.find? fun w => w.ctx == c) = some w) (hp : w.pending = [])
    (hr : w.releasing = []) (hne : w.inRig ≠ some w.outRig) (hn : s.instsNumbered) (hin : ∀ k, w.inRig = some k → (s.rig k).ctx = c) :
    Answers (.waveComplete c true) s fun t =>
      (t.ctx c).currentRig = w.inRig ∧ (t.ctx c).incomingRig = none ∧ (∀ v ∈ t.waves, v.ctx ≠ c) ∧ t.rig w.outRig = {} ∧
        (∀ k, w.inRig = some k → (t.rig k).state = 3 ∧ (t.rig k).drain = false) ∧
        s.changesOnly t [.regs, .rigs, .waves, .ctxs, .tiers, .fab, .streams, .rings, .out] := by
  have hs : (s.closeWave c w).streams = s.streams := s.closeWave_frame c w .streams rfl
  have hq : (s.closeWave c w).changesOnly ((s.closeWave c w).requeueRuns c) [.regs, .streams, .rings, .out] := by
    refine State.requeueRuns_frame _ c (by rw [State.instsNumbered, hs]; exact hn) fun g hg => ?_
    rw [State.currentRig, s.closeWave_ctx c w] at hg
    obtain ⟨k, hk, rfl⟩ := Option.map_eq_some_iff.1 hg
    rw [s.closeWave_in c w hne hk]
    exact hin k hk
  have hrest := hq.trans ((((s.closeWave c w).requeueRuns c).waveDone_frame w).mono (by decide))
  refine answers_of (congrArg done (State.waveComplete_eq hw hp hr)) ?_
  simp only [State.canon_ctx, State.canon_rig, State.canon_waves, State.changesOnly_canon]
  have hrig := State.rig_congr _ _ (hrest .rigs rfl)
  rw [State.ctx_congr _ _ (hrest .ctxs rfl), s.closeWave_ctx c w, show _ = _ from hrest .waves rfl, s.closeWave_waves c w, hrig, s.closeWave_out c w hne]
  refine ⟨rfl, rfl, fun v hv => bne_iff_ne.1 (List.mem_filter.1 hv).2, rfl, fun k hk => ?_, ((s.closeWave_frame c w).mono (by decide)).trans (hrest.mono (by decide))⟩
  rw [hrig, s.closeWave_in c w hne hk]
  exact ⟨rfl, rfl⟩

/-! The counterexamples: a load and a wave about to complete, beside a copy whose line is staged. -/

/-- A step's run, command 0, waits for context 0's rig; the next command is to have number 1. The copy is filed under `cmd`. -/
def stagedStreams (cmd : Nat) : StreamSt :=
  { cmds := [{ id := 0, seat := 0, ctx := 0, job := 0, launched := false, cmd := none, purpose := 4, arg := 0 }], nextId := 1,
    insts := [{ id := 9, seat := 0, slot := 0, desc := { phys := true }, ctx := 0, job := 0, step := 0, record := 65535, cmd := cmd,
                reqs := [{ elem := 0, first := 0, lines := 1, issued := 0, landed := true, data := [(1, false)] }] }] }

/-- Plane 0 of unit 0, its record landed. -/
def landedPlane : Placed := { uid := 0, lplane := 0, pplane := 0, cfg := 0, tsBase := 0, landed := true }

/-- Rig 1 of context 0, its plane landed, waits for the RIG_LOAD of ring 2 to complete. -/
def stagedLoad (cmd : Nat) : State :=
  { rings := [(2, { outstanding := [{ ring := 2, seq := 5, opcode := 0x20 }] })]
    rigs := [(1, { state := 1, cmd := some (2, 5), planes := [landedPlane] })]
    streams := stagedStreams cmd }

/-- The wave from rig 1 to rig 2 of context 0 has only to complete. -/
def stagedWave (cmd : Nat) : State :=
  { rigs := [(1, { state := 5, planes := [landedPlane] }), (2, { state := 4, planes := [landedPlane] })]
    ctxs := [(0, { valid := true, currentRig := some 1, incomingRig := some 2 })]
    waves := [{ ctx := 0, outRig := 1, inRig := some 2, seq := 1, launched := 0, pending := [], releasing := [], cmd := none }]
    streams := stagedStreams cmd }

theorem stagedLoad_loadOf (cmd : Nat) : (stagedLoad cmd).loadOf 2 5 = some (1, { state := 1, cmd := some (2, 5), planes := [landedPlane] }) := rfl

theorem stagedStreams_numbered {s : State} (h : s.streams = stagedStreams 0) : s.instsNumbered := by
  rw [State.instsNumbered, h]
  decide

/-- A copy of the command that waits stays staged when the load completes, and when the wave does. -/
theorem staged_of_queued_keeps : Answers (.rigLoadComplete 2 5) (stagedLoad 0) (fun t => t.byteAt 0 = 0) ∧
    Answers (.waveComplete 0 true) (stagedWave 0) (fun t => t.byteAt 0 = 0) := by
  constructor
  · refine (rigLoadComplete_first (stagedLoad_loadOf 0) rfl (by decide) (stagedStreams_numbered rfl) rfl).imp fun t ht => ?_
    obtain ⟨-, -, -, -, frame⟩ := ht
    exact (frame .mem rfl 0).1
  · refine (waveComplete_closes (s := stagedWave 0) (c := 0) rfl rfl rfl (by decide) (stagedStreams_numbered rfl) ?_).imp fun t ht => ?_
    · rintro k hk
      obtain rfl := Option.some.inj hk
      rfl
    · obtain ⟨-, -, -, -, -, frame⟩ := ht
      exact (frame .mem rfl 0).1

/-- One of a command yet to be queued is written. -/
theorem staged_of_next_lands : ((stagedLoad 1).loadComplete 2 5).byteAt 0 = 1 ∧ ((stagedWave 1).waveComplete 0 true).byteAt 0 = 1 := by decide +kernel

/-- What a command answers, where its meaning is known. -/
theorem Answers.of_done {i : Instr} {s x : State} {P : State → Prop} (h : Answers i s P) (hi : exec i s = done x) : P x.canon := by
  obtain ⟨t, ht, hp⟩ := h
  exact Host.Outcome.next.inj (hi.symm.trans ht) ▸ hp

/-- A frame that does not list memory fails where a byte changes. -/
theorem State.not_changesOnly_of_byteAt {s x : State} {ps : List Part} (a : Nat) (hp : ps.contains .mem = false) (hb : x.byteAt a ≠ s.byteAt a) :
    ¬ s.changesOnly x.canon ps :=
  fun h => hb ((x.canon_byteAt a).symm.trans (h .mem hp a).1)

/-- Refutes O28 by the frame of a first load: in `stagedLoad 1` RIG_LOAD_COMPLETE writes memory. Where streams are of commands queued and the rig is the
context's own, that clause holds whole (`rigLoadComplete_first`). -/
theorem not_rigLoads : ¬ Obligations.RigLoads := by
  rintro ⟨-, -, completes, -⟩
  obtain ⟨-, first, -⟩ := completes (stagedLoad 1) 2 5 1 _ (stagedLoad_loadOf 1)
  obtain ⟨-, -, -, -, frame⟩ := (first rfl (by decide)).of_done rfl
  exact State.not_changesOnly_of_byteAt 0 rfl (by rw [staged_of_next_lands.1]; decide) frame

/-- Refutes O29 by the frame of the wave's end: in `stagedWave 1` WAVE_COMPLETE writes memory. Where streams are of commands queued and the incoming rig is
the context's own, that clause holds whole (`waveComplete_closes`). -/
theorem not_rigWaves : ¬ Obligations.RigWaves := by
  rintro ⟨-, -, -, ends⟩
  obtain ⟨-, completes, -⟩ := ends (stagedWave 1) 0 _ rfl
  obtain ⟨-, -, -, -, -, frame⟩ := (completes rfl rfl (by decide)).of_done rfl
  exact State.not_changesOnly_of_byteAt 0 rfl (by rw [staged_of_next_lands.2]; decide) frame

end Sys2Proof.Machine
